-- ==== Sys2Proof/Records.lean ====
section
/-! DEFINITION. Operand records of the commands: the instruction formats of R125 to R127, and the records a job image
or a load request carries (R83, R84, R202, R252, R256, R447). -/

namespace Sys2Proof

/-- The fields every instruction class shares (R125, R126): signal and four wait entries. -/
structure Hdr where
  sigEn : Bool
  sigEv : BitVec 7
  w0 : BitVec 16
  w1 : BitVec 16
  w2 : BitVec 16
  w3 : BitVec 16
  deriving DecidableEq, Repr

/-- Format A (R127). -/
structure FmtA where
  rd : BitVec 5
  ra : BitVec 5
  rb : BitVec 5
  i : BitVec 1
  imm : BitVec 32
  deriving DecidableEq, Repr

/-- Format D (R127). -/
structure FmtD where
  x : BitVec 6
  y : BitVec 6
  ra : BitVec 5
  field : BitVec 5
  imm : BitVec 26
  deriving DecidableEq, Repr

/-- Format T (R127, R140). -/
structure FmtT where
  dd : BitVec 6
  da : BitVec 6
  db : BitVec 6
  dc : BitVec 6
  sd : BitVec 4
  sa : BitVec 4
  sb : BitVec 4
  rmode : BitVec 3
  sat : BitVec 1
  fn : BitVec 8
  deriving DecidableEq, Repr

/-- Format M (R127). -/
structure FmtM where
  dd : BitVec 6
  ds : BitVec 6
  dvf : BitVec 3
  svf : BitVec 3
  cls : BitVec 2
  rsv : BitVec 28
  deriving DecidableEq, Repr

/-- Format Q (R127). -/
structure FmtQ where
  ev : BitVec 7
  sem : BitVec 8
  vf : BitVec 3
  tmask : BitVec 4
  src : BitVec 9
  rsv : BitVec 1
  n : BitVec 16
  deriving DecidableEq, Repr

/-- Format C (R127). -/
structure FmtC where
  ra : BitVec 5
  rb : BitVec 5
  rsv : BitVec 6
  off : BitVec 32
  deriving DecidableEq, Repr

/-- One set of key-value pools that the image declares as service-managed (R186, R191 to R194): the page table's BUF_ID,
first byte and row stride, the sequence slots, the pages of a full table row, the pages of the pools, whether they are
shareable, and the BUF_IDs of the pools. -/
structure PoolRec where
  table : Nat
  off : Nat
  stride : Nat
  slots : Nat
  perSeq : Nat
  pages : Nat
  shareable : Bool
  pools : List Nat
  deriving DecidableEq, Repr

/-- What a job image declares. -/
structure JobImage where
  /-- the whole image, over which its digest is taken (R88) -/
  bytes : List Byte
  /-- buffer records (R83) -/
  bufs : List (BitVec 128)
  /-- vFace records (R84) -/
  vfs : List (BitVec 8)
  /-- state records (R202) -/
  live : List (BitVec 32)
  /-- per vFace: BUF_ID of its ring and its K (R252) -/
  rings : List (Nat × Nat)
  /-- declared command bound (R256) -/
  bound : Nat
  /-- instructions of the code section -/
  codeLen : Nat
  /-- publication slot pairs: BUF_ID, offsets of the two status words (R447) -/
  pubs : List (Nat × Nat × Nat)
  /-- the image declares instructions of R283 (R284) -/
  ndet : Bool
  /-- devices of the job; 1 for a single-chip job -/
  devices : Nat
  /-- service-managed pools -/
  pools : List PoolRec
  /-- stripe sets marked exchange-capable: number, and vFaces in stripe order (R238) -/
  stripes : List (Nat × List Nat)
  /-- the golden job (R441) -/
  golden : Bool
  deriving DecidableEq, Repr

/-- What the load request and Ulnal's allocation give besides the image. -/
structure LoadPlan where
  part : Nat
  prio : Nat
  codeBase : Nat
  device : Nat
  /-- Face bound to each vFace -/
  faces : List Nat
  /-- backing space of each buffer record, PLACE_BBACK layout -/
  backs : List (BitVec 64)
  /-- binding of each buffer record, PLACE_BBIND layout -/
  binds : List (BitVec 64)
  /-- buffer table entry of each buffer record -/
  entries : List Nat
  /-- save area of each vFace with live banks, in HBM (R205) -/
  saves : List Nat
  seed : BitVec 128
  jstep : BitVec 64
  logBase : BitVec 64
  logEn : Bool
  /-- Faces above the soft thermal limit when Ulnal made the plan (R92) -/
  hot : BitVec 6 := 0
  deriving DecidableEq, Repr

/-- A frame of an Eflet link (R414). -/
structure EflFrame where
  typ : Nat
  src : Nat
  dst : Nat
  seq : BitVec 16
  win : Nat
  gen : Nat
  tag : Nat
  status : Nat
  offset : Nat
  last : Bool
  plen : Nat
  data : List Byte
  deriving DecidableEq, Repr

/-- What arrives on an Eflet port: a frame that fails its CRC, the two link controls, or a frame (R415). -/
inductive EflIn
  | bad
  | ack (seq : BitVec 16)
  | nak (seq : BitVec 16)
  | frame (x : EflFrame)
  deriving DecidableEq, Repr

/-- What a scrub zeroes: the regions of an ended job (R99), or an HBM region not zeroed since the stack was without
power (R475). -/
inductive ScrubOf
  | job (j : BitVec 4)
  | region (a n : Nat)
  deriving DecidableEq, Repr

/-- A queued item that a launch time releases (R360): an Ethernet queue's head, a CAN transmit buffer, a T1S queue's
head. -/
inductive LaunchItem
  | eth (n : BitVec 2) (q : BitVec 3)
  | can (c : BitVec 2) (b : Fin 3)
  | t1s (n : Fin 2)
  deriving DecidableEq, Repr

/-- A lifecycle record (R465), and whose valid signature stands under it: 0 nobody's, 1 the owner's, 2 the Olnor root's. The
lock list at its LOCKS offset stands beside it, as register keys and values. -/
structure LifeRec where
  bytes : List Byte
  signer : Nat
  locks : List (Nat × Nat)
  deriving DecidableEq, Repr

/-- A firmware image as a verifier finds it in the flash (R461, R507). -/
structure ImageHdr where
  svn : BitVec 32
  advance : Bool
  digest : BitVec 512
  /-- the root key in flash has the digest held in ROM -/
  rootOk : Bool
  /-- the Olnor signature, the owner signature, the digests of the body (of STAGE0 for Ulnal), and the header's layout hold -/
  olnorOk : Bool
  ownerOk : Bool
  bodyOk : Bool
  stage0 : List Byte
  deriving DecidableEq, Repr

/-- How a boot stage ends (R508). -/
inductive BootRes
  /-- ROM: the port is enabled. HOME: Home firmware goes on to verify Ulnal. -/
  | next
  /-- PUF: was K_PUF reconstructed? -/
  | puf (ok : Bool)
  /-- FLASH: is the directory usable in 8D mode, are the counters usable? -/
  | flash (usable counters : Bool)
  /-- RECORD: a record is chosen from the flash -/
  | record
  /-- HOME_VERIFY or ULNAL_VERIFY: the images found in slots A and B -/
  | images (a b : Option ImageHdr)
  deriving DecidableEq, Repr

/-- An operation of the Keccak engine (R459, R460). -/
inductive KeccakOp
  /-- `n` bytes of SHAKE256 of a message -/
  | hash (n : Nat) (msg : List Byte)
  /-- an IK signature -/
  | sign (msg : List Byte)
  /-- `n` bytes of KMAC256 with SEALK of an owner index -/
  | seal (owner : BitVec 32) (n : Nat) (msg : List Byte)
  /-- `n` bytes of KMAC256 with RK -/
  | rpmc (n : Nat) (msg : List Byte)
  /-- the IK public key -/
  | publicKey
  deriving DecidableEq, Repr

/-- Who accesses a register or a memory: a control core, a Home pair, a debug session. -/
inductive Agent
  | core (n : Fin 8)
  | home (p : Fin 2)
  | debug
  deriving DecidableEq, Repr

/-- What is accessed: an address of the device map (R68) or of the Home map (R533); for debug alone (R468, R477) a register of a Face
(file 0 g, 1 d, 2 s, 3 event counters) and a byte of a state bank. -/
inductive Place
  | dev (a : BitVec 48)
  | home (a : BitVec 32)
  | file (f : Fin 6) (k : Fin 4) (i : BitVec 7)
  | bank (f : Fin 6) (b : BitVec 4) (off : BitVec 16)
  deriving DecidableEq, Repr

/-- The access: a write or a read of a register, or of bytes of memory. -/
inductive AccOp
  | write (v : BitVec 64)
  | read
  | store (bs : List Byte)
  | load (n : Nat)
  deriving DecidableEq, Repr

/-- A request at an arbitration point: its class and how long it has waited, in µs (R276). -/
structure ArbWait where
  cls : BitVec 2
  us : Nat
  deriving DecidableEq, Repr

/-- The raw counts at which Ulnal stamped a frame's start and end packets (R371). -/
structure CsiTimes where
  fs : BitVec 64
  fe : BitVec 64
  deriving DecidableEq, Repr

/-- How a transmit frame was sent: with an error or not, and the raw count at which its SFD crossed (R358, R377). -/
structure EthSent where
  err : Bool
  sfd : BitVec 64
  deriving DecidableEq, Repr

/-- How an attempt of a CAN frame ended: 0 success, 1 arbitration lost, 2 an error with its LEC (R387, R389). -/
structure CanAttempt where
  res : BitVec 2
  lec : BitVec 3
  deriving DecidableEq, Repr

/-- A received CAN frame: KEY, FMT, AF and the payload as the bus gives them (R386). -/
structure CanFrame where
  key : BitVec 32
  fmt : BitVec 8
  af : BitVec 32
  bs : List (BitVec 8)
  deriving DecidableEq, Repr

end Sys2Proof
end

