-- ==== Sys2Proof/Syntax.lean ====
section
/-! DEFINITION. The commands: one constructor for each row of the table of commands. The first 77 are the
instructions of a Face (R173), each presented with the Face it is issued on. -/

namespace Sys2Proof

/-- The commands of the block. -/
inductive Instr
  /-- ADD (R129). Scalar 64-bit sum modulo 2^64 into RD. -/
  | add (f : Fin 6) (h : Hdr) (o : FmtA)
  /-- SUB (R129). Scalar 64-bit difference modulo 2^64 into RD. -/
  | sub (f : Fin 6) (h : Hdr) (o : FmtA)
  /-- AND (R129). Bitwise AND of two scalar operands. -/
  | and (f : Fin 6) (h : Hdr) (o : FmtA)
  /-- OR (R129). Bitwise OR of two scalar operands. -/
  | or (f : Fin 6) (h : Hdr) (o : FmtA)
  /-- XOR (R129). Bitwise XOR of two scalar operands. -/
  | xor (f : Fin 6) (h : Hdr) (o : FmtA)
  /-- SLL (R129). Logical left shift by bits [5:0] of the second operand. -/
  | sll (f : Fin 6) (h : Hdr) (o : FmtA)
  /-- SRL (R129). Logical right shift by bits [5:0] of the second operand. -/
  | srl (f : Fin 6) (h : Hdr) (o : FmtA)
  /-- SRA (R129). Arithmetic right shift that fills with the sign. -/
  | sra (f : Fin 6) (h : Hdr) (o : FmtA)
  /-- MUL (R129). Low 64 bits of the product in 3 steps. -/
  | mul (f : Fin 6) (h : Hdr) (o : FmtA)
  /-- MULHU (R129). High 64 bits of the unsigned 128-bit product. -/
  | mulhu (f : Fin 6) (h : Hdr) (o : FmtA)
  /-- MIN (R129). Signed minimum of two scalar operands. -/
  | min (f : Fin 6) (h : Hdr) (o : FmtA)
  /-- MAX (R129). Signed maximum of two scalar operands. -/
  | max (f : Fin 6) (h : Hdr) (o : FmtA)
  /-- SLT (R129). Sets RD to 1 if RA is less than the operand, signed. -/
  | slt (f : Fin 6) (h : Hdr) (o : FmtA)
  /-- SLTU (R129). Sets RD to 1 if RA is less than the operand, unsigned. -/
  | sltu (f : Fin 6) (h : Hdr) (o : FmtA)
  /-- DIVU (R129). Unsigned quotient in 34 steps; a divisor of 0 gives 2^64 - 1. -/
  | divu (f : Fin 6) (h : Hdr) (o : FmtA)
  /-- LI (R129). Loads a sign-extended immediate into RD. -/
  | li (f : Fin 6) (h : Hdr) (o : FmtA)
  /-- LIH (R129). Loads the immediate into RD[63:32] and keeps RD[31:0]. -/
  | lih (f : Fin 6) (h : Hdr) (o : FmtA)
  /-- RDST (R109). Reads a front-end value (VFACE, NVFACE, CMDNO, JSTEP, STREAM) into RD. -/
  | rdst (f : Fin 6) (h : Hdr) (o : FmtA)
  /-- WRST (R109). Writes the STREAM front-end value; read-only selectors raise ILL_OPERAND. -/
  | wrst (f : Fin 6) (h : Hdr) (o : FmtA)
  /-- LDG (R130). Loads 8 bytes from a descriptor's buffer into a g register, holding the issue point. -/
  | ldg (f : Fin 6) (h : Hdr) (o : FmtD)
  /-- STG (R130). Stores a g register as 8 bytes into a descriptor's buffer. -/
  | stg (f : Fin 6) (h : Hdr) (o : FmtD)
  /-- LDD (R130). Loads 32 bytes into a tensor descriptor register. -/
  | ldd (f : Fin 6) (h : Hdr) (o : FmtD)
  /-- DSETF (R130). Sets one field of a descriptor from a g register. -/
  | dsetf (f : Fin 6) (h : Hdr) (o : FmtD)
  /-- DADD (R130). Adds a g register to OFFSET or an extent field of a descriptor. -/
  | dadd (f : Fin 6) (h : Hdr) (o : FmtD)
  /-- DCPY (R130). Copies one descriptor register into another. -/
  | dcpy (f : Fin 6) (h : Hdr) (o : FmtD)
  /-- LDS (R130). Loads 16 bytes into a scale register. -/
  | lds (f : Fin 6) (h : Hdr) (o : FmtD)
  /-- SSETF (R130). Sets one field of a scale register from a g register. -/
  | ssetf (f : Fin 6) (h : Hdr) (o : FmtD)
  /-- MM (R151). Matrix multiply into an accumulator in the fixed group order. -/
  | mm (f : Fin 6) (h : Hdr) (o : FmtT)
  /-- PTB (R154). Builds codebook product tables into a store tensor. -/
  | ptb (f : Fin 6) (h : Hdr) (o : FmtT)
  /-- PTL (R155). Accumulates through a PTB-built product table. -/
  | ptl (f : Fin 6) (h : Hdr) (o : FmtT)
  /-- ACCOUT (R156). Reads out an accumulator with scale, bias, activation and narrowing, counting flagged elements. -/
  | accout (f : Fin 6) (h : Hdr) (o : FmtT)
  /-- ACCIN (R157). Loads a tensor into an accumulator and sets its type. -/
  | accin (f : Fin 6) (h : Hdr) (o : FmtT)
  /-- ACCZ (R157). Clears an accumulator and sets its type from FN[0]. -/
  | accz (f : Fin 6) (h : Hdr) (o : FmtT)
  /-- VEW (R159). Applies an elementwise vector operation. -/
  | vew (f : Fin 6) (h : Hdr) (o : FmtT)
  /-- VTR (R160). Applies a correctly rounded transcendental function elementwise. -/
  | vtr (f : Fin 6) (h : Hdr) (o : FmtT)
  /-- VRED (R161). Reduces each row along dimension 0 in the fixed order. -/
  | vred (f : Fin 6) (h : Hdr) (o : FmtT)
  /-- VNORM (R162). Applies RMS or layer normalisation per row. -/
  | vnorm (f : Fin 6) (h : Hdr) (o : FmtT)
  /-- VSMX (R163). Computes the row softmax. -/
  | vsmx (f : Fin 6) (h : Hdr) (o : FmtT)
  /-- QNT (R164). Converts, quantises, dequantises or rescales a tensor. -/
  | qnt (f : Fin 6) (h : Hdr) (o : FmtT)
  /-- VRND (R165). Fills a tensor from the roll generator. -/
  | vrnd (f : Fin 6) (h : Hdr) (o : FmtT)
  /-- TRP (R166). Swaps dimensions 0 and 1 of a tensor. -/
  | trp (f : Fin 6) (h : Hdr) (o : FmtT)
  /-- GATH (R167). Gathers rows by an index vector. -/
  | gath (f : Fin 6) (h : Hdr) (o : FmtT)
  /-- SCAT (R167). Scatters rows by an index vector, with the highest j winning. -/
  | scat (f : Fin 6) (h : Hdr) (o : FmtT)
  /-- GFA (R168). Gathers rows in order of arrival and records their source positions. -/
  | gfa (f : Fin 6) (h : Hdr) (o : FmtT)
  /-- RACC (R169). Adds into an FP32 Board tensor through the reduction engine in arrival order. -/
  | racc (f : Fin 6) (h : Hdr) (o : FmtT)
  /-- SEXP (R170). Exports state banks as an image. -/
  | sexp (f : Fin 6) (h : Hdr) (o : FmtT)
  /-- SIMP (R225). Checks an image and imports it into state banks, writing a status word. -/
  | simp (f : Fin 6) (h : Hdr) (o : FmtT)
  /-- DGARM (R171). Latches a descriptor in a digest slot and starts a fresh digest. -/
  | dgarm (f : Fin 6) (h : Hdr) (o : FmtT)
  /-- DGOUT (R171). Writes a digest record and a log entry, and disarms the slot. -/
  | dgout (f : Fin 6) (h : Hdr) (o : FmtT)
  /-- DGRD (R171). Digests a tensor by reading it. -/
  | dgrd (f : Fin 6) (h : Hdr) (o : FmtT)
  /-- CONV (R232). Computes a convolution from its geometry record. -/
  | conv (f : Fin 6) (h : Hdr) (o : FmtT)
  /-- ATTN (R179). Computes multi-head attention with row status and statistics. -/
  | attn (f : Fin 6) (h : Hdr) (o : FmtT)
  /-- ATTNB (R197). Computes attention gradients from the saved statistics. -/
  | attnb (f : Fin 6) (h : Hdr) (o : FmtT)
  /-- KVPUT (R190). Writes new key or value rows into a cache and counts the drops. -/
  | kvput (f : Fin 6) (h : Hdr) (o : FmtT)
  /-- RSTEP (R210). Advances every recurrent stream by one token. -/
  | rstep (f : Fin 6) (h : Hdr) (o : FmtT)
  /-- RCHUNK (R212). Advances every recurrent stream by a chunk, by scan or in order. -/
  | rchunk (f : Fin 6) (h : Hdr) (o : FmtT)
  /-- MOV (R131). Copies a tensor element for element, including remote puts and gets. -/
  | mov (f : Fin 6) (h : Hdr) (o : FmtM)
  /-- MOVZ (R131). Writes zero codes to every element of a tensor. -/
  | movz (f : Fin 6) (h : Hdr) (o : FmtM)
  /-- WAIT (R133). Does nothing except through its wait set and signal. -/
  | waitEv (f : Fin 6) (h : Hdr) (o : FmtQ)
  /-- EVADD (R133). Adds N to a counter of the issuing command. -/
  | evadd (f : Fin 6) (h : Hdr) (o : FmtQ)
  /-- EVSEND (R119). Adds N to a routed counter of a vFace of the job. -/
  | evsend (f : Fin 6) (h : Hdr) (o : FmtQ)
  /-- SACQ (R121). Requests N from a semaphore and waits in the window. -/
  | sacq (f : Fin 6) (h : Hdr) (o : FmtQ)
  /-- SREL (R122). Releases N to a semaphore. -/
  | srel (f : Fin 6) (h : Hdr) (o : FmtQ)
  /-- FENCE (R120). Holds the issue point until earlier writes to the named tiers have completed. -/
  | fence (f : Fin 6) (h : Hdr) (o : FmtQ)
  /-- RAISE (R133). Raises a granted event source. -/
  | raiseSrc (f : Fin 6) (h : Hdr) (o : FmtQ)
  /-- NOP (R134). Does nothing. -/
  | nop (f : Fin 6) (h : Hdr) (o : FmtC)
  /-- BR (R134). Branches unconditionally by OFF. -/
  | br (f : Fin 6) (h : Hdr) (o : FmtC)
  /-- BEQ (R134). Branches if two g registers are equal. -/
  | beq (f : Fin 6) (h : Hdr) (o : FmtC)
  /-- BNE (R134). Branches if two g registers differ. -/
  | bne (f : Fin 6) (h : Hdr) (o : FmtC)
  /-- BLT (R134). Branches if less than, signed. -/
  | blt (f : Fin 6) (h : Hdr) (o : FmtC)
  /-- BGE (R134). Branches if greater than or equal, signed. -/
  | bge (f : Fin 6) (h : Hdr) (o : FmtC)
  /-- BLTU (R134). Branches if less than, unsigned. -/
  | bltu (f : Fin 6) (h : Hdr) (o : FmtC)
  /-- BGEU (R134). Branches if greater than or equal, unsigned. -/
  | bgeu (f : Fin 6) (h : Hdr) (o : FmtC)
  /-- JAL (R134). Jumps and links PC + 1 into g[RA]. -/
  | jal (f : Fin 6) (h : Hdr) (o : FmtC)
  /-- JR (R134). Jumps to g[RA] + OFF. -/
  | jr (f : Fin 6) (h : Hdr) (o : FmtC)
  /-- END (R103). Holds the issue point until earlier instructions of the command have completed. -/
  | endCmd (f : Fin 6) (h : Hdr) (o : FmtC)
  /-- TRAP (R134). Raises the TRAP exception with a code. -/
  | trap (f : Fin 6) (h : Hdr) (o : FmtC)
  /-- UNIT_START_QUEUED (R143). A unit starts its next queued instruction in issue order. -/
  | unitStartQueued (f : Fin 6) (u : BitVec 2)
  /-- INSTRUCTION_COMPLETE (R112). An instruction's work becomes visible; it leaves the window and signals. -/
  | instructionComplete (f : Fin 6) (seq : Nat)
  /-- SEM_ACQUIRE_GRANT (R121). A waiting SACQ sees COUNT at least N and subtracts it indivisibly. -/
  | semAcquireGrant (m : BitVec 8)
  /-- ROUTED_COUNTER_INCREMENT (R119). A routed counter increment reaches the target vFace's counters. -/
  | routedCounterIncrement 
  /-- CMD_LIMIT (R104). A command's duration exceeds FACE_CTRL.CMD_LIMIT. -/
  | cmdLimit (f : Fin 6)
  /-- COMMAND_END (R103). END completes after the drain; written bits are cleared and vFaces adopt new bindings. -/
  | commandEnd (f : Fin 6)
  /-- SYNC_SEM_WRITE (R124). Ulnal writes a semaphore, and the waiters are checked again against the new count. -/
  | syncSemWrite (m : BitVec 8) (v : BitVec 64)
  /-- SYNC_RVAL_WRITE (R124). Ulnal writes the selected routed counter. -/
  | syncRvalWrite (v : BitVec 64)
  /-- QSAT_SNAP (R66). Copies every counter to its snapshot and zeroes the counters atomically. -/
  | qsatSnap (f : Fin 6)
  /-- ATTN_CLR (R199). Zeroes the five ATTN counters. -/
  | attnClr (f : Fin 6)
  /-- REC_CLR (R226). Zeroes the four REC counters. -/
  | recClr (f : Fin 6)
  /-- ILL_OPC (R128). An instruction word with a reserved major opcode reaches issue and raises ILL_OPC precisely. -/
  | illOpc (f : Fin 6) (h : Hdr)
  /-- PIP_QPUSH (R247). Pushes a record onto a partition's queue, or sets QFULL. -/
  | pipQpush (p : BitVec 3) (v : BitVec 64)
  /-- PIP_RECORD_START (R245). The Pip engine starts the next queued record in round robin. -/
  | pipRecordStart 
  /-- PIP_RECORD_DONE (R246). A record writes its output, its status and raises its EVENT. -/
  | pipRecordDone (memErr : Bool)
  /-- PIP_TIMEOUT (R245). A record exceeds REC_LIMIT and is abandoned with TIMEOUT. -/
  | pipTimeout 
  /-- PIP_QFLUSH (R246). Drops a job's queued records and abandons its running one. -/
  | pipQflush (v : BitVec 64)
  /-- ULNAL_EXCEPTION_RESPONSE (R137). Ulnal ends the job on a program exception, scrubs and reports. -/
  | ulnalExceptionResponse (f : Fin 6)
  /-- JOB_UNLOAD (R99). A job is unloaded; no further command starts. -/
  | jobUnload (j : BitVec 4)
  /-- JOB_KILL (R99). A job is killed and its running commands are cancelled. -/
  | jobKill (j : BitVec 4)
  /-- SCRUB_START (R99). Once no command of an ended job runs, the scrub engine starts zeroing its regions. -/
  | scrubStart (t : ScrubOf)
  /-- SCRUB_DONE (R101). A region's zeroing completes and it becomes allocatable. -/
  | scrubDone 
  /-- COMMAND_READY (R255). A head-of-queue command passes its start wait and its semaphore acquire. -/
  | commandReady (j : BitVec 4) (v : BitVec 3)
  /-- COMMAND_START (R102). A Face dispatcher starts a ready command and initialises its state. -/
  | commandStart (f : Fin 6)
  /-- SCHED_PART_WRITE (R250). A partition record write, checked on EN and protected while jobs are loaded. -/
  | schedPartWrite (p : BitVec 3) (b : Bool) (v : BitVec 64)
  /-- SCHED_COMMIT (R260). GO validates the shadow slot table and stages it. -/
  | schedCommit (v : BitVec 64)
  /-- SCHED_QTAIL_WRITE (R253). Advances a queue's TAIL, or sets QUEUE_RANGE. -/
  | schedQtailWrite (v : BitVec 64)
  /-- SCHED_QBASE_WRITE (R277). Enables or disables a command queue, refusing K out of range. -/
  | schedQbaseWrite (v : BitVec 64)
  /-- SCHED_JOB_WRITE (R257). Sets a job's PART while unloaded and its PRIO. -/
  | schedJobWrite (j : BitVec 4) (v : BitVec 64)
  /-- SLOT_START (R259). A slot-table entry's START offset is reached and its Faces pass to its partition for the slot. -/
  | slotStart (i : BitVec 6)
  /-- SLOT_END (R262). A slot ends; an overrunning command sets OVERRUN and raises SLOT_OVERRUN. -/
  | slotEnd (i : BitVec 6)
  /-- TURN_EXPIRE (R263). A turn runs out and ends at the next command boundary, with snapshots taken. -/
  | turnExpire (f : Fin 6)
  /-- BANK_SWAP_DONE (R265). The save and restore of live banks for a switch completes. -/
  | bankSwapDone (f : Fin 6)
  /-- SEM_BLOCK (R266). A waiter has waited 2 µs on a semaphore held by a job that is not running. -/
  | semBlock (m : BitVec 8)
  /-- TURN_DONATE (R266). Ulnal gives the holder a borrowed turn, following the chain. -/
  | turnDonate (m : BitVec 8)
  /-- STEP_ADVANCE_REQUEST (R286). An ADV write captures the TAILs and sets PENDING, or sets BUSY. -/
  | stepAdvanceRequest (j : BitVec 4) (v : BitVec 64)
  /-- STEP_ADVANCE_APPLY (R286). Once the earlier commands have ended, JSTEP increments and PENDING clears. -/
  | stepAdvanceApply (j : BitVec 4)
  /-- DET_JSTEP_WRITE (R302). Writes the starting JSTEP, which is ignored once the first command has started. -/
  | detJstepWrite (j : BitVec 4) (v : BitVec 64)
  /-- JOB_LOAD (R85). Placement checks the records, reserves backing space and loads the job or rejects it. -/
  | jobLoad (j : BitVec 4) (img : JobImage) (pl : LoadPlan)
  /-- LIFE0_HBM_ZERO_DONE (R74). Board DMA finishes zeroing an untracked LIFE 0 HBM instance. -/
  | life0HbmZeroDone (e : BitVec 12) (v : BitVec 3)
  /-- PLACE_BREC_WRITE (R98). Ulnal writes a buffer table record, which is ignored or refused as the rules require. -/
  | placeBrecWrite (v : BitVec 64)
  /-- PLACE_COMMIT (R96). GO commits the shadow tables at the next eligible boundary, or sets COMMIT_BUSY. -/
  | placeCommit (v : BitVec 64)
  /-- PLACEMENT_PLAN (R92). Ulnal's placement policy computes a plan and writes the shadow tables. -/
  | placementPlan (p : BitVec 3) (hot : BitVec 6) (maps : List (Nat × List Nat)) (addrs : List (Nat × Nat)) (ex : List (Nat × Nat × List Nat))
  /-- BUFFER_MOVE_START (R95). Board DMA starts moving a buffer once no command that references it is in flight. -/
  | bufferMoveStart (e : BitVec 12)
  /-- BUFFER_MOVE_DONE (R95). A move ends; once all moves are done and all vFaces have adopted, PENDING clears and EPOCH increments. -/
  | bufferMoveDone (e : BitVec 12)
  /-- MAJOR_FRAME_BOUNDARY (R258). A frame boundary latches counters, makes plans pending and activates a staged slot table. -/
  | majorFrameBoundary 
  /-- FAULT_RECORD (R449). HFLT records a fault from a mechanism, counting it toward quarantine. -/
  | faultRecord (src : BitVec 8) (face : Option (Fin 6)) (job : Option (BitVec 4)) (detail : BitVec 32)
  /-- PATROL_READ (R434). The patrol engine reads and corrects words, zeroing dead uncorrectable ones. -/
  | patrolRead (a : Nat) (res : BitVec 2) (alloc last : Bool)
  /-- MESH_CRC (R435). A packet fails CRC and is discarded; a second failure is a fault. -/
  | meshCrc (second : Bool)
  /-- STALL (R436). A sentinel reaches SENT_US on an unacknowledged request and records STALL. -/
  | stall (home : Bool) (ch : BitVec 12) (us : Nat)
  /-- LOCKSTEP_MISMATCH (R438). A lockstep or duplication comparison fails. -/
  | lockstepMismatch (who : BitVec 3)
  /-- LINE (R440). The fault lines stop toggling for 5 µs. -/
  | line 
  /-- CORE_HB (R440). A CKICK_MS window passes without SAFE_KICK. -/
  | coreHb 
  /-- SAFE_KICK (R456). The safety manager writes a heartbeat. -/
  | safeKick (v : BitVec 64)
  /-- BOOT_TIMEOUT (R451). CSTATE has not reached UP within 100 ms of the reset release. -/
  | bootTimeout 
  /-- HFLT_RETRY (R451). Leaves FAILED and starts a restart. -/
  | hfltRetry 
  /-- HOME_REQ (R457). Home firmware records the HOME_REQ fault. -/
  | homeReq 
  /-- STATUS_GATE_WRITE (R447). A status-word write enters the gate and is held for 2 µs. -/
  | statusGateWrite (f : Fin 6) (seq : Nat)
  /-- STATUS_GATE_COMPLETE (R447). The gate completes the status word with FAULT and SEQ, writes it and clears the latch. -/
  | statusGateComplete 
  /-- SAFE_INJ (R454). Injects a test fault into a checker. -/
  | safeInj (v : BitVec 64) (lockstep : Bool)
  /-- INJECTION_MISSED (R454). The detection time passes without detection of an injection; MISSED is set. -/
  | injectionMissed 
  /-- GOLDEN_RELEASE (R444). A golden run is released GLEAD before its deadline, or deferred. -/
  | goldenRelease 
  /-- GOLDEN_START (R442). A released run starts in the next TEST slot on all covered Faces. -/
  | goldenStart 
  /-- GOLDEN_COMPARE (R443). The logs are compared with the reference; the run passes or records a fault. -/
  | goldenCompare (ref n : Nat) (refOk : Bool)
  /-- GOLD_LATE (R443). A run misses its deadline or an instance exceeds GMAX. -/
  | goldLate 
  /-- GOLD_CTRL_WRITE (R456). Enables golden runs, refused with a field out of range. -/
  | goldCtrlWrite (v : BitVec 64) (lockstep : Bool)
  /-- HBM_ACCESS_COMPLETE (R80). An HBM access completes with ECC and parity handling and an error completion if uncorrectable. -/
  | hbmAccessComplete (a : Nat) (r : BitVec 3) (face : Option (Fin 6)) (seq : Nat)
  /-- HBM_REFRESH (R78). The controller refreshes a bank at the interval set by temperature. -/
  | hbmRefresh 
  /-- HBM_TEMP_REPORT (R78). The stack reports its temperature, setting HOTREF or HOT and raising HBM_HOT. -/
  | hbmTempReport (t : BitVec 8)
  /-- HBM_TRAINED (R82). An HBM3 controller half completes training and its HBMC_STATUS.READY bit becomes 1. -/
  | hbmTrained (h : BitVec 1)
  /-- PACE_WINDOW (R23). A pace monitor closes its 1 µs window and updates RATE, LOW and VALID. -/
  | paceWindow (d : BitVec 3) (n : BitVec 14)
  /-- ARB_STARVE (R276). A request waits longer than STARVE_US, setting its flag and raising the event. -/
  | arbStarve (k : BitVec 5) (q : ArbWait)
  /-- ARB_REVOKE (R274). A higher-class request revokes an upper-level grant, and the transfer restarts later. -/
  | arbRevoke 
  /-- GATE_READ (R17). A Home-side access through the gate completes with data or COMPUTE_DOWN. -/
  | gateRead (a n : Nat) (w : Option (List (BitVec 8)))
  /-- PERT_WRITE (R298). A PERT register write, allowed or denied by lifecycle and debug level. -/
  | pertWrite (k : BitVec 3) (v : BitVec 64)
  /-- PERT_DELAY_WRITE (R301). Sets extra stages of one channel or, with BCAST, of a whole block. -/
  | pertDelayWrite (v : BitVec 64)
  /-- KV_ADMIT (R193). The KV service admits a sequence, sharing matched prefix pages. -/
  | kvAdmit (j : BitVec 4) (k slot : Nat) (toks pages : List Nat)
  /-- KV_INSERT_PAGES (R194). After a command ends, the service inserts filled pages and checks the page tables. -/
  | kvInsertPages (j : BitVec 4) (order : List (Nat × Nat × Nat))
  /-- KV_SEQUENCE_END (R195). A sequence ends; shared REFS drop and private pages are freed. -/
  | kvSequenceEnd (j : BitVec 4) (k slot : Nat)
  /-- EFL_TRAIN (R411). A port trains, coming up or setting MISWIRED. -/
  | eflTrain (n : Fin 2) (dev ndev topo : BitVec 2)
  /-- EFL_FRAME_RX (R415). A frame is received, CRC-checked and delivered in order, or NAKed. -/
  | eflFrameRx (n : Fin 2) (i : EflIn)
  /-- EFL_RETRAIN (R415). After repeated NAKs or 4 µs without acknowledgement the port retrains and replays. -/
  | eflRetrain (n : Fin 2)
  /-- EFL_LANE_FAIL (R412). A lane fails; the port retrains on half its lanes and sets DEGRADED. -/
  | eflLaneFail (n : Fin 2) (half : Option Bool)
  /-- EFL_DOWN (R416). A retrain not done in 1 ms takes the port down and raises EFL_DOWN. -/
  | eflDown (n : Fin 2)
  /-- EFL_PUT_PIECE (R419). A put piece takes a credit and goes out in frames. -/
  | eflPutPiece (f : Fin 6) (seq : Nat) (win : BitVec 6) (gen : BitVec 8)
  /-- EFL_PIECE_RECEIVE (R423). A piece is checked at its first frame and written into the window, or refused. -/
  | eflPieceReceive (n : Fin 2) (len : Nat)
  /-- ACKC (R422). An ACKC reaches the sender and returns the piece's credit. -/
  | ackc (n : Fin 2)
  /-- INC (R420). After all pieces are acknowledged, an INC increments the target's bound counter and is acknowledged. -/
  | inc (n : Fin 2)
  /-- GETREQ (R421). The target reads a piece from the window and returns GETRSP frames. -/
  | getreq (n : Fin 2) (bad : Bool)
  /-- GETRSP (R421). Get data arrives at the requester and is written, returning the credit. -/
  | getrsp (n : Fin 2)
  /-- EFL_WIN_OPEN (R417). OPEN = 1 checks a window, increments GEN and opens it, or sets EFL_WERR. -/
  | eflWinOpen (i : BitVec 6) (v : BitVec 64)
  /-- EFL_WIN_CLOSE (R423). OPEN = 0 closes a window to new work and sets CLOSING. -/
  | eflWinClose (i : BitVec 6)
  /-- EFL_WIN_CLOSE_DONE (R423). The last accepted piece completes and CLOSING clears. -/
  | eflWinCloseDone (i : BitVec 6)
  /-- EFL_CTRL_WRITE (R427). Enables a port, or restores its credits after DOWN. -/
  | eflCtrlWrite (n : Fin 2) (v : BitVec 64)
  /-- TIME_RATE_WRITE (R346). A rate write re-anchors and loads ρ, clamping it or refusing it with RATE_OWNED. -/
  | timeRateWrite (p : Fin 2) (v : BitVec 32)
  /-- TIME_STEP_WRITE (R347). Adds a signed step to TA, or refuses it with STEP_RANGE. -/
  | timeStepWrite (v : BitVec 32)
  /-- TIME_RAW_READ (R348). A read of TIME_RAWLO latches TIME_RAWHI. -/
  | timeRawRead (p : Fin 2)
  /-- TIME_NOW_READ (R348). A read of TIME_NOW0 latches NOW1 and NOW2. -/
  | timeNowRead (p : Fin 2)
  /-- TIMEM_NOW_READ (R348). A compute-side read of TIMEM_NOW0 latches NOW1 for the requester. -/
  | timemNowRead (q : BitVec 4)
  /-- TIMEM_RA_READ (R348). A read of TIMEM_RA latches TA, RHO and PSEQ. -/
  | timemRaRead 
  /-- TIME_MAILBOX_REQUEST (R349). Home firmware serves a posted RATE, RATE_ADJ or STEP request and acknowledges it. -/
  | timeMailboxRequest 
  /-- PPS_EDGE (R351). A PPS_IN edge is captured, filtered, accepted and processed by MODE. -/
  | ppsEdge (rising : Bool) (pulse : Nat)
  /-- PPS_LOST (R356). No accepted edge for 1.5 s sets LOST and raises TIME_PPSLOST. -/
  | ppsLost 
  /-- TCXO_FAIL (R363). TCXO_IN is missing or off for 10 µs; the PLL switches to the internal oscillator. -/
  | tcxoFail 
  /-- CSI_FRAME_START (R369). A frame start opens a frame in the next owned descriptor, or discards it. -/
  | csiFrameStart (p : Fin 12) (vc : BitVec 4) (fnum : BitVec 16)
  /-- CSI_LINE (R372). A long packet line is written, truncated or dropped. -/
  | csiLine (p : Fin 12) (vc : BitVec 4) (dt : BitVec 6) (bs : List Byte) (lost crcBad fixed : Bool)
  /-- CSI_FRAME_END (R371). The port closes the frame, writes the status and raises CSI_FE. -/
  | csiFrameEnd (p : Fin 12) (vc : BitVec 4)
  /-- CSI_FRAME_TIMEOUT (R372). No frame end within FTO closes the frame with NO_FE. -/
  | csiFrameTimeout (p : Fin 12) (f : Fin 4)
  /-- CSI_SYNC_LOST (R372). The PHY loses lane synchronisation during a frame. -/
  | csiSyncLost (p : Fin 12) (rest : Nat)
  /-- CSI_STAMP (R371). Ulnal writes the frame stamps and raises the granted frame-end source. -/
  | csiStamp (p : Fin 12) (f : Fin 4) (ts : CsiTimes) (src : BitVec 9) (room : Bool)
  /-- CSI_RCTL_WRITE (R373). Writes the ring SIZE and resets NEXT, ignored while the filter is enabled. -/
  | csiRctlWrite (p : Fin 12) (f : Fin 4) (v : BitVec 64)
  /-- CSI_LANE_SYNC (R373). A camera port's configured lanes achieve synchronisation and CSI_STATUS.LINK becomes 1. -/
  | csiLaneSync (p : Fin 12)
  /-- ETH_TX_RELEASE (R375). A queue's head frame is released at its launch time and gate and sent. -/
  | ethTxRelease (n : BitVec 2) (q : BitVec 3)
  /-- ETH_TX_DONE (R377). A sent frame gets its TSTAMP and STATUS and HEAD advances. -/
  | ethTxDone (n : BitVec 2) (q : BitVec 3) (r : EthSent)
  /-- ETH_RX_FRAME (R377). A received frame is written to its ring with status, or dropped. -/
  | ethRxFrame (n : BitVec 2) (bs : List Byte) (bad full : Bool) (sfd : BitVec 64)
  /-- ETH_TS_READ0 (R378). Latches the oldest stamp FIFO entry and returns its raw count. -/
  | ethTsRead0 (n : BitVec 2) (tx : Bool)
  /-- ETH_TS_READ1 (R378). Returns the rest of the latched stamp and removes it. -/
  | ethTsRead1 (n : BitVec 2) (tx : Bool)
  /-- ETH_GCL_CYCLE (R378). A gate control list cycle starts and applies pending list changes. -/
  | ethGclCycle (n : BitVec 2)
  /-- ETH_LINK (R504). An Ethernet port changes link state. -/
  | ethLink (n : BitVec 2) (up : Bool)
  /-- PCIE_LINK_UP (R379). The PCIe controller completes training and PCIE_STATUS.LINK becomes 1 with its RATE and WIDTH. -/
  | pcieLinkUp (rate : BitVec 3) (width : BitVec 2)
  /-- PCIE_DOWN (R379). A surprise link-down completes outstanding requests with errors. -/
  | pcieDown (n : Nat)
  /-- PCIE_DOORBELL (R380). A host write to a BAR2 doorbell sets its pending bit and raises the event. -/
  | pcieDoorbell (d : BitVec 6)
  /-- PCIE_MSIX (R380). Raises an MSI-X vector toward the host. -/
  | pcieMsix (v : BitVec 64)
  /-- PCIE_BAR0WIN_WRITE (R380). Points BAR0 at a region, refused unless the region is wholly mapped. -/
  | pcieBar0winWrite (v : BitVec 64)
  /-- PCIE_HOST_REQUEST (R379). A host memory request to BAR0 is served in the window region, or completes as unsupported while EN is 0. -/
  | pcieHostRequest (bar2 : Bool) (off n : Nat) (data : List Byte)
  /-- CAN_SEND (R387). SEND makes a transmit buffer pending. -/
  | canSend (c : BitVec 2) (m : BitVec 3)
  /-- CAN_ABORT (R388). ABORT completes a pending buffer or waits for the frame on the bus. -/
  | canAbort (c : BitVec 2) (m : BitVec 3)
  /-- CAN_RECOVER (R389). Starts bus-off recovery. -/
  | canRecover (c : BitVec 2)
  /-- CAN_TXBUF_WRITE (R388). A buffer write, ignored with WBUSY or OWNED. -/
  | canTxbufWrite (c : BitVec 2) (b : Fin 3) (o : BitVec 12) (v : BitVec 32)
  /-- CAN_TX (R388). A transmit buffer completes with DONE, LOST_ARB, ERROR or ABORTED. -/
  | canTx (c : BitVec 2) (b : Fin 3) (r : CanAttempt) (sof : BitVec 64)
  /-- CAN_BUSOFF (R389). The controller goes bus-off and recovers automatically or waits. -/
  | canBusoff (c : BitVec 2) (back : Bool)
  /-- BLD_CLR (R384). Zeroes the builder counters and BLD_LAST. -/
  | bldClr 
  /-- CAN_RX (R389). A received frame is filtered and stored in its queue, or counted and discarded. -/
  | canRx (c : BitVec 2) (fr : CanFrame) (err : BitVec 3) (hard : Bool) (sof : BitVec 64)
  /-- CAN_RXTAIL_WRITE (R390). Firmware releases receive slots. -/
  | canRxtailWrite (c : BitVec 2) (q : BitVec 1) (v : BitVec 32)
  /-- T1S_TXPUSH (R392). Pushes a frame onto the T1S transmit queue, or sets TXFULL. -/
  | t1sTxpush (n : Fin 2) (v : BitVec 32)
  /-- T1S_TX (R391). A released frame is sent at the node's transmit opportunity. -/
  | t1sTx (n : Fin 2)
  /-- T1S_RX (R392). An accepted frame is stored in the receive ring, or dropped. -/
  | t1sRx (n : Fin 2) (bs : List Byte) (bad : Bool)
  /-- PLCA_STATUS (R392). A 10BASE-T1S PHY gains or loses PLCA beacons and PLCA status OK, changing T1S_STATUS. -/
  | plcaStatus (n : Fin 2) (link ok beacon coll : Bool)
  /-- LAUNCH_RELEASE (R360). A queued item is released at its launch time, or late. -/
  | launchRelease (i : LaunchItem)
  /-- ENC_QUAD_EDGE (R393). An A or B edge on a QUAD encoder port moves its 32-bit up/down count. -/
  | encQuadEdge (p : BitVec 4) (up : Bool)
  /-- ENC_EVENT (R395). An index edge or SSI framing error raises ENC_EVENT. -/
  | encEvent (p : BitVec 4) (index : Bool)
  /-- ENC_CFG_WRITE (R396). Enables a port, or refuses it and sets CFGERR. -/
  | encCfgWrite (p : BitVec 4) (v : BitVec 32)
  /-- PWM_PERIOD_START (R397). A PWM period starts and takes the new high time and pair settings. -/
  | pwmPeriodStart (k : Fin 12)
  /-- PERMIT_KICK (R404). A Home pair kicks the permit watchdog. -/
  | permitKick (p : Fin 2)
  /-- PERMIT_KICK_MISS (R401). A KICK_MS window passes without a kick and the permit stops. -/
  | permitKickMiss (p : Fin 2)
  /-- PERMIT_ARM (R402). An arming key write is accepted in turn, or ignored. -/
  | permitArm (p : Fin 2) (v : BitVec 32)
  /-- PERMIT_START (R402). The first permit edge follows 10 ms after arming. -/
  | permitStart 
  /-- PERMIT_STOP (R404). A STOP write stops the permit with cause STOP. -/
  | permitStop 
  /-- PERMIT_READBACK_SAMPLE (R401). The 0.5 µs readback check stops the permit on a mismatch. -/
  | permitReadbackSample (good : Bool)
  /-- GFP_EDGE (R406). A debounced edge sets GFP_EDGES, raises the event and writes the input word. -/
  | gfpEdge (i : BitVec 4) (level : Bool)
  /-- FB_DIAG_SLOT (R408). A diagnostic slot checks the inputs for opens and adjacent shorts. -/
  | fbDiagSlot (linkStart : Bool) (found : List (Nat × BitVec 2))
  /-- FB_FAULT (R409). An output short is detected, sets FB_DIAG bits and raises FB_FAULT. -/
  | fbFault (i : Fin 141) (k : BitVec 2)
  /-- FB_FOLDBACK (R407). A driver reaches its temperature limit, folds back, and later returns. -/
  | fbFoldback (i : Fin 141) (folded limit : Bool)
  /-- CONTROL_TICK (R307). A 25 µs tick captures inputs, swaps pending setpoints and steps hold values. -/
  | controlTick 
  /-- LOOP_EXECUTE (R309). A due loop starts its execution after the ones ahead of it, snapshotting its coefficients. -/
  | loopExecute 
  /-- CE_IN (R312). Loop operation: reads a selected input. -/
  | ceIn 
  /-- CE_SP (R312). Loop operation: reads a setpoint or its hold value. -/
  | ceSp 
  /-- CE_ADD (R312). Loop operation: Q31 saturating add. -/
  | ceAdd 
  /-- CE_SUB (R312). Loop operation: Q31 saturating subtract. -/
  | ceSub 
  /-- CE_MUL (R312). Loop operation: multiply by a coefficient with one rounding. -/
  | ceMul 
  /-- CE_MACZ (R312). Loop operation: starts the exact accumulator with a product. -/
  | ceMacz 
  /-- CE_MAC (R312). Loop operation: adds a product to the exact accumulator. -/
  | ceMac 
  /-- CE_RND (R312). Loop operation: rounds the accumulator to Q31. -/
  | ceRnd 
  /-- CE_INT (R312). Loop operation: integrates into a state word. -/
  | ceInt 
  /-- CE_LIM (R312). Loop operation: limits between two coefficients. -/
  | ceLim 
  /-- CE_LDS (R312). Loop operation: loads a state word. -/
  | ceLds 
  /-- CE_STS (R312). Loop operation: stores a state word. -/
  | ceSts 
  /-- CE_OUT (R312). Loop operation: names the output and its target. -/
  | ceOut 
  /-- CE_END (R312). Loop operation: last instruction of the program. -/
  | ceEnd 
  /-- CE_MIN (R312). Loop operation: signed minimum. -/
  | ceMin 
  /-- CE_MAX (R312). Loop operation: signed maximum. -/
  | ceMax 
  /-- LOOP_COMPLETE (R322). An execution completes; late executions are discarded and counted, raising CE_MISS. -/
  | loopComplete 
  /-- LOOP_APPLY (R318). At tick + OUTDLY the output, or a group's minimum, is applied, and TRACK writes are undone. -/
  | loopApply 
  /-- CE_LOOP_CFG_WRITE (R323). A loop enable is checked and refused with a CE_ERR code, or granted. -/
  | ceLoopCfgWrite (n : BitVec 6) (v : BitVec 32)
  /-- LOOP_HOLD (R317). Setting or clearing LOOP_HOLD freezes or frees the coefficient working copy. -/
  | loopHold (n : BitVec 6) (on : Bool)
  /-- CE_COEF_SHIFT_WRITE (R315). A word-1 write stages a SHIFT in the pair's latch, or refuses -32. -/
  | ceCoefShiftWrite (p : Fin 2) (i : BitVec 11) (v : BitVec 32)
  /-- CE_COEF_VALUE_WRITE (R315). A word-0 write applies VALUE, with the staged SHIFT if it names the same entry. -/
  | ceCoefValueWrite (p : Fin 2) (i : BitVec 11) (v : BitVec 32)
  /-- CE_SPCOMMIT (R321). GO requests a setpoint bank swap, or sets SP_BUSY. -/
  | ceSpcommit (v : BitVec 32)
  /-- CE_SPW_WRITE (R321). Writes a setpoint of the write bank, ignored while PENDING. -/
  | ceSpwWrite (k : BitVec 8) (v : BitVec 32)
  /-- CE_PROG_WRITE (R323). Writes a program word, ignored with PROG_BUSY for an enabled loop. -/
  | ceProgWrite (i : BitVec 13) (v : BitVec 32)
  /-- HOLD_ENGAGE (R338). A write of ENGAGE engages the hold controller at the next tick. -/
  | holdEngage 
  /-- HOLD_STALE (R338). No setpoint swap for STALE ms engages the hold controller. -/
  | holdStale 
  /-- HOLD_RELEASE (R339). A release request disengages at the next tick, or sets REL_DENIED. -/
  | holdRelease 
  /-- SSI_TRANSFER_START (R394). An SSI transfer starts LEAD µs before a tick that reads the port. -/
  | ssiTransferStart (p : BitVec 4)
  /-- SSI_TRANSFER_DONE (R394). An SSI transfer completes, or counts SSI_LATE at its tick. -/
  | ssiTransferDone (p : BitVec 4) (w : BitVec 64)
  /-- SOLV_GO (R333). Starts a solve from its descriptor, or sets GOBUSY. -/
  | solvGo 
  /-- SOLV_ABORT (R336). Aborts the running solve at its next boundary. -/
  | solvAbort 
  /-- SOLV_DONE (R334). A solve completes, writes OUT and its status, and raises SOLV_DONE. -/
  | solvDone (missed : Bool)
  /-- SOLV_COMMIT (R334). The solver writes mapped setpoints and CE_SPCOMMIT.GO once PENDING clears. -/
  | solvCommit 
  /-- COMPUTE_RESET (R449). HFLT asserts compute-side reset, or enters FAILED past RST_MAX. -/
  | computeReset 
  /-- COMPUTE_RESTART (R450). The compute side restarts, checks images and reloads jobs. -/
  | computeRestart (plans : List (Nat × LoadPlan × Bool))
  /-- JOB_FAULT_RESTART (R449). A multi-chip job ends and reloads on each device after EFLET_DOWN. -/
  | jobFaultRestart (j : BitVec 4) (pl : LoadPlan)
  /-- KECCAK_OP (R460). The Keccak engine runs one queued operation. -/
  | keccakOp (op : KeccakOp)
  /-- ATTEST (R463). Home firmware produces a signed attestation report. -/
  | attest (nonce : Option (List Byte))
  /-- POWER (R498). Mailbox request for a power state. -/
  | power 
  /-- LIFECYCLE (R466). A signed lifecycle record is written for the next reset. -/
  | lifecycle (signer : BitVec 2) (locks : List (Nat × Nat))
  /-- CHAL (R469). Issues a debug challenge for a level. -/
  | chal (lvl : BitVec 2)
  /-- SUBMIT (R469). Starts verification of a response, or fails with LOCKOUT or BUSY. -/
  | submit 
  /-- DEBUG_VERIFY_DONE (R469). Verification ends; the level is granted or the failure is counted. -/
  | debugVerifyDone (r : BitVec 2)
  /-- D3_GRANT_DONE (R472). The D3 grant's stop, halt, reset and zeroing complete. -/
  | d3GrantDone 
  /-- RELOCK (R470). Returns to D0 and releases debug holds. -/
  | relock 
  /-- DEBUG_HALT (R471). A halt request for a unit is accepted, or refused with HALT_DENIED. -/
  | debugHalt (u : Fin 12)
  /-- DEBUG_RESUME (R471). A halted unit resumes where it stopped. -/
  | debugResume (u : Fin 12)
  /-- PWR_STATE_WRITE (R474). Ulnal selects Active, Trim or Doze, or the write is ignored with BUSY. -/
  | pwrStateWrite (v : BitVec 3)
  /-- SEC_PSTATE_WRITE (R474). Home firmware requests Retain, Watch or wake, or the request is refused. -/
  | secPstateWrite (v : BitVec 3)
  /-- POWER_TRANSITION_DONE (R474). A power-state transition completes. -/
  | powerTransitionDone 
  /-- GOVERNOR_TICK (R482). Once per ms the governor sets the VCORE target and trims. -/
  | governorTick (mw : Nat) (tj : List Int) (common : Int)
  /-- PMBUS_VOUT_WRITE (R521). The field logic writes VOUT_COMMAND to the regulator. -/
  | pmbusVoutWrite 
  /-- PWR_TRIM_WRITE (R486). Sets a Face trim, clamped to range. -/
  | pwrTrimWrite (n : Fin 6) (v : BitVec 64)
  /-- JUNCTION_THROTTLE (R480). A sensor reaches Tj_max and pass starts are limited. -/
  | junctionThrottle (d : Fin 7) (t : Int)
  /-- JUNCTION_TRIP (R480). Tj_max + 10 °C causes a SUPPLY fault. -/
  | junctionTrip (d : Fin 7) (t : Int)
  /-- DROOP (R480). VCORE below 0.57 V for 1 µs throttles pass starts. -/
  | droop 
  /-- ICC (R480). VCORE current above ICC_MAX for 2 µs throttles pass starts. -/
  | icc 
  /-- THROTTLE_RELEASE (R480). A throttle releases after its release condition has held. -/
  | throttleRelease (k : Fin 3) (d : Fin 7)
  /-- ENERGY_FOLD (R484). Power monitors fold energy into the counters every 10 µs. -/
  | energyFold (uj : List Nat)
  /-- SUPPLY (R522). A supply monitor condition persists and records a fault or stops the permit. -/
  | supply (c : BitVec 4)
  /-- PMB_ALERT (R521). PMB_ALERT_N asserts and records a SUPPLY fault. -/
  | pmbAlert 
  /-- PG_CORE (R520). PG_CORE rises and compute-side reset may be released. -/
  | pgCore 
  /-- CP_READ (R490). Host READ transaction of device or Home space. -/
  | cpRead (bs : List Byte) (ue : Bool)
  /-- CP_WRITE (R490). Host WRITE transaction, replayed rather than repeated under RETRY. -/
  | cpWrite (bs : List Byte)
  /-- CP_STATUS (R496). Host STATUS transaction returning 32 bytes. -/
  | cpStatus (bs : List Byte)
  /-- CP_TIMEOUT (R493). A device-space access not complete in 40 µs is answered TIMEOUT. -/
  | cpTimeout (bs : List Byte) (lands : Bool)
  /-- CP_MBOX (R498). The host posts a new SEQ and raises CP_MBOX. -/
  | cpMbox (seq : BitVec 16)
  /-- CP_REPLY (R498). Home firmware writes ACKSEQ and raises CP_REPLY. -/
  | cpReply (ack : BitVec 16) (reply : Option (Byte × List Byte))
  /-- CRST (R499). The host requests a compute-side reset, recorded as HOME_REQ. -/
  | crst 
  /-- PSTOP (R499). The host stops MOTION_PERMIT. -/
  | pstop 
  /-- CP_DOORBELL (R501). The host writes CPB_DOORBELL and raises CP_DOORBELL. -/
  | cpDoorbell (v : BitVec 32)
  /-- CPB_WIN_WRITE (R501). Opens a host window, refused unless the region is wholly mapped. -/
  | cpbWinWrite (w : BitVec 3) (b : Bool) (v : BitVec 64)
  /-- EVTP_RAISE (R505). Ulnal raises a software source. -/
  | evtpRaise (v : BitVec 64)
  /-- EVH_RAISE (R503). A Home core raises a software source, ignored under COMPUTE_DOWN. -/
  | evhRaise (v : BitVec 32)
  /-- EVENT_DELIVER (R502). A raised source sets pending bits and increments bound counters. -/
  | eventDeliver 
  /-- POWER_ON_RESET (R510). Power-on reset releases 200 µs after the Home supplies are in range. -/
  | powerOnReset 
  /-- HOME_RST_N (R510). The pin resets the whole device and its release starts ROM. -/
  | homeRstN (ns : Nat)
  /-- BOOT_STAGE_DONE (R508). A ROM or firmware boot stage completes or fails into its error stage. -/
  | bootStageDone (r : BootRes)
  /-- COMPUTE_BOOT (R509). Home firmware releases compute-side reset and writes STAGE0 once the Board is zeroed. -/
  | computeBoot 
  /-- MAIN_DIGEST_VERDICT (R509). Home firmware compares the MAIN digest and writes the verdict. -/
  | mainDigestVerdict (pass : Bool)
  /-- SYS_BOOT_UP (R513). Writing UP in BOOT sets CSTATE UP and raises CSTATE_CHG. -/
  | sysBootUp 
  /-- FRST (R512). Resets a Face, or is ignored with FRDENY while it runs. -/
  | frst (m : BitVec 6)
  /-- FACE_RESET_DONE (R510). A Face reset ends and FRBUSY clears. -/
  | faceResetDone (f : Fin 6)
  /-- SYS_CTRL_DOUBLE_WRITE (R513). Releases or holds a Double and sets its lockstep mode. -/
  | sysCtrlDoubleWrite (v : BitVec 64)
  /-- REGISTER_WRITE (R10). A write to a register with no row of its own. -/
  | registerWrite (who : Agent) (p : Place) (x : AccOp)
  deriving DecidableEq, Repr

end Sys2Proof
end

