-- ==== Sys2Proof/Decode.lean ====
section
/-! DEFINITION. Words of the block. No row of the command table gives bits, so no word spells a command of the table. The
instructions that a Face fetches do have words of 128 bits (R125 to R128, R173): their encoder and decoder stand here. -/

namespace Sys2Proof

/-- The command that a word of the table's bits spells: the table gives no row bits. -/
def decodeTableWord (_nbits _w : Nat) : Option Instr := none

/-! ## Operand fields (R127) -/

/-- Format A. -/
def packA (o : FmtA) : BitVec 48 := o.rd ++ o.ra ++ o.rb ++ o.i ++ o.imm
/-- Format D. -/
def packD (o : FmtD) : BitVec 48 := o.x ++ o.y ++ o.ra ++ o.field ++ o.imm
/-- Format T. -/
def packT (o : FmtT) : BitVec 48 := o.dd ++ o.da ++ o.db ++ o.dc ++ o.sd ++ o.sa ++ o.sb ++ o.rmode ++ o.sat ++ o.fn
/-- Format M. -/
def packM (o : FmtM) : BitVec 48 := o.dd ++ o.ds ++ o.dvf ++ o.svf ++ o.cls ++ o.rsv
/-- Format Q. -/
def packQ (o : FmtQ) : BitVec 48 := o.ev ++ o.sem ++ o.vf ++ o.tmask ++ o.src ++ o.rsv ++ o.n
/-- Format C. -/
def packC (o : FmtC) : BitVec 48 := o.ra ++ o.rb ++ o.rsv ++ o.off

/-- Bits of a word, `n` of them from bit `lo` up. -/
def slice (w : BitVec 128) (lo n : Nat) : BitVec n := w.extractLsb' lo n

/-- Format A. -/
def unpackA (w : BitVec 128) : FmtA := ⟨slice w 43 5, slice w 38 5, slice w 33 5, slice w 32 1, slice w 0 32⟩
/-- Format D. -/
def unpackD (w : BitVec 128) : FmtD := ⟨slice w 42 6, slice w 36 6, slice w 31 5, slice w 26 5, slice w 0 26⟩
/-- Format T. -/
def unpackT (w : BitVec 128) : FmtT :=
  ⟨slice w 42 6, slice w 36 6, slice w 30 6, slice w 24 6, slice w 20 4, slice w 16 4, slice w 12 4, slice w 9 3, slice w 8 1,
    slice w 0 8⟩
/-- Format M. -/
def unpackM (w : BitVec 128) : FmtM :=
  ⟨slice w 42 6, slice w 36 6, slice w 33 3, slice w 30 3, slice w 28 2, slice w 0 28⟩
/-- Format Q. -/
def unpackQ (w : BitVec 128) : FmtQ :=
  ⟨slice w 41 7, slice w 33 8, slice w 30 3, slice w 26 4, slice w 17 9, slice w 16 1, slice w 0 16⟩
/-- Format C. -/
def unpackC (w : BitVec 128) : FmtC := ⟨slice w 43 5, slice w 38 5, slice w 32 6, slice w 0 32⟩

/-! ## Whole words (R125, R128, R173) -/

/-- OPC, the fields every class shares, and the operand field (R125). -/
def word (opc : BitVec 8) (h : Hdr) (operands : BitVec 48) : BitVec 128 :=
  opc ++ BitVec.ofBool h.sigEn ++ h.sigEv ++ h.w0 ++ h.w1 ++ h.w2 ++ h.w3 ++ operands

/-- The fields every class shares. -/
def hdrOf (w : BitVec 128) : Hdr :=
  ⟨slice w 119 1 == 1, slice w 112 7, slice w 96 16, slice w 80 16, slice w 64 16, slice w 48 16⟩

/-- The word of an instruction with an assigned opcode; every other command has none. -/
def encodeInstr (i : Instr) : Option (BitVec 128) :=
  match i with
  | .add _ h o => some (word 0x01 h (packA o))
  | .sub _ h o => some (word 0x02 h (packA o))
  | .and _ h o => some (word 0x03 h (packA o))
  | .or _ h o => some (word 0x04 h (packA o))
  | .xor _ h o => some (word 0x05 h (packA o))
  | .sll _ h o => some (word 0x06 h (packA o))
  | .srl _ h o => some (word 0x07 h (packA o))
  | .sra _ h o => some (word 0x08 h (packA o))
  | .mul _ h o => some (word 0x09 h (packA o))
  | .mulhu _ h o => some (word 0x0A h (packA o))
  | .min _ h o => some (word 0x0B h (packA o))
  | .max _ h o => some (word 0x0C h (packA o))
  | .slt _ h o => some (word 0x0D h (packA o))
  | .sltu _ h o => some (word 0x0E h (packA o))
  | .divu _ h o => some (word 0x0F h (packA o))
  | .li _ h o => some (word 0x10 h (packA o))
  | .lih _ h o => some (word 0x11 h (packA o))
  | .rdst _ h o => some (word 0x12 h (packA o))
  | .wrst _ h o => some (word 0x13 h (packA o))
  | .ldg _ h o => some (word 0x18 h (packD o))
  | .stg _ h o => some (word 0x19 h (packD o))
  | .ldd _ h o => some (word 0x1A h (packD o))
  | .dsetf _ h o => some (word 0x1B h (packD o))
  | .dadd _ h o => some (word 0x1C h (packD o))
  | .dcpy _ h o => some (word 0x1D h (packD o))
  | .lds _ h o => some (word 0x1E h (packD o))
  | .ssetf _ h o => some (word 0x1F h (packD o))
  | .mm _ h o => some (word 0x40 h (packT o))
  | .ptb _ h o => some (word 0x41 h (packT o))
  | .ptl _ h o => some (word 0x42 h (packT o))
  | .accout _ h o => some (word 0x44 h (packT o))
  | .accin _ h o => some (word 0x45 h (packT o))
  | .accz _ h o => some (word 0x46 h (packT o))
  | .vew _ h o => some (word 0x48 h (packT o))
  | .vtr _ h o => some (word 0x49 h (packT o))
  | .vred _ h o => some (word 0x4A h (packT o))
  | .vnorm _ h o => some (word 0x4B h (packT o))
  | .vsmx _ h o => some (word 0x4C h (packT o))
  | .qnt _ h o => some (word 0x4D h (packT o))
  | .vrnd _ h o => some (word 0x4E h (packT o))
  | .trp _ h o => some (word 0x50 h (packT o))
  | .gath _ h o => some (word 0x51 h (packT o))
  | .scat _ h o => some (word 0x52 h (packT o))
  | .gfa _ h o => some (word 0x53 h (packT o))
  | .racc _ h o => some (word 0x54 h (packT o))
  | .sexp _ h o => some (word 0x58 h (packT o))
  | .simp _ h o => some (word 0x59 h (packT o))
  | .dgarm _ h o => some (word 0x5C h (packT o))
  | .dgout _ h o => some (word 0x5D h (packT o))
  | .dgrd _ h o => some (word 0x5E h (packT o))
  | .conv _ h o => some (word 0x60 h (packT o))
  | .attn _ h o => some (word 0x64 h (packT o))
  | .attnb _ h o => some (word 0x65 h (packT o))
  | .kvput _ h o => some (word 0x66 h (packT o))
  | .rstep _ h o => some (word 0x68 h (packT o))
  | .rchunk _ h o => some (word 0x69 h (packT o))
  | .mov _ h o => some (word 0x80 h (packM o))
  | .movz _ h o => some (word 0x81 h (packM o))
  | .waitEv _ h o => some (word 0xA0 h (packQ o))
  | .evadd _ h o => some (word 0xA1 h (packQ o))
  | .evsend _ h o => some (word 0xA2 h (packQ o))
  | .sacq _ h o => some (word 0xA3 h (packQ o))
  | .srel _ h o => some (word 0xA4 h (packQ o))
  | .fence _ h o => some (word 0xA5 h (packQ o))
  | .raiseSrc _ h o => some (word 0xA6 h (packQ o))
  | .nop _ h o => some (word 0xC0 h (packC o))
  | .br _ h o => some (word 0xC1 h (packC o))
  | .beq _ h o => some (word 0xC2 h (packC o))
  | .bne _ h o => some (word 0xC3 h (packC o))
  | .blt _ h o => some (word 0xC4 h (packC o))
  | .bge _ h o => some (word 0xC5 h (packC o))
  | .bltu _ h o => some (word 0xC6 h (packC o))
  | .bgeu _ h o => some (word 0xC7 h (packC o))
  | .jal _ h o => some (word 0xC8 h (packC o))
  | .jr _ h o => some (word 0xC9 h (packC o))
  | .endCmd _ h o => some (word 0xCA h (packC o))
  | .trap _ h o => some (word 0xCB h (packC o))
  | _ => none

/-- The instruction that Face `f` reads from a word. A reserved opcode is none, and ILL_OPC at issue (R128). -/
def decodeInstr (f : Fin 6) (w : BitVec 128) : Instr :=
  match (slice w 120 8).toNat with
  | 0x01 => .add f (hdrOf w) (unpackA w)
  | 0x02 => .sub f (hdrOf w) (unpackA w)
  | 0x03 => .and f (hdrOf w) (unpackA w)
  | 0x04 => .or f (hdrOf w) (unpackA w)
  | 0x05 => .xor f (hdrOf w) (unpackA w)
  | 0x06 => .sll f (hdrOf w) (unpackA w)
  | 0x07 => .srl f (hdrOf w) (unpackA w)
  | 0x08 => .sra f (hdrOf w) (unpackA w)
  | 0x09 => .mul f (hdrOf w) (unpackA w)
  | 0x0A => .mulhu f (hdrOf w) (unpackA w)
  | 0x0B => .min f (hdrOf w) (unpackA w)
  | 0x0C => .max f (hdrOf w) (unpackA w)
  | 0x0D => .slt f (hdrOf w) (unpackA w)
  | 0x0E => .sltu f (hdrOf w) (unpackA w)
  | 0x0F => .divu f (hdrOf w) (unpackA w)
  | 0x10 => .li f (hdrOf w) (unpackA w)
  | 0x11 => .lih f (hdrOf w) (unpackA w)
  | 0x12 => .rdst f (hdrOf w) (unpackA w)
  | 0x13 => .wrst f (hdrOf w) (unpackA w)
  | 0x18 => .ldg f (hdrOf w) (unpackD w)
  | 0x19 => .stg f (hdrOf w) (unpackD w)
  | 0x1A => .ldd f (hdrOf w) (unpackD w)
  | 0x1B => .dsetf f (hdrOf w) (unpackD w)
  | 0x1C => .dadd f (hdrOf w) (unpackD w)
  | 0x1D => .dcpy f (hdrOf w) (unpackD w)
  | 0x1E => .lds f (hdrOf w) (unpackD w)
  | 0x1F => .ssetf f (hdrOf w) (unpackD w)
  | 0x40 => .mm f (hdrOf w) (unpackT w)
  | 0x41 => .ptb f (hdrOf w) (unpackT w)
  | 0x42 => .ptl f (hdrOf w) (unpackT w)
  | 0x44 => .accout f (hdrOf w) (unpackT w)
  | 0x45 => .accin f (hdrOf w) (unpackT w)
  | 0x46 => .accz f (hdrOf w) (unpackT w)
  | 0x48 => .vew f (hdrOf w) (unpackT w)
  | 0x49 => .vtr f (hdrOf w) (unpackT w)
  | 0x4A => .vred f (hdrOf w) (unpackT w)
  | 0x4B => .vnorm f (hdrOf w) (unpackT w)
  | 0x4C => .vsmx f (hdrOf w) (unpackT w)
  | 0x4D => .qnt f (hdrOf w) (unpackT w)
  | 0x4E => .vrnd f (hdrOf w) (unpackT w)
  | 0x50 => .trp f (hdrOf w) (unpackT w)
  | 0x51 => .gath f (hdrOf w) (unpackT w)
  | 0x52 => .scat f (hdrOf w) (unpackT w)
  | 0x53 => .gfa f (hdrOf w) (unpackT w)
  | 0x54 => .racc f (hdrOf w) (unpackT w)
  | 0x58 => .sexp f (hdrOf w) (unpackT w)
  | 0x59 => .simp f (hdrOf w) (unpackT w)
  | 0x5C => .dgarm f (hdrOf w) (unpackT w)
  | 0x5D => .dgout f (hdrOf w) (unpackT w)
  | 0x5E => .dgrd f (hdrOf w) (unpackT w)
  | 0x60 => .conv f (hdrOf w) (unpackT w)
  | 0x64 => .attn f (hdrOf w) (unpackT w)
  | 0x65 => .attnb f (hdrOf w) (unpackT w)
  | 0x66 => .kvput f (hdrOf w) (unpackT w)
  | 0x68 => .rstep f (hdrOf w) (unpackT w)
  | 0x69 => .rchunk f (hdrOf w) (unpackT w)
  | 0x80 => .mov f (hdrOf w) (unpackM w)
  | 0x81 => .movz f (hdrOf w) (unpackM w)
  | 0xA0 => .waitEv f (hdrOf w) (unpackQ w)
  | 0xA1 => .evadd f (hdrOf w) (unpackQ w)
  | 0xA2 => .evsend f (hdrOf w) (unpackQ w)
  | 0xA3 => .sacq f (hdrOf w) (unpackQ w)
  | 0xA4 => .srel f (hdrOf w) (unpackQ w)
  | 0xA5 => .fence f (hdrOf w) (unpackQ w)
  | 0xA6 => .raiseSrc f (hdrOf w) (unpackQ w)
  | 0xC0 => .nop f (hdrOf w) (unpackC w)
  | 0xC1 => .br f (hdrOf w) (unpackC w)
  | 0xC2 => .beq f (hdrOf w) (unpackC w)
  | 0xC3 => .bne f (hdrOf w) (unpackC w)
  | 0xC4 => .blt f (hdrOf w) (unpackC w)
  | 0xC5 => .bge f (hdrOf w) (unpackC w)
  | 0xC6 => .bltu f (hdrOf w) (unpackC w)
  | 0xC7 => .bgeu f (hdrOf w) (unpackC w)
  | 0xC8 => .jal f (hdrOf w) (unpackC w)
  | 0xC9 => .jr f (hdrOf w) (unpackC w)
  | 0xCA => .endCmd f (hdrOf w) (unpackC w)
  | 0xCB => .trap f (hdrOf w) (unpackC w)
  | _ => .illOpc f (hdrOf w)

/-- The Face of an instruction with an assigned opcode. -/
def instrFace (i : Instr) : Option (Fin 6) :=
  match i with
  | .add f _ _ => some f
  | .sub f _ _ => some f
  | .and f _ _ => some f
  | .or f _ _ => some f
  | .xor f _ _ => some f
  | .sll f _ _ => some f
  | .srl f _ _ => some f
  | .sra f _ _ => some f
  | .mul f _ _ => some f
  | .mulhu f _ _ => some f
  | .min f _ _ => some f
  | .max f _ _ => some f
  | .slt f _ _ => some f
  | .sltu f _ _ => some f
  | .divu f _ _ => some f
  | .li f _ _ => some f
  | .lih f _ _ => some f
  | .rdst f _ _ => some f
  | .wrst f _ _ => some f
  | .ldg f _ _ => some f
  | .stg f _ _ => some f
  | .ldd f _ _ => some f
  | .dsetf f _ _ => some f
  | .dadd f _ _ => some f
  | .dcpy f _ _ => some f
  | .lds f _ _ => some f
  | .ssetf f _ _ => some f
  | .mm f _ _ => some f
  | .ptb f _ _ => some f
  | .ptl f _ _ => some f
  | .accout f _ _ => some f
  | .accin f _ _ => some f
  | .accz f _ _ => some f
  | .vew f _ _ => some f
  | .vtr f _ _ => some f
  | .vred f _ _ => some f
  | .vnorm f _ _ => some f
  | .vsmx f _ _ => some f
  | .qnt f _ _ => some f
  | .vrnd f _ _ => some f
  | .trp f _ _ => some f
  | .gath f _ _ => some f
  | .scat f _ _ => some f
  | .gfa f _ _ => some f
  | .racc f _ _ => some f
  | .sexp f _ _ => some f
  | .simp f _ _ => some f
  | .dgarm f _ _ => some f
  | .dgout f _ _ => some f
  | .dgrd f _ _ => some f
  | .conv f _ _ => some f
  | .attn f _ _ => some f
  | .attnb f _ _ => some f
  | .kvput f _ _ => some f
  | .rstep f _ _ => some f
  | .rchunk f _ _ => some f
  | .mov f _ _ => some f
  | .movz f _ _ => some f
  | .waitEv f _ _ => some f
  | .evadd f _ _ => some f
  | .evsend f _ _ => some f
  | .sacq f _ _ => some f
  | .srel f _ _ => some f
  | .fence f _ _ => some f
  | .raiseSrc f _ _ => some f
  | .nop f _ _ => some f
  | .br f _ _ => some f
  | .beq f _ _ => some f
  | .bne f _ _ => some f
  | .blt f _ _ => some f
  | .bge f _ _ => some f
  | .bltu f _ _ => some f
  | .bgeu f _ _ => some f
  | .jal f _ _ => some f
  | .jr f _ _ => some f
  | .endCmd f _ _ => some f
  | .trap f _ _ => some f
  | _ => none

end Sys2Proof
end

