-- ==== Sys2Proof/Config.lean ====
section
/-! DEFINITION. What one part fixes (its ordering code) and the values the spec leaves open. Each constant here has no
body: nothing in the model can know its value. The argument of a free value is a running count, so that each one taken
is its own. -/

namespace Sys2Proof.Config

/-- The part's ordering code (R4): 0 ON6-H24-A, 1 ON6-H24-C, 2 ON6-H16-A. No other combination is offered. -/
opaque orderingCode : Fin 3
/-- The part is an H16 part (R4, R5). -/
def isH16 : Bool := orderingCode == 2
/-- The part is of temperature grade C (R4). -/
def gradeC : Bool := orderingCode == 1
/-- A byte whose value the spec calls unpredictable (R115, R144). -/
opaque freeByte : Nat → BitVec 8
/-- How many of a cancelled instruction's writes had been made (R136). -/
opaque freeCount : Nat → Nat
/-- Hardware entropy drawn by SRH rounding (R43) and by the security unit. -/
opaque entropy : Nat → BitVec 64
/-- A free word: a value that the spec leaves unstated. -/
opaque freeWord : Nat → BitVec 64
/-- A 32-bit code that the spec leaves unstated in the result of a deterministic instruction (R279, R282): a function of what
the instruction reads, given as its codes, and of the position of the result. -/
opaque openCode : List Nat → Nat → Nat
/-- An order of arrival (R168, R169): a key per item. -/
opaque arrival : Nat → Nat → Nat
/-- A function value that the model's exact evaluation does not settle within its fuel (R160). -/
opaque freeReal : Nat → Nat → Nat

/-- K_PUF (R458): each part's own. -/
opaque kPuf : BitVec 256
/-- The root of an SLH-DSA public key, from the secret key's 96 bytes (FIPS 205, which the spec names). -/
opaque slhRoot : List (BitVec 8) → BitVec 256
/-- Byte of an SLH-DSA-SHAKE-256f signature: secret key, message, position. -/
opaque slhSign : List (BitVec 8) → List (BitVec 8) → Nat → BitVec 8

/-! ## What the spec leaves open of the Pip engine (R240, R241) -/

/-- Byte position of a component (Y of the first pixel, Y of the second, Cb, Cr) in the four bytes of a YUV422 pair. -/
opaque pipYuvByte : Nat → Nat
/-- Where an FP32 evaluation of a sum of products of stage `k` lies inside its rounding bound, from the codes that enter it: the
order of the roundings is not given. -/
opaque pipError : Nat → List Nat → Nat
/-- Byte position of channel `c` in an RGB888 pixel. -/
opaque pipRgb : Nat → Nat
/-- FP32 code of channel `c` after gradient-corrected DEBAYER: CFA, phase, channel, and the neighbourhood's codes; the coefficient
table is not given. -/
opaque pipDebayer : Nat → Nat → Nat → List Nat → Nat
/-- Does narrowing to the X format divide by a UNIFORM X scale? -/
opaque pipDivides : Bool
/-- Format code of the bias of an FP32 accumulation. -/
opaque pipBiasFmt : Nat
/-- Format code of the per-channel weight scales. -/
opaque pipScaleFmt : Nat
/-- FP32 code of a UNIFORM Y scale, from the parameter block's last four words. -/
opaque pipYScale : List Nat → Nat
/-- Format code of the output with CONV, from DST_FMT and the X format. -/
opaque pipConvFmt : Nat → Nat → Nat
/-- Format (E8M0 or not) and rounding direction of a ROWDYN scale. -/
opaque pipRowdynE8 : Bool
opaque pipRowdynUp : Bool

/-! ## Accesses that are not served (R68) -/

/-- What stands for the byte at a device address that an engine could not read: by the free values taken so far, and address. -/
opaque busByte : Nat → Nat → BitVec 8

end Sys2Proof.Config
end

