-- ==== Sys2Proof/Machine/Num.lean ====
section
/-! DEFINITION. Numbers: the 18 formats, exact widening, rounding, saturation and conversion (R35 to R56), the roll
generator (R288) and the CRC-64 pair (R290). A value is exact: NaN, an infinity, a signed zero or a non-zero rational. -/

namespace Sys2Proof.Machine

/-- An exact value. -/
inductive Num
  | nan
  | inf (neg : Bool)
  | zero (neg : Bool)
  | fin (q : Rat)
  deriving DecidableEq, Repr

/-- Rounding modes (R42). -/
inductive Round
  | rne | rtz | rdn | rup | rna | srd | srh
  deriving DecidableEq, Repr

/-- RMODE values; 7 is reserved. -/
def roundOf : Nat → Option Round
  | 0 => some .rne
  | 1 => some .rtz
  | 2 => some .rdn
  | 3 => some .rup
  | 4 => some .rna
  | 5 => some .srd
  | 6 => some .srh
  | _ => none

/-- 2 to an integer power. -/
def pow2 (e : Int) : Rat := if 0 ≤ e then mkRat (2 ^ e.toNat) 1 else mkRat 1 (2 ^ (-e).toNat)

/-- The exponent e with 2^e ≤ |q| < 2^(e+1), for q not 0. -/
def ilog2 (q : Rat) : Int :=
  let k : Int := (Nat.log2 q.num.natAbs : Int) - (Nat.log2 q.den : Int)
  if |q| < pow2 k then k - 1 else k

/-- The value of a rational; zero is +0. -/
def Num.ofRat (q : Rat) : Num := if q = 0 then .zero false else .fin q
/-- The value of an integer. -/
def Num.ofInt (n : Int) : Num := Num.ofRat n

/-- The rational of a finite value; 0 for the others. -/
def Num.rat : Num → Rat
  | .fin q => q
  | _ => 0

/-- Is the value negative (−0 included)? -/
def Num.isNeg : Num → Bool
  | .nan => false
  | .inf n => n
  | .zero n => n
  | .fin q => decide (q < 0)

/-- Is it NaN? -/
def Num.isNan : Num → Bool
  | .nan => true
  | _ => false
/-- Is it an infinity? -/
def Num.isInf : Num → Bool
  | .inf _ => true
  | _ => false

/-- Negation. -/
def Num.neg : Num → Num
  | .nan => .nan
  | .inf n => .inf !n
  | .zero n => .zero !n
  | .fin q => .fin (-q)

/-- Absolute value. -/
def Num.abs : Num → Num
  | .nan => .nan
  | .inf _ => .inf false
  | .zero _ => .zero false
  | .fin q => .fin |q|

/-- Exact sum; a zero sum is −0 only when both are −0 (R151). -/
def Num.add : Num → Num → Num
  | .nan, _ => .nan
  | _, .nan => .nan
  | .inf a, .inf b => if a = b then .inf a else .nan
  | .inf a, _ => .inf a
  | _, .inf b => .inf b
  | .zero a, .zero b => .zero (a && b)
  | .zero _, .fin q => .fin q
  | .fin q, .zero _ => .fin q
  | .fin p, .fin q => Num.ofRat (p + q)

/-- Exact difference. -/
def Num.sub (a b : Num) : Num := Num.add a b.neg

/-- Exact product; 0 times Inf is NaN. -/
def Num.mul : Num → Num → Num
  | .nan, _ => .nan
  | _, .nan => .nan
  | .inf _, .zero _ => .nan
  | .zero _, .inf _ => .nan
  | .fin p, .fin q => .fin (p * q)
  | .zero a, y => .zero (a != y.isNeg)
  | x, .zero b => .zero (x.isNeg != b)
  | x, y => .inf (x.isNeg != y.isNeg)

/-- Exact quotient, IEEE 754 for special operands. -/
def Num.div : Num → Num → Num
  | .nan, _ => .nan
  | _, .nan => .nan
  | .inf _, .inf _ => .nan
  | .zero _, .zero _ => .nan
  | .inf a, y => .inf (a != y.isNeg)
  | x, .inf b => .zero (x.isNeg != b)
  | .zero a, y => .zero (a != y.isNeg)
  | x, .zero b => .inf (x.isNeg != b)
  | .fin p, .fin q => .fin (p / q)

/-- Times 2^e, exactly. -/
def Num.scale2 (x : Num) (e : Int) : Num :=
  match x with
  | .fin q => .fin (q * pow2 e)
  | y => y

/-- The exact sum of a list (R151): −0 only when every term is −0; an empty sum is +0. -/
def Num.sum : List Num → Num
  | [] => .zero false
  | x :: xs => xs.foldl Num.add x

/-- a < b; false with NaN; −0 equals +0 (R40). -/
def Num.lt : Num → Num → Bool
  | .nan, _ => false
  | _, .nan => false
  | .inf a, .inf b => a && !b
  | .inf a, _ => a
  | _, .inf b => !b
  | x, y => decide (x.rat < y.rat)

/-- a = b as numbers; false with NaN. -/
def Num.eqv : Num → Num → Bool
  | .nan, _ => false
  | _, .nan => false
  | .inf a, .inf b => a == b
  | .inf _, _ => false
  | _, .inf _ => false
  | x, y => decide (x.rat = y.rat)

/-- Smaller of two, −0 below +0, NaN if either is (R159 MIN). -/
def Num.min (a b : Num) : Num :=
  if a.isNan || b.isNan then .nan
  else if a.lt b then a else if b.lt a then b else if a.isNeg then a else b

/-- Larger of two, +0 above −0, NaN if either is (R159 MAX). -/
def Num.max (a b : Num) : Num :=
  if a.isNan || b.isNan then .nan
  else if a.lt b then b else if b.lt a then a else if a.isNeg then b else a

/-! ## Rounding -/

/-- Does a magnitude with integer part `fl` and fraction `fr` of a unit round up? `u` is the stochastic draw (R43). -/
def roundsUp (m : Round) (u : Nat) (neg : Bool) (fl : Nat) (fr : Rat) : Bool :=
  match m with
  | .rne => decide (1 / 2 < fr) || (decide (fr = 1 / 2) && fl % 2 == 1)
  | .rtz => false
  | .rdn => neg && decide (0 < fr)
  | .rup => !neg && decide (0 < fr)
  | .rna => decide (1 / 2 ≤ fr)
  | .srd => decide (u < (fr * 65536).floor.toNat)
  | .srh => decide (u < (fr * 65536).floor.toNat)

/-- A non-negative magnitude, in units, rounded to an integer. -/
def roundMag (m : Round) (u : Nat) (neg : Bool) (x : Rat) : Nat :=
  let fl := x.floor.toNat
  if roundsUp m u neg fl (x - fl) then fl + 1 else fl

/-- A rational rounded to an integer. -/
def roundRat (m : Round) (u : Nat) (q : Rat) : Int :=
  let n := roundMag m u (q < 0) |q|
  if q < 0 then -(n : Int) else n

/-! ## Floating-point formats (R38 to R41) -/

/-- Layout of a floating-point format: field widths, bias, largest finite code, Inf, canonical NaN. -/
structure FloatFmt where
  ebits : Nat
  mbits : Nat
  bias : Nat
  maxCode : Nat
  hasInf : Bool
  nan : Option Nat
  deriving DecidableEq, Repr

/-- The format codes of R35. -/
def fINT4 : Nat := 0
def fINT8 : Nat := 1
def fUINT8 : Nat := 2
def fINT16 : Nat := 3
def fINT32 : Nat := 4
def fFP4 : Nat := 5
def fFP6A : Nat := 6
def fFP6B : Nat := 7
def fFP8A : Nat := 8
def fFP8B : Nat := 9
def fBF16 : Nat := 10
def fFP16 : Nat := 11
def fFP32 : Nat := 12
def fE8M0 : Nat := 13
def fCB2 : Nat := 14
def fCB3 : Nat := 15
def fCB4 : Nat := 16
def fQ31 : Nat := 17

/-- Layouts of the floating-point formats (R38). -/
def floatFmt : Nat → Option FloatFmt
  | 5 => some ⟨2, 1, 1, 0x7, false, none⟩
  | 6 => some ⟨2, 3, 1, 0x1F, false, none⟩
  | 7 => some ⟨3, 2, 3, 0x1F, false, none⟩
  | 8 => some ⟨4, 3, 7, 0x7E, false, some 0x7F⟩
  | 9 => some ⟨5, 2, 15, 0x7B, true, some 0x7E⟩
  | 10 => some ⟨8, 7, 127, 0x7F7F, true, some 0x7FC0⟩
  | 11 => some ⟨5, 10, 15, 0x7BFF, true, some 0x7E00⟩
  | 12 => some ⟨8, 23, 127, 0x7F7FFFFF, true, some 0x7FC00000⟩
  | _ => none

/-- The FP32 layout. -/
def fp32Fmt : FloatFmt := ⟨8, 23, 127, 0x7F7FFFFF, true, some 0x7FC00000⟩

/-- Bits of one element (R35, R36). -/
def fmtBits : Nat → Nat
  | 0 => 4 | 1 => 8 | 2 => 8 | 3 => 16 | 4 => 32 | 5 => 4 | 6 => 6 | 7 => 6 | 8 => 8 | 9 => 8
  | 10 => 16 | 11 => 16 | 12 => 32 | 13 => 8 | 14 => 2 | 15 => 3 | 16 => 4 | 17 => 32
  | _ => 8

/-- Limits of an integer format. -/
def intRange : Nat → Option (Int × Int)
  | 0 => some (-8, 7)
  | 1 => some (-128, 127)
  | 2 => some (0, 255)
  | 3 => some (-32768, 32767)
  | 4 => some (-2147483648, 2147483647)
  | _ => none

/-- Is the format an integer format? -/
def isIntFmt (f : Nat) : Bool := (intRange f).isSome
/-- Is it a floating-point format of R38 other than E8M0? -/
def isFloatFmt (f : Nat) : Bool := (floatFmt f).isSome
/-- Is it a codebook index format? -/
def isCbFmt (f : Nat) : Bool := f == 14 || f == 15 || f == 16

/-- The value of a floating-point code (R38). -/
def FloatFmt.value (f : FloatFmt) (c : Nat) : Num :=
  let m := bits c (f.mbits - 1) 0
  let e := bits c (f.mbits + f.ebits - 1) f.mbits
  let neg := bitOf c (f.mbits + f.ebits)
  let top := 2 ^ f.ebits - 1
  if f.hasInf && e == top then (if m = 0 then .inf neg else .nan)
  else if !f.hasInf && f.nan.isSome && e == top && m == 2 ^ f.mbits - 1 then .nan
  else if e = 0 && m = 0 then .zero neg
  else
    let sig : Nat := if e = 0 then m else m + 2 ^ f.mbits
    let q := (sig : Rat) * pow2 ((Nat.max e 1 : Int) - f.bias - f.mbits)
    .fin (if neg then -q else q)

/-- The value of an E8M0 code. -/
def e8m0Value (c : Nat) : Num := if c = 255 then .nan else .fin (pow2 ((c : Int) - 127))

/-- The value of a code in any format that has one (codebook indices have none: 0). -/
def numOf (fmt c : Nat) : Num :=
  match floatFmt fmt with
  | some f => f.value c
  | none =>
    if fmt = 13 then e8m0Value c
    else if fmt = 17 then Num.ofRat ((signed 32 c : Rat) * pow2 (-31))
    else if fmt = 2 then Num.ofInt (c % 256)
    else if isIntFmt fmt then Num.ofInt (signed (fmtBits fmt) c)
    else .zero false

/-- The result of a narrowing: the code, whether it saturated (R44), whether a NaN was lost (R63). -/
structure Narrowed where
  code : Nat
  sat : Bool
  lostNan : Bool
  deriving DecidableEq, Repr

/-- Does overflow give Inf under this mode and sign when SAT is 0 (R44)? -/
def overflowInf (m : Round) (neg : Bool) : Bool :=
  match m with
  | .rne => true
  | .rna => true
  | .rdn => neg
  | .rup => !neg
  | _ => false

/-- Narrow to a floating-point format: round, then compare with the largest finite value (R44). -/
def narrowFloat (f : FloatFmt) (m : Round) (sat : Bool) (u : Nat) (x : Num) : Narrowed :=
  let sgn := if x.isNeg then 2 ^ (f.ebits + f.mbits) else 0
  let infCode := (2 ^ f.ebits - 1) * 2 ^ f.mbits
  match x with
  | .nan => match f.nan with
    | some c => ⟨c, false, false⟩
    | none => ⟨0, false, true⟩
  | .inf _ => if f.hasInf && !sat then ⟨sgn + infCode, false, false⟩ else ⟨sgn + f.maxCode, true, false⟩
  | .zero _ => ⟨sgn, false, false⟩
  | .fin q =>
    let e : Int := max (ilog2 q) (1 - (f.bias : Int))
    let sig := roundMag m u (q < 0) (|q| * pow2 ((f.mbits : Int) - e))
    let code := (e + f.bias - 1).toNat * 2 ^ f.mbits + sig
    if code ≤ f.maxCode then ⟨sgn + code, false, false⟩
    else if f.hasInf && !sat && overflowInf m (q < 0) then ⟨sgn + infCode, true, false⟩
    else ⟨sgn + f.maxCode, true, false⟩

/-- Narrow to an integer range, in units of 1, as a two's complement code of `w` bits (R44, R47). -/
def narrowRange (w : Nat) (lo hi : Int) (m : Round) (u : Nat) (x : Num) : Narrowed :=
  match x with
  | .nan => ⟨0, false, true⟩
  | .inf n => ⟨wrap w (if n then lo else hi), true, false⟩
  | .zero _ => ⟨0, false, false⟩
  | .fin q =>
    let n := roundRat m u q
    ⟨wrap w (clampInt lo hi n), decide (n < lo) || decide (hi < n), false⟩

/-- Narrow an exact value to a format in one rounding. Codebook and E8M0 formats are no target (R47). -/
def narrowTo (fmt : Nat) (m : Round) (sat : Bool) (u : Nat) (x : Num) : Narrowed :=
  match floatFmt fmt with
  | some f => narrowFloat f m sat u x
  | none => match intRange fmt with
    | some (lo, hi) => narrowRange (fmtBits fmt) lo hi m u x
    | none => if fmt = 17 then narrowRange 32 (-2147483648) 2147483647 m u (x.scale2 31) else ⟨0, false, false⟩

/-- Round to FP32 by RNE, overflow to Inf (the arithmetic of the vector unit and the accumulators). -/
def rne32 (x : Num) : Num := fp32Fmt.value (narrowFloat fp32Fmt .rne false 0 x).code

/-- The FP32 code of a value, rounded by RNE. -/
def fp32Code (x : Num) : Nat := (narrowFloat fp32Fmt .rne false 0 x).code
/-- The value of an FP32 code. -/
def fp32Val (c : Nat) : Num := fp32Fmt.value c

/-- fp32_rne of a sum. -/
def add32 (a b : Num) : Num := rne32 (a.add b)
/-- fp32_rne of a product. -/
def mul32 (a b : Num) : Num := rne32 (a.mul b)

/-- fp32_rne(acc + s) of a reduction, and whether it is a counted event: in the MX path an overflow saturates and is
counted (R53), elsewhere it gives an infinity (R151). A sum that is an infinity already has nothing to round. -/
def accRound (mx : Bool) (x : Num) : Num × Bool :=
  if mx && !x.isInf then
    let r := narrowFloat fp32Fmt .rne true 0 x
    (fp32Val r.code, r.sat)
  else (rne32 x, false)

/-- A conversion between two formats (R45 to R47): the pairs that go through FP32 take both steps. -/
def convert (src dst : Nat) (m : Round) (sat : Bool) (u : Nat) (x : Num) : Narrowed :=
  let via := (src == 17 && dst != 12 && dst != 17) || (src == 13 && dst != 12)
    || (dst == 17 && src != 12 && src != 10 && src != 11 && src != 17)
  if via then
    let y := narrowFloat fp32Fmt m sat u x
    let z := narrowTo dst m sat u (fp32Val y.code)
    ⟨z.code, y.sat || z.sat, z.lostNan⟩
  else narrowTo dst m sat u x

/-! ## Scales (R52, R57 to R62) -/

/-- A stored scale as it is read (R52), and whether that was a counted event. -/
def readScale (x : Num) : Num × Bool :=
  match x with
  | .nan => (.nan, false)
  | .inf n => (.fin (if n then -pow2 100 else pow2 100), true)
  | .zero n => (.fin (if n then -pow2 (-100) else pow2 (-100)), true)
  | .fin q =>
    let a := |q|
    let c := max (pow2 (-100)) (min (pow2 100) a)
    (.fin (if q < 0 then -c else c), decide (c ≠ a))

/-- Qmax of R60 for the nine formats that ROWDYN narrows to. -/
def qmax : Nat → Option Rat
  | 0 => some 7
  | 1 => some 127
  | 2 => some 255
  | 3 => some 32767
  | 5 => some 6
  | 6 => some (15 / 2)
  | 7 => some 28
  | 8 => some 448
  | 9 => some 57344
  | _ => none

/-- emax of R54 for MX element formats (MXINT8 is INT8). -/
def mxEmax : Nat → Option Int
  | 8 => some 8
  | 9 => some 15
  | 6 => some 2
  | 7 => some 4
  | 5 => some 2
  | 1 => some 0
  | _ => none

/-- The value of an MX element: MXINT8 elements carry 2^-6 (R53). -/
def mxElem (fmt c : Nat) : Num := if fmt = 1 then (numOf 1 c).scale2 (-6) else numOf fmt c

/-- Largest magnitude of a list, NaN and Inf skipped (R54, R60). -/
def amaxFinite (xs : List Num) : Rat := xs.foldl (fun m x => max m |x.rat|) 0

/-- ROWDYN scale of a row (R60): the code in the scale format (0 BF16, 1 E8M0) and its value. -/
def rowDynScale (xs : List Num) (alpha q : Rat) (sfmt : Nat) (up : Bool) : Nat × Num :=
  let m := amaxFinite xs
  let md : Round := if up then .rup else .rne
  if m = 0 then (if sfmt = 1 then 0x7F else 0x3F80, .fin 1)
  else
    let v := alpha * m / q
    if sfmt = 1 then
      let e := ilog2 v
      let fr := v * pow2 (-e)
      let e' := if (if up then decide (1 < fr) else decide (3 / 2 < fr) || (decide (fr = 3 / 2) && e % 2 == 0)) then e + 1 else e
      let e'' := clampInt (-100) 100 e'
      ((e'' + 127).toNat, .fin (pow2 e''))
    else
      let r := (numOf fBF16 (narrowTo fBF16 md true 0 (.fin v)).code).rat
      let c := max (pow2 (-100)) (min (pow2 100) r)
      ((narrowTo fBF16 .rne true 0 (.fin c)).code, .fin c)

/-- MX block scale (R54): the E8M0 code and the exponent. -/
def mxScale (xs : List Num) (emax : Int) : Nat × Int :=
  let a := amaxFinite xs
  if a = 0 then (0x7F, 0)
  else
    let x := clampInt (-127) 127 (ilog2 a - emax)
    ((x + 127).toNat, x)

/-- The elements of an MX block as it narrows them: in a block whose amax is 0 every zero is +0 (R54). -/
def mxBlockIn (xs : List (Num × Bool)) : List (Num × Bool) :=
  if amaxFinite (xs.map (·.1)) = 0 then xs.map fun x => (match x.1 with
    | .zero _ => .zero false
    | y => y, x.2)
  else xs

/-- An MX element narrowed with its block exponent (R54): SAT forced to 1; NaN gives +0 or the canonical NaN. -/
def mxNarrow (fmt : Nat) (m : Round) (u : Nat) (e : Int) (x : Num) : Nat :=
  let y := x.scale2 (-e)
  if fmt = 1 then (narrowTo 1 m true u (y.scale2 6)).code else (narrowTo fmt m true u y).code

/-- Rescale of R62: one rounding, then ZP, then saturation. -/
def rescale (fmt : Nat) (entry : Nat) (m : Round) (sat : Bool) (u : Nat) (acc : Num) : Narrowed :=
  let mult := signed 32 (bits entry 31 0)
  let shift := signed 6 (bits entry 53 48)
  let v := (acc.mul (Num.ofInt mult)).scale2 (-(31 + shift))
  match intRange fmt with
  | none => narrowTo fmt m sat u v
  | some (lo, hi) =>
    let zp : Int := if fmt = 2 then bits entry 63 56 else signed 8 (bits entry 63 56)
    match v with
    | .fin q =>
      let n := roundRat m u q + zp
      ⟨wrap (fmtBits fmt) (clampInt lo hi n), decide (n < lo) || decide (hi < n), false⟩
    | .zero _ => ⟨wrap (fmtBits fmt) (clampInt lo hi zp), decide (zp < lo) || decide (hi < zp), false⟩
    | .nan => ⟨wrap (fmtBits fmt) (clampInt lo hi zp), false, true⟩
    | .inf n => ⟨wrap (fmtBits fmt) (if n then lo else hi), true, false⟩

/-! ## The roll generator (R288) -/

/-- State of the generator. -/
structure Sip where
  v0 : Word
  v1 : Word
  v2 : Word
  v3 : Word
  deriving DecidableEq, Repr

/-- One round. -/
def Sip.round (s : Sip) : Sip :=
  let v0 := s.v0 + s.v1
  let v1 := (s.v1.rotateLeft 13) ^^^ v0
  let v0 := v0.rotateLeft 32
  let v2 := s.v2 + s.v3
  let v3 := (s.v3.rotateLeft 16) ^^^ v2
  let v0 := v0 + v3
  let v3 := (v3.rotateLeft 21) ^^^ v0
  let v2 := v2 + v1
  let v1 := (v1.rotateLeft 17) ^^^ v2
  ⟨v0, v1, v2.rotateLeft 32, v3⟩

/-- Absorb one message word. -/
def Sip.absorb (s : Sip) (m : Word) : Sip :=
  let t := ({ s with v3 := s.v3 ^^^ m } : Sip).round.round
  { t with v0 := t.v0 ^^^ m }

/-- roll(seed, stream, step, index) (R288). -/
def roll (seedLo seedHi : Word) (stream : Nat) (step index : Nat) : Word :=
  let s : Sip := ⟨seedLo ^^^ 0x736F6D6570736575, seedHi ^^^ 0x646F72616E646F6D,
    seedLo ^^^ 0x6C7967656E657261, seedHi ^^^ 0x7465646279746573⟩
  let m0 := BitVec.ofNat 64 (stream % 2 ^ 32 + (step % 2 ^ 32) * 2 ^ 32)
  let m1 := BitVec.ofNat 64 (bits step 63 32 + (index % 2 ^ 32) * 2 ^ 32)
  let m2 := BitVec.ofNat 64 (bits index 63 32 + 0x14 * 2 ^ 56)
  let s := ((s.absorb m0).absorb m1).absorb m2
  let s := ({ s with v2 := s.v2 ^^^ 0xFF } : Sip).round.round.round.round
  s.v0 ^^^ s.v1 ^^^ s.v2 ^^^ s.v3

/-! ## CRCs, least significant bit first -/

/-- One bit of a reflected CRC with the reflected polynomial `p`. -/
def crcBit (p c : Nat) : Nat := if c % 2 = 1 then (c / 2) ^^^ p else c / 2

/-- One byte of a reflected CRC. -/
def crcByte (p c b : Nat) : Nat :=
  crcBit p (crcBit p (crcBit p (crcBit p (crcBit p (crcBit p (crcBit p (crcBit p (c ^^^ b))))))))

/-- A reflected CRC over bytes, initial value and final XOR all ones of `w` bits. -/
def crcReflected (w p : Nat) (bs : List Byte) : Nat :=
  (bs.foldl (fun c b => crcByte p c b.toNat) (2 ^ w - 1)) ^^^ (2 ^ w - 1)

/-- CRC-64 ECMA-182 of R290 (its polynomial reflected). -/
def crc64Ecma (bs : List Byte) : Nat := crcReflected 64 0xC96C5795D7870F42 bs
/-- CRC-64 ISO 3309 of R290 (its polynomial reflected). -/
def crc64Iso (bs : List Byte) : Nat := crcReflected 64 0xD800000000000000 bs

end Sys2Proof.Machine
end

