-- ==== Sys2Proof/Machine/Regs.lean ====
section
/-! DEFINITION. The register map: every register kind of the spec's register tables, its address, and what a
write may change (R10). Home-side registers have no device address (R16); their key is 2^48 + Home address. -/

namespace Sys2Proof.Machine

/-- One register kind: `n` indices with a stride each, its width in bytes, its reset value, and the bits that are
read/write, write-1-to-clear, write-only, sticky (RWS) and lockable (RWL). -/
structure RegRow where
  name : String
  base : Nat
  strides : List (Nat × Nat)
  width : Nat
  reset : Nat
  rw : Nat
  w1c : Nat
  wo : Nat
  rws : Nat
  rwl : Nat
  deriving DecidableEq, Repr

/-- Key offset of the Home address space. -/
def homeSpace : Nat := 0x1000000000000

namespace Reg

/-- PACE_FACE (R23). -/
def PACE_FACE (i : Nat) : Nat := 0x7F00012000 + 0x4 * i
/-- PACE_COMMON (R23). -/
def PACE_COMMON : Nat := 0x7F00012018
/-- PACE_HOME (R23). -/
def PACE_HOME : Nat := 0x7F0001201C
/-- PACE_LOW (R23). -/
def PACE_LOW : Nat := 0x7F00012020
/-- QSAT_CNT (R64). -/
def QSAT_CNT (i j : Nat) : Nat := 0x7F00020000 + 0x1000 * i + 0x8 * j
/-- QSAT_THRESH (R64). -/
def QSAT_THRESH (i : Nat) : Nat := 0x7F00020200 + 0x1000 * i
/-- QSAT_CTRL (R64). -/
def QSAT_CTRL (i : Nat) : Nat := 0x7F00020208 + 0x1000 * i
/-- QSAT_STATUS (R64). -/
def QSAT_STATUS (i : Nat) : Nat := 0x7F00020210 + 0x1000 * i
/-- QSAT_SNAP (R64). -/
def QSAT_SNAP (i j : Nat) : Nat := 0x7F00020400 + 0x1000 * i + 0x8 * j
/-- PLACE_CTRL (R98). -/
def PLACE_CTRL : Nat := 0x7F00030000
/-- PLACE_STATUS (R98). -/
def PLACE_STATUS : Nat := 0x7F00030008
/-- PLACE_COMMIT (R98). -/
def PLACE_COMMIT : Nat := 0x7F00030010
/-- PLACE_ERR (R98). -/
def PLACE_ERR : Nat := 0x7F00030018
/-- PLACE_VMAP (R98). -/
def PLACE_VMAP (i : Nat) : Nat := 0x7F00030100 + 0x8 * i
/-- PLACE_SVMAP (R98). -/
def PLACE_SVMAP (i : Nat) : Nat := 0x7F00030180 + 0x8 * i
/-- PLACE_CNT_SEL (R98). -/
def PLACE_CNT_SEL : Nat := 0x7F00030200
/-- PLACE_CNT_READS (R98). -/
def PLACE_CNT_READS : Nat := 0x7F00030208
/-- PLACE_CNT_WRITES (R98). -/
def PLACE_CNT_WRITES : Nat := 0x7F00030210
/-- PLACE_BSEL (R98). -/
def PLACE_BSEL : Nat := 0x7F00030218
/-- PLACE_BREC (R98). -/
def PLACE_BREC : Nat := 0x7F00030220
/-- PLACE_BSIZE (R98). -/
def PLACE_BSIZE : Nat := 0x7F00030228
/-- PLACE_BBACK (R98). -/
def PLACE_BBACK : Nat := 0x7F00030230
/-- PLACE_BBIND (R98). -/
def PLACE_BBIND : Nat := 0x7F00030238
/-- PLACE_SBIND (R98). -/
def PLACE_SBIND : Nat := 0x7F00030240
/-- HBMC_SHARE (R82). -/
def HBMC_SHARE (i : Nat) : Nat := 0x7F00040000 + 0x4 * i
/-- HBMC_STATUS (R82). -/
def HBMC_STATUS : Nat := 0x7F00040040
/-- HBMC_CE (R82). -/
def HBMC_CE (i : Nat) : Nat := 0x7F00040080 + 0x8 * i
/-- HBMC_UE (R82). -/
def HBMC_UE (i : Nat) : Nat := 0x7F00040090 + 0x8 * i
/-- HBMC_RETRY (R82). -/
def HBMC_RETRY : Nat := 0x7F000400A0
/-- HBMC_ERRADDR (R82). -/
def HBMC_ERRADDR : Nat := 0x7F000400A8
/-- FACE_CTRL (R139). -/
def FACE_CTRL (i : Nat) : Nat := 0x7F00050000 + 0x1000 * i
/-- FACE_STATUS (R139). -/
def FACE_STATUS (i : Nat) : Nat := 0x7F00050008 + 0x1000 * i
/-- FACE_EXC (R139). -/
def FACE_EXC (i : Nat) : Nat := 0x7F00050010 + 0x1000 * i
/-- FACE_EXCINFO (R139). -/
def FACE_EXCINFO (i : Nat) : Nat := 0x7F00050018 + 0x1000 * i
/-- FACE_EVOVF0 (R139). -/
def FACE_EVOVF0 (i : Nat) : Nat := 0x7F00050020 + 0x1000 * i
/-- FACE_EVOVF1 (R139). -/
def FACE_EVOVF1 (i : Nat) : Nat := 0x7F00050028 + 0x1000 * i
/-- SYNC_SEM (R124). -/
def SYNC_SEM (i : Nat) : Nat := 0x7F00060000 + 0x8 * i
/-- SYNC_NETSEL (R124). -/
def SYNC_NETSEL : Nat := 0x7F00060800
/-- SYNC_NET (R124). -/
def SYNC_NET : Nat := 0x7F00060808
/-- SYNC_RSEL (R124). -/
def SYNC_RSEL : Nat := 0x7F00060810
/-- SYNC_RVAL (R124). -/
def SYNC_RVAL : Nat := 0x7F00060818
/-- ATTN_EMPTY (R199). -/
def ATTN_EMPTY (i : Nat) : Nat := 0x7F00070000 + 0x1000 * i
/-- ATTN_NANROW (R199). -/
def ATTN_NANROW (i : Nat) : Nat := 0x7F00070008 + 0x1000 * i
/-- ATTN_PAGEMISS (R199). -/
def ATTN_PAGEMISS (i : Nat) : Nat := 0x7F00070010 + 0x1000 * i
/-- ATTN_LENCLIP (R199). -/
def ATTN_LENCLIP (i : Nat) : Nat := 0x7F00070018 + 0x1000 * i
/-- ATTN_KVDROP (R199). -/
def ATTN_KVDROP (i : Nat) : Nat := 0x7F00070020 + 0x1000 * i
/-- ATTN_CTRL (R199). -/
def ATTN_CTRL (i : Nat) : Nat := 0x7F00070040 + 0x1000 * i
/-- REC_NEARINT (R226). -/
def REC_NEARINT (i : Nat) : Nat := 0x7F00080000 + 0x1000 * i
/-- REC_NONFIN (R226). -/
def REC_NONFIN (i : Nat) : Nat := 0x7F00080008 + 0x1000 * i
/-- REC_RESETS (R226). -/
def REC_RESETS (i : Nat) : Nat := 0x7F00080010 + 0x1000 * i
/-- REC_SIMPFAIL (R226). -/
def REC_SIMPFAIL (i : Nat) : Nat := 0x7F00080018 + 0x1000 * i
/-- REC_CTRL (R226). -/
def REC_CTRL (i : Nat) : Nat := 0x7F00080040 + 0x1000 * i
/-- PIP_CTRL (R247). -/
def PIP_CTRL : Nat := 0x7F00090000
/-- PIP_STATUS (R247). -/
def PIP_STATUS : Nat := 0x7F00090008
/-- PIP_QPUSH (R247). -/
def PIP_QPUSH (i : Nat) : Nat := 0x7F00090010 + 0x8 * i
/-- PIP_QLEVEL (R247). -/
def PIP_QLEVEL (i : Nat) : Nat := 0x7F00090050 + 0x8 * i
/-- PIP_QFLUSH (R247). -/
def PIP_QFLUSH : Nat := 0x7F00090090
/-- PIP_DONE (R247). -/
def PIP_DONE : Nat := 0x7F00090098
/-- PIP_FAIL (R247). -/
def PIP_FAIL : Nat := 0x7F000900A0
/-- PIP_SAT (R247). -/
def PIP_SAT : Nat := 0x7F000900A8
/-- SCHED_CTRL (R277). -/
def SCHED_CTRL : Nat := 0x7F000A0000
/-- SCHED_STATUS (R277). -/
def SCHED_STATUS : Nat := 0x7F000A0008
/-- SCHED_COMMIT (R277). -/
def SCHED_COMMIT : Nat := 0x7F000A0010
/-- SCHED_ERR (R277). -/
def SCHED_ERR : Nat := 0x7F000A0018
/-- SCHED_BASE (R277). -/
def SCHED_BASE : Nat := 0x7F000A0020
/-- SCHED_FRAME (R277). -/
def SCHED_FRAME : Nat := 0x7F000A0028
/-- SCHED_SFRAME (R277). -/
def SCHED_SFRAME : Nat := 0x7F000A0030
/-- SCHED_PARTA (R277). -/
def SCHED_PARTA (i : Nat) : Nat := 0x7F000A0040 + 0x8 * i
/-- SCHED_PARTB (R277). -/
def SCHED_PARTB (i : Nat) : Nat := 0x7F000A0080 + 0x8 * i
/-- SCHED_JOB (R277). -/
def SCHED_JOB (i : Nat) : Nat := 0x7F000A0100 + 0x8 * i
/-- SCHED_SLOT (R259). -/
def SCHED_SLOT (i : Nat) : Nat := 0x7F000A0400 + 0x8 * i
/-- SCHED_SSLOT (R259). -/
def SCHED_SSLOT (i : Nat) : Nat := 0x7F000A0600 + 0x8 * i
/-- SCHED_QSEL (R277). -/
def SCHED_QSEL : Nat := 0x7F000A0800
/-- SCHED_QBASE (R277). -/
def SCHED_QBASE : Nat := 0x7F000A0808
/-- SCHED_QHEAD (R277). -/
def SCHED_QHEAD : Nat := 0x7F000A0810
/-- SCHED_QTAIL (R277). -/
def SCHED_QTAIL : Nat := 0x7F000A0818
/-- ARB_CTRL (R278). -/
def ARB_CTRL : Nat := 0x7F000B0000
/-- ARB_STARVE (R278). -/
def ARB_STARVE : Nat := 0x7F000B0008
/-- ARB_REVOKE (R278). -/
def ARB_REVOKE : Nat := 0x7F000B0010
/-- DET_ID (R302). -/
def DET_ID : Nat := 0x7F000C0000
/-- DET_SEEDLO (R302). -/
def DET_SEEDLO (i : Nat) : Nat := 0x7F000C0100 + 0x40 * i
/-- DET_SEEDHI (R302). -/
def DET_SEEDHI (i : Nat) : Nat := 0x7F000C0108 + 0x40 * i
/-- DET_JSTEP (R302). -/
def DET_JSTEP (i : Nat) : Nat := 0x7F000C0110 + 0x40 * i
/-- DET_STEP (R302). -/
def DET_STEP (i : Nat) : Nat := 0x7F000C0118 + 0x40 * i
/-- DET_JCTRL (R302). -/
def DET_JCTRL (i : Nat) : Nat := 0x7F000C0120 + 0x40 * i
/-- DET_LOGBASE (R302). -/
def DET_LOGBASE (i : Nat) : Nat := 0x7F000C0128 + 0x40 * i
/-- DET_LOGSTAT (R302). -/
def DET_LOGSTAT (i : Nat) : Nat := 0x7F000C0130 + 0x40 * i
/-- PERT_CTRL (R301). -/
def PERT_CTRL : Nat := 0x7F000D0000
/-- PERT_STATUS (R301). -/
def PERT_STATUS : Nat := 0x7F000D0008
/-- PERT_CHSEL (R301). -/
def PERT_CHSEL : Nat := 0x7F000D0010
/-- PERT_DELAY (R301). -/
def PERT_DELAY : Nat := 0x7F000D0018
/-- PERT_BP (R301). -/
def PERT_BP : Nat := 0x7F000D0020
/-- PERT_HBM (R301). -/
def PERT_HBM : Nat := 0x7F000D0028
/-- PERT_LINK (R301). -/
def PERT_LINK : Nat := 0x7F000D0030
/-- TIMEM_RAW (R366). -/
def TIMEM_RAW : Nat := 0x7F000E0000
/-- TIMEM_NOW0 (R366). -/
def TIMEM_NOW0 : Nat := 0x7F000E0008
/-- TIMEM_NOW1 (R366). -/
def TIMEM_NOW1 : Nat := 0x7F000E0010
/-- TIMEM_STATUS (R366). -/
def TIMEM_STATUS : Nat := 0x7F000E0018
/-- TIMEM_RA (R366). -/
def TIMEM_RA : Nat := 0x7F000E0020
/-- TIMEM_TA0 (R366). -/
def TIMEM_TA0 : Nat := 0x7F000E0028
/-- TIMEM_TA1 (R366). -/
def TIMEM_TA1 : Nat := 0x7F000E0030
/-- TIMEM_RHO (R366). -/
def TIMEM_RHO : Nat := 0x7F000E0038
/-- SAFE_CTRL (R456). -/
def SAFE_CTRL : Nat := 0x7F000F0000
/-- SAFE_STATUS (R456). -/
def SAFE_STATUS : Nat := 0x7F000F0008
/-- SAFE_KICK (R456). -/
def SAFE_KICK : Nat := 0x7F000F0010
/-- SAFE_INJ (R456). -/
def SAFE_INJ : Nat := 0x7F000F0018
/-- GOLD_CTRL (R456). -/
def GOLD_CTRL : Nat := 0x7F000F0040
/-- GOLD_STATUS (R456). -/
def GOLD_STATUS : Nat := 0x7F000F0048
/-- GOLD_START (R456). -/
def GOLD_START : Nat := 0x7F000F0050
/-- SAFE_CE (R456). -/
def SAFE_CE : Nat := 0x7F000F0020
/-- CSI_CTRL (R373). -/
def CSI_CTRL (i : Nat) : Nat := 0x7F00100000 + 0x1000 * i
/-- CSI_STATUS (R373). -/
def CSI_STATUS (i : Nat) : Nat := 0x7F00100008 + 0x1000 * i
/-- CSI_STREAM (R373). -/
def CSI_STREAM (i j : Nat) : Nat := 0x7F00100010 + 0x1000 * i + 0x8 * j
/-- CSI_UNSEL (R373). -/
def CSI_UNSEL (i : Nat) : Nat := 0x7F00100040 + 0x1000 * i
/-- CSI_NOBUF (R373). -/
def CSI_NOBUF (i : Nat) : Nat := 0x7F00100048 + 0x1000 * i
/-- CSI_DROP (R373). -/
def CSI_DROP (i : Nat) : Nat := 0x7F00100050 + 0x1000 * i
/-- CSI_CRCERR (R373). -/
def CSI_CRCERR (i : Nat) : Nat := 0x7F00100058 + 0x1000 * i
/-- CSI_RBASE (R373). -/
def CSI_RBASE (i j : Nat) : Nat := 0x7F00100060 + 0x1000 * i + 0x10 * j
/-- CSI_RCTL (R373). -/
def CSI_RCTL (i j : Nat) : Nat := 0x7F00100068 + 0x1000 * i + 0x10 * j
/-- ETH_CTRL (R378). -/
def ETH_CTRL (i : Nat) : Nat := 0x7F00110000 + 0x1000 * i
/-- ETH_STATUS (R378). -/
def ETH_STATUS (i : Nat) : Nat := 0x7F00110008 + 0x1000 * i
/-- ETH_GCLCTL (R378). -/
def ETH_GCLCTL (i : Nat) : Nat := 0x7F00110010 + 0x1000 * i
/-- ETH_GCLBASE (R378). -/
def ETH_GCLBASE (i : Nat) : Nat := 0x7F00110018 + 0x1000 * i
/-- ETH_TSRX0 (R378). -/
def ETH_TSRX0 (i : Nat) : Nat := 0x7F00110020 + 0x1000 * i
/-- ETH_TSTX0 (R378). -/
def ETH_TSTX0 (i : Nat) : Nat := 0x7F00110030 + 0x1000 * i
/-- ETH_TSRX1 (R378). -/
def ETH_TSRX1 (i : Nat) : Nat := 0x7F00110028 + 0x1000 * i
/-- ETH_TSTX1 (R378). -/
def ETH_TSTX1 (i : Nat) : Nat := 0x7F00110038 + 0x1000 * i
/-- ETH_TSDROP (R378). -/
def ETH_TSDROP (i : Nat) : Nat := 0x7F00110040 + 0x1000 * i
/-- ETH_RXDROP (R378). -/
def ETH_RXDROP (i : Nat) : Nat := 0x7F00110048 + 0x1000 * i
/-- ETH_LATE (R378). -/
def ETH_LATE (i : Nat) : Nat := 0x7F00110050 + 0x1000 * i
/-- ETH_TXBASE (R378). -/
def ETH_TXBASE (i j : Nat) : Nat := 0x7F00110100 + 0x1000 * i + 0x10 * j
/-- ETH_TXCTL (R378). -/
def ETH_TXCTL (i j : Nat) : Nat := 0x7F00110108 + 0x1000 * i + 0x10 * j
/-- ETH_RXBASE (R378). -/
def ETH_RXBASE (i j : Nat) : Nat := 0x7F00110200 + 0x1000 * i + 0x10 * j
/-- ETH_RXCTL (R378). -/
def ETH_RXCTL (i j : Nat) : Nat := 0x7F00110208 + 0x1000 * i + 0x10 * j
/-- ETH_CBS (R378). -/
def ETH_CBS (i j : Nat) : Nat := 0x7F00110300 + 0x1000 * i + 0x8 * j
/-- ETH_GCL (R378). -/
def ETH_GCL (i j : Nat) : Nat := 0x7F00110400 + 0x1000 * i + 0x8 * j
/-- EFL_TOPO (R426). -/
def EFL_TOPO : Nat := 0x7F00120000
/-- EFL_WERR (R426). -/
def EFL_WERR : Nat := 0x7F00120008
/-- WINA (R426). -/
def WINA (i : Nat) : Nat := 0x7F00120100 + 0x10 * i
/-- WINB (R426). -/
def WINB (i : Nat) : Nat := 0x7F00120108 + 0x10 * i
/-- EFL_CTRL (R427). -/
def EFL_CTRL (i : Nat) : Nat := 0x7F00130000 + 0x1000 * i
/-- EFL_STATUS (R427). -/
def EFL_STATUS (i : Nat) : Nat := 0x7F00130008 + 0x1000 * i
/-- EFL_CREDIT (R427). -/
def EFL_CREDIT (i : Nat) : Nat := 0x7F00130010 + 0x1000 * i
/-- EFL_CRCERR (R427). -/
def EFL_CRCERR (i : Nat) : Nat := 0x7F00130018 + 0x1000 * i
/-- EFL_RETRY (R427). -/
def EFL_RETRY (i : Nat) : Nat := 0x7F00130020 + 0x1000 * i
/-- EFL_FEC (R427). -/
def EFL_FEC (i : Nat) : Nat := 0x7F00130028 + 0x1000 * i
/-- EFL_REFUSED (R427). -/
def EFL_REFUSED (i : Nat) : Nat := 0x7F00130030 + 0x1000 * i
/-- EFL_RETRAINS (R427). -/
def EFL_RETRAINS (i : Nat) : Nat := 0x7F00130038 + 0x1000 * i
/-- PWR_CTRL (R486). -/
def PWR_CTRL : Nat := 0x7F00140000
/-- PWR_CAP (R486). -/
def PWR_CAP : Nat := 0x7F00140008
/-- PWR_STATUS (R486). -/
def PWR_STATUS : Nat := 0x7F00140010
/-- PWR_CLAMPLOG (R486). -/
def PWR_CLAMPLOG : Nat := 0x7F00140018
/-- PWR_TRIM (R486). -/
def PWR_TRIM (i : Nat) : Nat := 0x7F00140040 + 0x8 * i
/-- PWR_ENERGY (R486). -/
def PWR_ENERGY (i : Nat) : Nat := 0x7F00140080 + 0x8 * i
/-- EVT_SRC (R505). -/
def EVT_SRC (i : Nat) : Nat := 0x7F00150000 + 0x8 * i
/-- EVTP_PEND (R505). -/
def EVTP_PEND (i : Nat) : Nat := 0x7F00160000 + 0x8 * i
/-- EVTP_RAISE (R505). -/
def EVTP_RAISE : Nat := 0x7F00160040
/-- CPB_WINA (R501). -/
def CPB_WINA (i : Nat) : Nat := 0x7F00170000 + 0x10 * i
/-- CPB_WINB (R501). -/
def CPB_WINB (i : Nat) : Nat := 0x7F00170008 + 0x10 * i
/-- CPB_DOORBELL (R501). -/
def CPB_DOORBELL : Nat := 0x7F00170100
/-- PCIE_CTRL (R380). -/
def PCIE_CTRL : Nat := 0x7F00180000
/-- PCIE_STATUS (R380). -/
def PCIE_STATUS : Nat := 0x7F00180008
/-- PCIE_BAR0WIN (R380). -/
def PCIE_BAR0WIN : Nat := 0x7F00180010
/-- PCIE_MSIX (R380). -/
def PCIE_MSIX : Nat := 0x7F00180018
/-- PCIE_DBPEND (R380). -/
def PCIE_DBPEND : Nat := 0x7F00180020
/-- PCIE_ERR (R380). -/
def PCIE_ERR : Nat := 0x7F00180028
/-- SYS_ID (R513). -/
def SYS_ID : Nat := 0x7F00000000
/-- SYS_CTRL (R513). -/
def SYS_CTRL : Nat := 0x7F00000008
/-- SYS_BOOT (R513). -/
def SYS_BOOT : Nat := 0x7F00000010
/-- SYS_STATUS (R513). -/
def SYS_STATUS : Nat := 0x7F00000018
/-- CE_CTRL (R324). -/
def CE_CTRL : Nat := 0x1000080010000
/-- CE_STATUS (R324). -/
def CE_STATUS : Nat := 0x1000080010004
/-- CE_ERR (R324). -/
def CE_ERR : Nat := 0x1000080010008
/-- CE_SPCOMMIT (R324). -/
def CE_SPCOMMIT : Nat := 0x100008001000C
/-- CE_MISS (R324). -/
def CE_MISS (i : Nat) : Nat := 0x1000080010010 + 0x4 * i
/-- CE_BASE (R324). -/
def CE_BASE (i : Nat) : Nat := 0x1000080010018 + 0x4 * i
/-- CE_LOOP_CFG (R324). -/
def CE_LOOP_CFG (i : Nat) : Nat := 0x1000080010100 + 0x10 * i
/-- CE_LOOP_OUT (R324). -/
def CE_LOOP_OUT (i : Nat) : Nat := 0x1000080010104 + 0x10 * i
/-- CE_LOOP_PROG (R324). -/
def CE_LOOP_PROG (i : Nat) : Nat := 0x1000080010108 + 0x10 * i
/-- CE_LSTAT (R324). -/
def CE_LSTAT (i : Nat) : Nat := 0x100008001010C + 0x10 * i
/-- CE_IN (R324). -/
def CE_IN (i : Nat) : Nat := 0x1000080010800 + 0x4 * i
/-- CE_OUTW (R324). -/
def CE_OUTW (i : Nat) : Nat := 0x1000080010A00 + 0x4 * i
/-- CE_SPW (R324). -/
def CE_SPW (i : Nat) : Nat := 0x1000080011000 + 0x4 * i
/-- CE_SPA (R324). -/
def CE_SPA (i : Nat) : Nat := 0x1000080011400 + 0x4 * i
/-- CE_COEF_VALUE (R314). -/
def CE_COEF_VALUE (i : Nat) : Nat := 0x1000080012000 + 0x8 * i
/-- CE_COEF_SHIFT (R314). -/
def CE_COEF_SHIFT (i : Nat) : Nat := 0x1000080012004 + 0x8 * i
/-- CE_STATE (R324). -/
def CE_STATE (i j : Nat) : Nat := 0x1000080016000 + 0x40 * i + 0x4 * j
/-- CE_PMEM (R311). -/
def CE_PMEM (i : Nat) : Nat := 0x1000080018000 + 0x4 * i
/-- EVH_PEND (R505). -/
def EVH_PEND (i : Nat) : Nat := 0x1000080020000 + 0x4 * i
/-- EVH_HOST (R505). -/
def EVH_HOST (i : Nat) : Nat := 0x1000080020040 + 0x4 * i
/-- EVH_RAISE (R505). -/
def EVH_RAISE : Nat := 0x1000080020080
/-- CPH_STATUS (R499). -/
def CPH_STATUS : Nat := 0x1000080030000
/-- CPH_CTRL (R499). -/
def CPH_CTRL : Nat := 0x1000080030004
/-- CPH_CFG (R499). -/
def CPH_CFG : Nat := 0x1000080030008
/-- CPH_MBOX (R499). -/
def CPH_MBOX : Nat := 0x100008003000C
/-- CPH_CNT (R499). -/
def CPH_CNT : Nat := 0x1000080030010
/-- CPH_PEND (R499). -/
def CPH_PEND (i : Nat) : Nat := 0x1000080030040 + 0x4 * i
/-- SOLV_CTRL (R337). -/
def SOLV_CTRL : Nat := 0x1000080040000
/-- SOLV_DESC (R337). -/
def SOLV_DESC : Nat := 0x1000080040004
/-- SOLV_STATUS (R337). -/
def SOLV_STATUS : Nat := 0x1000080040008
/-- SOLV_CNT (R337). -/
def SOLV_CNT : Nat := 0x100008004000C
/-- HOLD_CTRL (R341). -/
def HOLD_CTRL : Nat := 0x1000080050000
/-- HOLD_STATUS (R341). -/
def HOLD_STATUS : Nat := 0x1000080050004
/-- HOLD_TGT (R341). -/
def HOLD_TGT (i : Nat) : Nat := 0x1000080050800 + 0x8 * i
/-- HOLD_RATE (R341). -/
def HOLD_RATE (i : Nat) : Nat := 0x1000080050804 + 0x8 * i
/-- TIME_STATUS (R365). -/
def TIME_STATUS : Nat := 0x1000080060000
/-- TIME_RAWLO (R365). -/
def TIME_RAWLO : Nat := 0x1000080060008
/-- TIME_RAWHI (R365). -/
def TIME_RAWHI : Nat := 0x100008006000C
/-- TIME_NOW0 (R365). -/
def TIME_NOW0 : Nat := 0x1000080060010
/-- TIME_NOW1 (R365). -/
def TIME_NOW1 : Nat := 0x1000080060014
/-- TIME_NOW2 (R365). -/
def TIME_NOW2 : Nat := 0x1000080060018
/-- TIME_RATELO (R365). -/
def TIME_RATELO : Nat := 0x1000080060020
/-- TIME_RATEHI (R365). -/
def TIME_RATEHI : Nat := 0x1000080060024
/-- TIME_STEPLO (R365). -/
def TIME_STEPLO : Nat := 0x1000080060028
/-- TIME_STEPHI (R365). -/
def TIME_STEPHI : Nat := 0x100008006002C
/-- TIME_STEPFR (R365). -/
def TIME_STEPFR : Nat := 0x1000080060030
/-- PPS_CTRL (R365). -/
def PPS_CTRL : Nat := 0x1000080060040
/-- PPS_STATUS (R365). -/
def PPS_STATUS : Nat := 0x1000080060044
/-- PPS_CAPLO (R365). -/
def PPS_CAPLO : Nat := 0x1000080060048
/-- PPS_CAPHI (R365). -/
def PPS_CAPHI : Nat := 0x100008006004C
/-- PPS_ERR (R365). -/
def PPS_ERR : Nat := 0x1000080060050
/-- PPS_EDGES (R365). -/
def PPS_EDGES : Nat := 0x1000080060054
/-- PPS_DLY (R365). -/
def PPS_DLY : Nat := 0x1000080060058
/-- CAN_CTRL (R390). -/
def CAN_CTRL (i : Nat) : Nat := 0x1000080070000 + 0x1000 * i
/-- CAN_STATUS (R390). -/
def CAN_STATUS (i : Nat) : Nat := 0x1000080070004 + 0x1000 * i
/-- CAN_BIT (R390). -/
def CAN_BIT (i j : Nat) : Nat := 0x1000080070008 + 0x1000 * i + 0x4 * j
/-- CAN_TXCMD (R390). -/
def CAN_TXCMD (i : Nat) : Nat := 0x1000080070014 + 0x1000 * i
/-- CAN_TXSTAT (R390). -/
def CAN_TXSTAT (i j : Nat) : Nat := 0x1000080070018 + 0x1000 * i + 0x4 * j
/-- CAN_NOMATCH (R390). -/
def CAN_NOMATCH (i : Nat) : Nat := 0x1000080070030 + 0x1000 * i
/-- CAN_RXDROP (R390). -/
def CAN_RXDROP (i : Nat) : Nat := 0x1000080070034 + 0x1000 * i
/-- CAN_RXBASE (R390). -/
def CAN_RXBASE (i j : Nat) : Nat := 0x1000080070040 + 0x1000 * i + 0x10 * j
/-- CAN_RXCFG (R390). -/
def CAN_RXCFG (i j : Nat) : Nat := 0x1000080070044 + 0x1000 * i + 0x10 * j
/-- CAN_RXHEAD (R390). -/
def CAN_RXHEAD (i j : Nat) : Nat := 0x1000080070048 + 0x1000 * i + 0x10 * j
/-- CAN_RXTAIL (R390). -/
def CAN_RXTAIL (i j : Nat) : Nat := 0x100008007004C + 0x1000 * i + 0x10 * j
/-- CAN_FMATCH (R390). -/
def CAN_FMATCH (i j : Nat) : Nat := 0x1000080070100 + 0x1000 * i + 0x10 * j
/-- CAN_FMASK (R390). -/
def CAN_FMASK (i j : Nat) : Nat := 0x1000080070104 + 0x1000 * i + 0x10 * j
/-- CAN_FCFG (R390). -/
def CAN_FCFG (i j : Nat) : Nat := 0x1000080070108 + 0x1000 * i + 0x10 * j
/-- BLD_REC (R381). -/
def BLD_REC (i j : Nat) : Nat := 0x1000080090000 + 0x40 * i + 0x4 * j
/-- BLD_MAP (R383). -/
def BLD_MAP (i j : Nat) : Nat := 0x1000080090800 + 0x10 * i + 0x4 * j
/-- BLD_REPLACED (R384). -/
def BLD_REPLACED : Nat := 0x1000080090A00
/-- BLD_SKIPPED (R384). -/
def BLD_SKIPPED : Nat := 0x1000080090A04
/-- BLD_SHORT (R384). -/
def BLD_SHORT : Nat := 0x1000080090A08
/-- BLD_LAST (R384). -/
def BLD_LAST : Nat := 0x1000080090A0C
/-- BLD_CTRL (R384). -/
def BLD_CTRL : Nat := 0x1000080090A10
/-- T1S_CTRL (R392). -/
def T1S_CTRL (i : Nat) : Nat := 0x10000800A0000 + 0x1000 * i
/-- T1S_STATUS (R392). -/
def T1S_STATUS (i : Nat) : Nat := 0x10000800A0004 + 0x1000 * i
/-- T1S_TXPUSH (R392). -/
def T1S_TXPUSH (i : Nat) : Nat := 0x10000800A0008 + 0x1000 * i
/-- T1S_TXSTAT (R392). -/
def T1S_TXSTAT (i : Nat) : Nat := 0x10000800A000C + 0x1000 * i
/-- T1S_RXBASE (R392). -/
def T1S_RXBASE (i : Nat) : Nat := 0x10000800A0010 + 0x1000 * i
/-- T1S_RXHEAD (R392). -/
def T1S_RXHEAD (i : Nat) : Nat := 0x10000800A0014 + 0x1000 * i
/-- T1S_RXTAIL (R392). -/
def T1S_RXTAIL (i : Nat) : Nat := 0x10000800A0018 + 0x1000 * i
/-- T1S_RXDROP (R392). -/
def T1S_RXDROP (i : Nat) : Nat := 0x10000800A001C + 0x1000 * i
/-- T1S_MAC0 (R392). -/
def T1S_MAC0 (i : Nat) : Nat := 0x10000800A0020 + 0x1000 * i
/-- T1S_MAC1 (R392). -/
def T1S_MAC1 (i : Nat) : Nat := 0x10000800A0024 + 0x1000 * i
/-- ENC_CFG (R396). -/
def ENC_CFG (i : Nat) : Nat := 0x10000800B0000 + 0x40 * i
/-- ENC_SCALE (R396). -/
def ENC_SCALE (i : Nat) : Nat := 0x10000800B0004 + 0x40 * i
/-- ENC_RAW (R396). -/
def ENC_RAW (i : Nat) : Nat := 0x10000800B0008 + 0x40 * i
/-- ENC_MT (R396). -/
def ENC_MT (i : Nat) : Nat := 0x10000800B000C + 0x40 * i
/-- ENC_STAT (R396). -/
def ENC_STAT (i : Nat) : Nat := 0x10000800B0010 + 0x40 * i
/-- PERMIT_CTRL (R404). -/
def PERMIT_CTRL : Nat := 0x10000800C0000
/-- PERMIT_STATUS (R404). -/
def PERMIT_STATUS : Nat := 0x10000800C0004
/-- PERMIT_KICK (R404). -/
def PERMIT_KICK (i : Nat) : Nat := 0x10000800C0008 + 0x4 * i
/-- FB_CTRL (R409). -/
def FB_CTRL : Nat := 0x10000800D0000
/-- FB_DIAG (R409). -/
def FB_DIAG (i : Nat) : Nat := 0x10000800D0100 + 0x4 * i
/-- HFLT_CTRL (R457). -/
def HFLT_CTRL : Nat := 0x10000800E0000
/-- HFLT_STATUS (R457). -/
def HFLT_STATUS : Nat := 0x10000800E0004
/-- HFLT_QUAR (R457). -/
def HFLT_QUAR : Nat := 0x10000800E0008
/-- HFLT_LOGSEQ (R457). -/
def HFLT_LOGSEQ : Nat := 0x10000800E000C
/-- HFLT_FACE (R457). -/
def HFLT_FACE (i : Nat) : Nat := 0x10000800E0010 + 0x4 * i
/-- HFLT_LOG (R457). -/
def HFLT_LOG (i j : Nat) : Nat := 0x10000800E0100 + 0x10 * i + 0x4 * j
/-- SEC_LIFE (R485). -/
def SEC_LIFE : Nat := 0x10000800F0000
/-- SEC_RECVER (R485). -/
def SEC_RECVER : Nat := 0x10000800F0004
/-- SEC_BOOTCNT (R485). -/
def SEC_BOOTCNT : Nat := 0x10000800F0008
/-- SEC_EPOCH (R485). -/
def SEC_EPOCH : Nat := 0x10000800F000C
/-- SEC_FWSVN (R485). -/
def SEC_FWSVN : Nat := 0x10000800F0010
/-- SEC_DBGCTRL (R485). -/
def SEC_DBGCTRL : Nat := 0x10000800F0020
/-- SEC_DBGSTAT (R485). -/
def SEC_DBGSTAT : Nat := 0x10000800F0024
/-- SEC_PSTATE (R485). -/
def SEC_PSTATE : Nat := 0x10000800F0028
/-- PWM_PAIR (R399). -/
def PWM_PAIR (i : Nat) : Nat := 0x1000080100000 + 0x4 * i
/-- PWM_CH (R399). -/
def PWM_CH (i : Nat) : Nat := 0x1000080100040 + 0x4 * i
/-- GFP_CFG (R406). -/
def GFP_CFG (i : Nat) : Nat := 0x1000080110000 + 0x4 * i
/-- GFP_EDGES (R406). -/
def GFP_EDGES : Nat := 0x1000080110040
end Reg

/-- Rows of the register map (part 0). -/
def regTable0 : List RegRow := [
  ⟨"PACE_FACE", 0x7F00012000, [(6, 0x4)], 4, 0x0, 0x0, 0x0, 0x0, 0x0, 0x0⟩,
  ⟨"PACE_COMMON", 0x7F00012018, [], 4, 0x0, 0x0, 0x0, 0x0, 0x0, 0x0⟩,
  ⟨"PACE_HOME", 0x7F0001201C, [], 4, 0x0, 0x0, 0x0, 0x0, 0x0, 0x0⟩,
  ⟨"PACE_LOW", 0x7F00012020, [], 4, 0x1F4, 0x3FFF, 0x0, 0x0, 0x0, 0x0⟩,
  ⟨"QSAT_CNT", 0x7F00020000, [(6, 0x1000), (64, 0x8)], 8, 0x0, 0x0, 0x0, 0x0, 0x0, 0x0⟩,
  ⟨"QSAT_THRESH", 0x7F00020200, [(6, 0x1000)], 8, 0x400, 0xFFFFFFFFFFFF, 0x0, 0x0, 0x0, 0x0⟩,
  ⟨"QSAT_CTRL", 0x7F00020208, [(6, 0x1000)], 8, 0x6, 0x6, 0x0, 0x1, 0x0, 0x0⟩,
  ⟨"QSAT_STATUS", 0x7F00020210, [(6, 0x1000)], 8, 0x0, 0x0, 0xFFFFFFFFFFFFFFFF, 0x0, 0x0, 0x0⟩,
  ⟨"QSAT_SNAP", 0x7F00020400, [(6, 0x1000), (64, 0x8)], 8, 0x0, 0x0, 0x0, 0x0, 0x0, 0x0⟩,
  ⟨"PLACE_CTRL", 0x7F00030000, [], 8, 0x10000801, 0xFFFFFFFFFF01, 0x0, 0x0, 0x0, 0x0⟩,
  ⟨"PLACE_STATUS", 0x7F00030008, [], 8, 0x0, 0x0, 0x0, 0x0, 0x0, 0x0⟩,
  ⟨"PLACE_COMMIT", 0x7F00030010, [], 8, 0x0, 0x0, 0x0, 0x1, 0x0, 0x0⟩,
  ⟨"PLACE_ERR", 0x7F00030018, [], 8, 0x0, 0xFF, 0x0, 0x0, 0x0, 0x0⟩,
  ⟨"PLACE_VMAP", 0x7F00030100, [(16, 0x8)], 8, 0xFFFFFF, 0x0, 0x0, 0x0, 0x0, 0x0⟩,
  ⟨"PLACE_SVMAP", 0x7F00030180, [(16, 0x8)], 8, 0xFFFFFF, 0xFFFFFF, 0x0, 0x0, 0x0, 0x0⟩,
  ⟨"PLACE_CNT_SEL", 0x7F00030200, [], 8, 0x0, 0xFFF, 0x0, 0x0, 0x0, 0x0⟩,
  ⟨"PLACE_CNT_READS", 0x7F00030208, [], 8, 0x0, 0x0, 0x0, 0x0, 0x0, 0x0⟩,
  ⟨"PLACE_CNT_WRITES", 0x7F00030210, [], 8, 0x0, 0x0, 0x0, 0x0, 0x0, 0x0⟩,
  ⟨"PLACE_BSEL", 0x7F00030218, [], 8, 0x0, 0xFFF, 0x0, 0x0, 0x0, 0x0⟩,
  ⟨"PLACE_BREC", 0x7F00030220, [], 8, 0x0, 0xF8FFFFF8FF000000, 0x0, 0x0, 0x0, 0x0⟩,
  ⟨"PLACE_BSIZE", 0x7F00030228, [], 8, 0x0, 0xFFFFFFFFFFFF, 0x0, 0x0, 0x0, 0x0⟩,
  ⟨"PLACE_BBACK", 0x7F00030230, [], 8, 0x0, 0x9800FFFFFFFFF000, 0x0, 0x0, 0x0, 0x0⟩,
  ⟨"PLACE_BBIND", 0x7F00030238, [], 8, 0x0, 0x0, 0x0, 0x0, 0x0, 0x0⟩,
  ⟨"PLACE_SBIND", 0x7F00030240, [], 8, 0x0, 0xC000FFFFFFFFFFC0, 0x0, 0x0, 0x0, 0x0⟩]
/-- Rows of the register map (part 1). -/
def regTable1 : List RegRow := [
  ⟨"HBMC_SHARE", 0x7F00040000, [(8, 0x4)], 4, 0x20, 0xFF, 0x0, 0x0, 0x0, 0x0⟩,
  ⟨"HBMC_STATUS", 0x7F00040040, [], 4, 0x0, 0x0, 0x0, 0x0, 0x0, 0x0⟩,
  ⟨"HBMC_CE", 0x7F00040080, [(2, 0x8)], 8, 0x0, 0x0, 0x0, 0x0, 0x0, 0x0⟩,
  ⟨"HBMC_UE", 0x7F00040090, [(2, 0x8)], 8, 0x0, 0x0, 0x0, 0x0, 0x0, 0x0⟩,
  ⟨"HBMC_RETRY", 0x7F000400A0, [], 8, 0x0, 0x0, 0x0, 0x0, 0x0, 0x0⟩,
  ⟨"HBMC_ERRADDR", 0x7F000400A8, [], 8, 0x0, 0x0, 0x8000000000000000, 0x0, 0x0, 0x0⟩,
  ⟨"FACE_CTRL", 0x7F00050000, [(6, 0x1000)], 8, 0xC8, 0xFFFF, 0x0, 0x0, 0x0, 0x0⟩,
  ⟨"FACE_STATUS", 0x7F00050008, [(6, 0x1000)], 8, 0x0, 0x0, 0x0, 0x0, 0x0, 0x0⟩,
  ⟨"FACE_EXC", 0x7F00050010, [(6, 0x1000)], 8, 0x0, 0x0, 0x8000000000000000, 0x0, 0x0, 0x0⟩,
  ⟨"FACE_EXCINFO", 0x7F00050018, [(6, 0x1000)], 8, 0x0, 0x0, 0x0, 0x0, 0x0, 0x0⟩,
  ⟨"FACE_EVOVF0", 0x7F00050020, [(6, 0x1000)], 8, 0x0, 0x0, 0x0, 0x0, 0x0, 0x0⟩,
  ⟨"FACE_EVOVF1", 0x7F00050028, [(6, 0x1000)], 8, 0x0, 0x0, 0x0, 0x0, 0x0, 0x0⟩,
  ⟨"SYNC_SEM", 0x7F00060000, [(256, 0x8)], 8, 0x0, 0x800700000000FFFF, 0x0, 0x0, 0x0, 0x0⟩,
  ⟨"SYNC_NETSEL", 0x7F00060800, [], 8, 0x0, 0xFFF, 0x0, 0x0, 0x0, 0x0⟩,
  ⟨"SYNC_NET", 0x7F00060808, [], 8, 0x0, 0x0, 0x0, 0x0, 0x0, 0x0⟩,
  ⟨"SYNC_RSEL", 0x7F00060810, [], 8, 0x0, 0x7FF, 0x0, 0x0, 0x0, 0x0⟩,
  ⟨"SYNC_RVAL", 0x7F00060818, [], 8, 0x0, 0x8000FFFFFFFFFFFF, 0x0, 0x0, 0x0, 0x0⟩,
  ⟨"ATTN_EMPTY", 0x7F00070000, [(6, 0x1000)], 8, 0x0, 0x0, 0x0, 0x0, 0x0, 0x0⟩,
  ⟨"ATTN_NANROW", 0x7F00070008, [(6, 0x1000)], 8, 0x0, 0x0, 0x0, 0x0, 0x0, 0x0⟩,
  ⟨"ATTN_PAGEMISS", 0x7F00070010, [(6, 0x1000)], 8, 0x0, 0x0, 0x0, 0x0, 0x0, 0x0⟩,
  ⟨"ATTN_LENCLIP", 0x7F00070018, [(6, 0x1000)], 8, 0x0, 0x0, 0x0, 0x0, 0x0, 0x0⟩,
  ⟨"ATTN_KVDROP", 0x7F00070020, [(6, 0x1000)], 8, 0x0, 0x0, 0x0, 0x0, 0x0, 0x0⟩,
  ⟨"ATTN_CTRL", 0x7F00070040, [(6, 0x1000)], 8, 0x0, 0x0, 0x0, 0x1, 0x0, 0x0⟩,
  ⟨"REC_NEARINT", 0x7F00080000, [(6, 0x1000)], 8, 0x0, 0x0, 0x0, 0x0, 0x0, 0x0⟩]
/-- Rows of the register map (part 2). -/
def regTable2 : List RegRow := [
  ⟨"REC_NONFIN", 0x7F00080008, [(6, 0x1000)], 8, 0x0, 0x0, 0x0, 0x0, 0x0, 0x0⟩,
  ⟨"REC_RESETS", 0x7F00080010, [(6, 0x1000)], 8, 0x0, 0x0, 0x0, 0x0, 0x0, 0x0⟩,
  ⟨"REC_SIMPFAIL", 0x7F00080018, [(6, 0x1000)], 8, 0x0, 0x0, 0x0, 0x0, 0x0, 0x0⟩,
  ⟨"REC_CTRL", 0x7F00080040, [(6, 0x1000)], 8, 0x0, 0x0, 0x0, 0x1, 0x0, 0x0⟩,
  ⟨"PIP_CTRL", 0x7F00090000, [], 8, 0x3E80001, 0xFFFF0001, 0x0, 0x0, 0x0, 0x0⟩,
  ⟨"PIP_STATUS", 0x7F00090008, [], 8, 0x0, 0x0, 0xFF, 0x0, 0x0, 0x0⟩,
  ⟨"PIP_QPUSH", 0x7F00090010, [(8, 0x8)], 8, 0x0, 0x0, 0x0, 0xFFFFFFFFFFC0, 0x0, 0x0⟩,
  ⟨"PIP_QLEVEL", 0x7F00090050, [(8, 0x8)], 8, 0x0, 0x0, 0x0, 0x0, 0x0, 0x0⟩,
  ⟨"PIP_QFLUSH", 0x7F00090090, [], 8, 0x0, 0x0, 0x0, 0x1F, 0x0, 0x0⟩,
  ⟨"PIP_DONE", 0x7F00090098, [], 8, 0x0, 0x0, 0x0, 0x0, 0x0, 0x0⟩,
  ⟨"PIP_FAIL", 0x7F000900A0, [], 8, 0x0, 0x0, 0x0, 0x0, 0x0, 0x0⟩,
  ⟨"PIP_SAT", 0x7F000900A8, [], 8, 0x0, 0x0, 0x0, 0x0, 0x0, 0x0⟩,
  ⟨"SCHED_CTRL", 0x7F000A0000, [], 8, 0x0, 0x7, 0x0, 0x0, 0x0, 0x0⟩,
  ⟨"SCHED_STATUS", 0x7F000A0008, [], 8, 0x0, 0x0, 0x2, 0x0, 0x0, 0x0⟩,
  ⟨"SCHED_COMMIT", 0x7F000A0010, [], 8, 0x0, 0x0, 0x0, 0x1, 0x0, 0x0⟩,
  ⟨"SCHED_ERR", 0x7F000A0018, [], 8, 0x0, 0xFF, 0x0, 0x0, 0x0, 0x0⟩,
  ⟨"SCHED_BASE", 0x7F000A0020, [], 8, 0x0, 0xFFFFFFFFFFFFFFFF, 0x0, 0x0, 0x0, 0x0⟩,
  ⟨"SCHED_FRAME", 0x7F000A0028, [], 8, 0x3E8, 0x0, 0x0, 0x0, 0x0, 0x0⟩,
  ⟨"SCHED_SFRAME", 0x7F000A0030, [], 8, 0x3E8, 0x1FFFF, 0x0, 0x0, 0x0, 0x0⟩,
  ⟨"SCHED_PARTA", 0x7F000A0040, [(8, 0x8)], 8, 0x0, 0xFFFFFFFF0000FFFF, 0x0, 0x0, 0x0, 0x0⟩,
  ⟨"SCHED_PARTB", 0x7F000A0080, [(8, 0x8)], 8, 0xC83280, 0xFFFFFFFFFFC0, 0x0, 0x0, 0x0, 0x0⟩,
  ⟨"SCHED_JOB", 0x7F000A0100, [(16, 0x8)], 8, 0x0, 0x7C00000000000000, 0x0, 0x0, 0x0, 0x0⟩,
  ⟨"SCHED_SLOT", 0x7F000A0400, [(64, 0x8)], 8, 0x0, 0x0, 0x0, 0x0, 0x0, 0x0⟩,
  ⟨"SCHED_SSLOT", 0x7F000A0600, [(64, 0x8)], 8, 0x0, 0xF8FC00FFFFFFFFFF, 0x0, 0x0, 0x0, 0x0⟩]
/-- Rows of the register map (part 3). -/
def regTable3 : List RegRow := [
  ⟨"SCHED_QSEL", 0x7F000A0800, [], 8, 0x0, 0xF7, 0x0, 0x0, 0x0, 0x0⟩,
  ⟨"SCHED_QBASE", 0x7F000A0808, [], 8, 0x0, 0x8000FFFFFFFFFFCF, 0x0, 0x0, 0x0, 0x0⟩,
  ⟨"SCHED_QHEAD", 0x7F000A0810, [], 8, 0x0, 0x0, 0x0, 0x0, 0x0, 0x0⟩,
  ⟨"SCHED_QTAIL", 0x7F000A0818, [], 8, 0x0, 0xFFFFFFFF, 0x0, 0x0, 0x0, 0x0⟩,
  ⟨"ARB_CTRL", 0x7F000B0000, [], 8, 0x640001, 0xFFFF0001, 0x0, 0x0, 0x0, 0x0⟩,
  ⟨"ARB_STARVE", 0x7F000B0008, [], 8, 0x0, 0x0, 0xFFFFFF, 0x0, 0x0, 0x0⟩,
  ⟨"ARB_REVOKE", 0x7F000B0010, [], 8, 0x0, 0x0, 0x0, 0x0, 0x0, 0x0⟩,
  ⟨"DET_ID", 0x7F000C0000, [], 8, 0xB00001, 0x0, 0x0, 0x0, 0x0, 0x0⟩,
  ⟨"DET_SEEDLO", 0x7F000C0100, [(16, 0x40)], 8, 0x0, 0xFFFFFFFFFFFFFFFF, 0x0, 0x0, 0x0, 0x0⟩,
  ⟨"DET_SEEDHI", 0x7F000C0108, [(16, 0x40)], 8, 0x0, 0xFFFFFFFFFFFFFFFF, 0x0, 0x0, 0x0, 0x0⟩,
  ⟨"DET_JSTEP", 0x7F000C0110, [(16, 0x40)], 8, 0x0, 0xFFFFFFFFFFFFFFFF, 0x0, 0x0, 0x0, 0x0⟩,
  ⟨"DET_STEP", 0x7F000C0118, [(16, 0x40)], 8, 0x0, 0x0, 0x4, 0x1, 0x0, 0x0⟩,
  ⟨"DET_JCTRL", 0x7F000C0120, [(16, 0x40)], 8, 0x0, 0x5, 0x2, 0x0, 0x0, 0x0⟩,
  ⟨"DET_LOGBASE", 0x7F000C0128, [(16, 0x40)], 8, 0x0, 0xFFFFFFFFF00F, 0x0, 0x0, 0x0, 0x0⟩,
  ⟨"DET_LOGSTAT", 0x7F000C0130, [(16, 0x40)], 8, 0x0, 0x0, 0x0, 0x0, 0x0, 0x0⟩,
  ⟨"PERT_CTRL", 0x7F000D0000, [], 8, 0x0, 0xFFFFFFFF00000003, 0x0, 0x0, 0x0, 0x0⟩,
  ⟨"PERT_STATUS", 0x7F000D0008, [], 8, 0x0, 0x0, 0x1, 0x0, 0x0, 0x0⟩,
  ⟨"PERT_CHSEL", 0x7F000D0010, [], 8, 0x0, 0x1FFF, 0x0, 0x0, 0x0, 0x0⟩,
  ⟨"PERT_DELAY", 0x7F000D0018, [], 8, 0x0, 0x3F, 0x0, 0x0, 0x0, 0x0⟩,
  ⟨"PERT_BP", 0x7F000D0020, [], 8, 0x0, 0xFF7F, 0x0, 0x0, 0x0, 0x0⟩,
  ⟨"PERT_HBM", 0x7F000D0028, [], 8, 0x0, 0x1FFF, 0x0, 0x0, 0x0, 0x0⟩,
  ⟨"PERT_LINK", 0x7F000D0030, [], 8, 0x0, 0x3FF03FF, 0x0, 0x0, 0x0, 0x0⟩,
  ⟨"TIMEM_RAW", 0x7F000E0000, [], 8, 0x0, 0x0, 0x0, 0x0, 0x0, 0x0⟩,
  ⟨"TIMEM_NOW0", 0x7F000E0008, [], 8, 0x0, 0x0, 0x0, 0x0, 0x0, 0x0⟩]
/-- Rows of the register map (part 4). -/
def regTable4 : List RegRow := [
  ⟨"TIMEM_NOW1", 0x7F000E0010, [], 8, 0x0, 0x0, 0x0, 0x0, 0x0, 0x0⟩,
  ⟨"TIMEM_STATUS", 0x7F000E0018, [], 8, 0x0, 0x0, 0x0, 0x0, 0x0, 0x0⟩,
  ⟨"TIMEM_RA", 0x7F000E0020, [], 8, 0x0, 0x0, 0x0, 0x0, 0x0, 0x0⟩,
  ⟨"TIMEM_TA0", 0x7F000E0028, [], 8, 0x0, 0x0, 0x0, 0x0, 0x0, 0x0⟩,
  ⟨"TIMEM_TA1", 0x7F000E0030, [], 8, 0x0, 0x0, 0x0, 0x0, 0x0, 0x0⟩,
  ⟨"TIMEM_RHO", 0x7F000E0038, [], 8, 0x0, 0x0, 0x0, 0x0, 0x0, 0x0⟩,
  ⟨"SAFE_CTRL", 0x7F000F0000, [], 8, 0x3E80001, 0x3FFF0001, 0x0, 0x0, 0x0, 0x0⟩,
  ⟨"SAFE_STATUS", 0x7F000F0008, [], 8, 0x0, 0x0, 0x0, 0x0, 0x0, 0x0⟩,
  ⟨"SAFE_KICK", 0x7F000F0010, [], 8, 0x0, 0x0, 0x0, 0x1, 0x0, 0x0⟩,
  ⟨"SAFE_INJ", 0x7F000F0018, [], 8, 0x0, 0xFF80, 0x4000000000000000, 0x1, 0x0, 0x0⟩,
  ⟨"GOLD_CTRL", 0x7F000F0040, [], 8, 0x400000280FA007D0, 0xF800FFFFFFFFFFFF, 0x0, 0x0, 0x0, 0x0⟩,
  ⟨"GOLD_STATUS", 0x7F000F0048, [], 8, 0x0, 0x0, 0x0, 0x0, 0x0, 0x0⟩,
  ⟨"GOLD_START", 0x7F000F0050, [], 8, 0x0, 0x0, 0x0, 0x0, 0x0, 0x0⟩,
  ⟨"SAFE_CE", 0x7F000F0020, [], 8, 0x0, 0x0, 0x0, 0x0, 0x0, 0x0⟩,
  ⟨"CSI_CTRL", 0x7F00100000, [(12, 0x1000)], 8, 0x271000000E40, 0xFFFFFFFF0000FFFF, 0x0, 0x0, 0x0, 0x0⟩,
  ⟨"CSI_STATUS", 0x7F00100008, [(12, 0x1000)], 8, 0x0, 0x0, 0x6, 0x0, 0x0, 0x0⟩,
  ⟨"CSI_STREAM", 0x7F00100010, [(12, 0x1000), (4, 0x8)], 8, 0x0, 0x8F3F, 0x0, 0x0, 0x0, 0x0⟩,
  ⟨"CSI_UNSEL", 0x7F00100040, [(12, 0x1000)], 8, 0x0, 0x0, 0x0, 0x0, 0x0, 0x0⟩,
  ⟨"CSI_NOBUF", 0x7F00100048, [(12, 0x1000)], 8, 0x0, 0x0, 0x0, 0x0, 0x0, 0x0⟩,
  ⟨"CSI_DROP", 0x7F00100050, [(12, 0x1000)], 8, 0x0, 0x0, 0x0, 0x0, 0x0, 0x0⟩,
  ⟨"CSI_CRCERR", 0x7F00100058, [(12, 0x1000)], 8, 0x0, 0x0, 0x0, 0x0, 0x0, 0x0⟩,
  ⟨"CSI_RBASE", 0x7F00100060, [(12, 0x1000), (4, 0x10)], 8, 0x0, 0xFFFFFFFFFFE0, 0x0, 0x0, 0x0, 0x0⟩,
  ⟨"CSI_RCTL", 0x7F00100068, [(12, 0x1000), (4, 0x10)], 8, 0x0, 0x7, 0x0, 0x0, 0x0, 0x0⟩,
  ⟨"ETH_CTRL", 0x7F00110000, [(4, 0x1000)], 8, 0x0, 0xF, 0x0, 0x0, 0x0, 0x0⟩]
/-- Rows of the register map (part 5). -/
def regTable5 : List RegRow := [
  ⟨"ETH_STATUS", 0x7F00110008, [(4, 0x1000)], 8, 0x0, 0x0, 0x2, 0x0, 0x0, 0x0⟩,
  ⟨"ETH_GCLCTL", 0x7F00110010, [(4, 0x1000)], 8, 0x0, 0x1FF, 0x0, 0x0, 0x0, 0x0⟩,
  ⟨"ETH_GCLBASE", 0x7F00110018, [(4, 0x1000)], 8, 0x0, 0xFFFFFFFFFFFFFFFF, 0x0, 0x0, 0x0, 0x0⟩,
  ⟨"ETH_TSRX0", 0x7F00110020, [(4, 0x1000)], 8, 0x0, 0x0, 0x0, 0x0, 0x0, 0x0⟩,
  ⟨"ETH_TSTX0", 0x7F00110030, [(4, 0x1000)], 8, 0x0, 0x0, 0x0, 0x0, 0x0, 0x0⟩,
  ⟨"ETH_TSRX1", 0x7F00110028, [(4, 0x1000)], 8, 0x0, 0x0, 0x0, 0x0, 0x0, 0x0⟩,
  ⟨"ETH_TSTX1", 0x7F00110038, [(4, 0x1000)], 8, 0x0, 0x0, 0x0, 0x0, 0x0, 0x0⟩,
  ⟨"ETH_TSDROP", 0x7F00110040, [(4, 0x1000)], 8, 0x0, 0x0, 0x0, 0x0, 0x0, 0x0⟩,
  ⟨"ETH_RXDROP", 0x7F00110048, [(4, 0x1000)], 8, 0x0, 0x0, 0x0, 0x0, 0x0, 0x0⟩,
  ⟨"ETH_LATE", 0x7F00110050, [(4, 0x1000)], 8, 0x0, 0x0, 0x0, 0x0, 0x0, 0x0⟩,
  ⟨"ETH_TXBASE", 0x7F00110100, [(4, 0x1000), (8, 0x10)], 8, 0x0, 0xFFFFFFFFFFE0, 0x0, 0x0, 0x0, 0x0⟩,
  ⟨"ETH_TXCTL", 0x7F00110108, [(4, 0x1000), (8, 0x10)], 8, 0x0, 0x800F0000FFFF0000, 0x0, 0x0, 0x0, 0x0⟩,
  ⟨"ETH_RXBASE", 0x7F00110200, [(4, 0x1000), (8, 0x10)], 8, 0x0, 0xFFFFFFFFFFE0, 0x0, 0x0, 0x0, 0x0⟩,
  ⟨"ETH_RXCTL", 0x7F00110208, [(4, 0x1000), (8, 0x10)], 8, 0x0, 0x800F0000FFFF0000, 0x0, 0x0, 0x0, 0x0⟩,
  ⟨"ETH_CBS", 0x7F00110300, [(4, 0x1000), (4, 0x8)], 8, 0x0, 0x80000000FFFFFFFF, 0x0, 0x0, 0x0, 0x0⟩,
  ⟨"ETH_GCL", 0x7F00110400, [(4, 0x1000), (256, 0x8)], 8, 0x0, 0xFFFFFFFFFF, 0x0, 0x0, 0x0, 0x0⟩,
  ⟨"EFL_TOPO", 0x7F00120000, [], 8, 0x0, 0xF3, 0x0, 0x0, 0x0, 0x0⟩,
  ⟨"EFL_WERR", 0x7F00120008, [], 8, 0x0, 0xFF, 0x0, 0x0, 0x0, 0x0⟩,
  ⟨"WINA", 0x7F00120100, [(64, 0x10)], 8, 0x0, 0xBF00FFFFFFFFF000, 0x0, 0x0, 0x0, 0x0⟩,
  ⟨"WINB", 0x7F00120108, [(64, 0x10)], 8, 0x0, 0xFFF000FFFFFFF000, 0x0, 0x0, 0x0, 0x0⟩,
  ⟨"EFL_CTRL", 0x7F00130000, [(2, 0x1000)], 8, 0x0, 0x1, 0x0, 0x0, 0x0, 0x0⟩,
  ⟨"EFL_STATUS", 0x7F00130008, [(2, 0x1000)], 8, 0x0, 0x0, 0x22, 0x0, 0x0, 0x0⟩,
  ⟨"EFL_CREDIT", 0x7F00130010, [(2, 0x1000)], 8, 0x8080, 0x0, 0x0, 0x0, 0x0, 0x0⟩,
  ⟨"EFL_CRCERR", 0x7F00130018, [(2, 0x1000)], 8, 0x0, 0x0, 0x0, 0x0, 0x0, 0x0⟩]
/-- Rows of the register map (part 6). -/
def regTable6 : List RegRow := [
  ⟨"EFL_RETRY", 0x7F00130020, [(2, 0x1000)], 8, 0x0, 0x0, 0x0, 0x0, 0x0, 0x0⟩,
  ⟨"EFL_FEC", 0x7F00130028, [(2, 0x1000)], 8, 0x0, 0x0, 0x0, 0x0, 0x0, 0x0⟩,
  ⟨"EFL_REFUSED", 0x7F00130030, [(2, 0x1000)], 8, 0x0, 0x0, 0x0, 0x0, 0x0, 0x0⟩,
  ⟨"EFL_RETRAINS", 0x7F00130038, [(2, 0x1000)], 8, 0x0, 0x0, 0x0, 0x0, 0x0, 0x0⟩,
  ⟨"PWR_CTRL", 0x7F00140000, [], 8, 0x0, 0x70, 0x0, 0x0, 0x0, 0x3⟩,
  ⟨"PWR_CAP", 0x7F00140008, [], 8, 0x38402589664, 0xFFFFFFFF, 0x0, 0x0, 0x0, 0xFFFF00000000⟩,
  ⟨"PWR_STATUS", 0x7F00140010, [], 8, 0x0, 0x0, 0x80000000000000, 0x0, 0x0, 0x0⟩,
  ⟨"PWR_CLAMPLOG", 0x7F00140018, [], 8, 0x0, 0x0, 0x1FE, 0x0, 0x0, 0x0⟩,
  ⟨"PWR_TRIM", 0x7F00140040, [(6, 0x8)], 8, 0x0, 0x1FF, 0x0, 0x0, 0x0, 0x0⟩,
  ⟨"PWR_ENERGY", 0x7F00140080, [(11, 0x8)], 8, 0x0, 0x0, 0x0, 0x0, 0x0, 0x0⟩,
  ⟨"EVT_SRC", 0x7F00150000, [(512, 0x8)], 8, 0x0, 0xFFFFF00000000000, 0x0, 0x0, 0x0, 0x0⟩,
  ⟨"EVTP_PEND", 0x7F00160000, [(8, 0x8)], 8, 0x0, 0x0, 0xFFFFFFFFFFFFFFFF, 0x0, 0x0, 0x0⟩,
  ⟨"EVTP_RAISE", 0x7F00160040, [], 8, 0x0, 0x0, 0x0, 0x1FF, 0x0, 0x0⟩,
  ⟨"CPB_WINA", 0x7F00170000, [(8, 0x10)], 8, 0x0, 0xC000FFFFFFFFF000, 0x0, 0x0, 0x0, 0x0⟩,
  ⟨"CPB_WINB", 0x7F00170008, [(8, 0x10)], 8, 0x0, 0xFFFFFFF000, 0x0, 0x0, 0x0, 0x0⟩,
  ⟨"CPB_DOORBELL", 0x7F00170100, [], 8, 0x0, 0xFFFFFFFF, 0x0, 0x0, 0x0, 0x0⟩,
  ⟨"PCIE_CTRL", 0x7F00180000, [], 8, 0x70, 0x7D, 0x0, 0x0, 0x0, 0x2⟩,
  ⟨"PCIE_STATUS", 0x7F00180008, [], 8, 0x0, 0x0, 0x2, 0x0, 0x0, 0x0⟩,
  ⟨"PCIE_BAR0WIN", 0x7F00180010, [], 8, 0x0, 0x8000FFFFFF000000, 0x0, 0x0, 0x0, 0x0⟩,
  ⟨"PCIE_MSIX", 0x7F00180018, [], 8, 0x0, 0x0, 0x0, 0x1F, 0x0, 0x0⟩,
  ⟨"PCIE_DBPEND", 0x7F00180020, [], 8, 0x0, 0x0, 0xFFFFFFFFFFFFFFFF, 0x0, 0x0, 0x0⟩,
  ⟨"PCIE_ERR", 0x7F00180028, [], 8, 0x0, 0x0, 0x0, 0x0, 0x0, 0x0⟩,
  ⟨"SYS_ID", 0x7F00000000, [], 8, 0x4E36B000, 0x0, 0x0, 0x0, 0x0, 0x0⟩,
  ⟨"SYS_CTRL", 0x7F00000008, [], 8, 0x11000, 0xFF000, 0x0, 0x3F, 0x0, 0x0⟩]
/-- Rows of the register map (part 7). -/
def regTable7 : List RegRow := [
  ⟨"SYS_BOOT", 0x7F00000010, [], 8, 0x0, 0x0, 0x0, 0x1, 0x0, 0x0⟩,
  ⟨"SYS_STATUS", 0x7F00000018, [], 8, 0x0, 0x0, 0x40, 0x0, 0x0, 0x0⟩,
  ⟨"CE_CTRL", 0x1000080010000, [], 4, 0x0, 0x1, 0x0, 0x0, 0x0, 0x0⟩,
  ⟨"CE_STATUS", 0x1000080010004, [], 4, 0x0, 0x0, 0x0, 0x0, 0x0, 0x0⟩,
  ⟨"CE_ERR", 0x1000080010008, [], 4, 0x0, 0xFF, 0x0, 0x0, 0x0, 0x0⟩,
  ⟨"CE_SPCOMMIT", 0x100008001000C, [], 4, 0x0, 0x0, 0x0, 0x1, 0x0, 0x0⟩,
  ⟨"CE_MISS", 0x1000080010010, [(2, 0x4)], 4, 0x0, 0x0, 0xFFFFFFFF, 0x0, 0x0, 0x0⟩,
  ⟨"CE_BASE", 0x1000080010018, [(2, 0x4)], 4, 0x0, 0xFFFFFFFF, 0x0, 0x0, 0x0, 0x0⟩,
  ⟨"CE_LOOP_CFG", 0x1000080010100, [(64, 0x10)], 4, 0x0, 0xFFFFFFF0, 0x0, 0x0, 0x0, 0x0⟩,
  ⟨"CE_LOOP_OUT", 0x1000080010104, [(64, 0x10)], 4, 0xFC000064, 0xFE0000FF, 0x0, 0x0, 0x0, 0x0⟩,
  ⟨"CE_LOOP_PROG", 0x1000080010108, [(64, 0x10)], 4, 0x0, 0x7FF1FFF, 0x0, 0x0, 0x0, 0x0⟩,
  ⟨"CE_LSTAT", 0x100008001010C, [(64, 0x10)], 4, 0x0, 0x0, 0x0, 0x0, 0x0, 0x0⟩,
  ⟨"CE_IN", 0x1000080010800, [(128, 0x4)], 4, 0x0, 0xFFFFFFFF, 0x0, 0x0, 0x0, 0x0⟩,
  ⟨"CE_OUTW", 0x1000080010A00, [(128, 0x4)], 4, 0x0, 0x0, 0x0, 0x0, 0x0, 0x0⟩,
  ⟨"CE_SPW", 0x1000080011000, [(256, 0x4)], 4, 0x0, 0xFFFFFFFF, 0x0, 0x0, 0x0, 0x0⟩,
  ⟨"CE_SPA", 0x1000080011400, [(256, 0x4)], 4, 0x0, 0x0, 0x0, 0x0, 0x0, 0x0⟩,
  ⟨"CE_COEF_VALUE", 0x1000080012000, [(2048, 0x8)], 4, 0x0, 0xFFFFFFFF, 0x0, 0x0, 0x0, 0x0⟩,
  ⟨"CE_COEF_SHIFT", 0x1000080012004, [(2048, 0x8)], 4, 0x0, 0x3F, 0x0, 0x0, 0x0, 0x0⟩,
  ⟨"CE_STATE", 0x1000080016000, [(64, 0x40), (16, 0x4)], 4, 0x0, 0x0, 0x0, 0x0, 0x0, 0x0⟩,
  ⟨"CE_PMEM", 0x1000080018000, [(8192, 0x4)], 4, 0x0, 0xFFFFFFFF, 0x0, 0x0, 0x0, 0x0⟩,
  ⟨"EVH_PEND", 0x1000080020000, [(16, 0x4)], 4, 0x0, 0x0, 0xFFFFFFFF, 0x0, 0x0, 0x0⟩,
  ⟨"EVH_HOST", 0x1000080020040, [(4, 0x4)], 4, 0x0, 0xFFFFFFFF, 0x0, 0x0, 0x0, 0x0⟩,
  ⟨"EVH_RAISE", 0x1000080020080, [], 4, 0x0, 0x0, 0x0, 0x1FF, 0x0, 0x0⟩,
  ⟨"CPH_STATUS", 0x1000080030000, [], 4, 0x0, 0x0, 0x0, 0x0, 0x0, 0x0⟩]
/-- Rows of the register map (part 8). -/
def regTable8 : List RegRow := [
  ⟨"CPH_CTRL", 0x1000080030004, [], 4, 0x0, 0x0, 0x0, 0x3, 0x0, 0x0⟩,
  ⟨"CPH_CFG", 0x1000080030008, [], 4, 0x1, 0x0, 0x0, 0x0, 0x0, 0x1⟩,
  ⟨"CPH_MBOX", 0x100008003000C, [], 4, 0x0, 0xFFFFFFFF, 0x0, 0x0, 0x0, 0x0⟩,
  ⟨"CPH_CNT", 0x1000080030010, [], 4, 0x0, 0x0, 0x0, 0x0, 0x0, 0x0⟩,
  ⟨"CPH_PEND", 0x1000080030040, [(16, 0x4)], 4, 0x0, 0x0, 0xFFFFFFFF, 0x0, 0x0, 0x0⟩,
  ⟨"SOLV_CTRL", 0x1000080040000, [], 4, 0x0, 0x0, 0x0, 0x3, 0x0, 0x0⟩,
  ⟨"SOLV_DESC", 0x1000080040004, [], 4, 0x0, 0xFFFFFF80, 0x0, 0x0, 0x0, 0x0⟩,
  ⟨"SOLV_STATUS", 0x1000080040008, [], 4, 0x0, 0x0, 0x40000000, 0x0, 0x0, 0x0⟩,
  ⟨"SOLV_CNT", 0x100008004000C, [], 4, 0x0, 0x0, 0x0, 0x0, 0x0, 0x0⟩,
  ⟨"HOLD_CTRL", 0x1000080050000, [], 4, 0x640004, 0xFFFF0004, 0x0, 0x3, 0x0, 0x0⟩,
  ⟨"HOLD_STATUS", 0x1000080050004, [], 4, 0x0, 0x0, 0x8000000, 0x0, 0x0, 0x0⟩,
  ⟨"HOLD_TGT", 0x1000080050800, [(256, 0x8)], 4, 0x0, 0xFFFFFFFF, 0x0, 0x0, 0x0, 0x0⟩,
  ⟨"HOLD_RATE", 0x1000080050804, [(256, 0x8)], 4, 0x0, 0x7FFFFFFF, 0x0, 0x0, 0x0, 0x0⟩,
  ⟨"TIME_STATUS", 0x1000080060000, [], 4, 0x0, 0x0, 0x70000000, 0x0, 0x0, 0x0⟩,
  ⟨"TIME_RAWLO", 0x1000080060008, [], 4, 0x0, 0x0, 0x0, 0x0, 0x0, 0x0⟩,
  ⟨"TIME_RAWHI", 0x100008006000C, [], 4, 0x0, 0x0, 0x0, 0x0, 0x0, 0x0⟩,
  ⟨"TIME_NOW0", 0x1000080060010, [], 4, 0x0, 0x0, 0x0, 0x0, 0x0, 0x0⟩,
  ⟨"TIME_NOW1", 0x1000080060014, [], 4, 0x0, 0x0, 0x0, 0x0, 0x0, 0x0⟩,
  ⟨"TIME_NOW2", 0x1000080060018, [], 4, 0x0, 0x0, 0x0, 0x0, 0x0, 0x0⟩,
  ⟨"TIME_RATELO", 0x1000080060020, [], 4, 0x0, 0xFFFFFFFF, 0x0, 0x0, 0x0, 0x0⟩,
  ⟨"TIME_RATEHI", 0x1000080060024, [], 4, 0x0, 0xFFFF, 0x0, 0x0, 0x0, 0x0⟩,
  ⟨"TIME_STEPLO", 0x1000080060028, [], 4, 0x0, 0x0, 0x0, 0xFFFFFFFF, 0x0, 0x0⟩,
  ⟨"TIME_STEPHI", 0x100008006002C, [], 4, 0x0, 0x0, 0x0, 0xFFFFFFFF, 0x0, 0x0⟩,
  ⟨"TIME_STEPFR", 0x1000080060030, [], 4, 0x0, 0x0, 0x0, 0xFFFF, 0x0, 0x0⟩]
/-- Rows of the register map (part 9). -/
def regTable9 : List RegRow := [
  ⟨"PPS_CTRL", 0x1000080060040, [], 4, 0x6440, 0xFFFFFFF, 0x0, 0x0, 0x0, 0x0⟩,
  ⟨"PPS_STATUS", 0x1000080060044, [], 4, 0x0, 0x0, 0x0, 0x0, 0x0, 0x0⟩,
  ⟨"PPS_CAPLO", 0x1000080060048, [], 4, 0x0, 0x0, 0x0, 0x0, 0x0, 0x0⟩,
  ⟨"PPS_CAPHI", 0x100008006004C, [], 4, 0x0, 0x0, 0x0, 0x0, 0x0, 0x0⟩,
  ⟨"PPS_ERR", 0x1000080060050, [], 4, 0x0, 0x0, 0x0, 0x0, 0x0, 0x0⟩,
  ⟨"PPS_EDGES", 0x1000080060054, [], 4, 0x0, 0x0, 0x0, 0x0, 0x0, 0x0⟩,
  ⟨"PPS_DLY", 0x1000080060058, [], 4, 0x0, 0xFFFFFFFF, 0x0, 0x0, 0x0, 0x0⟩,
  ⟨"CAN_CTRL", 0x1000080070000, [(4, 0x1000)], 4, 0x10, 0xFF, 0x0, 0x0, 0x0, 0x0⟩,
  ⟨"CAN_STATUS", 0x1000080070004, [(4, 0x1000)], 4, 0x0, 0x7, 0x400, 0x0, 0x0, 0x0⟩,
  ⟨"CAN_BIT", 0x1000080070008, [(4, 0x1000), (3, 0x4)], 4, 0x0, 0xFFFFFFFF, 0x0, 0x0, 0x0, 0x0⟩,
  ⟨"CAN_TXCMD", 0x1000080070014, [(4, 0x1000)], 4, 0x0, 0x0, 0x0, 0x7F, 0x0, 0x0⟩,
  ⟨"CAN_TXSTAT", 0x1000080070018, [(4, 0x1000), (3, 0x4)], 4, 0x0, 0x0, 0xC0, 0x0, 0x0, 0x0⟩,
  ⟨"CAN_NOMATCH", 0x1000080070030, [(4, 0x1000)], 4, 0x0, 0x0, 0x0, 0x0, 0x0, 0x0⟩,
  ⟨"CAN_RXDROP", 0x1000080070034, [(4, 0x1000)], 4, 0x0, 0x0, 0x0, 0x0, 0x0, 0x0⟩,
  ⟨"CAN_RXBASE", 0x1000080070040, [(4, 0x1000), (2, 0x10)], 4, 0x0, 0xFFFFFFF0, 0x0, 0x0, 0x0, 0x0⟩,
  ⟨"CAN_RXCFG", 0x1000080070044, [(4, 0x1000), (2, 0x10)], 4, 0x0, 0x80000003, 0x0, 0x0, 0x0, 0x0⟩,
  ⟨"CAN_RXHEAD", 0x1000080070048, [(4, 0x1000), (2, 0x10)], 4, 0x0, 0x0, 0x0, 0x0, 0x0, 0x0⟩,
  ⟨"CAN_RXTAIL", 0x100008007004C, [(4, 0x1000), (2, 0x10)], 4, 0x0, 0xFFFF, 0x0, 0x0, 0x0, 0x0⟩,
  ⟨"CAN_FMATCH", 0x1000080070100, [(4, 0x1000), (32, 0x10)], 4, 0x0, 0xFFFFFFFF, 0x0, 0x0, 0x0, 0x0⟩,
  ⟨"CAN_FMASK", 0x1000080070104, [(4, 0x1000), (32, 0x10)], 4, 0x0, 0xFFFFFFFF, 0x0, 0x0, 0x0, 0x0⟩,
  ⟨"CAN_FCFG", 0x1000080070108, [(4, 0x1000), (32, 0x10)], 4, 0x0, 0xFFF00000, 0x0, 0x0, 0x0, 0x0⟩,
  ⟨"BLD_REC", 0x1000080090000, [(32, 0x40), (11, 0x4)], 4, 0x0, 0xFFFFFFFF, 0x0, 0x0, 0x0, 0x0⟩,
  ⟨"BLD_MAP", 0x1000080090800, [(32, 0x10), (4, 0x4)], 4, 0x0, 0xFFFFFFFF, 0x0, 0x0, 0x0, 0x0⟩,
  ⟨"BLD_REPLACED", 0x1000080090A00, [], 4, 0x0, 0x0, 0x0, 0x0, 0x0, 0x0⟩]
/-- Rows of the register map (part 10). -/
def regTable10 : List RegRow := [
  ⟨"BLD_SKIPPED", 0x1000080090A04, [], 4, 0x0, 0x0, 0x0, 0x0, 0x0, 0x0⟩,
  ⟨"BLD_SHORT", 0x1000080090A08, [], 4, 0x0, 0x0, 0x0, 0x0, 0x0, 0x0⟩,
  ⟨"BLD_LAST", 0x1000080090A0C, [], 4, 0x0, 0x0, 0x0, 0x0, 0x0, 0x0⟩,
  ⟨"BLD_CTRL", 0x1000080090A10, [], 4, 0x0, 0x0, 0x0, 0x1, 0x0, 0x0⟩,
  ⟨"T1S_CTRL", 0x10000800A0000, [(2, 0x1000)], 4, 0x40080020, 0xC3FFFFFF, 0x0, 0x0, 0x0, 0x0⟩,
  ⟨"T1S_STATUS", 0x10000800A0004, [(2, 0x1000)], 4, 0x0, 0x0, 0x8, 0x0, 0x0, 0x0⟩,
  ⟨"T1S_TXPUSH", 0x10000800A0008, [(2, 0x1000)], 4, 0x0, 0x0, 0x0, 0xFFFFFFF0, 0x0, 0x0⟩,
  ⟨"T1S_TXSTAT", 0x10000800A000C, [(2, 0x1000)], 4, 0x0, 0x0, 0x80, 0x0, 0x0, 0x0⟩,
  ⟨"T1S_RXBASE", 0x10000800A0010, [(2, 0x1000)], 4, 0x0, 0xFFFFFFF0, 0x0, 0x0, 0x0, 0x0⟩,
  ⟨"T1S_RXHEAD", 0x10000800A0014, [(2, 0x1000)], 4, 0x0, 0x0, 0x0, 0x0, 0x0, 0x0⟩,
  ⟨"T1S_RXTAIL", 0x10000800A0018, [(2, 0x1000)], 4, 0x0, 0xFFFF, 0x0, 0x0, 0x0, 0x0⟩,
  ⟨"T1S_RXDROP", 0x10000800A001C, [(2, 0x1000)], 4, 0x0, 0x0, 0x0, 0x0, 0x0, 0x0⟩,
  ⟨"T1S_MAC0", 0x10000800A0020, [(2, 0x1000)], 4, 0x0, 0xFFFFFFFF, 0x0, 0x0, 0x0, 0x0⟩,
  ⟨"T1S_MAC1", 0x10000800A0024, [(2, 0x1000)], 4, 0x0, 0xFFFF, 0x0, 0x0, 0x0, 0x0⟩,
  ⟨"ENC_CFG", 0x10000800B0000, [(16, 0x40)], 4, 0x0, 0xEFFFFFFF, 0x0, 0x0, 0x0, 0x0⟩,
  ⟨"ENC_SCALE", 0x10000800B0004, [(16, 0x40)], 4, 0x0, 0x1F0F, 0x0, 0x0, 0x0, 0x0⟩,
  ⟨"ENC_RAW", 0x10000800B0008, [(16, 0x40)], 4, 0x0, 0x0, 0x0, 0x0, 0x0, 0x0⟩,
  ⟨"ENC_MT", 0x10000800B000C, [(16, 0x40)], 4, 0x0, 0x0, 0x0, 0x0, 0x0, 0x0⟩,
  ⟨"ENC_STAT", 0x10000800B0010, [(16, 0x40)], 4, 0x0, 0x0, 0xC0, 0x0, 0x0, 0x0⟩,
  ⟨"PERMIT_CTRL", 0x10000800C0000, [], 4, 0xA00, 0x0, 0x0, 0x1, 0x0, 0xFF00⟩,
  ⟨"PERMIT_STATUS", 0x10000800C0004, [], 4, 0x10000000, 0x0, 0x0, 0xFF, 0x0, 0x0⟩,
  ⟨"PERMIT_KICK", 0x10000800C0008, [(2, 0x4)], 4, 0x0, 0x0, 0x0, 0xFFFFFFFF, 0x0, 0x0⟩,
  ⟨"FB_CTRL", 0x10000800D0000, [], 4, 0x1, 0x3, 0x0, 0x0, 0x0, 0x0⟩,
  ⟨"FB_DIAG", 0x10000800D0100, [(141, 0x4)], 4, 0x0, 0x0, 0x1E, 0x0, 0x20, 0x0⟩]
/-- Rows of the register map (part 11). -/
def regTable11 : List RegRow := [
  ⟨"HFLT_CTRL", 0x10000800E0000, [], 4, 0xA500000, 0xFFF00000, 0x0, 0x3, 0x0, 0x0⟩,
  ⟨"HFLT_STATUS", 0x10000800E0004, [], 4, 0x0, 0x0, 0x0, 0x0, 0x0, 0x0⟩,
  ⟨"HFLT_QUAR", 0x10000800E0008, [], 4, 0x0, 0x0, 0x0, 0x0, 0x0, 0x0⟩,
  ⟨"HFLT_LOGSEQ", 0x10000800E000C, [], 4, 0x0, 0x0, 0x0, 0x0, 0x0, 0x0⟩,
  ⟨"HFLT_FACE", 0x10000800E0010, [(6, 0x4)], 4, 0x0, 0x0, 0x0, 0x0, 0x0, 0x0⟩,
  ⟨"HFLT_LOG", 0x10000800E0100, [(16, 0x10), (4, 0x4)], 4, 0x0, 0x0, 0x0, 0x0, 0x0, 0x0⟩,
  ⟨"SEC_LIFE", 0x10000800F0000, [], 4, 0x0, 0x0, 0x0, 0x0, 0x0, 0x0⟩,
  ⟨"SEC_RECVER", 0x10000800F0004, [], 4, 0x0, 0x0, 0x0, 0x0, 0x0, 0x0⟩,
  ⟨"SEC_BOOTCNT", 0x10000800F0008, [], 4, 0x0, 0x0, 0x0, 0x0, 0x0, 0x0⟩,
  ⟨"SEC_EPOCH", 0x10000800F000C, [], 4, 0x0, 0x0, 0x0, 0x0, 0x0, 0x0⟩,
  ⟨"SEC_FWSVN", 0x10000800F0010, [], 4, 0x0, 0x0, 0x0, 0x0, 0x0, 0x0⟩,
  ⟨"SEC_DBGCTRL", 0x10000800F0020, [], 4, 0x0, 0x1F000003, 0x0, 0xE0000000, 0x0, 0x0⟩,
  ⟨"SEC_DBGSTAT", 0x10000800F0024, [], 4, 0x0, 0x0, 0x0, 0x0, 0x0, 0x0⟩,
  ⟨"SEC_PSTATE", 0x10000800F0028, [], 4, 0x0, 0x1C000000, 0x1000000, 0x0, 0x0, 0x0⟩,
  ⟨"PWM_PAIR", 0x1000080100000, [(12, 0x4)], 4, 0x0, 0x7FF0FFFF, 0x0, 0x0, 0x0, 0x0⟩,
  ⟨"PWM_CH", 0x1000080100040, [(24, 0x4)], 4, 0x0, 0xE0000000, 0x0, 0x0, 0x0, 0x0⟩,
  ⟨"GFP_CFG", 0x1000080110000, [(16, 0x4)], 4, 0x0, 0xEFFC03FF, 0x0, 0x0, 0x0, 0x0⟩,
  ⟨"GFP_EDGES", 0x1000080110040, [], 4, 0x0, 0x0, 0xFFFF, 0x0, 0x0, 0x0⟩]

/-- Every register kind. -/
def regTable : List RegRow :=
  regTable0 ++ regTable1 ++ regTable2 ++ regTable3 ++ regTable4 ++ regTable5 ++ regTable6 ++ regTable7 ++ regTable8 ++ regTable9 ++ regTable10 ++ regTable11

/-- The indices of `off` in a list of (count, stride) pairs, largest stride first; `none` where it hits no instance. -/
def strideHit : List (Nat × Nat) → Nat → Option (List Nat)
  | [], 0 => some []
  | [], _ => none
  | (c, st) :: r, off =>
    if c * st ≤ off then none
    else match strideHit r (off % st) with
      | some l => some (off / st :: l)
      | none => none

/-- Does the row hold a register at key `a`? -/
def RegRow.hit (r : RegRow) (a : Nat) : Bool :=
  r.base ≤ a && (strideHit r.strides (a - r.base)).isSome

/-- The indices of the register at key `a` of a row that holds it. -/
def RegRow.idx (r : RegRow) (a : Nat) : List Nat := (strideHit r.strides (a - r.base)).getD []

/-- The register kind at key `a`. -/
def regRow? (a : Nat) : Option RegRow := regTable.find? (·.hit a)

end Sys2Proof.Machine
end

