-- ==== Sys2Proof/Machine/Map.lean ====
section
/-! DEFINITION. Sparse tables in one canonical form: keys strictly rising, and no entry equal to what an
unlisted key reads as. Memory, the register file and every table of the block use these operations. -/

namespace Sys2Proof.Machine

/-- A sparse table: (key, value) pairs, keys strictly rising. -/
abbrev Map (α : Type) := List (Nat × α)

/-- The value at `k`; an unlisted key reads as `d`. -/
def Map.get {α : Type} (d : α) : Map α → Nat → α
  | [], _ => d
  | (j, v) :: m, k => if k = j then v else Map.get d m k

/-- Enter `v` at `k`, in the order of the keys, in place of what stood there. -/
def Map.insert {α : Type} : Map α → Nat → α → Map α
  | [], k, v => [(k, v)]
  | (j, w) :: m, k, v =>
    if k < j then (k, v) :: (j, w) :: m
    else if k = j then (k, v) :: m
    else (j, w) :: Map.insert m k v

/-- Write `v` at `k`; writing the default removes the entry. -/
def Map.put {α : Type} [DecidableEq α] (d : α) (m : Map α) (k : Nat) (v : α) : Map α :=
  if v = d then m.filter fun e => e.1 != k else Map.insert m k v

/-- Remove every entry whose key lies in [lo, hi). -/
def Map.clear {α : Type} (lo hi : Nat) (m : Map α) : Map α :=
  m.filter fun e => !(lo ≤ e.1 && e.1 < hi)

/-- Every key is at least `b`, the keys rise strictly, and no value is the default. -/
def Map.wfFrom {α : Type} [DecidableEq α] (d : α) : Nat → Map α → Bool
  | _, [] => true
  | b, (j, v) :: m => b ≤ j && v ≠ d && Map.wfFrom d (j + 1) m

/-- The canonical form. -/
def Map.wf {α : Type} [DecidableEq α] (d : α) (m : Map α) : Bool := Map.wfFrom d 0 m

/-- Replace the element at position `i` of a list, if there is one. -/
def listSet {α : Type} (l : List α) (i : Nat) (v : α) : List α := l.set i v

end Sys2Proof.Machine
end

