-- ==== Sys2Proof/Machine/State.lean ====
section
/-! DEFINITION. The state of the block: every register, table, queue and unit the spec names, the waiting commands,
and the reasons a command can stop. Plain data throughout. -/

namespace Sys2Proof.Machine

/-- A 48-bit counter in its register layout: OVF in bit 63, COUNT in bits 47:0 (R364). -/
abbrev Ctr := Word

/-! ## Faces (R102 to R139, R147 to R149, R171) -/

/-- The unit an instruction runs on (R143); `front` completes at issue. -/
inductive FUnit
  | front | mover | tile | vector | digest | store | sync
  deriving DecidableEq, Repr

/-- One deferred effect of an issued instruction, made when the instruction completes (R112). -/
inductive Fx
  /-- bytes written from key `a` upward -/
  | store (a : Nat) (bs : List Byte)
  /-- `n` zero bytes from key `a` upward -/
  | zero (a n : Nat)
  /-- a 48-bit counter register at `reg` counts `n` more -/
  | count (reg n : Nat)
  /-- saturation counter `d` of a Face counts `n` elements (R63) -/
  | qsat (face d n : Nat)
  /-- a routed counter of vFace `vf` of job `j` receives `n` (R119) -/
  | routed (j vf idx n : Nat)
  /-- semaphore release by a job (R122) -/
  | release (j sem n : Nat)
  /-- an event source is raised (R133) -/
  | raise (src : Nat)
  /-- a status word of a publication slot goes to the status gate (R447) -/
  | gate (j pair slot a app : Nat)
  /-- a digest log entry of job `j` (R293), as its 64 bytes without TIME and PERT -/
  | log (j : Nat) (bs : List Byte)
  /-- a reduction at the Board in arrival order: FP32 elements, from logical index `i0`, added from key `a` (R169) -/
  | racc (a i0 : Nat) (xs : List Nat)
  /-- row `tok` of page `page` of the pool in buffer `buf` of job `j` has been written (R194) -/
  | kvRow (j buf page tok : Nat)
  deriving DecidableEq, Repr

/-- A recurrence's state in scratch banks (R203, R209): first bank, KIND, PREC, streams, channels. -/
structure RecLay where
  first : Nat
  kind : Nat
  prec : Nat
  n : Nat
  c : Nat
  deriving DecidableEq, Repr

/-- The order that the tile queue gives an instruction against the tile-group instructions ahead of it (R144, R170, R225):
none; behind all of them (SEXP, SIMP); behind the imports and exports among them (RSTEP, RCHUNK). -/
inductive TileOrder
  | loose | afterAll | afterImports
  deriving DecidableEq, Repr

/-- What an instruction that waits in a unit's queue takes along to compute when it starts (R143, R175, R188): itself, the
registers of the Face as they were at issue, the free values it will take, the spans it reads that an instruction in flight
was writing without an order, its destination descriptor, and the digest slots its writes fold into, by descriptor. -/
structure Redo where
  ins : Instr
  d : Map (BitVec 256)
  s : Map (BitVec 128)
  stream : Nat
  accInt : Nat
  accMixed : Nat
  recLay : List RecLay
  free : Nat
  raced : List (Nat × Nat)
  dd : Nat
  folds : List (Nat × Nat)
  /-- words of the geometry record that the front end read (R231); empty for any other instruction -/
  geo : List Int
  deriving DecidableEq, Repr

/-- An issued, uncompleted instruction (R113). -/
structure Entry where
  /-- order of issue in the command -/
  seq : Nat
  pc : Nat
  unit : FUnit
  started : Bool
  /-- counter to signal at completion -/
  sig : Option Nat
  /-- tiers written: bit 0 store, 1 Board, 2 HBM, 3 remote (R120) -/
  tiers : Nat
  /-- keys read and written, as (start, length) -/
  reads : List (Nat × Nat)
  writes : List (Nat × Nat)
  fx : List Fx
  /-- an STG (R114) -/
  isStg : Bool
  /-- target vFace of a move that writes another vFace's instance, and the Face whose store the writes name (R132) -/
  remote : Option (Nat × Nat)
  /-- semaphore and amount of a waiting SACQ (R121) -/
  acq : Option (Nat × Nat)
  /-- digest slots that this instruction's writes fold into, as a bit mask (R171) -/
  folds : Nat
  /-- buffer table entries read or written -/
  bufs : List Nat
  /-- how it stands to the tile-group instructions ahead of it -/
  order : TileOrder
  /-- banks it uses as working space (R177) -/
  scratch : List (Nat × Nat)
  /-- spans of its writes that a race has made unpredictable (R115) -/
  lost : List (Nat × Nat)
  /-- present while it waits in its unit's queue -/
  redo : Option Redo
  /-- tiles whose MAC columns make passes for it, and tiles on which a pass failed its residue check, as masks (R431) -/
  macUsed : Nat
  macBad : Nat
  deriving DecidableEq, Repr

/-- A digest slot (R171): the latched descriptor, the folded codes by logical index, and the writes folded. -/
structure DigSlot where
  armed : Bool
  desc : Nat
  codes : Map Nat
  folded : Nat
  deriving DecidableEq, Repr

/-- One Face (R102 to R118). Between commands it keeps no program state (R103). -/
structure FaceSt where
  running : Bool
  job : Nat
  vf : Nat
  pc : Nat
  stream : Nat
  g : Map Word
  d : Map (BitVec 256)
  s : Map (BitVec 128)
  ev : Map Ctr
  /-- the job's seed at the command's start (R302) -/
  seed : Nat
  /-- step counter latched at first issue (R285); `none` before the first issue -/
  jstep : Option Nat
  cmdno : Nat
  /-- raw count at the first issue (R104) -/
  firstIssue : Option Nat
  seq : Nat
  window : List Entry
  /-- END has issued and drains (R103) -/
  ending : Bool
  /-- counter that END signals -/
  endSig : Option Nat
  /-- DGOUTs issued in the command (R293) -/
  ord : Nat
  /-- an instruction of R283 has issued in this command (R284) -/
  taint : Bool
  /-- bit k: ACCk is INT32 (R149) -/
  accInt : Nat
  /-- bit k: ACCk holds recurrence state beside words of no defined value (R209), and the layouts in use -/
  accMixed : Nat
  recLay : List RecLay
  digs : Map DigSlot
  /-- stripe set of an EXCHANGE start (R239); `none` otherwise -/
  exchange : Option Nat
  /-- the command runs in a borrowed turn (R266) -/
  borrowed : Bool
  /-- raw count at the command's start -/
  startAt : Nat
  /-- whose live image each bank holds (R205): 0 nobody's, else 1 + 8 * job + vFace -/
  owner : Map Nat
  /-- buffer table entries the running command has referenced (R94) -/
  refs : List Nat
  /-- the slot-table entry that grants the Face (R259) -/
  slot : Option Nat
  /-- the exceptions that Ulnal has not yet answered, oldest first: the job, and whether of the hardware class (R137) -/
  excJobs : List (Nat × Bool)
  /-- instructions in flight that the last exception cancelled: order of issue and PC (R138) -/
  cancelled : List (Nat × Nat)
  /-- issue held by a debug halt (R478) -/
  halted : Bool
  /-- the Face is being reset (R512) -/
  resetting : Bool
  /-- the Face is power-gated (R473) -/
  gated : Bool
  deriving DecidableEq, Repr

/-- A Face with nothing running. -/
def FaceSt.idle : FaceSt :=
  { running := false, job := 0, vf := 0, pc := 0, stream := 0, g := [], d := [], s := [], ev := [], seed := 0, jstep := none,
    cmdno := 0, firstIssue := none, seq := 0, window := [], ending := false, endSig := none, ord := 0, taint := false, accInt := 0, accMixed := 0, recLay := [],
    digs := [], exchange := none, borrowed := false, startAt := 0,
    owner := [], refs := [], slot := none, excJobs := [], cancelled := [], halted := false, resetting := false, gated := false }

/-! ## Jobs, placement, scheduling (R83 to R101, R248 to R302) -/

/-- One vFace's command queue and its start stage (R252 to R255). -/
structure VfSt where
  /-- SCHED_QBASE layout -/
  qbase : Word
  head : BitVec 32
  tail : BitVec 32
  /-- 0 not examined, 1 start wait passed, 2 acquire requested, 3 ready -/
  stage : Nat
  /-- raw count at which it became ready, for WAIT_NS -/
  readyAt : Nat
  /-- commands started since the load (R109) -/
  cmdno : Nat
  /-- commands of this vFace ended since the load, as a queue position (R286) -/
  ended : BitVec 32
  /-- live banks whose contents are in the vFace's save area (R205), as a mask -/
  inSave : Nat
  deriving DecidableEq, Repr

/-- An unused queue. -/
def VfSt.empty : VfSt :=
  { qbase := 0, head := 0, tail := 0, stage := 0, readyAt := 0, cmdno := 0, ended := 0, inSave := 0 }

/-- One loaded job (R85, R202, R257, R286, R447). -/
structure JobSt where
  img : JobImage
  codeBase : Nat
  /-- device index in a multi-chip job -/
  device : Nat
  /-- ending: no further command starts (R99) -/
  ending : Bool
  /-- its first command has started (R302) -/
  started : Bool
  /-- captured TAILs of a step advance (R286) -/
  captured : List (BitVec 32)
  /-- fault latch in the layout of R446 bytes 6 to 7 (R447) -/
  latch : Nat
  /-- Faces that have run a command since the last status write (R447), and since the last scrub (R99), as masks -/
  ranStatus : Nat
  ranScrub : Nat
  /-- Faces on which the job has a borrowed turn (R266) -/
  borrow : Nat
  /-- donations in a row for the current wait (R266) -/
  donated : Nat
  /-- displaced from at least one Face while ready (R257) -/
  preempted : Bool
  /-- regions allocated to it: (start, length) -/
  regions : List (Nat × Nat)
  /-- bytes of HBM backing space it has reserved (R86) -/
  hbmUsed : Nat
  /-- save area of each vFace with live banks (R205) -/
  saves : List Nat
  /-- a debug hold had been requested when it was killed (R101, R472) -/
  hold : Bool
  deriving DecidableEq, Repr

/-- One of the 4,096 buffer table entries (R83, R87, R98), register layouts. -/
structure BufEnt where
  record : Word
  size : Word
  back : Word
  bind : Word
  sbind : Word
  reads : Ctr
  writes : Ctr
  /-- counts latched at the last cycle boundary, and the differences of the latched window (R95) -/
  lreads : Nat
  lwrites : Nat
  dreads : Nat
  dwrites : Nat
  /-- vFaces whose untracked HBM instance still has to be zeroed (R74), as a mask -/
  zeroing : Nat
  /-- raw count at which that zeroing was asked for, by vFace -/
  zeroAt : Map Nat
  deriving DecidableEq, Repr

/-- A free entry. -/
def BufEnt.free : BufEnt :=
  { record := 0, size := 0, back := 0, bind := 0, sbind := 0, reads := 0, writes := 0, lreads := 0, lwrites := 0,
    dreads := 0, dwrites := 0, zeroing := 0, zeroAt := [] }

/-- A request waiting on a semaphore, in order of arrival (R121). -/
structure SemReq where
  job : Nat
  /-- Face and window entry of a SACQ, or `none` for a command record's acquire -/
  face : Option (Nat × Nat)
  vf : Nat
  n : Nat
  /-- raw count at which it began to wait, and whether SEM_BLOCK was raised for it -/
  since : Nat
  blocked : Bool
  /-- turns donated in a row for this wait -/
  donated : Nat
  deriving DecidableEq, Repr

/-- The placement unit and scrub engine (R94 to R101). -/
structure PlaceSt where
  /-- GO written and waiting for its boundary -/
  committed : Bool
  goAt : Nat
  /-- raw count at which the current cycle latched its counters -/
  cycleAt : Nat
  cycleOpen : Bool
  /-- pending vFace maps by job, and vFaces that have not yet adopted: (job, vFace, Face) -/
  adopt : List (Nat × Nat × Nat)
  /-- pending buffer moves: (entry, SBIND) not yet started -/
  moves : List (Nat × Word)
  /-- moves in progress: (entry, SBIND, raw count at start) -/
  moving : List (Nat × Word × Nat)
  /-- regions being zeroed, in order: (start, length, job; 16 for a region of no job) -/
  scrub : List (Nat × Nat × Nat)
  /-- regions held for a debug session (R101, R472): (start, length, job) -/
  held : List (Nat × Nat × Nat)
  /-- HBM not zeroed since the stack was without power (R475): (start, length) -/
  unzeroed : List (Nat × Nat)
  /-- EXCHANGE stripe sets by plan, as 256 * job + set: planned, staged with a committed plan, in force (R238) -/
  exPlan : List Nat
  exSets : List Nat
  deriving DecidableEq, Repr

/-- The turns of one partition on one Face (R263): the job in its turn, the time it has left, and the vFace that is next. -/
structure TurnSt where
  job : Option Nat
  left : Nat
  nextVf : Nat
  /-- by PRIO, 1 + the job whose turn was last -/
  last : Map Nat
  /-- time left of turns that were cut short, and their next vFace, by job -/
  cut : Map Nat
  cutVf : Map Nat
  deriving DecidableEq, Repr

/-- No turn yet. -/
def TurnSt.none : TurnSt := { job := Option.none, left := 0, nextVf := 0, last := [], cut := [], cutVf := [] }

/-- The scheduler (R258 to R267). -/
structure SchedSt where
  /-- raw counts of the last and the next frame boundary -/
  frameAt : Nat
  nextBoundary : Nat
  /-- staged slot table, staged frame length and the raw count of the GO -/
  staged : List Word
  stagedFrame : Nat
  stagedAt : Nat
  /-- turns by 8 * Face + partition -/
  turns : Map TurnSt
  /-- counters of ATTN and REC blocks already charged to a job, by register (R199, R226) -/
  charged : Map Nat
  /-- sum and number of the pace windows of each Face in the frame in progress, and its pace in the last completed one (R238) -/
  paceSum : Map Nat
  paceN : Map Nat
  framePace : Map Nat
  deriving DecidableEq, Repr

/-- Publication counters and step records kept on the Home side (R287, R447). -/
structure KeptSt where
  /-- publication counters by 16 * job + slot pair -/
  pubs : Map Nat
  /-- JSTEP copies by job -/
  jstep : Map Nat
  /-- entries in each job's digest log ring, since the ring was set (R293) -/
  logFill : Map Nat
  /-- jobs to reload at a restart: index, image and plan -/
  reload : List (Nat × JobImage × LoadPlan)
  /-- placement history by image digest and BUF_ID: (reads, writes) (R88) -/
  history : List (Nat × Nat × Nat × Nat)
  /-- LIFE 0 instances in HBM that a compute-side reset left with the bytes of a command: job, BUF_ID, vFaces as a mask (R74) -/
  zeroDue : List (Nat × Nat × Nat)
  deriving DecidableEq, Repr

/-! ## The Pip engine (R245) -/

/-- The record the Pip engine runs. -/
structure PipRun where
  addr : Nat
  image : List Byte
  part : Nat
  job : Nat
  start : Nat
  /-- its job was flushed: it ends without status or event (R246) -/
  flushed : Bool
  deriving DecidableEq, Repr

/-- The Pip engine's queues (record addresses, oldest first), the running record, and the queue served last. -/
structure PipSt where
  queues : Map (List Nat)
  running : Option PipRun
  last : Nat
  deriving DecidableEq, Repr


/-! ## The KV service (R191 to R195) -/

/-- A node of the prefix tree: a shared page. `parent` 0 is the root; `used` is the last-use sequence number. -/
structure KvNode where
  id : Nat
  parent : Nat
  hash : Nat
  page : Nat
  toks : List Nat
  refs : Nat
  used : Nat
  deriving DecidableEq, Repr

/-- A sequence: its slot, its token identifiers, the node of each leading page (0 where the page stays private), and the
pages it holds by page index, with none for an absent one. -/
structure KvSeq where
  slot : Nat
  toks : List Nat
  nodes : List Nat
  pages : List (Option Nat)
  deriving DecidableEq, Repr

/-- One set of pools under the service: the tree, the sequences, its own copy of the page table by entry, and the
next node and last-use numbers. -/
structure KvSet where
  nodes : List KvNode
  seqs : List KvSeq
  copy : Map Nat
  next : Nat
  clock : Nat
  /-- rows written since the page was handed out, as a mask of 256, by 2^24 × pool + page (R194) -/
  written : Map Nat
  deriving DecidableEq, Repr

/-- A set with nothing in it: every table entry absent. -/
def KvSet.empty : KvSet := { nodes := [], seqs := [], copy := [], next := 1, clock := 0, written := [] }

/-! ## Eflet (R410 to R427) -/

/-- A piece or an INC in flight from this device (R419 to R422): its tag, port and partition pool, the Face and window entry of
its MOV, what it is, the window offset, and where its bytes lie in the peer's memory. -/
structure EflFlight where
  tag : Nat
  port : Nat
  part : Nat
  face : Nat
  seq : Nat
  /-- 1 a put piece, 2 a get piece, 5 an INC, as TYPE numbers them -/
  typ : Nat
  off : Nat
  key : Nat
  deriving DecidableEq, Repr

/-- A tensor as a get keeps it: descriptor index, descriptor, first key, page table. -/
structure EflRef where
  idx : Nat
  d : BitVec 256
  base : Nat
  pt : Option (Nat × Nat × Nat)
  deriving DecidableEq, Repr

/-- A MOV to or from a remote buffer (R419 to R421): the peer, the pieces not yet started as (key, length), how many have
started and how many are not yet answered, the window and generation, the stage of its INC (0 not sent, 1 sent, 2
acknowledged), the first key of the remote buffer, and for a get the tensors and the effects the entry was issued with. -/
structure EflXfer where
  face : Nat
  seq : Nat
  put : Bool
  dev : Nat
  waiting : List (Nat × Nat)
  started : Nat
  unanswered : Nat
  win : Nat
  gen : Nat
  inc : Nat
  base : Nat
  dst : Option EflRef
  src : Option EflRef
  issued : List Fx
  deriving DecidableEq, Repr

/-- A piece that is arriving (R423): port, source, tag, window, and its status (0 where it was accepted). -/
structure EflIncoming where
  port : Nat
  src : Nat
  tag : Nat
  win : Nat
  status : Nat
  deriving DecidableEq, Repr

/-- The link layer of one port (R415): next SEQ to send, frames not acknowledged, next SEQ expected, NAKs sent and received
in a row for one SEQ, the raw count of the last acknowledgement or first outstanding frame, the raw count at which a
retrain began, frames delivered and not yet served. -/
structure EflPort where
  txSeq : BitVec 16
  unacked : List EflFrame
  rxSeq : BitVec 16
  naksOut : Nat
  naksIn : Nat
  nakSeq : BitVec 16
  since : Nat
  retrainAt : Nat
  inbox : List EflFrame
  deriving DecidableEq, Repr

/-- A port at rest. -/
def EflPort.idle : EflPort :=
  { txSeq := 0, unacked := [], rxSeq := 0, naksOut := 0, naksIn := 0, nakSeq := 0, since := 0, retrainAt := 0, inbox := [] }

/-- The Eflet unit. -/
structure EflSt where
  ports : Map EflPort
  flights : List EflFlight
  xfers : List EflXfer
  /-- pieces whose first frame has arrived and whose last has not -/
  accepted : List EflIncoming
  /-- credits in use by 8 * port + partition (R422) -/
  used : Map Nat
  deriving DecidableEq, Repr

/-- Nothing under way. -/
def EflSt.init : EflSt := { ports := [], flights := [], xfers := [], accepted := [], used := [] }

/-! ## Safety (R428 to R457) and the permit (R400 to R404) -/

/-- A status word held by the status gate (R447): the Face and window entry that wrote it, job, slot pair, key of the word, APP
byte, raw count at which the gate took it. -/
structure GateHeld where
  face : Nat
  seq : Nat
  job : Nat
  pair : Nat
  slot : Nat
  key : Nat
  app : Nat
  since : Nat
  deriving DecidableEq, Repr

/-- The fault machinery. -/
structure SafeSt where
  /-- times of counted faults by Face, newest first (R452) -/
  times : Map (List Nat)
  /-- times of compute-side resets, newest first (R451) -/
  resets : List Nat
  /-- a device fault waits for its reset; the raw count of the fault that started the reset (R449) -/
  resetDue : Bool
  faultAt : Nat
  /-- raw count at which compute-side reset was released -/
  bootAt : Nat
  /-- the Board has been zeroed since, so the gate is open (R17) -/
  boardOpen : Bool
  /-- raw count of the last heartbeat, or of CSTATE becoming UP (R440) -/
  kickAt : Nat
  /-- multi-chip jobs that a job fault ends (R449) -/
  jobFaults : List Nat
  /-- the injection in progress: kind, Face, raw count (R454) -/
  inj : Option (Nat × Nat × Nat)
  gate : List GateHeld
  /-- start of the last passed golden run, or the raw count from which the period runs (R442, R471) -/
  goldFrom : Nat
  /-- the pending run has been released; start of the run in progress -/
  goldReleased : Bool
  goldAt : Nat
  /-- Face time used by each instance (R442), and the log counts of each job when the run started -/
  goldUsed : Map Nat
  goldLog : Map Nat
  deriving DecidableEq, Repr

/-- Arming and kicks of the permit (R401, R402): the raw count of pair 0's key, of an accepted arming whose first edge is
still to come, and of the last kick of each pair. -/
structure PermitSt where
  keyAt : Option Nat
  armedAt : Option Nat
  kick0 : Nat
  kick1 : Nat
  /-- a readback fault persists -/
  badRead : Bool
  deriving DecidableEq, Repr

/-! ## Time (R342 to R366) -/

/-- PPS_IN (R351 to R356). Times of day are in units of 2^-16 ns. -/
structure PpsSt where
  /-- the next accepted edge is the first after entering TRACK -/
  first : Bool
  /-- raw count of the last accepted edge as captured (R365) -/
  cap : Nat
  /-- e_prev (R355) -/
  prev : Option Int
  /-- raw count of the last accepted edge, or of the entry into the state without one -/
  last : Nat
  /-- DETECT: the last rising and falling edges, full periods measured, and their high time -/
  rise : Option Nat
  fall : Option Nat
  periods : Nat
  high : Nat
  deriving DecidableEq, Repr

/-- The timebase (R343 to R348). -/
structure TimeSt where
  ra : Nat
  ta : Nat
  rho : Int
  /-- RHO_H staged by each Home pair -/
  rhoH : Map Nat
  stepH : Nat
  stepF : Nat
  /-- latches of each Home pair -/
  rawHi : Map Nat
  now1 : Map Nat
  now2 : Map Nat
  capHi : Nat
  /-- TIMEM_NOW1 by requester, and the latch of TIMEM_RA -/
  memNow1 : Map Nat
  memTa : Nat
  memRho : Int
  memPseq : Nat
  pps : PpsSt
  deriving DecidableEq, Repr

/-- As HOME_RST_N leaves it (R345). -/
def TimeSt.init : TimeSt :=
  { ra := 0, ta := 0, rho := 0, rhoH := [], stepH := 0, stepF := 0, rawHi := [], now1 := [], now2 := [], capHi := 0,
    memNow1 := [], memTa := 0, memRho := 0, memPseq := 0,
    pps := { first := true, cap := 0, prev := none, last := 0, rise := none, fall := none, periods := 0, high := 0 } }

/-! ## The control engine, the hold controller, the solver (R307 to R341) -/

/-- What a tick captures for the loops that execute at it (R308): input words, setpoints, positions and velocities. -/
structure CeCap where
  ins : Map Nat
  sps : Map Nat
  pos : Map Nat
  vel : Map Nat
  deriving DecidableEq, Repr

/-- An execution that is due (R309): its loop and its tick's raw count. -/
structure CeDue where
  loop : Nat
  tick : Nat
  cap : CeCap
  deriving DecidableEq, Repr

/-- The execution in progress: the next instruction, working registers, accumulator in units of 2^-93, state words as they
will be, output, SAT, and whether END has been executed. -/
structure CeExec where
  loop : Nat
  tick : Nat
  cap : CeCap
  pc : Nat
  regs : Map Nat
  acc : Int
  words : Map Nat
  output : Nat
  sat : Bool
  ended : Bool
  deriving DecidableEq, Repr

/-- An apply instant to come (R308, R318): its raw count, the tick's raw count, the loops that take part. -/
structure CeApply where
  due : Nat
  tick : Nat
  group : Bool
  loops : List Nat
  deriving DecidableEq, Repr

/-- An on-time execution whose output is not applied yet: its loop, tick, and the state words before it (R320). -/
structure CeUndo where
  loop : Nat
  tick : Nat
  words : Map Nat
  deriving DecidableEq, Repr

/-- The control engine. -/
structure CeSt where
  /-- index of the next tick -/
  next : Nat
  queue : List CeDue
  run : Option CeExec
  applies : List CeApply
  undo : List CeUndo
  /-- output of each loop's latest on-time execution -/
  outs : Map Nat
  /-- working copies of coefficients: (VALUE, SHIFT) by 32 * loop + index, as VALUE + 2^32 * SHIFT -/
  copies : Map Nat
  /-- staged SHIFT of each pair, as 1 + entry + 4096 * SHIFT; 0 for none -/
  staged : Map Nat
  /-- CE_LOOPn_PROG as it stood when the loop was enabled, and CE_LOOPn_OUT as it stood at its last tick -/
  prog : Map Nat
  outReg : Map Nat
  /-- loops eligible at the last tick, as a mask -/
  eligible : Nat
  /-- loops whose EN has been cleared and whose next tick has not come (R323), as a mask -/
  closing : Nat
  /-- raw count of the GO that waits -/
  goAt : Nat
  deriving DecidableEq, Repr

/-- As HOME_RST_N leaves it (R306). -/
def CeSt.init : CeSt :=
  { next := 0, queue := [], run := none, applies := [], undo := [], outs := [], copies := [], staged := [], prog := [],
    outReg := [], eligible := 0, closing := 0, goAt := 0 }

/-- The hold controller (R338 to R340). -/
structure HoldSt where
  /-- cause that engages at the next tick -/
  cause : Option Nat
  release : Bool
  vals : Map Nat
  /-- a swap has occurred since it engaged -/
  swapped : Bool
  /-- raw count of the last swap -/
  swapAt : Nat
  /-- an engage cause has come since the last tick while it was engaged (R339) -/
  again : Bool
  deriving DecidableEq, Repr

/-- As HOME_RST_N leaves it. -/
def HoldSt.init : HoldSt := { cause := none, release := false, vals := [], swapped := false, swapAt := 0, again := false }

/-- A solve in progress (R333 to R336): where its results go, and what it will find. -/
structure SolvRun where
  n : Nat
  out : Nat
  map : Nat
  status : Option Nat
  deadline : Nat
  auto : Bool
  strict : Bool
  code : Nat
  flags : Nat
  reg : Nat
  iters : Nat
  /-- FP32 codes of the solution; none where it has none -/
  xs : List Nat
  aborted : Bool
  deriving DecidableEq, Repr

/-- The solver: the running solve, or one that waits to commit and since when. -/
structure SolvSt where
  run : Option SolvRun
  commit : Option (Nat × SolvRun)
  deriving DecidableEq, Repr

/-! ## Field interfaces (R367 to R409) -/

/-- A CAN controller: buffers whose abort waits, those whose frame reached the head of its queue after its launch time (R360),
and recovery from bus-off under way. -/
structure CanSt where
  abort : Nat
  late : Nat
  recovering : Bool
  deriving DecidableEq, Repr

/-- A frame on a T1S transmit queue: launch time, bytes. -/
structure T1sItem where
  lt : Nat
  bytes : List Byte
  deriving DecidableEq, Repr

/-- A T1S port: its queue, whether the head reached it after its launch time, whether the head is released, frames dropped since
the last delivered one. -/
structure T1sSt where
  queue : List T1sItem
  late : Bool
  released : Bool
  drops : Nat
  deriving DecidableEq, Repr

/-- An encoder port (R393 to R395): QUAD count, captured position and velocity, whether it has been read, an SSI transfer
under way, its word once complete, and the last word captured. -/
structure EncSt where
  count : BitVec 32
  pos : Nat
  vel : Nat
  read : Bool
  busy : Bool
  word : Option Nat
  last : Nat
  deriving DecidableEq, Repr

/-- A port at rest. -/
def EncSt.idle : EncSt := { count := 0, pos := 0, vel := 0, read := false, busy := false, word := none, last := 0 }

/-- The Home field logic. -/
structure FieldSt where
  can : Map CanSt
  t1s : Map T1sSt
  enc : Map EncSt
  /-- builds of each builder -/
  builds : Map Nat
  /-- PWM: outputs applied to channels (Q31 codes), pair settings in force -/
  duty : Map Nat
  pair : Map Nat
  /-- field pins switched to high impedance by a fault (R408), as a mask -/
  offPins : Nat
  /-- latest stamp that Home firmware took, by 32 × controller + filter, and by encoder port or 16 for the
  field bank (R359) -/
  canStamps : Map Nat
  encStamps : Map Nat
  deriving DecidableEq, Repr

/-- As HOME_RST_N leaves it. -/
def FieldSt.init : FieldSt :=
  { can := [], t1s := [], enc := [], builds := [], duty := [], pair := [], offPins := 0, canStamps := [], encStamps := [] }

/-- An open camera frame (R369 to R372). -/
structure CsiFrame where
  desc : Nat
  data : Nat
  stride : Nat
  lineBytes : Nat
  maxLines : Nat
  status : Nat
  vc : Nat
  dt : Nat
  fnum : Nat
  seq : Nat
  /-- lines met, written, dropped, with a CRC error -/
  met : Nat
  lines : Nat
  dropped : Nat
  crcErr : Nat
  flags : Nat
  startAt : Nat
  lastAt : Nat
  deriving DecidableEq, Repr

/-- A stream of a camera port: frames opened, the open frame, and the closed frames without stamps: status address, raw counts at
which the frame-start and the frame-end packet arrived. -/
structure CsiSt where
  opened : Nat
  frame : Option CsiFrame
  unstamped : List (Nat × Nat × Nat)
  deriving DecidableEq, Repr

/-- A stream at rest. -/
def CsiSt.idle : CsiSt := { opened := 0, frame := none, unstamped := [] }

/-- A stamp of R358. -/
structure EthStamp where
  raw : Nat
  mtype : Nat
  domain : Nat
  seqId : Nat
  deriving DecidableEq, Repr

/-- An Ethernet port: releases by queue (raw count + 1), queues whose head frame reached the head after its launch time and those
whose released frame is late, as masks, the queue whose frame is being sent with the raw count at which that began, the raw count
until which a pause holds transmission, drops by ring since the last delivered frame, stamp FIFOs (oldest first) and latches, the
gate list in force as (states, interval), its cycle start, and the shapers' credits in millionths of a bit with the raw count at which
they were last counted. -/
structure EthSt where
  released : Map Nat
  headLate : Nat
  late : Nat
  sending : Option (Nat × Nat)
  paused : Nat
  drops : Map Nat
  rx : List EthStamp
  tx : List EthStamp
  rxLatch : Option EthStamp
  txLatch : Option EthStamp
  gcl : List (Nat × Nat)
  cycle : Option Nat
  credit : Map Int
  creditAt : Nat
  deriving DecidableEq, Repr

/-- A port at rest. -/
def EthSt.idle : EthSt :=
  { released := [], headLate := 0, late := 0, sending := none, paused := 0, drops := [], rx := [], tx := [], rxLatch := none, txLatch := none, gcl := [], cycle := none,
    credit := [], creditAt := 0 }

/-- The compute side's edge units: camera streams by 4 * port + stream, Ethernet ports, and whether the PCIe link was started as a
root port (R380). -/
structure EdgeSt where
  csi : Map CsiSt
  eth : Map EthSt
  root : Bool
  deriving DecidableEq, Repr

/-! ## Security, power, the command port, boot (R458 to R513) -/

/-- The boot flash, which every reset keeps (R464, R465, R510): counters 0 to 2, the two record slots, the newest one's
index, and the lifecycle state of the last boot. -/
structure FlashSt where
  version : Nat
  svn : Nat
  boots : Nat
  slots : Map (Option LifeRec)
  newest : Nat
  life : Nat
  deriving DecidableEq, Repr

/-- A flash with nothing in it. -/
def FlashSt.blank : FlashSt := { version := 0, svn := 0, boots := 0, slots := [], newest := 1, life := 0 }

/-- Security and boot. -/
structure SecSt where
  /-- K_PUF is in the key register (R458, R472) -/
  kPuf : Bool
  /-- level of the challenge in the buffer -/
  chal : Option Nat
  /-- level under verification, and whether its challenge has been replaced -/
  verifying : Option Nat
  stale : Bool
  /-- a grant of D3 is under way (R472) -/
  d3 : Bool
  /-- the job for which a debug hold has been requested (R472) -/
  holdJob : Option Nat
  /-- halted units: Face n is unit n, Double d is 6 + d, Home pair p is 10 + p; and since when -/
  halts : Map Nat
  /-- lock list of the record in force (R467): register key and value -/
  locks : List (Nat × Nat)
  /-- digests of the running images, and the security versions they raise the firmware counter to (R462) -/
  homeDigest : BitVec 512
  ulnDigest : BitVec 512
  raises : List Nat
  /-- Ulnal slots whose MAIN has failed in this boot: bit 0 A, bit 1 B -/
  ulnTried : Nat
  /-- bytes of STAGE0 -/
  stage0 : Nat
  deriving DecidableEq, Repr

/-- As a HOME_RST_N leaves it. -/
def SecSt.init : SecSt :=
  { kPuf := false, chal := none, verifying := none, stale := false, d3 := false, holdJob := none, halts := [], locks := [], homeDigest := 0,
    ulnDigest := 0, raises := [], ulnTried := 0, stage0 := 0 }

/-- Power (R473 to R484, R520, R521). -/
structure PwrSt where
  /-- thermal history, and milliseconds run without it -/
  history : Bool
  ticks : Nat
  /-- raw count of the last governor tick -/
  tickAt : Nat
  /-- reasons that the governor and the trims give (bit k for reason k), and those acting when last looked at -/
  soft : Nat
  acting : Nat
  /-- junction throttle by domain: 1 at 50 %, 2 at 12.5 %; droop and current throttles -/
  junction : Map Nat
  droop : Bool
  icc : Bool
  /-- HBMPCT to restore, and since when HOT has been clear -/
  hbmPct : Option Nat
  coolAt : Option Nat
  /-- last voltage written to the regulator in mV, and the VOUT_COMMAND code -/
  voutMv : Nat
  vout : Nat
  /-- supply enables and PG_CORE, and when PWR_CORE_EN rose -/
  hbmEn : Bool
  coreEn : Bool
  pgCore : Bool
  coreEnAt : Nat
  /-- transition under way: to a state asked by Ulnal; to one asked by Home firmware -/
  toUlnal : Option Nat
  toHome : Option Nat
  /-- VHOME is out of its range (R18, R522) -/
  vhomeOut : Bool
  /-- energy of each domain not yet shared among the jobs (R271), and the accounting fields already used for sharing it: by
  16 × domain + job -/
  shareDue : Map Nat
  shareSnap : Map Nat
  deriving DecidableEq, Repr

/-- As a HOME_RST_N leaves it. -/
def PwrSt.init : PwrSt :=
  { history := false, ticks := 0, tickAt := 0, soft := 0, acting := 0, junction := [], droop := false, icc := false, hbmPct := none,
    coolAt := none, voutMv := 0, vout := 0, hbmEn := false, coreEn := false, pgCore := false, coreEnAt := 0, toUlnal := none,
    toHome := none, vhomeOut := false, shareDue := [], shareSnap := [] }

/-- The last request that the command port carried out (R494): TAG, request CRC, response after the marker without its CRC. -/
structure PortLast where
  tag : Nat
  crc : Nat
  resp : List Byte
  deriving DecidableEq, Repr


/-! ## The whole block -/

/-- What the last access or request was answered with. -/
inductive Resp
  /-- nothing answered yet -/
  | none
  /-- done; the data returned, if any -/
  | ok (data : List Byte)
  /-- bus error (R68) -/
  | busError
  /-- gate status COMPUTE_DOWN (R17) -/
  | computeDown
  /-- refused by the rule of the command -/
  | denied
  /-- a command-port response packet -/
  | packet (bytes : List Byte)
  deriving DecidableEq, Repr

/-- A routed counter increment in flight (R119): job, vFace, index, amount. -/
structure RoutedInc where
  job : Nat
  vf : Nat
  idx : Nat
  n : Nat
  deriving DecidableEq, Repr

/-- The state of the block. -/
structure State where
  /-- commands waiting, first in first out -/
  pending : List Instr
  /-- raw timebase count in ns (R342) -/
  raw : Nat
  /-- free values taken so far (the model's own field) -/
  fresh : Nat
  /-- last answer given outside -/
  out : Resp
  /-- bytes of every memory, by key -/
  mem : List Host.Cell
  /-- words that hold an uncorrectable error, by key / 8 (R80, R433) -/
  bad : List Nat
  /-- registers, by key -/
  regs : Map Word
  faces : Map FaceSt
  jobs : Map (Option JobSt)
  vfs : Map VfSt
  /-- routed counters by 96 * job + 16 * vFace + index (R119) -/
  routed : Map Ctr
  /-- increments in flight, oldest first -/
  inFlight : List RoutedInc
  /-- NET by 256 * job + semaphore (R123) -/
  net : Map Nat
  /-- waiters of each semaphore, in order of arrival -/
  waiters : Map (List SemReq)
  bufs : Map BufEnt
  place : PlaceSt
  sched : SchedSt
  kept : KeptSt
  /-- event sources raised and not yet delivered, oldest first (R502) -/
  raised : List Nat
  pip : PipSt
  /-- the KV service's sets by 16 * job + set index -/
  kv : Map KvSet
  efl : EflSt
  safe : SafeSt
  permit : PermitSt
  /-- extra handshake stages by channel ID (R301) -/
  pertDelay : Map Nat
  time : TimeSt
  ce : CeSt
  hold : HoldSt
  solv : SolvSt
  field : FieldSt
  edge : EdgeSt
  flash : FlashSt
  sec : SecSt
  pwr : PwrSt
  cpLast : Option PortLast
  deriving DecidableEq, Repr

/-! ## Reset -/

/-- The placement unit with nothing to do; `unzeroed` is HBM that has lost its contents. -/
def PlaceSt.init (unzeroed : List (Nat × Nat)) : PlaceSt :=
  { committed := false, goAt := 0, cycleAt := 0, cycleOpen := false, adopt := [], moves := [], moving := [], scrub := [], held := [],
    unzeroed := unzeroed, exPlan := [], exSets := [] }

/-- The scheduler with nothing to do. -/
def SchedSt.init : SchedSt :=
  { frameAt := 0, nextBoundary := 0, staged := [], stagedFrame := 0, stagedAt := 0, turns := [], charged := [], paceSum := [], paceN := [], framePace := [] }

/-- No records kept. -/
def KeptSt.init : KeptSt := { pubs := [], jstep := [], logFill := [], reload := [], history := [], zeroDue := [] }

/-- No Pip record. -/
def PipSt.init : PipSt := { queues := [], running := none, last := 0 }

/-- No fault. -/
def SafeSt.init : SafeSt :=
  { times := [], resets := [], resetDue := false, faultAt := 0, bootAt := 0, boardOpen := false, kickAt := 0, jobFaults := [],
    inj := none, gate := [], goldFrom := 0, goldReleased := false, goldAt := 0, goldUsed := [], goldLog := [] }

/-- The permit stopped. -/
def PermitSt.init : PermitSt := { keyAt := none, armedAt := none, kick0 := 0, kick1 := 0, badRead := false }

/-- No solve. -/
def SolvSt.init : SolvSt := { run := none, commit := none }

/-- No frame at the edge. -/
def EdgeSt.init : EdgeSt := { csi := [], eth := [], root := false }

/-- All of HBM: the addresses of the larger stack (R5, R68). -/
def allHbm : List (Nat × Nat) := [(0, 0x600000000)]

/-- The block right after the power-on reset (R510): every register at its reset value, STAGE at ROM, no memory written, HBM
without contents. Home memory at 0 is the model's choice (assumption 2). -/
def State.reset : State :=
  { pending := [], raw := 0, fresh := 0, out := .none, mem := [], bad := [], regs := [(Reg.CPH_STATUS, 0x01000000)], faces := [], jobs := [],
    vfs := [], routed := [], inFlight := [], net := [], waiters := [], bufs := [], place := PlaceSt.init allHbm,
    sched := SchedSt.init, kept := KeptSt.init, raised := [], pip := PipSt.init, kv := [], efl := EflSt.init,
    safe := SafeSt.init, permit := PermitSt.init, pertDelay := [], time := TimeSt.init, ce := CeSt.init, hold := HoldSt.init,
    solv := SolvSt.init, field := FieldSt.init, edge := EdgeSt.init, flash := FlashSt.blank, sec := SecSt.init,
    pwr := PwrSt.init, cpLast := none }

/-- Why a command stops the model. -/
inductive Fault
  /-- HOME_RST_N low for at least 100 ns and less than 1 us: R511 forbids it and gives no effect.
  Raised by HOME_RST_N only. Safe: the model stops. -/
  | forbiddenPulse
  deriving DecidableEq, Repr

/-- Why a command is refused. -/
inductive Refusal
  /-- The row has no meaning yet. Raised by the dispatcher only. Safe: the model stops. -/
  | notModelled (mnemonic : String)
  deriving DecidableEq, Repr

end Sys2Proof.Machine
end

