-- ==== Sys2Proof/Machine/Ops.lean ====
section
/-! DEFINITION. Named operations over the state: registers, counters, memory, events. -/

namespace Sys2Proof.Machine

/-- The outcome of every command of the block. -/
abbrev Out := Host.Outcome State Fault Refusal

/-! ## Registers -/

/-- Reset value of the register at key `a`: its table row; sources 145 to 148 and 150 reach the host (R505), and
sources 128 to 255 read HC as 1 (R505). -/
def regReset (a : Nat) : Word :=
  if a = Reg.EVH_HOST 0 then 0x005E0000
  else match regRow? a with
    | some r => BitVec.ofNat 64 r.reset
    | none => 0

/-- The stored value of a register. -/
def State.rd (s : State) (a : Nat) : Word := Map.get (regReset a) s.regs a

/-- Store a register value; no access rule is applied here. -/
def State.wr (s : State) (a : Nat) (v : Word) : State := { s with regs := Map.put (regReset a) s.regs a v }

/-- A field of a stored register. -/
def State.fld (s : State) (a hi lo : Nat) : Nat := bits (s.rd a).toNat hi lo

/-- Replace a field of a stored register. -/
def State.setFld (s : State) (a hi lo x : Nat) : State :=
  s.wr a (BitVec.ofNat 64 (putBits (s.rd a).toNat hi lo x))

/-- A one-bit field. -/
def State.flag (s : State) (a k : Nat) : Bool := s.fld a k k == 1

/-- Set or clear a one-bit field. -/
def State.setFlag (s : State) (a k : Nat) (b : Bool) : State := s.setFld a k k (if b then 1 else 0)

/-- What a write of `v` leaves in a register of row `r` that held `old` (R10): RW and RWS bits take the written
value, RWL bits do unless `locked`, W1C bits are cleared by ones, every other bit is kept. -/
def RegRow.written (r : RegRow) (locked : Bool) (old v : Nat) : Nat :=
  let take := r.rw ||| r.rws ||| (if locked then 0 else r.rwl)
  let kept := old &&& (2 ^ 64 - 1 - take) &&& (2 ^ 64 - 1 - (r.w1c &&& v))
  kept ||| (v &&& take)

/-! ## Counters -/

/-- Largest count (R116, R364). -/
def maxCount : Nat := 2 ^ 48 - 1

/-- COUNT of a counter. -/
def Ctr.count (c : Ctr) : Nat := bits c.toNat 47 0

/-- OVF of a counter. -/
def Ctr.ovf (c : Ctr) : Bool := bitOf c.toNat 63

/-- The counter that holds `n`: OVF is 1 exactly when the count has reached its maximum (R116). -/
def Ctr.ofCount (n : Nat) : Ctr :=
  if maxCount ≤ n then BitVec.ofNat 64 (2 ^ 63 + maxCount) else BitVec.ofNat 64 n

/-- Add `n`, saturating (R116, R364). -/
def Ctr.add (c : Ctr) (n : Nat) : Ctr := if n = 0 then c else Ctr.ofCount (c.count + n)

/-- Add `n` to the counter register at `a`. -/
def State.countReg (s : State) (a n : Nat) : State := s.wr a (Ctr.add (s.rd a) n)

/-- A sequence number of `w` bits, one more (it wraps). -/
def seqNext (w n : Nat) : Nat := (n + 1) % 2 ^ w

/-- One more in a sequence-number field (hi : lo) of a register. -/
def State.seqFld (s : State) (a hi lo : Nat) : State := s.setFld a hi lo (s.fld a hi lo + 1)

/-- One more in a saturating field of a register. -/
def State.satFld (s : State) (a hi lo : Nat) : State :=
  s.setFld a hi lo (min (2 ^ (hi + 1 - lo) - 1) (s.fld a hi lo + 1))

/-- Is the sequence number `a` newer than `b` by signed 32-bit difference (R34)? -/
def newer32 (a b : BitVec 32) : Bool := 0 < (a - b).toInt

/-! ## Free values -/

/-- Take `n` free values: the first index, and the state that has taken them. -/
def State.take (s : State) (n : Nat) : Nat × State := (s.fresh, { s with fresh := s.fresh + n })

/-! ## Address map (R16, R68) -/

/-- Bytes of one store window in use. -/
def storeBytes : Nat := 0xC00000

/-- First key of Face `n`'s store (R68). -/
def storeBase (n : Nat) : Nat := 0x4100000000 + n * 0x1000000

/-- First Board address. -/
def boardBase : Nat := 0x4000000000

/-- First key of state bank `b` of Face `f`: banks have no address (R69). -/
def bankKey (f b : Nat) : Nat := 0x2000000000000 + f * 0x1000000 + b * 0x10000

/-- Key of the sticky flag of an accumulator element (R149): one byte each, 1 when set. -/
def accFlagKey (f k row col : Nat) : Nat := 0x4000000000000 + f * 0x1000000 + k * 0x10000 + row * 512 + col

/-- First key of peer device `d`'s memory. -/
def peerKey (d : Nat) : Nat := 0x8000000000000 + d * 0x1000000000000

/-- Blocks of the control-register region: first page and number of pages. -/
def regPages : List (Nat × Nat) :=
  [(0x7F00000000, 1), (0x7F00012000, 1), (0x7F00020000, 6), (0x7F00030000, 1), (0x7F00040000, 1),
   (0x7F00050000, 6), (0x7F00060000, 1), (0x7F00070000, 6), (0x7F00080000, 6), (0x7F00090000, 1),
   (0x7F000A0000, 1), (0x7F000B0000, 1), (0x7F000C0000, 1), (0x7F000D0000, 1), (0x7F000E0000, 1),
   (0x7F000F0000, 1), (0x7F00100000, 12), (0x7F00110000, 4), (0x7F00120000, 1), (0x7F00130000, 2),
   (0x7F00140000, 1), (0x7F00150000, 1), (0x7F00160000, 1), (0x7F00170000, 1), (0x7F00180000, 1)]

/-- Is `a` in a register page? -/
def isRegPage (a : Nat) : Bool := regPages.any fun p => p.1 ≤ a && a < p.1 + p.2 * 0x1000

/-- HBM capacity in bytes (R5, R68). -/
def hbmBytes : Nat := if Config.isH16 then 0x400000000 else 0x600000000

/-- Is the device address `a` an HBM address? -/
def isHbm (a : Nat) : Bool := a < 0x400000000 || (a < 0x600000000 && a < hbmBytes)
/-- Is it a Board address? -/
def isBoard (a : Nat) : Bool := boardBase ≤ a && a < boardBase + 0x1000000
/-- Is it in a store window's used part? -/
def isStore (a : Nat) : Bool :=
  0x4100000000 ≤ a && a < 0x4106000000 && (a - 0x4100000000) % 0x1000000 < storeBytes
/-- Is it the PCIe mailbox RAM (R380)? -/
def isPcieRam (a : Nat) : Bool := 0x7F00181000 ≤ a && a < 0x7F00182000
/-- Is it in the Home memory window (R16)? -/
def isHomeWindow (a : Nat) : Bool := 0x7F80000000 ≤ a && a < 0x7F80040000

/-- Does the device address map hold `a` (R68)? -/
def isMapped (a : Nat) : Bool :=
  isHbm a || isBoard a || isStore a || isRegPage a || isPcieRam a || isHomeWindow a

/-- Does the device serve an access to `a` now? While VHOME is out of range the Home window answers with a bus error (R18, R68). -/
def State.mapped (s : State) (a : Nat) : Bool := isMapped a && !(isHomeWindow a && s.pwr.vhomeOut)

/-- Is every byte of the access at `a` of `n` bytes served (R68)? Every region is a whole number of 4 KiB pages. -/
def State.accessOk (s : State) (a n : Nat) : Bool :=
  (List.range ((a % 4096 + n + 4095) / 4096)).all fun i => s.mapped (a / 4096 * 4096 + 4096 * i)

/-! ## HBM interleave (R77) -/

/-- Pseudo-channel that owns the 256-byte chunk of an HBM address. -/
def hbmPc (a : Nat) : Nat := bits a 12 8 ^^^ bits a 17 13 ^^^ bits a 22 18
/-- Byte address inside the pseudo-channel. -/
def hbmPcAddr (a : Nat) : Nat := bits a 34 13 * 256 + bits a 7 0
/-- Column: 32-byte unit in a 1 KiB row. -/
def hbmColumn (a : Nat) : Nat := bits (hbmPcAddr a) 9 5
/-- Bank. -/
def hbmBank (a : Nat) : Nat := bits (hbmPcAddr a) 13 10 ^^^ bits (hbmPcAddr a) 17 14
/-- Row, stack ID included. -/
def hbmRow (a : Nat) : Nat := hbmPcAddr a / 2 ^ 14
/-- Channel of the stack. -/
def hbmChannel (a : Nat) : Nat := hbmPc a / 2
/-- Controller half: half 0 owns channels 0 to 7. -/
def hbmHalf (a : Nat) : Nat := hbmChannel a / 8

/-- The memory key of a device address: the Home window is Home memory from offset 0xC0000 (R304). -/
def devKey (a : Nat) : Nat := if isHomeWindow a then homeSpace + 0xC0000 + (a - 0x7F80000000) else a

/-! ## Memory -/

/-- The byte at key `k`; an unlisted byte reads 0. -/
def State.loadByte (s : State) (k : Nat) : Byte := Map.get 0 s.mem k

/-- `n` bytes from key `k` upward. -/
def State.load (s : State) (k n : Nat) : List Byte := (List.range n).map fun i => s.loadByte (k + i)

/-- The little-endian number in `n` bytes from key `k`. -/
def State.loadNat (s : State) (k n : Nat) : Nat := leNat (s.load k n)

/-- Write bytes into a memory from key `k` upward. -/
def memStore (m : List Host.Cell) : Nat → List Byte → List Host.Cell
  | _, [] => m
  | k, b :: bs => memStore (Map.put 0 m k b) (k + 1) bs

/-- The words that still hold an error once the `n` bytes from key `k` have been written: a word written whole has correct code
again. -/
def badAfter (l : List Nat) (k n : Nat) : List Nat := l.filter fun w => !(decide (k ≤ 8 * w) && decide (8 * w + 8 ≤ k + n))

/-- Does one of the `n` bytes from key `k` lie in a word with an uncorrectable error (R80, R433)? -/
def State.badIn (s : State) (k n : Nat) : Bool := s.bad.any fun w => decide (8 * w < k + n) && decide (k < 8 * w + 8)

/-- The first of the `n` bytes from key `k` that lies in a word with an uncorrectable error. -/
def State.firstBad (s : State) (k n : Nat) : Option Nat :=
  ((List.range n).find? fun i => s.bad.contains ((k + i) / 8)).map (k + ·)

/-- The `n` words of 8 bytes from key `a` hold an uncorrectable error from now on. -/
def State.markBad (s : State) (a n : Nat) : State := { s with bad := ((List.range n).map (fun i => a / 8 + i) ++ s.bad).eraseDups }

/-- Write bytes from key `k` upward. -/
def State.store (s : State) (k : Nat) (bs : List Byte) : State :=
  { s with
    mem := memStore s.mem k bs
    bad := badAfter s.bad k bs.length }

/-- Write a little-endian number of `n` bytes. -/
def State.storeNat (s : State) (k n v : Nat) : State := s.store k (leBytes n v)

/-- Zero `n` bytes from key `k` upward. A cleared written bit is this: the line reads as zeros, and a partial write
fills the rest of the line with zeros (R73, R74). -/
def State.zero (s : State) (k n : Nat) : State :=
  { s with
    mem := Map.clear k (k + n) s.mem
    bad := badAfter s.bad k n }

/-- Copy `n` bytes from key `a` to key `b`. -/
def State.copy (s : State) (a b n : Nat) : State :=
  let cells := s.mem.filter fun c => a ≤ c.1 && c.1 < a + n
  let s := s.zero b n
  { s with mem := cells.foldl (fun m c => Map.put 0 m (b + (c.1 - a)) c.2) s.mem }

/-! ## Tables -/

/-- Face `n`. -/
def State.face (s : State) (n : Nat) : FaceSt := Map.get FaceSt.idle s.faces n
/-- Replace Face `n`. -/
def State.setFace (s : State) (n : Nat) (f : FaceSt) : State :=
  { s with faces := Map.put FaceSt.idle s.faces n f }
/-- Job `j`, if loaded. -/
def State.job (s : State) (j : Nat) : Option JobSt := Map.get none s.jobs j
/-- Replace job `j`. -/
def State.setJob (s : State) (j : Nat) (v : Option JobSt) : State := { s with jobs := Map.put none s.jobs j v }
/-- Change job `j` where it is loaded. -/
def State.modJob (s : State) (j : Nat) (f : JobSt → JobSt) : State :=
  match s.job j with
  | some v => s.setJob j (some (f v))
  | none => s
/-- Queue of vFace `v` of job `j`. -/
def State.vf (s : State) (j v : Nat) : VfSt := Map.get VfSt.empty s.vfs (8 * j + v)
/-- Replace that queue. -/
def State.setVf (s : State) (j v : Nat) (q : VfSt) : State :=
  { s with vfs := Map.put VfSt.empty s.vfs (8 * j + v) q }
/-- Buffer table entry `e`. -/
def State.buf (s : State) (e : Nat) : BufEnt := Map.get BufEnt.free s.bufs e
/-- Replace entry `e`. -/
def State.setBuf (s : State) (e : Nat) (b : BufEnt) : State := { s with bufs := Map.put BufEnt.free s.bufs e b }
/-- Index of a routed counter (R119). -/
def routedIdx (j v i : Nat) : Nat := 96 * j + 16 * v + i
/-- Routed counter ev(112 + i) of vFace `v` of job `j`. -/
def State.routedCtr (s : State) (j v i : Nat) : Ctr := Map.get 0 s.routed (routedIdx j v i)
/-- Replace it. -/
def State.setRouted (s : State) (j v i : Nat) (c : Ctr) : State :=
  { s with routed := Map.put 0 s.routed (routedIdx j v i) c }
/-- NET of job `j` on semaphore `m` (R123). -/
def State.netOf (s : State) (j m : Nat) : Nat := Map.get 0 s.net (256 * j + m)
/-- Replace it. -/
def State.setNet (s : State) (j m n : Nat) : State := { s with net := Map.put 0 s.net (256 * j + m) n }
/-- Waiters of semaphore `m`. -/
def State.semWaiters (s : State) (m : Nat) : List SemReq := Map.get [] s.waiters m
/-- Replace them. -/
def State.setWaiters (s : State) (m : Nat) (l : List SemReq) : State := { s with waiters := Map.put [] s.waiters m l }

/-- Apply a state change to each element of a list, in order. -/
def State.each {α : Type} (s : State) (l : List α) (f : State → α → State) : State := l.foldl f s

/-! ## Events and answers -/

/-- Raise event source `k`: it is in flight until EVENT_DELIVER takes it (R502, R503). -/
def State.raiseEv (s : State) (k : Nat) : State := { s with raised := s.raised ++ [k] }

/-- Answer the requester outside. -/
def State.answer (s : State) (r : Resp) : State := { s with out := r }

/-- A routed counter increment sets out (R119). -/
def State.sendRouted (s : State) (j v i n : Nat) : State :=
  { s with inFlight := s.inFlight ++ [{ job := j, vf := v, idx := i, n := n }] }

/-- Saturating addition to an accounting field of job `j` at `off` (R270, R271), in the Home memory window; no write reaches
it while VHOME is out of range (R18). -/
def State.account (s : State) (j off n : Nat) : State :=
  let k := devKey (0x7F80020000 + j * 0x400 + off)
  if s.pwr.vhomeOut then s
  else s.storeNat k 8 (min (2 ^ 64 - 1) (s.loadNat k 8 + n))

/-- Pace ratio fields: RATE of Face `n` in its last window (R23). -/
def State.paceOf (s : State) (n : Nat) : Nat := s.fld (Reg.PACE_FACE n) 13 0

/-- The state in which nothing happens: the command names an event that the present state cannot have, or an
instruction that still holds the issue point. -/
def State.noEvent (s : State) : Out := .next s

end Sys2Proof.Machine
end

