-- ==== Sys2Proof/Machine/Operands.lean ====
section
/-! DEFINITION. Operand forms of the Face's instructions: wait entries (R117, R126), tensor descriptors and their
checks (R106 to R108), packing and layouts (R36, R107), buffers and instances (R98, R132), scale registers (R57). -/

namespace Sys2Proof.Machine

/-! ## Exceptions as values -/

/-- An exception to raise: its code (R135) and FACE_EXCINFO word (R139). -/
structure Exc where
  code : Nat
  info : Nat
  deriving DecidableEq, Repr

/-- FACE_EXCINFO from descriptor, operand and detail. -/
def excInfo (desc opnd detail : Nat) : Nat := desc % 64 * 2 ^ 58 + opnd % 4 * 2 ^ 56 + detail % 2 ^ 48

/-- ILL_OPERAND with no descriptor. -/
def illOperand : Exc := ⟨0x02, 0⟩

/-- What the checks at issue answer: go on, hold the issue point, or an exception (R111, R135). -/
inductive Chk
  | pass
  | hold
  | exc (e : Exc)
  deriving DecidableEq, Repr

/-- The first check that does not pass decides. -/
def Chk.and (a b : Chk) : Chk :=
  match a with
  | .pass => b
  | x => x

/-- All checks of a list, in order. -/
def Chk.all : List Chk → Chk
  | [] => .pass
  | c :: cs => c.and (Chk.all cs)

/-- ILL_OPERAND unless the condition holds. -/
def Chk.need (b : Bool) : Chk := if b then .pass else .exc illOperand

/-! ## Register files -/

/-- g[n]; g0 reads 0 (R105). -/
def FaceSt.gReg (fs : FaceSt) (n : Nat) : Word := if n = 0 then 0 else Map.get 0 fs.g n
/-- Write g[n]; writes to g0 are discarded (R105). -/
def FaceSt.setG (fs : FaceSt) (n : Nat) (v : Word) : FaceSt :=
  if n = 0 then fs else { fs with g := Map.put 0 fs.g n v }
/-- d[n]. -/
def FaceSt.dReg (fs : FaceSt) (n : Nat) : BitVec 256 := Map.get 0 fs.d n
/-- Write d[n]. -/
def FaceSt.setD (fs : FaceSt) (n : Nat) (v : BitVec 256) : FaceSt := { fs with d := Map.put 0 fs.d n v }
/-- s[n]. -/
def FaceSt.sReg (fs : FaceSt) (n : Nat) : BitVec 128 := Map.get 0 fs.s n
/-- Write s[n]. -/
def FaceSt.setS (fs : FaceSt) (n : Nat) (v : BitVec 128) : FaceSt := { fs with s := Map.put 0 fs.s n v }

/-- Counter `n` of the command running on Face `f`: local below 112, else the vFace's routed counter (R119). -/
def State.evCtr (s : State) (f n : Nat) : Ctr :=
  let fs := s.face f
  if n < 112 then Map.get 0 fs.ev n else s.routedCtr fs.job fs.vf (n - 112)

/-- Add `k` to counter `n` of the command running on Face `f`. A routed counter is incremented where it is held, in
the Sync unit. -/
def State.evAdd (s : State) (f n k : Nat) : State :=
  let fs := s.face f
  if n < 112 then s.setFace f { fs with ev := Map.put 0 fs.ev n (Ctr.add (Map.get 0 fs.ev n) k) }
  else s.setRouted fs.job fs.vf (n - 112) (Ctr.add (s.routedCtr fs.job fs.vf (n - 112)) k)

/-! ## Wait entries -/

/-- Counter of a wait entry (R126). -/
def waitEvOf (w : BitVec 16) : Nat := bits w.toNat 15 9

/-- Threshold of a wait entry: VAL, or g[VAL[4:0]] + VAL[7:5] (R126). -/
def waitThr (fs : FaceSt) (w : BitVec 16) : Nat :=
  let v := bits w.toNat 7 0
  if bitOf w.toNat 8 then (fs.gReg (v % 32)).toNat + v / 32 else v

/-- Wait entries of an instruction. -/
def hdrWaits (h : Hdr) : List (BitVec 16) := [h.w0, h.w1, h.w2, h.w3]

/-- A threshold above 2^48 − 1 (R117). -/
def waitOver (fs : FaceSt) (h : Hdr) : Bool := (hdrWaits h).any fun w => decide (maxCount < waitThr fs w)

/-- Is an entry satisfied? A counter with OVF set satisfies every legal threshold (R117). -/
def waitOk (s : State) (f : Nat) (w : BitVec 16) : Bool :=
  let c := s.evCtr f (waitEvOf w)
  decide (waitThr (s.face f) w ≤ c.count) || c.ovf

/-- Is the wait set satisfied? -/
def waitsOk (s : State) (f : Nat) (h : Hdr) : Bool := (hdrWaits h).all fun w => waitOk s f w

/-! ## Descriptors -/

/-- The fields of a tensor descriptor (R106); extents are counts, not minus 1. -/
structure Desc where
  bufId : Nat
  rank : Nat
  fmt : Nat
  layout : Nat
  valid : Bool
  off : Nat
  e0 : Nat
  e1 : Nat
  e2 : Nat
  e3 : Nat
  s1 : Nat
  s2 : Nat
  s3 : Nat
  deriving DecidableEq, Repr

/-- Decode a descriptor. -/
def descOf (v : BitVec 256) : Desc :=
  let n := v.toNat
  { bufId := bits n 255 240, rank := bits n 239 237, fmt := bits n 236 232, layout := bits n 231 228,
    valid := bitOf n 225, off := bits n 223 184, e3 := bits n 183 164 + 1, e2 := bits n 163 144 + 1,
    e1 := bits n 143 124 + 1, e0 := bits n 123 104 + 1, s3 := bits n 103 72, s2 := bits n 71 40, s1 := bits n 39 8 }

/-- Descriptor `n` of the command on Face `f`. -/
def State.desc (s : State) (f n : Nat) : Desc := descOf ((s.face f).dReg n)

/-- Position of a descriptor field selected by FIELD (R130): high and low bit. -/
def descField : Nat → Option (Nat × Nat)
  | 0 => some (255, 240)
  | 1 => some (239, 237)
  | 2 => some (236, 232)
  | 3 => some (231, 228)
  | 4 => some (223, 184)
  | 5 => some (123, 104)
  | 6 => some (143, 124)
  | 7 => some (163, 144)
  | 8 => some (183, 164)
  | 9 => some (39, 8)
  | 10 => some (71, 40)
  | 11 => some (103, 72)
  | 12 => some (225, 225)
  | _ => none

/-- Position of a scale-register field selected by FIELD (R57, R130). -/
def scaleField : Nat → Option (Nat × Nat)
  | 0 => some (127, 124)
  | 1 => some (123, 120)
  | 2 => some (119, 119)
  | 3 => some (95, 64)
  | 4 => some (5, 0)
  | _ => none

/-- A descriptor with its TIER bits cleared: what two descriptors are compared by (R171), and what LDD keeps. -/
def noTier (v : BitVec 256) : Nat := putBits v.toNat 227 226 0

/-- Elements of a tensor. -/
def Desc.count (d : Desc) : Nat := d.e3 * d.e2 * d.e1 * d.e0
/-- Rows of a tensor (R141). -/
def Desc.rows (d : Desc) : Nat := d.e3 * d.e2 * d.e1
/-- Equal extents. -/
def Desc.sameExt (a b : Desc) : Bool := a.e0 == b.e0 && a.e1 == b.e1 && a.e2 == b.e2 && a.e3 == b.e3

/-! ## Packing (R36) -/

/-- Elements of one packing group. -/
def groupElems (fmt : Nat) : Nat :=
  if fmt == 0 || fmt == 5 || fmt == 16 then 2
  else if fmt == 14 || fmt == 6 || fmt == 7 then 4
  else if fmt == 15 then 10 else 1

/-- Bytes of one packing group. -/
def groupBytes (fmt : Nat) : Nat :=
  if fmt == 6 || fmt == 7 then 3 else if fmt == 15 then 4
  else if groupElems fmt == 1 then fmtBits fmt / 8 else 1

/-- Unit that OFFSET and strides are multiples of (R108). -/
def packAlign (fmt : Nat) : Nat := if fmt == 6 || fmt == 7 then 3 else if fmt == 15 then 4 else 1

/-- Packed bytes of `n` elements. -/
def rowBytes (fmt n : Nat) : Nat := (n + groupElems fmt - 1) / groupElems fmt * groupBytes fmt

/-- Pack one group of codes into a number. -/
def packGroup (fmt : Nat) : List Nat → Nat
  | [] => 0
  | c :: cs => c % 2 ^ fmtBits fmt + 2 ^ fmtBits fmt * packGroup fmt cs

/-- Cut a list into pieces of `k` (the last may be short); `fuel` bounds the pieces. -/
def chunksOf {α : Type} (k : Nat) : Nat → List α → List (List α)
  | 0, _ => []
  | _ + 1, [] => []
  | fuel + 1, l => l.take k :: chunksOf k fuel (l.drop k)

/-- Pack codes into bytes, the last group padded with zero codes. -/
def packCodes (fmt : Nat) (cs : List Nat) : List Byte :=
  (chunksOf (groupElems fmt) cs.length cs).flatMap fun g => leBytes (groupBytes fmt) (packGroup fmt g)

/-- The codes of one group held in a number. -/
def unpackGroup (fmt v : Nat) : List Nat :=
  (List.range (groupElems fmt)).map fun j => v / 2 ^ (fmtBits fmt * j) % 2 ^ fmtBits fmt

/-- `n` codes from bytes. -/
def unpackCodes (fmt n : Nat) (bs : List Byte) : List Nat :=
  ((chunksOf (groupBytes fmt) bs.length bs).flatMap fun g => unpackGroup fmt (leNat g)).take n

/-! ## Layouts (R107) -/

/-- Packed bytes of a 128 by 128 block. -/
def blockBytes (fmt : Nat) : Nat := 128 * rowBytes fmt 128

/-- Byte offset of the first element of LINEAR row (i3, i2, i1), from OFFSET. -/
def Desc.rowOff (d : Desc) (r : Nat) : Nat :=
  let i1 := r % d.e1
  let i2 := r / d.e1 % d.e2
  let i3 := r / (d.e1 * d.e2)
  i3 * d.s3 + i2 * d.s2 + i1 * d.s1

/-- The pieces of row `r`: byte position within the buffer and number of elements of each. -/
def Desc.pieces (d : Desc) (r : Nat) : List (Nat × Nat) :=
  if d.layout = 1 then
    let i1 := r % d.e1
    let i2 := r / d.e1 % d.e2
    let i3 := r / (d.e1 * d.e2)
    (List.range ((d.e0 + 127) / 128)).map fun b =>
      (d.off + i3 * d.s3 + i2 * d.s2 + i1 / 128 * d.s1 + b * blockBytes d.fmt + i1 % 128 * rowBytes d.fmt 128,
        min 128 (d.e0 - 128 * b))
  else [(d.off + d.rowOff r, d.e0)]

/-- Last byte touched by a LINEAR or BLK128 tensor (R108). -/
def Desc.lastByte (d : Desc) : Nat :=
  if d.layout = 1 then
    d.off + (d.e3 - 1) * d.s3 + (d.e2 - 1) * d.s2 + ((d.e1 + 127) / 128 - 1) * d.s1
      + ((d.e0 + 127) / 128 - 1) * blockBytes d.fmt + blockBytes d.fmt - 1
  else d.off + (d.e3 - 1) * d.s3 + (d.e2 - 1) * d.s2 + (d.e1 - 1) * d.s1 + rowBytes d.fmt d.e0 - 1

/-! ## Buffers (R83, R98, R132) -/

/-- LIFE of an entry: 0 command, 1 job. -/
def BufEnt.life1 (b : BufEnt) : Bool := bitOf b.record.toNat 35
/-- Tier of the active binding. -/
def BufEnt.tier (b : BufEnt) : Nat := bits b.bind.toNat 63 62
/-- SIZE. -/
def BufEnt.sizeB (b : BufEnt) : Nat := bits b.size.toNat 47 0
/-- VALID. -/
def BufEnt.isValid (b : BufEnt) : Bool := bitOf b.record.toNat 63
/-- Bytes from one LIFE 0 instance to the next (R98). -/
def BufEnt.instBytes (b : BufEnt) : Nat := (b.sizeB + 4095) / 4096 * 4096

/-- The table entry of buffer `id` of job `j`. -/
def State.findBuf (s : State) (j id : Nat) : Option (Nat × BufEnt) :=
  s.bufs.find? fun e => e.2.isValid && bits e.2.record.toNat 62 59 == j && bits e.2.record.toNat 55 40 == id

/-- First key of the instance of a buffer that vFace `vf` on Face `f` names. -/
def BufEnt.base (b : BufEnt) (f vf : Nat) : Nat :=
  let a := bits b.bind.toNat 47 6 * 64
  if b.tier = 0 then storeBase f + a % 0x1000000
  else if b.tier = 3 then peerKey (bits b.back.toNat 60 59) + a + (if b.life1 then 0 else vf * b.instBytes)
  else a + (if b.life1 then 0 else vf * b.instBytes)

/-- Is the entry in the middle of a move, or does the instance of `vf` await its zeroing (R74, R94)? -/
def State.bufHeld (s : State) (e : Nat) (b : BufEnt) (vf : Nat) : Bool :=
  s.place.moving.any (fun m => m.1 == e) || (!b.life1 && bitOf b.zeroing vf)

/-- First key of the buffer that descriptor `d` names for the command on Face `f` itself. -/
def State.descBase (s : State) (f : Nat) (d : Desc) : Nat :=
  match s.findBuf (s.face f).job d.bufId with
  | some (_, b) => b.base f (s.face f).vf
  | none => 0

/-! ## Checks at issue (R108) -/

/-- The lowest misaligned position of a descriptor: OFFSET, else OFFSET + STRk (R139). -/
def Desc.misaligned (d : Desc) : Option Nat :=
  let a := packAlign d.fmt
  if d.off % a ≠ 0 then some d.off
  else if d.s1 % a ≠ 0 then some (d.off + d.s1)
  else if d.s2 % a ≠ 0 then some (d.off + d.s2)
  else if d.s3 % a ≠ 0 then some (d.off + d.s3)
  else none

/-- RANK, extents above it, FMT and LAYOUT are in order. -/
def Desc.shapeOk (d : Desc) : Bool :=
  decide (1 ≤ d.rank) && decide (d.rank ≤ 4) && decide (d.fmt < 0x12) && decide (d.layout ≤ 2)
    && (decide (2 ≤ d.rank) || d.e1 == 1) && (decide (3 ≤ d.rank) || d.e2 == 1) && (decide (4 ≤ d.rank) || d.e3 == 1)

/-- Page-table index of a PAGED descriptor, and its reserved bits (R184). -/
def Desc.pt (d : Desc) : Nat := d.s3 / 2 ^ 26

/-- Pages of the pool of a PAGED descriptor (R184). -/
def Desc.poolPages (d : Desc) (size : Nat) : Nat := (size - d.off - d.e2 * d.s2) / d.s1 + 1

/-- The checks of a PAGED descriptor: its own fields (R184), its page table (R185), alignment and the pool's bounds; it waits
for a page table whose buffer is being moved (R94). -/
def checkPaged (s : State) (f n opnd : Nat) (d : Desc) (b : BufEnt) : Chk :=
  let t := s.desc f d.pt
  let ill := Chk.exc ⟨0x02, excInfo n opnd 0⟩
  if !(d.rank == 4 && d.e1 % 256 == 0 && d.s1 % 256 == 0 && decide (0 < d.s1) && decide (d.e2 * d.s2 ≤ d.s1)
      && decide (256 * rowBytes d.fmt d.e0 ≤ d.s2) && d.s3 % 2 ^ 26 == 0
      && t.valid && t.fmt == fINT32 && t.layout == 0 && t.rank == 2 && t.e3 == 1 && t.e2 == 1 && t.e1 == d.e3
      && decide (d.e1 / 256 ≤ t.e0)) then ill
  else match s.findBuf (s.face f).job t.bufId with
    | none => ill
    | some (te, tb) =>
      let a := packAlign d.fmt
      if d.off % a ≠ 0 then .exc ⟨0x05, excInfo n opnd d.off⟩
      else if d.s1 % a ≠ 0 then .exc ⟨0x05, excInfo n opnd (d.off + d.s1)⟩
      else if d.s2 % a ≠ 0 then .exc ⟨0x05, excInfo n opnd (d.off + d.s2)⟩
      else if b.sizeB < d.off + d.e2 * d.s2 then .exc ⟨0x04, excInfo n opnd (d.off + d.e2 * d.s2 - 1)⟩
      else if tb.sizeB ≤ t.lastByte then .exc ⟨0x04, excInfo n opnd t.lastByte⟩
      else if s.bufHeld te tb (s.face f).vf then .hold else .pass

/-- The checks of R108 on descriptor `n` as operand `opnd`, in their order; `legal` says whether its format and shape
are legal for the operand. a PAGED one is checked as R184 and R185 say. -/
def checkDesc (s : State) (f n opnd : Nat) (legal : Desc → Bool) : Chk :=
  let d := s.desc f n
  let ill := Chk.exc ⟨0x02, excInfo n opnd 0⟩
  if !d.valid then .exc ⟨0x03, excInfo n opnd 0⟩
  else if !(d.shapeOk && legal d) then ill
  else match s.findBuf (s.face f).job d.bufId with
    | none => ill
    | some (e, b) =>
      if d.layout = 2 then
        (checkPaged s f n opnd d b).and (if s.bufHeld e b (s.face f).vf then .hold else .pass)
      else match d.misaligned with
        | some p => .exc ⟨0x05, excInfo n opnd p⟩
        | none =>
          if b.sizeB ≤ d.lastByte then .exc ⟨0x04, excInfo n opnd d.lastByte⟩
          else if s.bufHeld e b (s.face f).vf then .hold else .pass

/-- LINEAR or BLK128. -/
def Desc.plain (d : Desc) : Bool := d.layout != 2

/-! ## Scale registers -/

/-- The fields of a scale register (R57). -/
structure Scale where
  mode : Nat
  sfmt : Nat
  up : Bool
  value : Nat
  desc : Nat
  deriving DecidableEq, Repr

/-- Decode a scale register. -/
def scaleOf (v : BitVec 128) : Scale :=
  let n := v.toNat
  { mode := bits n 127 124, sfmt := bits n 123 120, up := bitOf n 119, value := bits n 95 64, desc := bits n 5 0 }

/-- Scale register `n` of the command on Face `f`. -/
def State.scale (s : State) (f n : Nat) : Scale := scaleOf ((s.face f).sReg n)

/-! ## Reading tensors -/

/-- The bytes of `n` elements starting at key `k`, as codes. -/
def State.codesAt (s : State) (k fmt n : Nat) : List Nat := unpackCodes fmt n (s.load k (rowBytes fmt n))

/-- Codes of row `r` of a LINEAR or BLK128 tensor whose buffer starts at `base`. -/
def State.rowCodes (s : State) (base : Nat) (d : Desc) (r : Nat) : List Nat :=
  (d.pieces r).flatMap fun p => s.codesAt (base + p.1) d.fmt p.2

/-- Keys of the bytes of row `r`, as (start, length). -/
def Desc.rowSpans (d : Desc) (base r : Nat) : List (Nat × Nat) :=
  (d.pieces r).map fun p => (base + p.1, rowBytes d.fmt p.2)

/-- Keys of every row. -/
def Desc.spans (d : Desc) (base : Nat) : List (Nat × Nat) :=
  (List.range d.rows).flatMap fun r => d.rowSpans base r

/-- The bytes that writing codes to row `r` stores. -/
def Desc.rowStores (d : Desc) (base r : Nat) (cs : List Nat) : List Fx :=
  let go := (d.pieces r).foldl (fun (acc : List Fx × List Nat) p =>
    (acc.1 ++ [Fx.store (base + p.1) (packCodes d.fmt (acc.2.take p.2))], acc.2.drop p.2)) ([], cs)
  go.1

end Sys2Proof.Machine
end

