-- ==== Sys2Proof/Machine/Flags.lean ====
section
/-! DEFINITION. Counters with consequences: saturation counters and the QSAT event (R63 to R67), the digest log
counters (R293), access counts of buffers (R87). -/

namespace Sys2Proof.Machine

/-- Count `n` elements in saturation counter `d` of Face `f`: CROSSED and the QSAT event follow (R65). With EN 0 the
counters hold (R64). -/
def State.countQsat (s : State) (f d n : Nat) : State :=
  if n = 0 || !s.flag (Reg.QSAT_CTRL f) 1 then s
  else
    let s := s.countReg (Reg.QSAT_CNT f d) n
    if (s.fld (Reg.QSAT_THRESH f) 47 0 ≤ Ctr.count (s.rd (Reg.QSAT_CNT f d))) && !s.flag (Reg.QSAT_STATUS f) d then
      (s.setFlag (Reg.QSAT_STATUS f) d true).raiseEv (6 + f)
    else s

/-- Are lost NaNs counted (R63)? -/
def State.nvEn (s : State) (f : Nat) : Bool := s.flag (Reg.QSAT_CTRL f) 2

/-- One more LOST entry of job `j`'s digest log, OVF at its maximum (R302). -/
def State.logLost (s : State) (j : Nat) : State :=
  let n := s.fld (Reg.DET_LOGSTAT j) 30 0
  let m := min (2 ^ 31 - 1) (n + 1)
  (s.setFld (Reg.DET_LOGSTAT j) 30 0 m).setFlag (Reg.DET_LOGSTAT j) 31 (m == 2 ^ 31 - 1)

/-- PERT_STATUS.ACTIVE: EN is 1 and some setting is non-zero (R301). -/
def State.pertActive (s : State) : Bool := s.flag Reg.PERT_STATUS 1

/-- Enter a 64-byte record in job `j`'s log ring (R293): the oldest is overwritten when the ring, filled since it was set, is full, and an entry
whose address is unmapped is dropped; both count in LOST. -/
def State.logEntry (s : State) (j : Nat) (bs : List Byte) : State :=
  let size := 2 ^ (s.fld (Reg.DET_LOGBASE j) 3 0 + 6)
  let n := s.fld (Reg.DET_LOGSTAT j) 63 32
  let a := s.fld (Reg.DET_LOGBASE j) 47 12 * 4096 + 64 * (n % size)
  let flags := (leNat (bs.drop 15 |>.take 1)) + (if s.pertActive then 4 else 0)
  let rec64 := (bs.take 15) ++ leBytes 1 flags ++ ((bs.drop 16).take 40) ++ leBytes 8 s.raw
  if s.accessOk a 64 then
    let fill := Map.get 0 s.kept.logFill j
    let s := (s.store (devKey a) rec64).setFld (Reg.DET_LOGSTAT j) 63 32 (n + 1)
    let s := { s with kept := { s.kept with logFill := Map.put 0 s.kept.logFill j (fill + 1) } }
    if size ≤ fill then s.logLost j else s
  else s.logLost j

/-- Count one instruction as a read or a write of buffer entry `e` (R87). -/
def State.countBuf (s : State) (e : Nat) (isWrite : Bool) : State :=
  let b := s.buf e
  s.setBuf e (if isWrite then { b with writes := Ctr.add b.writes 1 } else { b with reads := Ctr.add b.reads 1 })

/-- The descriptors of a list and the page tables of the PAGED ones among them, which are read (R185). -/
def State.withTables (s : State) (f : Nat) (l : List (Nat × Bool)) : List (Nat × Bool) :=
  l ++ (l.filter fun p => (s.desc f p.1).layout == 2).map fun p => ((s.desc f p.1).pt, false)

/-- The descriptors an instruction uses: index and whether it writes through it. Each instruction counts once per buffer and kind (R87), and the TIER bits of each descriptor show the tier used
(R106). -/
def State.useDescs (s : State) (f : Nat) (l : List (Nat × Bool)) : State :=
  let fs := s.face f
  let ents := l.filterMap fun p =>
    (s.findBuf fs.job (descOf (fs.dReg p.1)).bufId).map fun e => (p.1, p.2, e.1, e.2.tier)
  let fs' := ents.foldl (fun (x : FaceSt) p =>
    x.setD p.1 (BitVec.ofNat 256 (putBits (x.dReg p.1).toNat 227 226 p.2.2.2))) fs
  let cnt := (ents.map fun p => (p.2.2.1, p.2.1)).eraseDups
  (s.setFace f { fs' with refs := (fs'.refs ++ ents.map fun p => p.2.2.1).eraseDups }).each cnt fun s p => s.countBuf p.1 p.2

end Sys2Proof.Machine
end

