-- ==== Sys2Proof/Machine/Face.lean ====
section
/-! DEFINITION. What the instructions of a Face share: issue (R111), the window and completion (R112, R113), signals
(R118), exceptions (R135 to R138), the end of a command (R103), races (R115, R144). -/

namespace Sys2Proof.Machine

/-! ## Jobs as a Face sees them -/

/-- LIVE mask of vFace `vf` of a job (R202). -/
def JobSt.live (jb : JobSt) (vf : Nat) : Nat := bits ((jb.img.live.getD vf 0).toNat) 15 0

/-- Partition of job `j` (R257). -/
def State.partOf (s : State) (j : Nat) : Nat := s.fld (Reg.SCHED_JOB j) 62 60

/-- Banks of Face `f` that count as live for vFace `vf` of job `j`: its own LIVE banks and the banks that other
enabled partitions of the Face reserve (R148, R251). -/
def State.liveMask (s : State) (f j vf : Nat) : Nat :=
  let own := match s.job j with
    | some jb => jb.live vf
    | none => 0
  (List.range 8).foldl (fun m p =>
    if p ≠ s.partOf j && s.flag (Reg.SCHED_PARTA p) 63 && bitOf (s.fld (Reg.SCHED_PARTA p) 53 48) f
    then m ||| s.fld (Reg.SCHED_PARTA p) 47 32 else m) own

/-- Full accounting in force (R270). -/
def State.acctFull (s : State) : Bool :=
  let m := s.fld Reg.SCHED_CTRL 2 1
  m == 1 || (m != 2 && decide (2 < ((List.range 8).filter fun p => s.flag (Reg.SCHED_PARTA p) 63).length))

/-! ## Signals and deferred effects -/

/-- Increment the signal target of an instruction of Face `f` (R118). -/
def State.signal (s : State) (f : Nat) (sig : Option Nat) : State :=
  match sig with
  | some n => s.evAdd f n 1
  | none => s

/-- The counter an instruction signals, if enabled (R125). -/
def sigOf (h : Hdr) : Option Nat := if h.sigEn then some h.sigEv.toNat else none

/-- COUNT, and the other fields of a semaphore register (R124). -/
def State.semCount (s : State) (m : Nat) : Nat := s.fld (Reg.SYNC_SEM m) 15 0

/-- HOLDER and HVALID follow from NET (R123, R124). -/
def State.semRefresh (s : State) (m : Nat) : State :=
  let hs := (List.range 16).filter fun j => decide (0 < s.netOf j m)
  let s := s.setFld (Reg.SYNC_SEM m) 62 58 (match hs with
    | j :: _ => 2 * j + 1
    | [] => 0)
  s.setFld (Reg.SYNC_SEM m) 47 32 (s.semWaiters m).length

/-- Add `n` to a semaphore for job `j` (R122, R123); the caller has checked the range. -/
def State.semRelease (s : State) (j m n : Nat) : State :=
  ((s.setFld (Reg.SYNC_SEM m) 15 0 (s.semCount m + n)).setNet j m (s.netOf j m - n)).semRefresh m

/-- Add FP32 elements at key `a` upward (R169). -/
def State.raccAt (s : State) (a : Nat) (xs : List Nat) : State :=
  (s.each xs.zipIdx fun s p =>
    let k := a + 4 * p.2
    s.storeNat k 4 (fp32Code ((fp32Val (s.loadNat k 4)).add (fp32Val p.1))))

/-- A row of a page of a pool has been written: the KV service's sets that hold the pool note it (R194). -/
def State.kvMark (s : State) (j buf page tok : Nat) : State :=
  match s.job j with
  | none => s
  | some jb => s.each jb.img.pools.zipIdx fun s p =>
    { s with kv := p.1.pools.zipIdx.foldl (fun m q =>
      if q.1 = buf then
        let x := Map.get KvSet.empty m (16 * j + p.2)
        let k := 2 ^ 24 * q.2 + page
        Map.put KvSet.empty m (16 * j + p.2) { x with written := Map.put 0 x.written k (Map.get 0 x.written k ||| 2 ^ tok) }
      else m) s.kv }

/-- Make one deferred effect. A status word waits for the gate (R447). -/
def State.applyFx (s : State) : Fx → State
  | .store a bs => s.store a bs
  | .zero a n => s.zero a n
  | .count r n => s.countReg r n
  | .qsat f d n => s.countQsat f d n
  | .routed j v i n => s.sendRouted j v i n
  | .release j m n => s.semRelease j m n
  | .raise k => s.raiseEv k
  | .gate _ _ _ _ _ => s
  | .log j bs => if s.flag (Reg.DET_JCTRL j) 2 then s.logEntry j bs else s
  | .racc a _ xs => s.raccAt a xs
  | .kvRow j b p t => s.kvMark j b p t

/-- Is it a write to memory? -/
def Fx.isWrite : Fx → Bool
  | .store _ _ => true
  | .zero _ _ => true
  | .racc _ _ _ => true
  | _ => false

/-! ## Turns (R263) -/

/-- QSAT_SNAP: every counter goes to its snapshot and is zeroed; QSAT_STATUS is unchanged (R66). -/
def State.qsatSnap (s : State) (f : Nat) : State :=
  s.each (List.range 64) fun s d => (s.wr (Reg.QSAT_SNAP f d) (s.rd (Reg.QSAT_CNT f d))).wr (Reg.QSAT_CNT f d) 0

/-- The turns of partition `p` on Face `f`. -/
def State.turn (s : State) (f p : Nat) : TurnSt := Map.get TurnSt.none s.sched.turns (8 * f + p)
/-- Replace them. -/
def State.setTurn (s : State) (f p : Nat) (t : TurnSt) : State :=
  { s with sched := { s.sched with turns := Map.put TurnSt.none s.sched.turns (8 * f + p) t } }

/-- Charge what the counter at `reg` has gained since it was last charged to job `j` (R199, R226). A counter that was
zeroed in between has gained what it shows. -/
def State.chargeCtr (s : State) (j off reg : Nat) : State :=
  let now := Ctr.count (s.rd reg)
  let was := Map.get 0 s.sched.charged reg
  { s with sched := { s.sched with charged := Map.put 0 s.sched.charged reg now } }.account j off
    (if now < was then now else now - was)

/-- The snapshots of Face `f` for its outgoing job `j` (R67, R199, R226, R263). -/
def State.turnSnap (s : State) (f j : Nat) : State :=
  let s := s.qsatSnap f
  let s := s.each (List.range 64) fun s d =>
    let n := Ctr.count (s.rd (Reg.QSAT_SNAP f d))
    if n = 0 then s else s.account j (0x100 + 8 * d) n
  let s := s.each (List.range 5) fun s i => s.chargeCtr j (0xA0 + 8 * i) (Reg.ATTN_EMPTY f + 8 * i)
  s.each (List.range 4) fun s i => s.chargeCtr j (0xC8 + 8 * i) (Reg.REC_NEARINT f + 8 * i)

/-- PRIO of a job (R257). -/
def State.prioOf (s : State) (j : Nat) : Nat := s.fld (Reg.SCHED_JOB j) 59 58

/-- The turn of job `j` is over: the round robin of its PRIO goes on after it, and nothing of it is left (R263). -/
def TurnSt.over (t : TurnSt) (prio j : Nat) : TurnSt :=
  { t with
    last := Map.put 0 t.last prio (j + 1)
    cut := Map.put 0 t.cut j 0
    cutVf := Map.put 0 t.cutVf j 0 }

/-- No job is in its turn. -/
def TurnSt.idle (t : TurnSt) : TurnSt :=
  { t with
    job := Option.none
    left := 0
    nextVf := 0 }

/-- The turn of job `j` is cut short with `left` ns: its time and the position of its queues are kept (R252, R263). -/
def TurnSt.cutShort (t : TurnSt) (j left vf : Nat) : TurnSt :=
  { t.idle with
    cut := Map.put 0 t.cut j left
    cutVf := Map.put 0 t.cutVf j vf }

/-- The turn of partition `p` on Face `f` is over: its snapshots are taken (R263). -/
def State.endTurn (s : State) (f p : Nat) : State :=
  let t := s.turn f p
  match t.job with
  | none => s
  | some j => (s.turnSnap f j).setTurn f p (t.over (s.prioOf j) j).idle

/-- Job `j` is over: so are its turns, with their snapshots, and the turns that were cut short are forgotten (R263, R270). -/
def State.endJobTurns (s : State) (j : Nat) : State :=
  let p := s.partOf j
  s.each (List.range 6) fun s f =>
    let s := if (s.turn f p).job = some j then s.endTurn f p else s
    s.setTurn f p ((s.turn f p).over (s.prioOf j) j)

/-- Does a Face run a command of an EXCHANGE stripe set of job `j` (R239)? -/
def State.exchanging (s : State) (j : Nat) : Bool :=
  (List.range 6).any fun g => (s.face g).running && (s.face g).job == j && (s.face g).exchange.isSome

/-- Charge `ns` of Face `f` to the turn of job `j`; a turn that has run out ends, but not before every command of an
EXCHANGE set has ended (R239, R263). A command that overran its slot is charged to the turn that the slot's end cut short. -/
def State.chargeTurn (s : State) (f j ns : Nat) : State :=
  let p := s.partOf j
  let t := s.turn f p
  if t.job = some j then
    let s := s.setTurn f p { t with left := t.left - ns }
    if t.left ≤ ns && !s.exchanging j then s.endTurn f p else s
  else if Map.get 0 t.cut j = 0 then s
  else if Map.get 0 t.cut j ≤ ns then s.setTurn f p (t.over (s.prioOf j) j)
  else s.setTurn f p { t with cut := Map.put 0 t.cut j (Map.get 0 t.cut j - ns) }

/-! ## The end of a command -/

/-- Once every vFace has adopted and every move is done, the plan is complete (R95). -/
def State.placeSettle (s : State) : State :=
  if s.flag Reg.PLACE_STATUS 0 && s.place.adopt.isEmpty && s.place.moves.isEmpty && s.place.moving.isEmpty then
    (s.setFld Reg.PLACE_STATUS 1 0 0).satFld Reg.PLACE_STATUS 63 16
  else s

/-- vFace `v` of job `j` adopts its pending Face at a command boundary (R94, R95). -/
def State.adoptVf (s : State) (j v : Nat) : State :=
  match s.place.adopt.find? fun a => a.1 == j && a.2.1 == v with
  | none => s
  | some a =>
    let s := s.setFld (Reg.PLACE_VMAP j) (4 * v + 3) (4 * v) a.2.2
    { s with place := { s.place with adopt := s.place.adopt.filter fun b => !(b.1 == j && b.2.1 == v) } }

/-- The mark of vFace `v` of job `j` in a bank. -/
def ownerMark (j v : Nat) : Nat := 1 + 8 * j + v

/-- First key at which the contents of bank `b` of Face `f` stay while a command of another vFace uses the bank as scratch. -/
def asideKey (f b : Nat) : Nat := 0x3000000000000 + f * 0x1000000 + b * 0x10000

/-- Banks of Face `f` that are scratch for a command of vFace `v` of job `j` and hold the live state of another vFace: they stay
resident (R205, R265). -/
def State.guests (s : State) (f j v : Nat) : List Nat :=
  (List.range 16).filter fun b =>
    let o := Map.get 0 (s.face f).owner b
    o != 0 && o != ownerMark j v && !bitOf (s.liveMask f j v) b

/-- Their contents are kept from the command, for which the bank reads as 0 (R148, R205). -/
def State.setAside (s : State) (f j v : Nat) : State :=
  s.each (s.guests f j v) fun s b => (s.copy (bankKey f b) (asideKey f b) 0x10000).zero (bankKey f b) 0x10000

/-- The command over, they are in their banks again. -/
def State.putBack (s : State) (f j v : Nat) : State :=
  s.each (s.guests f j v) fun s b => (s.copy (asideKey f b) (bankKey f b) 0x10000).zero (asideKey f b) 0x10000

/-- Contents that die with a command of vFace `v` of job `j` on Face `f`: the store (R73), LIFE 0 instances in the
Board and in tracked HBM (R74), scratch banks and accumulator flags (R148). An untracked HBM instance is left to be
zeroed by Board DMA. -/
def State.clearCommand (s : State) (f j v : Nat) : State :=
  let s := s.zero (storeBase f) storeBytes
  let lm := s.liveMask f j v
  let s := s.each (List.range 16) fun s b => if bitOf lm b then s else s.zero (bankKey f b) 0x10000
  let s := s.putBack f j v
  let s := s.zero (accFlagKey f 0 0 0) 0x40000
  s.each s.bufs fun s e =>
    let b := e.2
    if b.isValid && bits b.record.toNat 62 59 == j && !b.life1 && (b.tier == 1 || b.tier == 2) then
      if b.tier == 2 && !bitOf b.bind.toNat 60 then s.setBuf e.1 { b with
        zeroing := b.zeroing ||| 2 ^ v
        zeroAt := Map.put 0 b.zeroAt v s.raw }
      else s.zero (b.base f v) b.sizeB
    else s

/-- End the command on Face `f` (R103, R136): what dies with it is cleared, the queue position counts as ended, and
the vFace adopts a pending binding. -/
def State.endCommand (s : State) (f : Nat) : State :=
  let fs := s.face f
  let s := s.clearCommand f fs.job fs.vf
  let q := s.vf fs.job fs.vf
  let s := s.setVf fs.job fs.vf { q with ended := q.ended + 1 }
  let dt := match fs.firstIssue with
    | some t => s.raw - t
    | none => 0
  let s := s.account fs.job 0x20 1
  let s := if s.acctFull then s.account fs.job (0x40 + 8 * f) dt else s
  let s := if fs.borrowed then s.account fs.job 0x18 dt else s
  let s := match s.job fs.job with
    | some jb => if jb.img.golden then
        { s with safe := { s.safe with
          goldUsed := Map.put 0 s.safe.goldUsed f (Map.get 0 s.safe.goldUsed f + (s.raw - fs.startAt)) } }
      else s
    | none => s
  let s := s.seqFld (Reg.FACE_STATUS f) 31 0
  let s := s.setFace f { FaceSt.idle with
    owner := fs.owner, slot := fs.slot, excJobs := fs.excJobs, halted := fs.halted, resetting := fs.resetting, gated := fs.gated }
  let s := if fs.borrowed then s.turnSnap f fs.job else s.chargeTurn f fs.job (s.raw - fs.startAt)
  (s.adoptVf fs.job fs.vf).placeSettle

/-! ## Exceptions -/

/-- Drop the waiting requests of Face `f` from every semaphore. -/
def State.dropWaiters (s : State) (f : Nat) : State :=
  s.each s.waiters fun s e =>
    (s.setWaiters e.1 (e.2.filter fun r => match r.face with
      | some (g, _) => g != f
      | none => true)).semRefresh e.1

/-- Cut a write into pieces of at most `n` bytes, in ascending order. -/
def Fx.pieces (n : Nat) : Fx → List Fx
  | .store a bs => (chunksOf n bs.length bs).zipIdx.map fun p => .store (a + n * p.2) p.1
  | .zero a m => (List.range ((m + n - 1) / n)).map fun i => .zero (a + n * i) (min n (m - n * i))
  | .racc a i0 xs => (chunksOf (n / 4) xs.length xs).zipIdx.map fun p => .racc (a + n / 4 * 4 * p.2) (i0 + n / 4 * p.2) p.1
  | x => [x]

/-- The Face that runs a command of vFace `v` of job `j`. -/
def State.faceRunning (s : State) (j v : Nat) : Option Nat :=
  (List.range 6).find? fun g => (s.face g).running && (s.face g).job == j && (s.face g).vf == v

/-- Does it run one? -/
def State.vfRuns (s : State) (j v : Nat) : Bool := (s.faceRunning j v).isSome

/-- A write that names Face `g`'s store, made to Face `h`'s. -/
def Fx.inStore (g h : Nat) : Fx → Fx
  | .store a bs => .store (if storeBase g ≤ a && a < storeBase (g + 1) then a - storeBase g + storeBase h else a) bs
  | .zero a n => .zero (if storeBase g ≤ a && a < storeBase (g + 1) then a - storeBase g + storeBase h else a) n
  | x => x

/-- The effects of an entry of Face `f` as they land now. A write to another vFace's instance goes to the store of the Face on
which that vFace runs its command; none where it runs none (R75, R132). -/
def State.landing (s : State) (f : Nat) (e : Entry) : Option (List Fx) :=
  match e.remote with
  | none => some e.fx
  | some (v, g) => (s.faceRunning (s.face f).job v).map fun h => e.fx.map (Fx.inStore g h)

/-- Bytes that an operation of a unit writes as a whole: a mover's piece, and one 64-byte line elsewhere. -/
def FUnit.grain (u : FUnit) : Nat := if u == .mover then 4096 else 64

/-- Cancel every instruction in flight on Face `f` (R136): of a started one, the writes already made stay; how many
pieces were made is a free value. Nothing is signalled; a transfer to a peer is over for its MOV. -/
def State.cancelWindow (s : State) (f : Nat) : State :=
  let s' := s.each (s.face f).window fun s e =>
    if e.started then
      let t := s.take 1
      let fx := (((s.landing f e).getD []).filter Fx.isWrite).flatMap (Fx.pieces e.unit.grain)
      t.2.each (fx.take (Config.freeCount t.1)) State.applyFx
    else s
  let s' := { s' with efl := { s'.efl with xfers := s'.efl.xfers.filter fun x => x.face != f } }
  (s'.setFace f { s'.face f with window := [] }).dropWaiters f

/-- Record an exception of Face `f` (R138): while a record is held, MORE counts, saturating at 255. -/
def State.recordExc (s : State) (f : Nat) (e : Exc) (precise hw : Bool) (pc : Nat) : State :=
  if s.flag (Reg.FACE_EXC f) 63 then s.satFld (Reg.FACE_EXC f) 47 40
  else
    (s.wr (Reg.FACE_EXC f) (BitVec.ofNat 64 (2 ^ 63 + (if hw then 2 ^ 62 else 0) + (if precise then 2 ^ 61 else 0)
      + e.code * 2 ^ 48 + pc % 2 ^ 32))).wr (Reg.FACE_EXCINFO f) (BitVec.ofNat 64 e.info)

/-- Take an exception on Face `f` (R136): stop issue, record, cancel what is in flight, end the command, raise the
FACE_EXC event. -/
def State.takeExc (s : State) (f : Nat) (e : Exc) (precise : Bool) (pc : Nat) : State :=
  let fs := s.face f
  let hw := e.code == 0x0E
  let s := (((s.recordExc f e precise hw pc).cancelWindow f).endCommand f).raiseEv f
  s.setFace f { s.face f with
    excJobs := (s.face f).excJobs ++ [(fs.job, hw)]
    cancelled := fs.window.map fun e => (e.seq, e.pc) }

/-! ## Issue -/

/-- Can an instruction with header `h` issue on Face `f`, its operand checks aside (R111)? The command runs, END has
not issued, the PC lies in the code section, the wait set is satisfied and the window has a free entry. -/
def canIssue (s : State) (f : Nat) (h : Hdr) : Bool :=
  let fs := s.face f
  fs.running && !fs.ending && !fs.halted &&
    (match s.job fs.job with
      | some jb => decide (fs.pc < jb.img.codeLen)
      | none => false) &&
    !waitOver fs h && waitsOk s f h && decide (fs.window.length < 256)

/-- First issue of the command: the duration starts and JSTEP is latched (R104, R285). -/
def State.beginIssue (s : State) (f : Nat) : State :=
  let fs := s.face f
  match fs.firstIssue with
  | some _ => s
  | none => s.setFace f { fs with firstIssue := some s.raw, jstep := some (s.rd (Reg.DET_JSTEP fs.job)).toNat }

/-- Issue an instruction on Face `f` (R111): what cannot issue holds the issue point and changes nothing; a
precise exception is taken instead of issuing (R135). -/
def issue (s : State) (f : Nat) (h : Hdr) (chk : Chk) (act : State → Out) : Out :=
  let fs := s.face f
  if canIssue s f h then
    match chk with
    | .pass => act (s.beginIssue f)
    | .hold => s.noEvent
    | .exc e => .next (s.takeExc f e true fs.pc)
  else if fs.running && !fs.ending && !fs.halted then
    if (match s.job fs.job with
      | some jb => decide (jb.img.codeLen ≤ fs.pc)
      | none => true) then .next (s.takeExc f ⟨0x0C, 0⟩ true fs.pc)
    else if waitOver fs h then .next (s.takeExc f ⟨0x06, 0⟩ true fs.pc)
    else s.noEvent
  else s.noEvent

/-- The next instruction follows. -/
def State.advance (s : State) (f : Nat) : State := s.setFace f { s.face f with pc := (s.face f).pc + 1 }

/-- An instruction that completes as it issues: change the Face, go on, signal. -/
def State.retire (s : State) (f : Nat) (h : Hdr) (g : FaceSt → FaceSt) : State :=
  ((s.setFace f (g (s.face f))).advance f).signal f (sigOf h)

/-- May another instruction wait for this unit (R113, R143)? -/
def unitFree (fs : FaceSt) (u : FUnit) : Bool :=
  if u == .mover then decide ((fs.window.filter fun e => e.unit == .mover).length < 64)
  else if u == .tile || u == .vector || u == .digest then
    decide ((fs.window.filter fun e => e.unit == u && !e.started).length < 4)
  else true

/-- Does a unit start an instruction that issues now at once? -/
def unitIdle (fs : FaceSt) (u : FUnit) : Bool :=
  if u == .tile || u == .vector || u == .digest then !(fs.window.any fun e => e.unit == u) else true

/-! ## Races (R115, R144) -/

/-- Do two spans meet? -/
def spansMeet (a b : Nat × Nat) : Bool := a.1 < b.1 + b.2 && b.1 < a.1 + a.2

/-- Do two lists of spans meet? -/
def anyMeet (a b : List (Nat × Nat)) : Bool := a.any fun x => b.any fun y => spansMeet x y

/-- Bytes of `w` that lie in a span of `l` become free bytes; the count of free values taken so far goes along. -/
def freeBytes (l : List (Nat × Nat)) : Nat → Nat → List Byte → List Byte
  | _, _, [] => []
  | n, k, b :: bs => (if l.any (fun x => x.1 ≤ k && k < x.1 + x.2) then Config.freeByte n else b) ::
    freeBytes l (n + 1) (k + 1) bs

/-- A deferred effect whose bytes in the spans `l` are free. -/
def Fx.freed (l : List (Nat × Nat)) (n : Nat) : Fx → Fx
  | .store a bs => .store a (freeBytes l n a bs)
  | .zero a m =>
    if l.any (fun x => spansMeet x (a, m)) then .store a (freeBytes l n a (List.replicate m 0)) else .zero a m
  | .racc a i xs =>
    if l.any (fun x => spansMeet x (a, 4 * xs.length)) then
      .store a (freeBytes l n a (xs.flatMap fun x => leBytes 4 x)) else .racc a i xs
  | x => x

/-- Entries in flight of the job of Face `f`, on every Face, with their Face. -/
def State.jobEntries (s : State) (f : Nat) : List (Nat × Entry) :=
  let j := (s.face f).job
  (List.range 6).flatMap fun g => if (s.face g).running && (s.face g).job == j then
    (s.face g).window.map fun e => (g, e) else []

/-- Does the tile queue of Face `f` order an instruction of order `o` after the entry `p`: SEXP and SIMP wait behind the
tile-group instructions ahead of them (R170, R225), RSTEP and RCHUNK behind the SEXP and SIMP ahead of them (R225)? -/
def tileOrdered (f : Nat) (o : TileOrder) (p : Nat × Entry) : Bool :=
  p.1 == f && p.2.unit == .tile && (o == .afterAll || (o == .afterImports && p.2.order == .afterAll))

/-- The spans of `r` that an instruction in flight writes without an order (R115). -/
def State.racedSpans (s : State) (f : Nat) (r : List (Nat × Nat)) (o : TileOrder) : List (Nat × Nat) :=
  ((s.jobEntries f).filter fun p => !(o == .afterImports && tileOrdered f o p)).flatMap fun p =>
    p.2.writes.filter fun w => r.any (spansMeet w)

/-- The bytes of some spans become free bytes. -/
def State.freeSpans (s : State) (ws : List (Nat × Nat)) : State :=
  s.each ws fun s w =>
    let t := s.take w.2
    t.2.store w.1 ((List.range w.2).map fun i => Config.freeByte (t.1 + i))

/-- The state as an instruction of Face `f` that reads the spans `r` sees it: a byte that an instruction in flight
writes without an order between them is a free byte (R115). -/
def State.raceView (s : State) (f : Nat) (r : List (Nat × Nat)) (o : TileOrder := .loose) : State :=
  s.freeSpans (s.racedSpans f r o)

/-- Does the entry add at the Board (R169)? -/
def Entry.adds (e : Entry) : Bool := e.fx.any fun x => match x with
  | .racc _ _ _ => true
  | _ => false

/-- The entries of the job of Face `f` with which a new instruction `e` has no order: the tile queue orders some, and
additions at the Board are applied as they arrive (R169). -/
def State.unordered (s : State) (f : Nat) (e : Entry) : List (Nat × Entry) :=
  (s.jobEntries f).filter fun p => !tileOrdered f e.order p && !(e.adds && p.2.adds)

/-- What of a new entry's writes a racing entry `p` makes unpredictable: everything where `p` writes its working space. -/
def Entry.racedBy (e p : Entry) : List (Nat × Nat) :=
  if anyMeet e.scratch p.writes then e.writes else p.writes.filter fun x => e.writes.any (spansMeet x)

/-- Free the pending writes of entries in flight that race with a new instruction `new`: bytes both write, and every
byte of an entry that reads what the new one writes (R115). -/
def State.raceOld (s : State) (f : Nat) (new : Entry) : State :=
  let w := new.writes
  (s.unordered f new).foldl (fun s p =>
    let e := p.2
    let reads := e.reads ++ e.scratch
    let l := if anyMeet reads w then e.writes else e.writes.filter fun x => w.any (spansMeet x)
    if l.isEmpty then s
    else
      let n := l.foldl (fun a x => a + x.2) 0
      let t := s.take n
      let spans := if anyMeet reads w then e.writes else w
      let e' := { e with
        fx := e.fx.map (Fx.freed spans t.1)
        lost := e.lost ++ spans }
      let fs := t.2.face p.1
      t.2.setFace p.1 { fs with window := fs.window.map fun x => if x.seq == e.seq then e' else x }) s

/-- An instruction enters the window of Face `f`: `e` as its meaning built it, with races resolved, the PC and the
order of issue advanced. -/
def State.enter (s : State) (f : Nat) (h : Hdr) (e : Entry) : State :=
  let racing := (s.unordered f e).flatMap fun p => e.racedBy p.2
  let t := s.take (racing.foldl (fun a x => a + x.2) 0)
  let s := t.2.raceOld f e
  let fs := s.face f
  let e := { e with
    seq := fs.seq, pc := fs.pc, started := unitIdle fs e.unit, sig := sigOf h, lost := racing,
    redo := if unitIdle fs e.unit then none else e.redo,
    fx := (if racing.isEmpty then e.fx else e.fx.map (Fx.freed racing t.1)) }
  s.setFace f { fs with window := fs.window ++ [e], seq := fs.seq + 1, pc := fs.pc + 1 }

/-- An entry with nothing in it, of a unit. -/
def Entry.of (u : FUnit) : Entry :=
  { seq := 0, pc := 0, unit := u, started := false, sig := none, tiers := 0, reads := [], writes := [], fx := [],
    isStg := false, remote := none, acq := none, folds := 0, bufs := [], order := .loose, scratch := [], lost := [],
    redo := none, macUsed := 0, macBad := 0 }

/-- Key spans that a list of deferred effects writes. -/
def fxSpans (l : List Fx) : List (Nat × Nat) :=
  l.filterMap fun x => match x with
    | .store a bs => some (a, bs.length)
    | .zero a n => some (a, n)
    | .racc a _ xs => some (a, 4 * xs.length)
    | _ => none

/-- Remove an entry from the window. -/
def State.leaveWindow (s : State) (f seq : Nat) : State :=
  let fs := s.face f
  s.setFace f { fs with window := fs.window.filter fun e => e.seq != seq }

/-- Index of the BYTES field that a key belongs to (R271): another Face's store 0, Board 1, HBM 2, peer HBM 3. -/
def bytesIdx (f k : Nat) : Option Nat :=
  if peerKey 0 ≤ k then some 3
  else if isBoard k then some 1
  else if isHbm k then some 2
  else if isStore k && !(storeBase f ≤ k && k < storeBase f + storeBytes) then some 0
  else none

/-- Count the bytes an instruction moved to and from the other tiers, in full accounting (R271). -/
def State.countBytes (s : State) (f : Nat) (e : Entry) : State :=
  if s.acctFull then
    s.each (e.reads ++ e.writes) fun s x => match bytesIdx f x.1 with
      | some i => s.account (s.face f).job (0x70 + 8 * i) x.2
      | none => s
  else s

/-- XOR codes into a digest slot at their logical indices. -/
def DigSlot.fold (g : DigSlot) (elems : List (Nat × Nat)) : DigSlot :=
  { g with
    codes := elems.foldl (fun m p => Map.put 0 m p.1 (Map.get 0 m p.1 ^^^ p.2)) g.codes
    folded := g.folded + elems.length }

/-- An unarmed slot. -/
def DigSlot.off : DigSlot := { armed := false, desc := 0, codes := [], folded := 0 }

/-- Fold elements into the digest slots of a mask (R171). -/
def State.foldMask (s : State) (f m : Nat) (elems : List (Nat × Nat)) : State :=
  if m = 0 then s
  else
    let fs := s.face f
    s.setFace f { fs with digs := (List.range 8).foldl (fun d k =>
      if bitOf m k then Map.put DigSlot.off d k ((Map.get DigSlot.off d k).fold elems) else d) fs.digs }

/-- Make one effect of a completing instruction whose writes fold into the slots `m`: what an addition at the Board writes is
known, and folded, only now (R169, R171). -/
def State.completeFx (s : State) (f m : Nat) (x : Fx) : State :=
  match x with
  | .racc a i xs =>
    let t := s.applyFx x
    t.foldMask f m ((List.range xs.length).map fun k => (i + k, t.loadNat (a + 4 * k) 4))
  | _ => s.applyFx x

/-- Complete an instruction (R112): its writes become visible, it leaves the window and signals. A release beyond
65,535 raises SEM_RANGE instead (R122). -/
def State.completeEntry (s : State) (f : Nat) (e : Entry) : State :=
  let tooMuch := e.fx.find? fun x => match x with
    | .release _ m n => decide (65535 < s.semCount m + n)
    | _ => false
  match tooMuch with
  | some (.release _ m _) => (s.leaveWindow f e.seq).takeExc f ⟨0x08, m⟩ false e.pc
  | _ => (((s.each e.fx fun s x => s.completeFx f e.folds x).countBytes f e).leaveWindow f e.seq).signal f e.sig

end Sys2Proof.Machine
end

