-- ==== Sys2Proof/Machine/Hflt.lean ====
section
/-! DEFINITION. Fault records: CSTATE and the gate, the kinds of faults, quarantine, the log, and the permit's stop (R17, R338, R401,
R402, R447, R449, R452, R457). -/

namespace Sys2Proof.Machine

/-! ## CSTATE (R457) -/

/-- CSTATE: 0 OFF, 1 RESET, 2 BOOT, 3 UP, 4 FAILED. -/
def State.cstate (s : State) : Nat := s.fld Reg.HFLT_STATUS 31 29

/-- Does the gate report COMPUTE_DOWN? -/
def State.gateDown (s : State) : Bool :=
  let c := s.cstate
  c == 0 || c == 1 || c == 4 || decide (3 ≤ s.fld Reg.SEC_PSTATE 31 29) || !s.safe.boardOpen

/-- ENGAGED. -/
def State.holding (s : State) : Bool := s.flag Reg.HOLD_STATUS 31

/-- An engage cause: it acts at the next tick; after another it changes nothing. One that comes while the controller is engaged keeps
the engagement against a release at that tick (R338, R339). -/
def State.holdCause (s : State) (c : Nat) : State :=
  if s.holding then { s with hold := { s.hold with again := true } }
  else if s.hold.cause.isSome then s
  else { s with hold := { s.hold with cause := some c } }

/-- The gate was open in `old`: where it has entered COMPUTE_DOWN, the hold controller has its cause 3 (R338). -/
def State.watchGate (old s : State) : State :=
  if !old.gateDown && s.gateDown && s.flag Reg.HOLD_CTRL 2 then s.holdCause 3 else s

/-- Change CSTATE; CSTATE_CHG is raised. -/
def State.setCstate (s : State) (c : Nat) : State := s.watchGate ((s.setFld Reg.HFLT_STATUS 31 29 c).raiseEv 148)

/-- Kinds of fault sources (R457). -/
inductive FaultKind
  | device | job | home | reserved
  deriving DecidableEq, Repr

/-- Kind of a source. -/
def faultKind (src : Nat) : FaultKind :=
  if src = 0x0C then .job
  else if 1 ≤ src ∧ src ≤ 0x0F then .device
  else if 0x20 ≤ src ∧ src ≤ 0x24 then .home
  else .reserved

/-- May the source attribute a Face? -/
def faultHasFace (src : Nat) : Bool := src == 0x01 || src == 0x02 || src == 0x05 || src == 0x09

/-- Bit of FAULT in a status word for a source (R446). -/
def faultBit (src : Nat) : Nat :=
  if src = 0x01 then 0 else if src = 0x02 then 1 else if src = 0x03 then 2 else if src = 0x04 then 3
  else if src = 0x05 then 4 else if src = 0x09 ∨ src = 0x0A ∨ src = 0x0B then 5 else if src = 0x06 then 6
  else if src = 0x0C then 7 else 8

/-! ## The permit stops (R401, R402) -/

/-- Stop the permit with a cause, if it toggles or is armed. A lockstep or VHOME cause also bars a stopped permit from
being armed. -/
def State.permitStop (s : State) (cause : Nat) : State :=
  let was := s.flag Reg.PERMIT_STATUS 31
  let c := s.fld Reg.PERMIT_STATUS 30 28
  let off := { s with permit := { s.permit with
    armedAt := none
    keyAt := none } }.setFlag Reg.PERMIT_STATUS 31 false
  if was || s.permit.armedAt.isSome then
    let s := off.setFld Reg.PERMIT_STATUS 30 28 cause
    if was then s.raiseEv 145 else s
  else if (cause == 3 || cause == 4) && (c ≤ 2 || c == 6) then off.setFld Reg.PERMIT_STATUS 30 28 cause
  else s

/-! ## Recording a fault (R449, R452, R457) -/

/-- Times within the last 10 s. -/
def within10 (now : Nat) (l : List Nat) : List Nat := l.filter fun t => decide (now < t + 10000000000)

/-- Is a fault recorded now counted toward quarantine: no reset is under way, or it falls in the 1 us window of the
fault that started it (R449)? -/
def State.faultCounts (s : State) : Bool :=
  (s.cstate != 1 && !s.safe.resetDue) || s.raw / 1000 == s.safe.faultAt / 1000

/-- Write a log entry and its copy in the compute window (R457). -/
def State.logFault (s : State) (src face job flags detail : Nat) : State :=
  let i := s.fld Reg.HFLT_LOGSEQ 31 0 % 16
  let w2 := src + face * 2 ^ 8 + job * 2 ^ 16 + flags * 2 ^ 24
  let s := (((s.wr (Reg.HFLT_LOG i 0) (BitVec.ofNat 64 (s.raw % 2 ^ 32))).wr (Reg.HFLT_LOG i 1)
    (BitVec.ofNat 64 (s.raw / 2 ^ 32 % 2 ^ 32))).wr (Reg.HFLT_LOG i 2) (BitVec.ofNat 64 w2)).wr (Reg.HFLT_LOG i 3)
    (BitVec.ofNat 64 (detail % 2 ^ 32))
  let k := homeSpace + 0xFE000 + 16 * i
  (((s.storeNat k 8 s.raw).storeNat (k + 8) 4 w2).storeNat (k + 12) 4 detail).seqFld Reg.HFLT_LOGSEQ 31 0

/-- Count a fault of Face `f`; the third within 10 s quarantines it (R452). -/
def State.countFault (s : State) (f : Nat) : State :=
  let l := s.raw :: within10 s.raw (Map.get [] s.safe.times f)
  let s := { s with safe := { s.safe with times := Map.put [] s.safe.times f l } }
  let s := s.setFld (Reg.HFLT_FACE f) 1 0 (min 3 l.length)
  if 3 ≤ l.length then s.setFlag Reg.HFLT_QUAR f true else s

/-- Set the fault's bit in the latch of every job it bears on (R447). -/
def State.latchFault (s : State) (src : Nat) (face : Option Nat) : State :=
  s.each (List.range 16) fun s j => s.modJob j fun b =>
    if (match face with
      | some f => bitOf b.ranStatus f
      | none => true) then { b with latch := b.latch ||| 2 ^ faultBit src } else b

/-- HFLT records a fault. An injected one is logged and nothing else (R454). -/
def State.fault (s : State) (src : Nat) (face job : Option Nat) (injected : Bool) (detail : Nat) : State :=
  let face := if faultHasFace src then face else none
  let counted := faultKind src = .device && !injected && face.isSome && s.faultCounts
  let s' := match face with
    | some f => if counted then s.countFault f else s
    | none => s
  let quar := match face with
    | some f => s'.flag Reg.HFLT_QUAR f
    | none => false
  let flags := (if injected then 1 else 0) + (if counted then 2 else 0) + if quar then 4 else 0
  let s' := (s'.logFault src (face.getD 0xFF) (job.getD 0xFF) flags detail).raiseEv 146
  if injected then s'
  else match faultKind src with
    | .home =>
      let s' := if s'.fld Reg.HFLT_STATUS 15 8 = 0 then s'.setFld Reg.HFLT_STATUS 15 8 src else s'
      s'.permitStop 3
    | .job => (s'.latchFault src face).setFld Reg.HFLT_STATUS 7 0 src
    | .device =>
      let s' := (s'.latchFault src face).setFld Reg.HFLT_STATUS 7 0 src
      if s'.cstate = 1 ∨ s'.safe.resetDue ∨ s'.cstate = 4 then s'
      else { s' with safe := { s'.safe with
        resetDue := true
        faultAt := s'.raw } }
    | .reserved => s'

end Sys2Proof.Machine
end

