-- ==== Sys2Proof/Machine/Scalar.lean ====
section
/-! DEFINITION. Scalar, descriptor and scalar-memory instructions (R109, R129, R130). All of them complete as they
issue, except STG, which completes when its write is visible. -/

namespace Sys2Proof.Machine

/-! ## Format A -/

/-- Reserved-field check of format A with two sources (R127): with I = 1, RB is 0; with I = 0, IMM is 0. -/
def fmtAOk (o : FmtA) : Bool := if o.i = 1 then o.rb == 0 else o.imm == 0

/-- Second operand of format A: sign-extended IMM or g[RB] (R127). -/
def opB (fs : FaceSt) (o : FmtA) : Word := if o.i = 1 then o.imm.signExtend 64 else fs.gReg o.rb.toNat

/-- A two-source scalar instruction: g[RD] = op g[RA] operand (R129). -/
def scalar2 (op : Word → Word → Word) (f : Fin 6) (h : Hdr) (o : FmtA) (s : State) : Out :=
  issue s f h (.need (fmtAOk o)) fun s =>
    .next (s.retire f h fun fs => fs.setG o.rd.toNat (op (fs.gReg o.ra.toNat) (opB fs o)))

/-- ADD: 64-bit sum (R129). -/
def opAdd (a b : Word) : Word := a + b

/-- ADD (R129). -/
def execAdd (f : Fin 6) (h : Hdr) (o : FmtA) (s : State) : Out := scalar2 opAdd f h o s

/-- SUB: 64-bit difference (R129). -/
def opSub (a b : Word) : Word := a - b

/-- SUB (R129). -/
def execSub (f : Fin 6) (h : Hdr) (o : FmtA) (s : State) : Out := scalar2 opSub f h o s

/-- AND: bitwise and (R129). -/
def opAnd (a b : Word) : Word := a &&& b

/-- AND (R129). -/
def execAnd (f : Fin 6) (h : Hdr) (o : FmtA) (s : State) : Out := scalar2 opAnd f h o s

/-- OR: bitwise or (R129). -/
def opOr (a b : Word) : Word := a ||| b

/-- OR (R129). -/
def execOr (f : Fin 6) (h : Hdr) (o : FmtA) (s : State) : Out := scalar2 opOr f h o s

/-- XOR: bitwise exclusive or (R129). -/
def opXor (a b : Word) : Word := a ^^^ b

/-- XOR (R129). -/
def execXor (f : Fin 6) (h : Hdr) (o : FmtA) (s : State) : Out := scalar2 opXor f h o s

/-- SLL: left shift by bits [5:0] (R129). -/
def opSll (a b : Word) : Word := a <<< (b.toNat % 64)

/-- SLL (R129). -/
def execSll (f : Fin 6) (h : Hdr) (o : FmtA) (s : State) : Out := scalar2 opSll f h o s

/-- SRL: logical right shift by bits [5:0] (R129). -/
def opSrl (a b : Word) : Word := a >>> (b.toNat % 64)

/-- SRL (R129). -/
def execSrl (f : Fin 6) (h : Hdr) (o : FmtA) (s : State) : Out := scalar2 opSrl f h o s

/-- SRA: arithmetic right shift by bits [5:0] (R129). -/
def opSra (a b : Word) : Word := a.sshiftRight (b.toNat % 64)

/-- SRA (R129). -/
def execSra (f : Fin 6) (h : Hdr) (o : FmtA) (s : State) : Out := scalar2 opSra f h o s

/-- MUL: low 64 bits of the product (R129). -/
def opMul (a b : Word) : Word := a * b

/-- MUL (R129). -/
def execMul (f : Fin 6) (h : Hdr) (o : FmtA) (s : State) : Out := scalar2 opMul f h o s

/-- MULHU: high 64 bits of the unsigned product (R129). -/
def opMulhu (a b : Word) : Word := BitVec.ofNat 64 (a.toNat * b.toNat / 2 ^ 64)

/-- MULHU (R129). -/
def execMulhu (f : Fin 6) (h : Hdr) (o : FmtA) (s : State) : Out := scalar2 opMulhu f h o s

/-- MIN: signed minimum (R129). -/
def opMin (a b : Word) : Word := if a.slt b then a else b

/-- MIN (R129). -/
def execMin (f : Fin 6) (h : Hdr) (o : FmtA) (s : State) : Out := scalar2 opMin f h o s

/-- MAX: signed maximum (R129). -/
def opMax (a b : Word) : Word := if a.slt b then b else a

/-- MAX (R129). -/
def execMax (f : Fin 6) (h : Hdr) (o : FmtA) (s : State) : Out := scalar2 opMax f h o s

/-- SLT: 1 if less, signed (R129). -/
def opSlt (a b : Word) : Word := if a.slt b then 1 else 0

/-- SLT (R129). -/
def execSlt (f : Fin 6) (h : Hdr) (o : FmtA) (s : State) : Out := scalar2 opSlt f h o s

/-- SLTU: 1 if less, unsigned (R129). -/
def opSltu (a b : Word) : Word := if a.ult b then 1 else 0

/-- SLTU (R129). -/
def execSltu (f : Fin 6) (h : Hdr) (o : FmtA) (s : State) : Out := scalar2 opSltu f h o s

/-- DIVU: unsigned quotient; a divisor of 0 gives all ones (R129). -/
def opDivu (a b : Word) : Word := if b = 0 then 0xFFFFFFFFFFFFFFFF else a / b

/-- DIVU (R129). -/
def execDivu (f : Fin 6) (h : Hdr) (o : FmtA) (s : State) : Out := scalar2 opDivu f h o s

/-- LI: RD = sign-extended IMM (R129). As in every instruction of format A, IMM is 0 where I is 0 (R127). -/
def execLi (f : Fin 6) (h : Hdr) (o : FmtA) (s : State) : Out :=
  issue s f h (.need (fmtAOk o && o.ra == 0 && o.rb == 0)) fun s =>
    .next (s.retire f h fun fs => fs.setG o.rd.toNat (o.imm.signExtend 64))

/-- LIH: RD[63:32] = IMM, RD[31:0] kept (R129). -/
def execLih (f : Fin 6) (h : Hdr) (o : FmtA) (s : State) : Out :=
  issue s f h (.need (fmtAOk o && o.ra == 0 && o.rb == 0)) fun s =>
    .next (s.retire f h fun fs => fs.setG o.rd.toNat (o.imm ++ (fs.gReg o.rd.toNat).setWidth 32))

/-- Front-end value of a selector (R109), for the command on Face `f`. -/
def frontEnd (s : State) (f : Nat) (sel : Nat) : Option Word :=
  let fs := s.face f
  match sel with
  | 0 => some (BitVec.ofNat 64 fs.vf)
  | 1 => some (BitVec.ofNat 64 (match s.job fs.job with
      | some jb => jb.img.vfs.length
      | none => 0))
  | 2 => some (BitVec.ofNat 64 fs.cmdno)
  | 3 => some (BitVec.ofNat 64 (fs.jstep.getD 0))
  | 4 => some (BitVec.ofNat 64 (fs.stream % 2 ^ 32))
  | _ => none

/-- RDST: RD = front-end value IMM (R109, R129). -/
def execRdst (f : Fin 6) (h : Hdr) (o : FmtA) (s : State) : Out :=
  issue s f h (.need (fmtAOk o && o.ra == 0 && o.rb == 0 && decide (o.imm.toNat ≤ 4))) fun s =>
    .next (s.retire f h fun fs => fs.setG o.rd.toNat ((frontEnd s f o.imm.toNat).getD 0))

/-- WRST: front-end value IMM = RA; only STREAM can be written (R109). -/
def execWrst (f : Fin 6) (h : Hdr) (o : FmtA) (s : State) : Out :=
  issue s f h (.need (fmtAOk o && o.rd == 0 && o.rb == 0 && o.imm == 4)) fun s =>
    .next (s.retire f h fun fs => { fs with stream := (fs.gReg o.ra.toNat).toNat % 2 ^ 32 })

/-! ## Format D -/

/-- The access position OFFSET + A of a scalar memory instruction, A = g[RA] + IMM modulo 2^64 as a signed offset. -/
def accessPos (s : State) (f : Nat) (o : FmtD) : Int :=
  ((s.desc f o.y.toNat).off : Int) + ((s.face f).gReg o.ra.toNat + o.imm.signExtend 64).toInt

/-- Checks of a scalar memory access of `len` bytes through descriptor Y, the first source of a load (`opnd` 1) and the destination
of STG (`opnd` 0), which no PAGED descriptor is (R108, R130, R139, R189). -/
def accessChk (s : State) (f : Nat) (o : FmtD) (len opnd : Nat) : Chk :=
  let n := o.y.toNat
  let p := accessPos s f o
  (checkDesc s f n opnd fun d => groupElems d.fmt == 1 && (opnd == 1 || d.plain)).and
    (if p % len ≠ 0 then .exc ⟨0x05, excInfo n opnd (wrap 48 p)⟩
    else match s.findBuf (s.face f).job (s.desc f n).bufId with
      | some (_, b) =>
        if p < 0 ∨ (b.sizeB : Int) ≤ p + len - 1 then .exc ⟨0x04, excInfo n opnd (wrap 48 (p + len - 1))⟩ else .pass
      | none => .exc illOperand)

/-- Key of a scalar memory access. -/
def accessKey (s : State) (f : Nat) (o : FmtD) : Nat :=
  s.descBase f (s.desc f o.y.toNat) + (accessPos s f o).toNat

/-- An earlier STG of the Face is in flight (R114). -/
def stgPending (s : State) (f : Nat) : Chk := if (s.face f).window.any (·.isStg) then .hold else .pass

/-- The bytes a load sees, races resolved, and the state after it has read. -/
def readRaced (s : State) (f k n : Nat) : Nat × State :=
  let v := s.raceView f [(k, n)]
  (v.loadNat k n, { s with fresh := v.fresh })

/-- The exception of an instruction to which the uncorrectable word at key `k` is delivered (R135). DETAIL holds bits [34:0] of the
address, in the HBM and elsewhere (assumption 113). -/
def memExc (k : Nat) : Exc := ⟨0x0E, k % 2 ^ 35⟩

/-- A scalar load of `n` bytes: what it reads changes the Face, unless an uncorrectable word is among it: MEM_ERROR, imprecise
(R80, R433). -/
def loadOut (s : State) (f : Nat) (h : Hdr) (o : FmtD) (n : Nat) (g : Nat → FaceSt → FaceSt) : Out :=
  let k := accessKey s f o
  let r := readRaced s f k n
  let t := r.2.useDescs f [(o.y.toNat, false)]
  .next (match s.firstBad k n with
    | some b => t.takeExc f (memExc b) false (s.face f).pc
    | none => t.retire f h (g r.1))

/-- LDG: g[X] = 8 bytes (R130). It waits for earlier STGs (R114). -/
def execLdg (f : Fin 6) (h : Hdr) (o : FmtD) (s : State) : Out :=
  issue s f h ((Chk.need (o.x.toNat < 32 && o.field == 0)).and ((accessChk s f o 8 1).and (stgPending s f))) fun s =>
    loadOut s f h o 8 fun v fs => fs.setG o.x.toNat (BitVec.ofNat 64 v)

/-- Status words of the publication slots of job `j` (R446, R447): pair, slot, key. -/
def State.statusWords (s : State) (j : Nat) : List (Nat × Nat × Nat) :=
  match s.job j with
  | none => []
  | some jb => jb.img.pubs.zipIdx.flatMap fun p =>
    match s.findBuf j p.1.1 with
    | some (_, b) =>
      let k := b.base 0 0
      if b.tier = 1 then [(p.2, 0, k + p.1.2.1), (p.2, 1, k + p.1.2.2)] else []
    | none => []

/-- Take the status words out of a store: what remains is stored, and each word goes to the status gate with its APP
byte (R447). -/
def splitGate (s : State) (j : Nat) : Fx → List Fx
  | .store a bs =>
    let hit := (s.statusWords j).filter fun w => spansMeet (a, bs.length) (w.2.2, 8)
    let cut := fun (pieces : List Fx) (k : Nat) => pieces.flatMap fun x => match x with
      | .store a bs =>
        if spansMeet (a, bs.length) (k, 8) then
          (if a < k then [Fx.store a (bs.take (k - a))] else []) ++
          (if k + 8 < a + bs.length then [Fx.store (k + 8) (bs.drop (k + 8 - a))] else [])
        else [x]
      | y => [y]
    hit.foldl (fun l w => cut l w.2.2) [.store a bs] ++ hit.map fun w =>
      Fx.gate j w.1 w.2.1 w.2.2 (if a ≤ w.2.2 + 4 && w.2.2 + 4 < a + bs.length then
        (bs.getD (w.2.2 + 4 - a) 0).toNat else (s.loadByte (w.2.2 + 4)).toNat)
  | x => [x]

/-- Tier mask bit of the buffer a descriptor names. -/
def tierBit (s : State) (f n : Nat) : Nat :=
  match s.findBuf (s.face f).job (s.desc f n).bufId with
  | some (_, b) => 2 ^ b.tier
  | none => 0

/-- STG: 8 bytes = g[X]; completes when visible (R130). -/
def execStg (f : Fin 6) (h : Hdr) (o : FmtD) (s : State) : Out :=
  issue s f h ((Chk.need (o.x.toNat < 32 && o.field == 0)).and (accessChk s f o 8 0)) fun s =>
    let k := accessKey s f o
    let fx := Fx.store k (leBytes 8 ((s.face f).gReg o.x.toNat).toNat)
    .next ((s.useDescs f [(o.y.toNat, true)]).enter f h { Entry.of .store with
      tiers := tierBit s f o.y.toNat, writes := [(k, 8)], fx := splitGate s (s.face f).job fx, isStg := true })

/-- The bits of a descriptor that a load keeps: reserved bits read 0 and TIER is discarded (R106, R130). -/
def cleanDesc (v : Nat) : BitVec 256 :=
  BitVec.ofNat 256 (putBits (putBits (putBits v 227 226 0) 224 224 0) 7 0 0)

/-- LDD: d[X] = 32 bytes (R130). It waits for earlier STGs (R114). -/
def execLdd (f : Fin 6) (h : Hdr) (o : FmtD) (s : State) : Out :=
  issue s f h ((Chk.need (o.field == 0)).and ((accessChk s f o 32 1).and (stgPending s f))) fun s =>
    loadOut s f h o 32 fun v fs => fs.setD o.x.toNat (cleanDesc v)

/-- DSETF: a field of d[X] = low bits of g[RA] (R130). -/
def execDsetf (f : Fin 6) (h : Hdr) (o : FmtD) (s : State) : Out :=
  issue s f h (.need (o.y == 0 && o.imm == 0 && (descField o.field.toNat).isSome)) fun s =>
    .next (s.retire f h fun fs => match descField o.field.toNat with
      | some (hi, lo) => fs.setD o.x.toNat
          (BitVec.ofNat 256 (putBits (fs.dReg o.x.toNat).toNat hi lo (fs.gReg o.ra.toNat).toNat))
      | none => fs)

/-- DADD: a field of d[X] += g[RA] modulo the field width; OFFSET or an extent (R130). -/
def execDadd (f : Fin 6) (h : Hdr) (o : FmtD) (s : State) : Out :=
  issue s f h (.need (o.y == 0 && o.imm == 0 && decide (4 ≤ o.field.toNat) && decide (o.field.toNat ≤ 8))) fun s =>
    .next (s.retire f h fun fs => match descField o.field.toNat with
      | some (hi, lo) =>
        let v := (fs.dReg o.x.toNat).toNat
        fs.setD o.x.toNat (BitVec.ofNat 256 (putBits v hi lo (bits v hi lo + (fs.gReg o.ra.toNat).toNat)))
      | none => fs)

/-- DCPY: d[X] = d[Y] (R130). -/
def execDcpy (f : Fin 6) (h : Hdr) (o : FmtD) (s : State) : Out :=
  issue s f h (.need (o.ra == 0 && o.field == 0 && o.imm == 0)) fun s =>
    .next (s.retire f h fun fs => fs.setD o.x.toNat (fs.dReg o.y.toNat))

/-- The bits of a scale register that a load keeps: reserved bits read 0 (R57). -/
def cleanScale (v : Nat) : BitVec 128 := BitVec.ofNat 128 (putBits (putBits v 118 96 0) 63 6 0)

/-- LDS: s[X] = 16 bytes (R130). -/
def execLds (f : Fin 6) (h : Hdr) (o : FmtD) (s : State) : Out :=
  issue s f h ((Chk.need (o.x.toNat < 16 && o.field == 0)).and (accessChk s f o 16 1)) fun s =>
    loadOut s f h o 16 fun v fs => fs.setS o.x.toNat (cleanScale v)

/-- SSETF: a field of s[X] = low bits of g[RA] (R130). -/
def execSsetf (f : Fin 6) (h : Hdr) (o : FmtD) (s : State) : Out :=
  issue s f h (.need (o.x.toNat < 16 && o.y == 0 && o.imm == 0 && (scaleField o.field.toNat).isSome)) fun s =>
    .next (s.retire f h fun fs => match scaleField o.field.toNat with
      | some (hi, lo) => fs.setS o.x.toNat
          (BitVec.ofNat 128 (putBits (fs.sReg o.x.toNat).toNat hi lo (fs.gReg o.ra.toNat).toNat))
      | none => fs)

end Sys2Proof.Machine
end

