-- ==== Sys2Proof/Machine/Tensor.lean ====
section
/-! DEFINITION. What tensor and move instructions share: tensors in their layouts (R107, R184), scale registers and
their checks (R57 to R62, R142), widening, narrowing and counting (R63, R158), digest folding (R171), entry into the
window. -/

namespace Sys2Proof.Machine

/-! ## Tensors -/

/-- A tensor as an instruction uses it: descriptor index, descriptor, first key of its buffer, and for a PAGED one the
key of page-table entry (0, 0), the table's row stride and the pages of the pool. -/
structure TRef where
  idx : Nat
  d : Desc
  base : Nat
  pt : Option (Nat × Nat × Nat)
  deriving DecidableEq, Repr

/-- The tensor of descriptor `n` in the instance of vFace `vf` on Face `g`, for the command on Face `f`. -/
def State.trefAt (s : State) (f g vf n : Nat) : TRef :=
  let d := s.desc f n
  let j := (s.face f).job
  match s.findBuf j d.bufId with
  | none => ⟨n, d, 0, none⟩
  | some (_, b) =>
    if d.layout = 2 then
      let t := s.desc f d.pt
      let tb := match s.findBuf j t.bufId with
        | some (_, x) => x.base g vf
        | none => 0
      ⟨n, d, b.base g vf, some (tb + t.off, t.s1, d.poolPages b.sizeB)⟩
    else ⟨n, d, b.base g vf, none⟩

/-- The tensor of descriptor `n` for the command on Face `f` itself (R132). -/
def State.tref (s : State) (f n : Nat) : TRef := s.trefAt f f (s.face f).vf n

/-- The page-table entry for sequence `i3` and token `i1` (R186). -/
def pageEntry (s : State) (pt : Nat × Nat × Nat) (i3 i1 : Nat) : Nat :=
  s.loadNat (pt.1 + i3 * pt.2.1 + 4 * (i1 / 256)) 4

/-- Absent: PAGE is 0xFF_FFFF or beyond the pool, or reserved bits are set (R188). -/
def pageAbsent (np e : Nat) : Bool := bits e 23 0 == 0xFFFFFF || decide (np ≤ bits e 23 0) || bits e 30 24 != 0

/-- The pieces of row `r`: key (none where the page is absent), may it be written, elements. -/
def TRef.pieces (s : State) (t : TRef) (r : Nat) : List (Option Nat × Bool × Nat) :=
  match t.pt with
  | none => (t.d.pieces r).map fun p => (some (t.base + p.1), true, p.2)
  | some pt =>
    let i1 := r % t.d.e1
    let i2 := r / t.d.e1 % t.d.e2
    let i3 := r / (t.d.e1 * t.d.e2)
    let e := pageEntry s pt i3 i1
    if pageAbsent pt.2.2 e then [(none, false, t.d.e0)]
    else [(some (t.base + t.d.off + bits e 23 0 * t.d.s1 + i2 * t.d.s2 + i1 % 256 * rowBytes t.d.fmt t.d.e0),
      !bitOf e 31, t.d.e0)]

/-- Codes of row `r`; an absent page reads as zero codes (R188). -/
def TRef.row (s : State) (t : TRef) (r : Nat) : List Nat :=
  (t.pieces s r).flatMap fun p => match p.1 with
    | some k => s.codesAt k t.d.fmt p.2.2
    | none => List.replicate p.2.2 0

/-- Every row in ascending logical order. -/
def TRef.rowsOf (s : State) (t : TRef) : List (List Nat) := (List.range t.d.rows).map fun r => t.row s r

/-- All codes in logical order. -/
def TRef.flat (s : State) (t : TRef) : List Nat := (t.rowsOf s).flatten

/-- Keys that reading the whole tensor touches. -/
def TRef.spans (s : State) (t : TRef) : List (Nat × Nat) :=
  ((List.range t.d.rows).flatMap fun r => (t.pieces s r).filterMap fun p =>
    p.1.map fun k => (k, rowBytes t.d.fmt p.2.2)) ++
  (match t.pt with
    | some (k, st, _) => (List.range t.d.e3).map fun i => (k + i * st, 4 * (t.d.e1 / 256))
    | none => [])

/-- The stores that put codes into row `r`, and how many rows were discarded (R188). -/
def TRef.storeRow (s : State) (t : TRef) (r : Nat) (cs : List Nat) : List Fx × Nat :=
  let go := (t.pieces s r).foldl (fun (acc : List Fx × Nat × List Nat) p =>
    let piece := acc.2.2.take p.2.2
    match p.1 with
    | some k => if p.2.1 then (acc.1 ++ [Fx.store k (packCodes t.d.fmt piece)], acc.2.1, acc.2.2.drop p.2.2)
        else (acc.1, acc.2.1 + 1, acc.2.2.drop p.2.2)
    | none => (acc.1, acc.2.1 + 1, acc.2.2.drop p.2.2)) ([], 0, cs)
  (go.1, go.2.1)

/-- Key of element `i` (logical index) of a whole-byte tensor; none on an absent page. -/
def TRef.elemKey (s : State) (t : TRef) (i : Nat) : Option (Nat × Bool) :=
  let c := i % t.d.e0
  let go := (t.pieces s (i / t.d.e0)).foldl (fun (acc : Option (Nat × Bool) × Nat) p =>
    match acc.1 with
    | some _ => acc
    | none => if c < acc.2 + p.2.2 then
        (p.1.map fun k => (k + (c - acc.2) * groupBytes t.d.fmt, p.2.1), acc.2 + p.2.2)
      else (none, acc.2 + p.2.2)) (none, 0)
  go.1

/-- The store that puts one code at element `i` of a whole-byte tensor. -/
def TRef.storeElem (s : State) (t : TRef) (i c : Nat) : List Fx :=
  match t.elemKey s i with
  | some (k, true) => [.store k (leBytes (groupBytes t.d.fmt) c)]
  | _ => []

/-! ## Scales -/

/-- Scale modes (R58). -/
def mUNIT : Nat := 0
def mUNIFORM : Nat := 1
def mROW : Nat := 2
def mROWDYN : Nat := 3
def mMX : Nat := 4
def mRESCALE : Nat := 5
def mCODEBOOK : Nat := 6

/-- Entries of a RESCALE table (R61). -/
def rescaleEntries (d : Desc) : Nat := d.rows * rowBytes d.fmt d.e0 / 8

/-- Is a UNIFORM VALUE usable as a scale (R59)? -/
def uniformOk (v : Nat) : Bool :=
  v % 65536 == 0 && (match fp32Val v with
    | .fin q => decide (pow2 (-100) ≤ |q|) && decide (|q| ≤ pow2 100)
    | _ => false)

/-- Is α usable (R59)? -/
def alphaOk (v : Nat) : Bool :=
  match fp32Val v with
  | .fin q => decide (pow2 (-16) < q) && decide (q ≤ 1)
  | _ => false

/-- The checks of R59 and R142 on a scale register: `modes` are those the instruction accepts, `need` the rows, blocks
or channels to be scaled by mode, `dst` the format narrowed to. -/
def checkScale (s : State) (f opnd : Nat) (sc : Scale) (modes : List Nat) (need : Nat → Nat) (dst : Nat) : Chk :=
  let named := fun (ok : Desc → Bool) (cnt : Desc → Nat) =>
    (checkDesc s f sc.desc opnd ok).and (.need (decide (need sc.mode ≤ cnt (s.desc f sc.desc))))
  if !modes.contains sc.mode then .exc illOperand
  else if sc.mode = mUNIT then .pass
  else if sc.mode = mUNIFORM then .need (uniformOk sc.value)
  else if sc.mode = mROW ∨ sc.mode = mROWDYN then
    (Chk.need (decide (sc.sfmt ≤ 1) && (sc.mode == mROW || (alphaOk sc.value && (qmax dst).isSome)))).and
      (named (fun d => d.fmt == (if sc.sfmt = 0 then fBF16 else fE8M0)) Desc.count)
  else if sc.mode = mMX then named (fun d => d.fmt == fE8M0) Desc.count
  else if sc.mode = mRESCALE then
    named (fun d => groupElems d.fmt == 1 && d.plain && d.rows * rowBytes d.fmt d.e0 % 8 == 0) rescaleEntries
  else
    (Chk.need (sc.sfmt == 2 || sc.sfmt == 3)).and
      (named (fun d => d.fmt == (if sc.sfmt = 2 then fBF16 else fFP8A)) Desc.count)

/-- A PAGED source with a ROW, MX or ROWDYN scale needs a PAGED scale over the same pages, its pool a separate buffer (R187). -/
def checkPagedScale (s : State) (f : Nat) (t : Desc) (sc : Scale) : Chk :=
  if t.layout = 2 ∧ (sc.mode = mROW ∨ sc.mode = mMX ∨ sc.mode = mROWDYN) then
    let d := s.desc f sc.desc
    .need (d.layout == 2 && d.pt == t.pt && d.bufId != t.bufId && d.e3 == t.e3 && d.e2 == t.e2 && d.e1 == t.e1
      && d.e0 == (if sc.mode = mMX then (t.e0 + 31) / 32 else 1))
  else .pass

/-- A scale's stored values in logical order, as read (R52); none stored for UNIT and UNIFORM. -/
def State.scaleVec (s : State) (f : Nat) (sc : Scale) : List (Num × Bool) :=
  if sc.mode = mROW then
    let t := s.tref f sc.desc
    (t.flat s).map fun c => readScale (numOf t.d.fmt c)
  else []

/-- The scale of row or channel `i` and whether reading it was a counted event. -/
def Scale.at (sc : Scale) (vec : List (Num × Bool)) (i : Nat) : Num × Bool :=
  if sc.mode = mUNIFORM then (fp32Val sc.value, false)
  else if sc.mode = mROW then vec.getD i (.fin 1, false)
  else (.fin 1, false)

/-- One element times its scale, exactly (R50). -/
def widenExact (fmt : Nat) (sc : Num × Bool) (unit : Bool) (c : Nat) : Num × Bool :=
  let x := numOf fmt c
  if unit then (x, false) else (x.mul sc.1, sc.2)

/-- The vector unit rounds INT32, Q31, and scaled FP32 elements to FP32 as it widens them (R158). -/
def vecRound (fmt mode : Nat) (x : Num) : Num :=
  if fmt = fINT32 ∨ fmt = fQ31 ∨ (fmt = fFP32 ∧ mode ≠ mUNIT) then rne32 x else x

/-- MX block exponents of a tensor, as E8M0 codes. -/
def State.mxCodes (s : State) (f : Nat) (sc : Scale) : List Nat := (s.tref f sc.desc).flat s

/-- A codebook entry as products take it: one that is not finite gives NaN table entries (R56). -/
def cbNum (x : Num) : Num := if x.isInf then .nan else x

/-- Codebook [G, E] of a scale register: entries by group, as they are stored. -/
def State.codebook (s : State) (f : Nat) (sc : Scale) : List (List Num) :=
  let t := s.tref f sc.desc
  (t.rowsOf s).map fun r => r.map fun c => numOf t.d.fmt c

/-- The codebook as a product table takes it (R56). -/
def State.productBook (s : State) (f : Nat) (sc : Scale) : List (List Num) := (s.codebook f sc).map fun r => r.map cbNum

/-- Every row of a source, widened with its scale for the vector unit: UNIT, UNIFORM, ROW, MX and CODEBOOK (R158,
R164). Each value carries whether a stored scale that entered it was clamped or replaced (R63). -/
def State.vecRows (s : State) (f : Nat) (t : TRef) (sc : Scale) : List (List (Num × Bool)) :=
  let vec := s.scaleVec f sc
  let mx := if sc.mode = mMX then s.mxCodes f sc else []
  let cb := if sc.mode = mCODEBOOK then s.codebook f sc else []
  let nb := (t.d.e0 + 31) / 32
  (t.rowsOf s).zipIdx.map fun p => p.1.zipIdx.map fun e =>
    if sc.mode = mMX then
      match e8m0Value (mx.getD (p.2 * nb + e.2 / 32) 127) with
      | .fin q => ((mxElem t.d.fmt e.1).mul (.fin q), false)
      | _ => (.nan, false)
    else if sc.mode = mCODEBOOK then
      ((cb.getD (if cb.length = 1 then 0 else p.2 / 128) []).getD e.1 (.zero false), false)
    else
      let w := widenExact t.d.fmt (sc.at vec p.2) (sc.mode == mUNIT) e.1
      (vecRound t.d.fmt sc.mode w.1, w.2)

/-! ## Narrowing -/

/-- How an instruction narrows: mode, SAT, and the draw for a logical index (R43). -/
structure NarrowCtx where
  mode : Round
  sat : Bool
  seed : Nat
  stream : Nat
  step : Nat
  fresh : Nat
  deriving DecidableEq, Repr

/-- The narrowing context of an instruction that issues now (R43, R105). -/
def State.narrowCtx (s : State) (f : Nat) (o : FmtT) : NarrowCtx :=
  let fs := s.face f
  { mode := (roundOf o.rmode.toNat).getD .rne, sat := o.sat == 1, seed := fs.seed, stream := fs.stream,
    step := fs.jstep.getD 0, fresh := s.fresh }

/-- The 16-bit draw for logical index `i`: the roll generator in SRD, hardware entropy in SRH (R43). -/
def NarrowCtx.draw (c : NarrowCtx) (i : Nat) : Nat :=
  match c.mode with
  | .srd => (roll (BitVec.ofNat 64 c.seed) (BitVec.ofNat 64 (c.seed / 2 ^ 64)) c.stream c.step i).toNat % 65536
  | .srh => (Config.entropy (c.fresh + i)).toNat % 65536
  | _ => 0

/-- One row narrowed: codes, elements to count, and the scale codes computed for it (ROWDYN: one; MX: one a block). -/
structure RowOut where
  codes : List Nat
  counted : Nat
  scales : List Nat
  deriving DecidableEq, Repr

/-- Narrow row `r` of the destination by SD (R45 to R47, R54, R60, R62). `nv`: lost NaNs count. `src` is the
format the values have (FP32 in the vector unit, INT32 in an INT32 accumulator). -/
def narrowRow (c : NarrowCtx) (nv : Bool) (src : Nat) (dst : Desc) (sd : Scale) (vec : List (Num × Bool)) (table : List Nat)
    (r : Nat) (xs : List (Num × Bool)) : RowOut :=
  let i0 := r * dst.e0
  let out := fun (l : List (Narrowed × Bool)) (sc : List Nat) =>
    ({ codes := l.map (·.1.code), counted := (l.filter fun x => x.2 || x.1.sat || (nv && x.1.lostNan)).length,
       scales := sc } : RowOut)
  if sd.mode = mROWDYN then
    match qmax dst.fmt with
    | none => ⟨[], 0, []⟩
    | some q =>
      let sc := rowDynScale (xs.map (·.1)) (fp32Val sd.value).rat q sd.sfmt sd.up
      out (xs.zipIdx.map fun p =>
        let n := narrowTo dst.fmt c.mode true (c.draw (i0 + p.2)) (p.1.1.div sc.2)
        ({ n with sat := false }, p.1.2)) [sc.1]
  else if sd.mode = mMX then
    match mxEmax dst.fmt with
    | none => ⟨[], 0, []⟩
    | some em =>
      let bl := (chunksOf 32 xs.length xs).zipIdx.map fun b =>
        let e := mxScale (b.1.map (·.1)) em
        (e.1, (mxBlockIn b.1).zipIdx.map fun p => (mxNarrow dst.fmt c.mode (c.draw (i0 + 32 * b.2 + p.2)) e.2 p.1.1, p.1.2))
      let lost := fun (x : Num) => nv && x.isNan && ((floatFmt dst.fmt).bind (·.nan)).isNone
      { codes := bl.flatMap fun b => b.2.map (·.1),
        counted := (xs.filter fun x => x.2 || lost x.1).length,
        scales := bl.map (·.1) }
  else if sd.mode = mRESCALE then
    out (xs.zipIdx.map fun p =>
      (rescale dst.fmt (table.getD p.2 0) c.mode c.sat (c.draw (i0 + p.2)) p.1.1, p.1.2)) []
  else
    let k := sd.at vec r
    out (xs.zipIdx.map fun p =>
      (if sd.mode = mUNIT then convert src dst.fmt c.mode c.sat (c.draw (i0 + p.2)) p.1.1
        else narrowTo dst.fmt c.mode c.sat (c.draw (i0 + p.2)) (p.1.1.div k.1), p.1.2 || k.2)) []

/-- Entries of a RESCALE table (R61). -/
def State.rescaleTable (s : State) (f : Nat) (sd : Scale) : List Nat :=
  if sd.mode = mRESCALE then
    let t := s.tref f sd.desc
    let bs := (t.rowsOf s).flatMap fun r => packCodes t.d.fmt r
    (chunksOf 8 bs.length bs).map leNat
  else []

/-- A further tensor that an instruction writes, element by element: logical indices with codes, and the count for its
saturation counter. -/
structure More where
  t : TRef
  elems : List (Nat × Nat)
  counted : Nat
  deriving DecidableEq, Repr

/-- Narrow every row of a destination: rows of codes, the count, and the scales computed for it. -/
def State.narrowRows (s : State) (f : Nat) (c : NarrowCtx) (src : Nat) (dst : TRef) (sd : Scale)
    (rows : List (List (Num × Bool))) : List (List Nat) × Nat × List More :=
  let vec := s.scaleVec f sd
  let tab := s.rescaleTable f sd
  let outs := rows.zipIdx.map fun p => narrowRow c (s.nvEn f) src dst.d sd vec tab p.2 p.1
  let sc := outs.flatMap (·.scales)
  (outs.map (·.codes), outs.foldl (fun n x => n + x.counted) 0,
    if sc.isEmpty then [] else [⟨s.tref f sd.desc, sc.zipIdx.map fun p => (p.2, p.1), 0⟩])

/-! ## Digest folding (R171, R292) -/

/-- Rows as elements with their logical indices. -/
def rowElems (e0 : Nat) (rows : List (Nat × List Nat)) : List (Nat × Nat) :=
  rows.flatMap fun r => r.2.zipIdx.map fun p => (r.1 * e0 + p.2, p.1)

/-- Armed slots of Face `f` whose latched descriptor equals d[n], TIER apart, as a mask. -/
def State.digMask (s : State) (f n : Nat) : Nat :=
  let fs := s.face f
  fs.digs.foldl (fun m e => if e.2.armed && e.2.desc == noTier (fs.dReg n) then m ||| 2 ^ e.1 else m) 0

/-- Fold the elements an instruction writes through d[n] into the armed slots that latched it. -/
def State.foldWrites (s : State) (f n : Nat) (elems : List (Nat × Nat)) : State := s.foldMask f (s.digMask f n) elems

/-! ## Non-deterministic instructions (R284) -/

/-- An instruction of R283 needs NDET; otherwise ILL_OPERAND with DETAIL 0x4E. -/
def ndetChk (s : State) (f : Nat) (isN : Bool) : Chk :=
  if isN && !s.flag (Reg.DET_JCTRL (s.face f).job) 0 then .exc ⟨0x02, 0x4E⟩ else .pass

/-- Its issue sets NTAINT in the job and for the command (R284). -/
def State.ndetMark (s : State) (f : Nat) (isN : Bool) : State :=
  if isN then
    (s.setFace f { s.face f with taint := true }).setFlag (Reg.DET_JCTRL (s.face f).job) 1 true
  else s

/-! ## Entering the window -/

/-- What an instruction produced: rows written through its destination, further effects, the count for the
destination's saturation counter, further tensors written, and the tiles whose columns made passes with those on which a
residue check failed, as masks (R431). -/
structure TOut where
  dst : Option TRef
  rows : List (Nat × List Nat)
  extra : List Fx
  counted : Nat
  more : List More
  mac : Nat × Nat
  deriving DecidableEq, Repr

/-- A code of free value. -/
def freeCode (fmt n : Nat) : Nat :=
  leNat [Config.freeByte n, Config.freeByte (n + 1), Config.freeByte (n + 2), Config.freeByte (n + 3)] % 2 ^ fmtBits fmt

/-- Unpredictable results: every code written, the count and the scales written are free values. -/
def TOut.freed (t : TOut) (n : Nat) : TOut :=
  match t.dst with
  | none => t
  | some d => { t with
      rows := t.rows.map fun r => (r.1, r.2.zipIdx.map fun p => freeCode d.d.fmt (n + 4 * (r.1 * d.d.e0 + p.2)))
      more := t.more.map fun m =>
        { m with elems := m.elems.map fun e => (e.1, freeCode m.t.d.fmt (n + 4 * (d.d.count + e.1))) }
      counted := Config.freeCount n % (d.d.count + 1) }

/-- Every descriptor written, with the elements written through it; a discarded row is no write (R188). -/
def TOut.writes (s : State) (dd : Nat) (t : TOut) : List (Nat × List (Nat × Nat)) :=
  (match t.dst with
    | none => []
    | some d => [(dd, rowElems d.d.e0 (t.rows.filter fun r => (d.pieces s r.1).all (·.2.1)))]) ++
    t.more.map fun m => (m.t.idx, m.elems)

/-- Row `r` of a PAGED tensor written: its page has its token, once the last of its heads is there (R184, R194). -/
def TRef.pageMark (s : State) (j : Nat) (t : TRef) (r : Nat) : List Fx :=
  match t.pt with
  | none => []
  | some pt =>
    let i1 := r % t.d.e1
    let e := pageEntry s pt (r / (t.d.e1 * t.d.e2)) i1
    if pageAbsent pt.2.2 e || bitOf e 31 || r / t.d.e1 % t.d.e2 + 1 != t.d.e2 then []
    else [.kvRow j t.d.bufId (bits e 23 0) (i1 % 256)]

/-- The deferred effects of an instruction: the stores of its rows, discarded paged rows, further effects, the
saturation counts, the tokens that pages have; status words go to the gate (R447). -/
def State.fxOf (s : State) (f dd : Nat) (t : TOut) : List Fx :=
  let st : List (List Fx × Nat) := match t.dst with
    | none => []
    | some d => t.rows.map fun r => d.storeRow s r.1 r.2
  let drops : Nat := st.foldl (fun n x => n + x.2) 0
  let all := st.flatMap (·.1) ++ t.extra ++ t.more.flatMap fun m => m.elems.flatMap fun e => m.t.storeElem s e.1 e.2
  let marks := (match t.dst with
      | none => []
      | some d => t.rows.flatMap fun r => d.pageMark s (s.face f).job r.1) ++
    t.more.flatMap fun m => m.elems.flatMap fun e => m.t.pageMark s (s.face f).job (e.1 / m.t.d.e0)
  all.flatMap (splitGate s (s.face f).job) ++ marks ++ (if drops = 0 then [] else [.count (Reg.ATTN_KVDROP f) drops]) ++
    (((dd, t.counted) :: t.more.map fun m => (m.t.idx, m.counted)).filterMap fun p =>
      if p.2 = 0 then none else some (.qsat f p.1 p.2))

/-- Does an instruction add at the Board through its destination (R169)? -/
def TOut.adds (t : TOut) : Bool := t.extra.any fun x => match x with
  | .racc _ _ _ => true
  | _ => false

/-- The digest slots that an instruction's writes fold into, by descriptor written (R171). -/
def State.foldsOf (s : State) (f dd : Nat) (t : TOut) : List (Nat × Nat) :=
  ((t.writes s dd).map fun w => (w.1, s.digMask f w.1)) ++ (if t.adds then [(dd, s.digMask f dd)] else [])

/-- Fold what an instruction writes, through each descriptor into its slots. -/
def State.foldOut (s : State) (f dd : Nat) (t : TOut) (folds : List (Nat × Nat)) : State :=
  s.each (t.writes s dd) fun s w => s.foldMask f ((folds.find? fun p => p.1 == w.1).elim 0 (·.2)) w.2

/-- How an instruction enters the window: itself, its unit, its destination descriptor, the descriptors it reads and writes, whether
it is of R283, its place in the tile queue and the banks it works in. -/
structure Entering where
  ins : Instr
  unit : FUnit
  dd : Nat
  uses : List (Nat × Bool)
  isN : Bool
  order : TileOrder
  scratch : List (Nat × Nat)
  /-- words of a CONV's geometry record, which the front end reads (R231) -/
  geo : List Int := []
  deriving DecidableEq, Repr

/-- A tensor or move instruction enters the window with what it computed. `reads` are the spans it reads; `free` free values were
taken. One that waits in its unit's queue keeps what it needs to compute when it starts, and folds its writes then. -/
def State.enterTensor (s : State) (f : Fin 6) (h : Hdr) (e : Entering) (reads : List (Nat × Nat)) (free : Nat) (t : TOut) : State :=
  let fs := s.face f
  let fx := if e.unit == .mover then (s.fxOf f e.dd t).flatMap (Fx.pieces 4096) else s.fxOf f e.dd t
  let folds := s.foldsOf f e.dd t
  let uses := s.withTables f e.uses
  let tiers := uses.foldl (fun m p => if p.2 then m ||| tierBit s f p.1 else m) 0
  let bufs := uses.filterMap fun p => (s.findBuf fs.job (s.desc f p.1).bufId).map (·.1)
  let now := unitIdle fs e.unit || e.unit == .digest
  let redo : Redo :=
    { ins := e.ins, d := fs.d, s := fs.s, stream := fs.stream, accInt := fs.accInt, accMixed := fs.accMixed, recLay := fs.recLay
      free := free, raced := s.racedSpans f reads e.order, dd := e.dd, folds := folds, geo := e.geo }
  let s := if now then ({ s with fresh := s.fresh + free }).foldOut f e.dd t folds else { s with fresh := s.fresh + free }
  ((s.ndetMark f e.isN).useDescs f uses).enter f h { Entry.of e.unit with
    tiers := tiers, reads := reads, writes := fxSpans fx, fx := fx, folds := folds.foldl (fun m p => m ||| p.2) 0, bufs := bufs,
    order := e.order, scratch := e.scratch, redo := if now then none else some redo, macUsed := t.mac.1, macBad := t.mac.2 }

/-- Rows numbered from 0. -/
def numbered (rows : List (List Nat)) : List (Nat × List Nat) := rows.zipIdx.map fun p => (p.2, p.1)

/-- Issue a tensor instruction: its checks, that its unit can accept it, and NDET; then compute from the state as it
sees it, races resolved (R115). `front` is what the front end does as it issues. -/
def issueTensor (s : State) (f : Fin 6) (h : Hdr) (e : Entering) (chk : Chk) (reads : State → List (Nat × Nat))
    (free : State → Nat) (compute : State → TOut) (front : State → State := id) : Out :=
  issue s f h (chk.and ((ndetChk s f e.isN).and (if unitFree (s.face f) e.unit then .pass else .hold))) fun s =>
    let v := s.raceView f (reads s) e.order
    .next (front (({ s with fresh := v.fresh }).enterTensor f h e (reads s) (free s) (compute v)))

/-- RMODE is not reserved; SRH makes the issue non-deterministic (R42, R146). -/
def rmodeOk (o : FmtT) : Bool := o.rmode != 7
/-- Does the instruction narrow with SRH? -/
def isSrh (o : FmtT) : Bool := o.rmode == 6

/-- A destination other than KVPUT's and MOV's is not PAGED (R189). -/
def dstOk (d : Desc) : Bool := d.plain

/-- The descriptors of source scale registers, which an instruction reads (R57, R87, R106). -/
def State.srcScales (s : State) (f : Nat) (ns : List Nat) : List (Nat × Bool) :=
  ns.flatMap fun n =>
    let sc := s.scale f n
    if sc.mode = mUNIT ∨ sc.mode = mUNIFORM then [] else [(sc.desc, false)]

/-- The descriptor of the destination's scale register: ROWDYN and MX scales are written, the others read. -/
def State.dstScale (s : State) (f n : Nat) : List (Nat × Bool) :=
  let sc := s.scale f n
  if sc.mode = mUNIT ∨ sc.mode = mUNIFORM then [] else [(sc.desc, sc.mode == mROWDYN || sc.mode == mMX)]

/-- A scale tensor that an instruction other than KVPUT writes is not PAGED (R189). -/
def dstScaleOk (s : State) (f n : Nat) : Chk :=
  .need ((s.dstScale f n).all fun p => !p.2 || (s.desc f p.1).plain)

/-- Spans read for a scale register. -/
def State.scaleSpans (s : State) (f : Nat) (sc : Scale) : List (Nat × Nat) :=
  if sc.mode = mUNIT ∨ sc.mode = mUNIFORM ∨ sc.mode = mROWDYN then [] else (s.tref f sc.desc).spans s

end Sys2Proof.Machine
end

