-- ==== Sys2Proof/Machine/Control.lean ====
section
/-! DEFINITION. Control and sync instructions (R117 to R122, R133, R134) and the commands by which a Face's units and
the Sync unit move on (R104, R112, R119, R121, R143). -/

namespace Sys2Proof.Machine

/-! ## Control -/

/-- Instructions in the code section of the command on Face `f`. -/
def State.codeLen (s : State) (f : Nat) : Nat :=
  match s.job (s.face f).job with
  | some jb => jb.img.codeLen
  | none => 0

/-- Go to a target PC: outside the code section it is FETCH_ERROR with the target as PC (R134). The branch itself
has completed. -/
def jumpTo (s : State) (f : Nat) (t : Word) : State :=
  if t.toNat < s.codeLen f then s.setFace f { s.face f with pc := t.toNat }
  else s.takeExc f ⟨0x0C, 0⟩ true t.toNat

/-- PC + OFF, modulo 2^64. -/
def relTarget (fs : FaceSt) (o : FmtC) : Word := BitVec.ofNat 64 fs.pc + o.off.signExtend 64

/-- A branch: taken when `c` holds of the two registers (R134). -/
def branch (c : Word → Word → Bool) (ok : FmtC → Bool) (f : Fin 6) (h : Hdr) (o : FmtC) (s : State) : Out :=
  issue s f h (.need (o.rsv == 0 && ok o)) fun s =>
    let fs := s.face f
    let s' := s.retire f h id
    .next (if c (fs.gReg o.ra.toNat) (fs.gReg o.rb.toNat) then jumpTo s' f (relTarget fs o) else s')

/-- NOP: does nothing (R134). -/
def execNop (f : Fin 6) (h : Hdr) (o : FmtC) (s : State) : Out :=
  issue s f h (.need (o.ra == 0 && o.rb == 0 && o.rsv == 0 && o.off == 0)) fun s => .next (s.retire f h id)

/-- BR: PC = PC + OFF (R134). -/
def execBr (f : Fin 6) (h : Hdr) (o : FmtC) (s : State) : Out :=
  branch (fun _ _ => true) (fun o => o.ra == 0 && o.rb == 0) f h o s
/-- BEQ (R134). -/
def execBeq (f : Fin 6) (h : Hdr) (o : FmtC) (s : State) : Out := branch (fun a b => a == b) (fun _ => true) f h o s
/-- BNE (R134). -/
def execBne (f : Fin 6) (h : Hdr) (o : FmtC) (s : State) : Out := branch (fun a b => a != b) (fun _ => true) f h o s
/-- BLT, signed (R134). -/
def execBlt (f : Fin 6) (h : Hdr) (o : FmtC) (s : State) : Out := branch (fun a b => a.slt b) (fun _ => true) f h o s
/-- BGE, signed (R134). -/
def execBge (f : Fin 6) (h : Hdr) (o : FmtC) (s : State) : Out := branch (fun a b => !a.slt b) (fun _ => true) f h o s
/-- BLTU, unsigned (R134). -/
def execBltu (f : Fin 6) (h : Hdr) (o : FmtC) (s : State) : Out := branch (fun a b => a.ult b) (fun _ => true) f h o s
/-- BGEU, unsigned (R134). -/
def execBgeu (f : Fin 6) (h : Hdr) (o : FmtC) (s : State) : Out := branch (fun a b => !a.ult b) (fun _ => true) f h o s

/-- JAL: g[RA] = PC + 1; PC = PC + OFF (R134). -/
def execJal (f : Fin 6) (h : Hdr) (o : FmtC) (s : State) : Out :=
  issue s f h (.need (o.rb == 0 && o.rsv == 0)) fun s =>
    let fs := s.face f
    .next (jumpTo (s.retire f h fun x => x.setG o.ra.toNat (BitVec.ofNat 64 (fs.pc + 1))) f (relTarget fs o))

/-- JR: PC = g[RA] + OFF (R134). -/
def execJr (f : Fin 6) (h : Hdr) (o : FmtC) (s : State) : Out :=
  issue s f h (.need (o.rb == 0 && o.rsv == 0)) fun s =>
    let fs := s.face f
    .next (jumpTo (s.retire f h id) f (fs.gReg o.ra.toNat + o.off.signExtend 64))

/-- END: holds the issue point until every earlier instruction has completed (R103); COMMAND_END then ends the
command. -/
def execEndCmd (f : Fin 6) (h : Hdr) (o : FmtC) (s : State) : Out :=
  issue s f h (.need (o.ra == 0 && o.rb == 0 && o.rsv == 0 && o.off == 0)) fun s =>
    .next (s.setFace f { s.face f with ending := true, endSig := sigOf h })

/-- TRAP: raises the TRAP exception with code OFF[15:0] (R134). -/
def execTrap (f : Fin 6) (h : Hdr) (o : FmtC) (s : State) : Out :=
  issue s f h (.need (o.ra == 0 && o.rb == 0 && o.rsv == 0 && decide (o.off.toNat < 65536))) fun s =>
    .next (s.takeExc f ⟨0x0B, o.off.toNat⟩ true (s.face f).pc)

/-- A reserved opcode raises ILL_OPC at issue (R128). -/
def execIllOpc (f : Fin 6) (h : Hdr) (s : State) : Out :=
  issue s f h (.exc ⟨0x01, 0⟩) fun s => s.noEvent

/-! ## Sync instructions -/

/-- The fields of format Q that an instruction does not use are 0 (R127). -/
def fmtQOk (o : FmtQ) (ev sem vf tm src n : Bool) : Bool :=
  o.rsv == 0 && (ev || o.ev == 0) && (sem || o.sem == 0) && (vf || o.vf == 0) && (tm || o.tmask == 0)
    && (src || o.src == 0) && (n || o.n == 0)

/-- WAIT: only its wait set and signal (R133). -/
def execWaitEv (f : Fin 6) (h : Hdr) (o : FmtQ) (s : State) : Out :=
  issue s f h (.need (fmtQOk o false false false false false false)) fun s => .next (s.retire f h id)

/-- EVADD: adds N to counter EV of the issuing command (R133). -/
def execEvadd (f : Fin 6) (h : Hdr) (o : FmtQ) (s : State) : Out :=
  issue s f h (.need (fmtQOk o true false false false false true)) fun s =>
    .next ((s.evAdd f o.ev.toNat o.n.toNat).retire f h id)

/-- vFaces of the job of Face `f`. -/
def State.nvf (s : State) (f : Nat) : Nat :=
  match s.job (s.face f).job with
  | some jb => jb.img.vfs.length
  | none => 0

/-- The vFace that a VF, DVF or SVF value names: 7 the issuing one, 0 to 5 one of the job (R119, R132). -/
def vfNamed (s : State) (f v : Nat) : Option Nat :=
  if v = 7 then some (s.face f).vf else if v < s.nvf f ∧ v < 6 then some v else none

/-- EVSEND: adds N to routed counter EV of vFace VF (R119). -/
def execEvsend (f : Fin 6) (h : Hdr) (o : FmtQ) (s : State) : Out :=
  issue s f h (.need (fmtQOk o true false true false false true && (vfNamed s f o.vf.toNat).isSome
      && decide (112 ≤ o.ev.toNat))) fun s =>
    .next (s.enter f h { Entry.of .sync with
      fx := [.routed (s.face f).job ((vfNamed s f o.vf.toNat).getD 0) (o.ev.toNat - 112) o.n.toNat] })

/-- May a job of the partition use the semaphore (R121, R122)? -/
def semAllowed (s : State) (j m : Nat) : Bool :=
  s.flag (Reg.SYNC_SEM m) 63 && s.fld (Reg.SYNC_SEM m) 50 48 == s.partOf j

/-- SEM_DENIED, naming the semaphore. -/
def semDenied (s : State) (f : Nat) (m : Nat) : Chk :=
  if semAllowed s (s.face f).job m then .pass else .exc ⟨0x07, m⟩

/-- SACQ: requests N from semaphore SEM and waits in the window (R121). -/
def execSacq (f : Fin 6) (h : Hdr) (o : FmtQ) (s : State) : Out :=
  let m := o.sem.toNat
  issue s f h ((Chk.need (fmtQOk o false true false false false true)).and (semDenied s f m)) fun s =>
    let fs := s.face f
    let s' := s.enter f h { Entry.of .sync with acq := some (m, o.n.toNat) }
    .next ((s'.setWaiters m (s'.semWaiters m ++ [⟨fs.job, some (f, fs.seq), fs.vf, o.n.toNat, s.raw, false, 0⟩])).semRefresh m)

/-- SREL: adds N to semaphore SEM when it completes (R122). -/
def execSrel (f : Fin 6) (h : Hdr) (o : FmtQ) (s : State) : Out :=
  let m := o.sem.toNat
  issue s f h ((Chk.need (fmtQOk o false true false false false true)).and (semDenied s f m)) fun s =>
    .next (s.enter f h { Entry.of .sync with fx := [.release (s.face f).job m o.n.toNat] })

/-- FENCE: holds the issue point until every earlier instruction that writes a tier of TMASK has completed (R120). -/
def execFence (f : Fin 6) (h : Hdr) (o : FmtQ) (s : State) : Out :=
  issue s f h ((Chk.need (fmtQOk o false false false true false false)).and
      (if (s.face f).window.any (fun e => (e.tiers &&& o.tmask.toNat) != 0) then .hold else .pass)) fun s =>
    .next (s.retire f h id)

/-- Is software source `k` granted to job `j` (R503)? -/
def srcGranted (s : State) (j k : Nat) : Bool :=
  decide (256 ≤ k) && decide (k < 512) && s.flag (Reg.EVT_SRC k) 48 && s.fld (Reg.EVT_SRC k) 47 44 == j

/-- RAISE: raises source SRC towards its subscribers (R133). -/
def execRaiseSrc (f : Fin 6) (h : Hdr) (o : FmtQ) (s : State) : Out :=
  issue s f h ((Chk.need (fmtQOk o false false false false true false)).and
      (if srcGranted s (s.face f).job o.src.toNat then .pass else .exc ⟨0x09, o.src.toNat⟩)) fun s =>
    .next (s.enter f h { Entry.of .sync with fx := [.raise o.src.toNat] })

/-! ## Units and the Sync unit move on -/

/-- May an entry complete now: it has started, does not wait for a semaphore, and no status word of it is at the gate
(R112, R121, R447)? -/
def Entry.ready (e : Entry) : Bool :=
  e.started && e.acq.isNone && !(e.fx.any fun x => match x with
    | .gate _ _ _ _ _ => true
    | _ => false)

/-- The transfer to or from a peer that belongs to a window entry (R419, R421). -/
def State.xferOf (s : State) (f seq : Nat) : Option EflXfer := s.efl.xfers.find? fun x => x.face == f && x.seq == seq

/-- Every piece is answered, and the INC of a put is acknowledged (R420, R421). -/
def EflXfer.finished (x : EflXfer) : Bool := x.waiting.isEmpty && x.unanswered == 0 && (!x.put || x.inc == 2)

/-- The tensor that a get keeps. -/
def EflRef.ref (r : EflRef) : TRef := ⟨r.idx, descOf r.d, r.base, r.pt⟩

/-- A transfer is over. The data of a get go to its destination, unless a race has made that unpredictable (R115, R421). -/
def State.xferLand (s : State) (f : Nat) (e : Entry) (x : EflXfer) : State × Entry :=
  let s := { s with efl := { s.efl with xfers := s.efl.xfers.filter fun y => !(y.face == f && y.seq == e.seq) } }
  match x.dst, x.src with
  | some d, some a =>
    if e.fx = x.issued then
      let t : TOut := ⟨some d.ref, numbered (a.ref.rowsOf s), [], 0, [], (0, 0)⟩
      let s' := (t.writes s d.idx).foldl (fun s w => if e.folds = 0 then s else s.foldMask f e.folds w.2) s
      (s', { e with fx := s.fxOf f d.idx t })
    else (s, e)
  | _, _ => (s, e)

/-- The work of an entry is done: a transfer lands first. -/
def State.finish (s : State) (f : Nat) (e : Entry) : State :=
  match s.xferOf f e.seq with
  | some x => let r := s.xferLand f e x
    r.1.completeEntry f r.2
  | none => s.completeEntry f e

/-- Is an entry's transfer with a peer still under way? -/
def State.xferOpen (s : State) (f seq : Nat) : Bool :=
  match s.xferOf f seq with
  | some x => !x.finished
  | none => false

/-- Does the head waiter of semaphore `m` find COUNT at least its amount (R121)? EN is tested here too: R121 tests it as the SACQ
issues, and does not say whether waiters are still served after EN is cleared (DESIGN CHOICE, assumption 114). -/
def State.headServed (s : State) (m : Nat) : Option SemReq :=
  match s.semWaiters m with
  | r :: _ => if s.flag (Reg.SYNC_SEM m) 63 && decide (r.n ≤ s.semCount m) then some r else none
  | [] => none

/-- Take `n` from a semaphore for job `j`, whose SYNC_NET has 16 bits (R124), and remove the head waiter (R121, R123). -/
def State.semTake (s : State) (j m n : Nat) : State :=
  (((s.setWaiters m (s.semWaiters m).tail).setFld (Reg.SYNC_SEM m) 15 0 (s.semCount m - n)).setNet j m
    (min 65535 (s.netOf j m + n))).semRefresh m

/-- SEM_ACQUIRE_GRANT: the waiter at the head of semaphore `m` is served: N is subtracted indivisibly, and the SACQ
completes, or the command record's acquire is done (R121, R255). -/
def execSemAcquireGrant (m : BitVec 8) (s : State) : Out :=
  let m := m.toNat
  match s.headServed m with
  | none => s.noEvent
  | some r =>
    let s := s.semTake r.job m r.n
    match r.face with
    | some (f, seq) => match (s.face f).window.find? fun e => e.seq == seq with
      | some e => .next (s.completeEntry f e)
      | none => .next s
    | none =>
      let q := s.vf r.job r.vf
      .next (s.setVf r.job r.vf { q with stage := 3 })

/-- ROUTED_COUNTER_INCREMENT: the oldest increment in flight reaches its counter (R119). One whose job is not loaded,
or whose vFace the job does not have, is discarded (R503). -/
def execRoutedCounterIncrement (s : State) : Out :=
  match s.inFlight with
  | [] => s.noEvent
  | r :: rest =>
    let s := { s with inFlight := rest }
    match s.job r.job with
    | some jb =>
      if r.vf < jb.img.vfs.length then
        .next (s.setRouted r.job r.vf r.idx (Ctr.add (s.routedCtr r.job r.vf r.idx) r.n))
      else .next s
    | none => .next s

/-- CMD_LIMIT in ns: a value below 10 us acts as 10 (R139). -/
def State.cmdLimitNs (s : State) (f : Nat) : Nat := 1000 * max 10 (s.fld (Reg.FACE_CTRL f) 15 0)

/-- CMD_LIMIT: the command has run longer than FACE_CTRL.CMD_LIMIT since its first issue (R104); time halted does not count
(R471). -/
def execCmdLimit (f : Fin 6) (s : State) : Out :=
  let fs := s.face f
  match fs.firstIssue with
  | some t => if fs.running && !fs.halted && decide (s.cmdLimitNs f < s.raw - t) then .next (s.takeExc f ⟨0x0D, 0⟩ false fs.pc)
    else s.noEvent
  | none => s.noEvent

/-- COMMAND_END: END completes after the drain (R103); it signals, and the command ends. -/
def execCommandEnd (f : Fin 6) (s : State) : Out :=
  let fs := s.face f
  if fs.running && fs.ending && fs.window.isEmpty then .next ((s.signal f fs.endSig).endCommand f)
  else s.noEvent

/-- SYNC_SEM_WRITE: Ulnal writes EN, PART and COUNT of a semaphore; the waiters are checked against the new count in
their order of arrival by the grants that follow (R123, R124). -/
def execSyncSemWrite (m : BitVec 8) (v : Word) (s : State) : Out :=
  let a := Reg.SYNC_SEM m.toNat
  .next (((s.setFlag a 63 (bitOf v.toNat 63)).setFld a 50 48 (bits v.toNat 50 48)).setFld a 15 0 (bits v.toNat 15 0))

/-- The routed counter that SYNC_RSEL selects, if its vFace index is one of six. -/
def State.rselIdx (s : State) : Nat × Nat × Nat :=
  (s.fld Reg.SYNC_RSEL 10 7, s.fld Reg.SYNC_RSEL 6 4, s.fld Reg.SYNC_RSEL 3 0)

/-- SYNC_RVAL_WRITE: Ulnal writes the selected routed counter; increments in flight land after it (R124). With SYNC_RSEL.VF 6 or 7,
which R124 does not give, the write has no effect and a read shows 0 (DESIGN CHOICE, assumption 115). -/
def execSyncRvalWrite (v : Word) (s : State) : Out :=
  let i := s.rselIdx
  if i.2.1 < 6 then
    .next (s.setRouted i.1 i.2.1 i.2.2 (BitVec.ofNat 64 (bits v.toNat 47 0 + (if bitOf v.toNat 63 then 2 ^ 63 else 0))))
  else .next s

/-- QSAT_SNAP (R66). -/
def execQsatSnap (f : Fin 6) (s : State) : Out := .next (s.qsatSnap f)

/-- ATTN_CLR: zeroes the five ATTN counters of a Face (R199). -/
def execAttnClr (f : Fin 6) (s : State) : Out :=
  .next (((((s.wr (Reg.ATTN_EMPTY f) 0).wr (Reg.ATTN_NANROW f) 0).wr (Reg.ATTN_PAGEMISS f) 0).wr (Reg.ATTN_LENCLIP f) 0).wr
    (Reg.ATTN_KVDROP f) 0)

/-- REC_CLR: zeroes the four REC counters of a Face (R226). -/
def execRecClr (f : Fin 6) (s : State) : Out :=
  .next ((((s.wr (Reg.REC_NEARINT f) 0).wr (Reg.REC_NONFIN f) 0).wr (Reg.REC_RESETS f) 0).wr (Reg.REC_SIMPFAIL f) 0)

end Sys2Proof.Machine
end

