-- ==== Sys2Proof/Machine/Keccak.lean ====
section
/-! DEFINITION. The Keccak engine (R459, R460): SHAKE256 and KMAC256 as their standards define them (PRESUMED: FIPS 202 and
SP 800-185, which the spec names by the functions' names), the device keys, and the engine's operations. -/

namespace Sys2Proof.Machine

/-- Rotations of the lanes, by x + 5 y. -/
def keccakRot : List Nat :=
  [0, 1, 62, 28, 27, 36, 44, 6, 55, 20, 3, 10, 43, 25, 39, 41, 45, 15, 21, 8, 18, 2, 61, 56, 14]

/-- Round constants. -/
def keccakRc : List Nat :=
  [0x0000000000000001, 0x0000000000008082, 0x800000000000808A, 0x8000000080008000, 0x000000000000808B, 0x0000000080000001,
   0x8000000080008081, 0x8000000000008009, 0x000000000000008A, 0x0000000000000088, 0x0000000080008009, 0x000000008000000A] ++
  [0x000000008000808B, 0x800000000000008B, 0x8000000000008089, 0x8000000000008003, 0x8000000000008002, 0x8000000000000080,
   0x000000000000800A, 0x800000008000000A, 0x8000000080008081, 0x8000000000008080, 0x0000000080000001, 0x8000000080008008]

/-- One lane of a state. -/
def lane (a : List Word) (x y : Nat) : Word := a.getD (x % 5 + 5 * (y % 5)) 0

/-- One round. -/
def keccakRound (a : List Word) (rc : Nat) : List Word :=
  let c := (List.range 5).map fun x => lane a x 0 ^^^ lane a x 1 ^^^ lane a x 2 ^^^ lane a x 3 ^^^ lane a x 4
  let d := (List.range 5).map fun x => lane c (x + 4) 0 ^^^ (lane c (x + 1) 0).rotateLeft 1
  let t := (List.range 25).map fun i => lane a i (i / 5) ^^^ lane d i 0
  let b := (List.range 25).map fun i =>
    let x := (i % 5 + 3 * (i / 5)) % 5
    let y := i % 5
    (lane t x y).rotateLeft (keccakRot.getD (x + 5 * y) 0)
  let e := (List.range 25).map fun i => lane b i (i / 5) ^^^ (~~~(lane b (i + 1) (i / 5)) &&& lane b (i + 2) (i / 5))
  e.mapIdx fun i v => if i = 0 then v ^^^ BitVec.ofNat 64 rc else v

/-- Keccak-f[1600]. -/
def keccakF (a : List Word) : List Word := keccakRc.foldl keccakRound a

/-- Absorb one block of 136 bytes. -/
def keccakAbsorb (a : List Word) (block : List Byte) : List Word :=
  keccakF ((List.range 25).map fun i =>
    if i < 17 then lane a i (i / 5) ^^^ BitVec.ofNat 64 (leNat ((block.drop (8 * i)).take 8)) else lane a i (i / 5))

/-- Blocks of 136 bytes of a padded message. -/
def keccakBlocks (bs : List Byte) : List (List Byte) := (List.range (bs.length / 136)).map fun i => (bs.drop (136 * i)).take 136

/-- Padding with a domain suffix, to whole blocks. -/
def keccakPad (suffix : Nat) (bs : List Byte) : List Byte :=
  let n := 136 - bs.length % 136
  if n = 1 then bs ++ leBytes 1 (suffix + 128)
  else bs ++ leBytes 1 suffix ++ List.replicate (n - 2) 0 ++ leBytes 1 128

/-- The bytes squeezed: `k` blocks. -/
def keccakSqueeze (a : List Word) : Nat → List Byte
  | 0 => []
  | k + 1 => (a.take 17).flatMap (fun w => leBytes 8 w.toNat) ++ keccakSqueeze (keccakF a) k

/-- `n` bytes of the sponge of rate 136 over a message. -/
def sponge (suffix n : Nat) (msg : List Byte) : List Byte :=
  (keccakSqueeze ((keccakBlocks (keccakPad suffix msg)).foldl keccakAbsorb (List.replicate 25 0)) ((n + 135) / 136)).take n

/-- SHAKE256, `n` bytes. -/
def shake256 (n : Nat) (msg : List Byte) : List Byte := sponge 0x1F n msg

/-- Bytes of a number, most significant first, at least one. -/
def beBytes (v : Nat) : List Byte := (leBytes (Nat.max 1 ((Nat.log2 v + 8) / 8)) v).reverse
/-- left_encode. -/
def leftEncode (v : Nat) : List Byte := leBytes 1 (beBytes v).length ++ beBytes v
/-- right_encode. -/
def rightEncode (v : Nat) : List Byte := beBytes v ++ leBytes 1 (beBytes v).length
/-- encode_string. -/
def encodeString (bs : List Byte) : List Byte := leftEncode (8 * bs.length) ++ bs
/-- bytepad to 136 bytes. -/
def bytepad136 (bs : List Byte) : List Byte :=
  let x := leftEncode 136 ++ bs
  x ++ List.replicate ((136 - x.length % 136) % 136) 0

/-- ASCII bytes of a label. -/
def ascii (t : String) : List Byte := t.toList.map fun c => BitVec.ofNat 8 c.toNat

/-- KMAC256 with an empty customisation string, `n` bytes. -/
def kmac256 (n : Nat) (key msg : List Byte) : List Byte :=
  sponge 0x04 n (bytepad136 (encodeString (ascii "KMAC") ++ encodeString []) ++ bytepad136 (encodeString key) ++ msg
    ++ rightEncode (8 * n))

/-! ## Device keys (R459) -/

/-- A device key: SHAKE256 of K_PUF, label and EPOCH. -/
def deviceKey (n : Nat) (label : List Byte) (epoch : Nat) : List Byte :=
  shake256 n (leBytes 32 Config.kPuf.toNat ++ label ++ leBytes 4 epoch)

/-- IK: SK.seed, SK.prf, PK.seed. -/
def keyIk (epoch : Nat) : List Byte := deviceKey 96 (ascii "NIERN-IK") epoch
/-- RK: EPOCH fixed at 0. -/
def keyRk : List Byte := deviceKey 32 (ascii "NIERN-RPMC") 0
/-- SEALK of an owner index. -/
def keySeal (owner epoch : Nat) : List Byte := deviceKey 32 (ascii "NIERN-SEAL" ++ leBytes 4 owner) epoch

/-- The 64-byte IK public key: PK.seed, and the root that SLH-DSA key generation gives. -/
def ikPublic (epoch : Nat) : List Byte := (keyIk epoch).drop 64 ++ leBytes 32 (Config.slhRoot (keyIk epoch)).toNat

/-- DEVICE_ID: the first 32 bytes of SHAKE256 of the IK public key. -/
def deviceId (epoch : Nat) : List Byte := shake256 32 (ikPublic epoch)

/-- An IK signature, 49,856 bytes. -/
def ikSign (epoch : Nat) (msg : List Byte) : List Byte := (List.range 49856).map (Config.slhSign (keyIk epoch) msg)

/-! ## Operations (R460) -/

/-- Lifecycle state in force. -/
def State.life (s : State) : Nat := s.fld Reg.SEC_LIFE 31 30

/-- EPOCH in force. -/
def State.epoch (s : State) : Nat := s.fld Reg.SEC_EPOCH 31 0

/-- Is SEALK derivable: in Provisioned and Deployed (R459, R476)? -/
def State.sealLive (s : State) : Bool := s.sec.kPuf && (s.life == 1 || s.life == 2)

/-- What the engine answers: the result's bytes, or a refusal where the operation needs a key that is not live (R472). -/
def State.keccak (s : State) (op : KeccakOp) : Resp :=
  match op with
  | .hash n msg => .ok (shake256 n msg)
  | .sign msg => if s.sec.kPuf then .ok (ikSign s.epoch msg) else .denied
  | .seal o n msg => if s.sealLive then .ok (kmac256 n (keySeal o.toNat s.epoch) msg) else .denied
  | .rpmc n msg => if s.sec.kPuf then .ok (kmac256 n keyRk msg) else .denied
  | .publicKey => if s.sec.kPuf then .ok (ikPublic s.epoch) else .denied

/-- KECCAK_OP: the engine runs one operation; operations run in order of request (R460). -/
def execKeccakOp (op : KeccakOp) (s : State) : Out := .next (s.answer (s.keccak op))

end Sys2Proof.Machine
end

