-- ==== Sys2Proof/Machine/Banks.lean ====
section
/-! DEFINITION. Where state lies in the banks: accumulator elements (R147) and recurrence state (R203). -/

namespace Sys2Proof.Machine

/-- Key of accumulator element (row, col) of ACCk of Face `f`. -/
def accKey (f k row col : Nat) : Nat := bankKey f (4 * k + col / 128) + row * 512 + col % 128 * 4

/-- Streams per bank (R203). -/
def recPerBank (kind prec : Nat) : Nat := if kind ≠ 2 ∧ prec = 1 then 256 else 128

/-- Banks that N streams take. -/
def recBanks (kind prec n : Nat) : Nat := (n + recPerBank kind prec - 1) / recPerBank kind prec

/-- Key of the word in column `col` of the row of stream `n`. -/
def recWordKey (f first kind prec n col : Nat) : Nat :=
  bankKey f (first + n / recPerBank kind prec) + n % 128 * 512 + col * 4

/-- Key and width in bytes of the parts of stream `n`, channel `c` (R203). -/
def recParts (f first kind prec n c : Nat) : List (Nat × Nat) :=
  let w := fun col => recWordKey f first kind prec n col
  if kind = 2 then
    if prec = 1 then [(w c, 2), (w c + 2, 2)] else [(w c, 4), (w (64 + c), 4)]
  else if prec = 1 then [(w (64 * (n / 128 % 2) + c / 2) + 2 * (c % 2), 2)]
  else if prec = 2 then [(w c, 4), (w (80 + c / 2) + 2 * (c % 2), 2)]
  else [(w c, 4)]

/-- Does some word of the recurrence lie at key `a` of Face `f`? -/
def RecLay.holds (l : RecLay) (f a : Nat) : Bool :=
  (List.range l.n).any fun n => (List.range l.c).any fun c =>
    (recParts f l.first l.kind l.prec n c).any fun p => p.1 / 4 == a / 4

/-- Does the word of a bank at key `a` of Face `f` hold no defined value: it lies in an accumulator that holds recurrence state,
outside the layouts in use (R209)? A live bank keeps its image (R205). -/
def State.bankOpen (s : State) (f a : Nat) : Bool :=
  let fs := s.face f
  bitOf fs.accMixed ((a - bankKey f 0) / 0x40000) && !bitOf (s.liveMask f fs.job fs.vf) ((a - bankKey f 0) / 0x10000)
    && !(fs.recLay.any fun l => l.holds f a)

/-- Every word of banks `first` to `first + n − 1` has a value from now on: an import writes all of them (R170, R225). -/
def State.banksDefined (s : State) (f first n : Nat) : State :=
  s.setFace f { s.face f with recLay := ((List.range n).map fun i => ⟨first + i, 0, 0, 128, 128⟩) ++ (s.face f).recLay }

/-- The number in `w` bytes of a bank at key `a`; a word of no defined value is a free value. -/
def State.bankNat (s : State) (f a w : Nat) : Nat :=
  if s.bankOpen f a then leNat ((List.range w).map fun i => Config.freeByte (s.fresh + (a - bankKey f 0) + i))
  else s.loadNat a w

/-- Free values that reading the banks of Face `f` takes. -/
def State.bankFree (s : State) (f : Nat) : Nat := if (s.face f).accMixed = 0 then 0 else 0x100000

/-- Banks of Face `f` that partitions other than job `j`'s reserve (R251). -/
def State.foreignResv (s : State) (f j : Nat) : Nat :=
  (List.range 8).foldl (fun m p =>
    if p ≠ s.partOf j && s.flag (Reg.SCHED_PARTA p) 63 && bitOf (s.fld (Reg.SCHED_PARTA p) 53 48) f
    then m ||| s.fld (Reg.SCHED_PARTA p) 47 32 else m) 0

/-- Is none of the banks `first` to `first + n − 1` reserved by another partition (R251)? -/
def banksAllowed (s : State) (f first n : Nat) : Bool :=
  (List.range n).all fun i => !bitOf (s.foreignResv f (s.face f).job) (first + i)

/-! ## Residue check of the MAC columns (R431) -/

/-- Residue of an integer modulo 7. -/
def res7 (n : Int) : Nat := (n % 7).toNat

/-- Residue of 2^e: 2^3 is 1 modulo 7. -/
def pow7 (e : Nat) : Nat := 2 ^ (e % 3) % 7

/-- Significand and exponent of an operand element as it enters a column; none of a special value. -/
def sigExp (x : Num) : Option (Int × Int) :=
  match x with
  | .fin q => some (q.num, -(Nat.log2 q.den : Int))
  | .zero _ => some (0, 0)
  | _ => none

/-- Exponent to which a pass aligns its products. The hardware has this path twice and compares (R431). -/
def alignExp (l : List ((Int × Int) × (Int × Int))) : Int :=
  match l with
  | [] => 0
  | p :: ps => ps.foldl (fun m q => min m (q.1.2 + q.2.2)) (p.1.2 + p.2.2)

/-- The duplicate of that path. -/
def alignExp' (l : List ((Int × Int) × (Int × Int))) : Int :=
  match l.map fun q => q.1.2 + q.2.2 with
  | [] => 0
  | e :: es => es.foldr min e

/-- The residue that the checker predicts for the exact sum of a pass, from the residues of the operand elements. -/
def predict7 (e : Int) (l : List ((Int × Int) × (Int × Int))) : Nat :=
  (l.foldl (fun n q => n + res7 q.1.1 * res7 q.2.1 * pow7 (q.1.2 + q.2.2 - e).toNat) 0) % 7

/-- Does a pass pass its check? `sum` is the exact sum that the column delivers before it is rounded, `err` an error put into the
residue. Products of special values have no significand and are left to IEEE 754. -/
def passOk (err : Nat) (a b : List Num) (sum : Num) : Bool :=
  match (List.zip a b).mapM fun p => (sigExp p.1).bind fun x => (sigExp p.2).map fun y => (x, y) with
  | none => true
  | some l =>
    let e := alignExp l
    e == alignExp' l && (predict7 e l + err) % 7 == res7 (sum.rat * pow2 (-e)).num

end Sys2Proof.Machine
end

