-- ==== Sys2Proof/Machine/Mm.lean ====
section
/-! DEFINITION. Accumulators and the matrix instructions: MM, PTB, PTL, ACCOUT, ACCIN, ACCZ (R147 to R157), with the
product-table order of R153. -/

namespace Sys2Proof.Machine

/-! ## Accumulators (R147 to R149) -/

/-- Is some bank of ACCk live for the command on Face `f` (R148)? -/
def accLive (s : State) (f k : Nat) : Bool :=
  let fs := s.face f
  bits (s.liveMask f fs.job fs.vf) (4 * k + 3) (4 * k) != 0

/-- The selector of an accumulator: DC[5:2] is 0 (R147). -/
def accSelOk (s : State) (f : Nat) (o : FmtT) : Chk := .need (decide (o.dc.toNat < 4) && !accLive s f o.dc.toNat)

/-- Is ACCk INT32? -/
def FaceSt.accIsInt (fs : FaceSt) (k : Nat) : Bool := bitOf fs.accInt k

/-- The front end sets the type of ACCk as an instruction that starts it afresh issues (R149): no word of it is left
undefined (R209). -/
def State.setAccType (s : State) (f k : Nat) (int : Bool) : State :=
  let fs := s.face f
  s.setFace f { fs with
    accInt := putBits fs.accInt k k (if int then 1 else 0)
    accMixed := putBits fs.accMixed k k 0
    recLay := fs.recLay.filter fun l => !(decide (l.first / 4 ≤ k) &&
      decide (k ≤ (l.first + recBanks l.kind l.prec l.n - 1) / 4)) }

/-- Clear ACCk and its flags (R149). -/
def accClear (f k : Nat) : List Fx := [.zero (bankKey f (4 * k)) 0x40000, .zero (accFlagKey f k 0 0) 0x10000]

/-- Keys of ACCk and its flags. -/
def accSpans (f k : Nat) : List (Nat × Nat) := [(bankKey f (4 * k), 0x40000), (accFlagKey f k 0 0, 0x10000)]

/-- The stores that put row `m` into ACCk: element codes by tile, and the flags. -/
def accStoreRow (f k m : Nat) (cs : List Nat) (flags : List Bool) : List Fx :=
  ((chunksOf 128 cs.length cs).zipIdx.map fun p =>
    Fx.store (accKey f k m (128 * p.2)) (p.1.flatMap fun c => leBytes 4 c)) ++
  (if flags.any id then [.store (accFlagKey f k m 0) (flags.map fun b => if b then 1 else 0)] else [])

/-- The code and flag of an accumulator element; a word of no defined value (R209) is a free value. -/
def State.accElem (s : State) (f k m n : Nat) : Nat × Bool :=
  let a := accKey f k m n
  (s.bankNat f a 4, !s.bankOpen f a && s.loadByte (accFlagKey f k m n) != 0)

/-! ## MM (R150 to R153) -/

/-- May the two formats meet in a MAC (R48)? -/
def macPairOk (fa fb : Nat) (mx : Bool) : Bool :=
  let plain := fun f => decide (f ≤ 3) || (decide (5 ≤ f) && decide (f ≤ 12))
  if mx then (mxEmax fa).isSome && (mxEmax fb).isSome
  else if isCbFmt fb then [1, 2, 5, 6, 7, 8, 9, 10].contains fa
  else plain fa && plain fb

/-- Is the accumulation INT32 (R48, R150)? -/
def macIsInt (fa fb : Nat) (sa sb : Scale) : Bool :=
  decide (fa ≤ 3) && decide (fb ≤ 3) && sa.mode == mUNIT && sb.mode == mUNIT

/-- Every row of a MAC operand widened exactly with its scale (R50, R53); `idx` says which ROW scale serves a row
(R141). -/
def State.macRows (s : State) (f : Nat) (t : TRef) (sc : Scale) (idx : Nat → Nat := id) : List (List (Num × Bool)) :=
  let vec := s.scaleVec f sc
  let mx := if sc.mode = mMX then s.mxCodes f sc else []
  let nb := (t.d.e0 + 31) / 32
  (t.rowsOf s).zipIdx.map fun p => p.1.zipIdx.map fun e =>
    if sc.mode = mMX then
      match e8m0Value (mx.getD (p.2 * nb + e.2 / 32) 127) with
      | .fin q => ((mxElem t.d.fmt e.1).mul (.fin q), false)
      | _ => (.nan, false)
    else widenExact t.d.fmt (sc.at vec (idx p.2)) (sc.mode == mUNIT) e.1

/-- One group's exact sum of products (R151). -/
def groupSum (a b : List Num) : Num := Num.sum (List.zipWith Num.mul a b)

/-- The FP32 reduction of R151 from `acc`: groups of 32 in ascending order, one rounding each. In the MX path an
overflow saturates and is a counted event (R53). An inexact negative sum that underflows to zero is −0, as IEEE 754 rounds it: R151
says that a fresh reduction "is never −0" of exact zero results, and does not state this case (DEDUCED, assumption 108). -/
def macFloat (mx : Bool) (acc : Num) (a b : List Num) : Num × Bool :=
  (List.zip (chunksOf 32 a.length a) (chunksOf 32 b.length b)).foldl (fun (st : Num × Bool) g =>
    let r := accRound mx (st.1.add (groupSum g.1 g.2))
    (r.1, st.2 || r.2)) (acc, false)

/-- The INT32 reduction of R49 and R151: exact until it leaves the range, then held at the limit crossed. -/
def macInt (acc : Int × Bool) (a b : List Int) : Int × Bool :=
  (List.zipWith (fun x y => x * y) a b).foldl (fun (st : Int × Bool) p =>
    if st.2 then st
    else
      let v := st.1 + p
      if v < -2147483648 then (-2147483648, true) else if 2147483647 < v then (2147483647, true) else (v, false)) acc

/-- Codebook shape: entries, activations per group, groups per chunk of 128 (R56). -/
def cbShape : Nat → Option (Nat × Nat × Nat)
  | 14 => some (4, 4, 32)
  | 15 => some (8, 2, 64)
  | 16 => some (16, 1, 128)
  | _ => none

/-- Index of a group of weight codes in its product table: code j in position j (R56). -/
def cbIndex (e : Nat) (codes : List Nat) : Nat := codes.foldr (fun c n => c + e * n) 0

/-- Table entry of R56: the exact sum of c[code j] times a[j], rounded once. -/
def cbEntry (cb : List Num) (codes : List Nat) (acts : List Num) : Num :=
  rne32 (Num.sum (List.zipWith (fun c a => (cb.getD c (.zero false)).mul a) codes acts))

/-- Pad a list to `n` elements. -/
def padTo {α : Type} (n : Nat) (d : α) (l : List α) : List α := l ++ List.replicate (n - l.length) d

/-- The product-table reduction of R153 for one element: chunks of 128, groups ascending; activations beyond K are
zero (R56). The weight code there is 0: the spec does not say which code a column has beyond K, and it shows only where codebook
entry 0 is not finite or is negative (DESIGN CHOICE, assumption 109). -/
def macCodebook (per : Nat) (k : Nat) (acc : Num) (cb : List Num) (acts : List Num) (codes : List Nat) : Num :=
  let n := (k + 127) / 128 * 128
  let a := padTo n (Num.zero false) acts
  let w := padTo n 0 codes
  (List.zip (chunksOf per n a) (chunksOf per n w)).foldl (fun x g => add32 x (cbEntry cb g.2 g.1)) acc

/-- Integer value of an integer-format code. -/
def intOf (fmt c : Nat) : Int := (numOf fmt c).rat.num

/-- Tiles of the Face whose columns serve `n` output columns, as a mask: 128 columns each (R152). -/
def tilesOf (n : Nat) : Nat := (List.range 4).foldl (fun m t => if 128 * t < n then m ||| 2 ^ t else m) 0

/-- Tiles on which some column fails its check, as a mask; `bad` says it of a column. -/
def tilesBad (n : Nat) (bad : Nat → Bool) : Nat :=
  (List.range n).foldl (fun m c => if bad c then m ||| 2 ^ (c / 128) else m) 0

/-- Does some pass of one column's reduction fail its residue check: groups of 32 of a floating-point pair, all products of an
integer pair (R431)? -/
def columnBad (a b : List Num) : Bool :=
  (List.zip (chunksOf 32 a.length a) (chunksOf 32 b.length b)).any fun g => !passOk 0 g.1 g.2 (groupSum g.1 g.2)

/-- The same of look-ups: the check covers each addition of a table entry (R431). -/
def lookupBad (acc : Num) (entries : List Num) : Bool :=
  (entries.foldl (fun (st : Num × Bool) e =>
    (add32 st.1 e, st.2 || !passOk 0 [st.1, e] [.fin 1, .fin 1] (st.1.add e))) (acc, false)).2

/-- What MM leaves in ACCk (R151): rows of codes and flags. -/
def mmRows (s : State) (f : Nat) (o : FmtT) : List (List Nat × List Bool) :=
  let ta := s.tref f o.da.toNat
  let tb := s.tref f o.db.toNat
  let sa := s.scale f o.sa.toNat
  let sb := s.scale f o.sb.toNat
  let k := o.dc.toNat
  let add := bitOf o.fn.toNat 0
  let n := tb.d.e1
  let old := fun m c => if add then s.accElem f k m c else (0, false)
  if macIsInt ta.d.fmt tb.d.fmt sa sb then
    let b := (tb.rowsOf s).map fun r => r.map (intOf tb.d.fmt)
    (ta.rowsOf s).zipIdx.map fun p =>
      let a := p.1.map (intOf ta.d.fmt)
      let r := b.zipIdx.map fun q =>
        let x := old p.2 q.2
        macInt (signed 32 x.1, x.2) a q.1
      (r.map fun v => wrap 32 v.1, r.map (·.2))
  else if isCbFmt tb.d.fmt then
    let cb := s.productBook f sb
    let per := ((cbShape tb.d.fmt).map (·.2.1)).getD 1
    let b := tb.rowsOf s
    (s.macRows f ta sa).zipIdx.map fun p =>
      let a := p.1.map (·.1)
      let hit := p.1.any (·.2)
      let r := b.zipIdx.map fun q =>
        let x := old p.2 q.2
        (fp32Code (macCodebook per ta.d.e0 (fp32Val x.1) (cb.getD (if cb.length = 1 then 0 else q.2 / 128) []) a q.1),
          x.2 || hit)
      (r.map (·.1), r.map (·.2))
  else
    let mx := sa.mode == mMX
    let b := (s.macRows f tb sb).map fun r => (r.map (·.1), r.any (·.2))
    (s.macRows f ta sa).zipIdx.map fun p =>
      let a := p.1.map (·.1)
      let hit := p.1.any (·.2)
      let r := b.zipIdx.map fun q =>
        let x := old p.2 q.2
        let v := macFloat mx (fp32Val x.1) a q.1.1
        (fp32Code v.1, x.2 || v.2 || hit || q.1.2)
      (r.map (·.1), (r.take n).map (·.2))

/-- Blocks of 32 along a row of `k`, for `rows` rows. -/
def mxBlocks (rows k : Nat) : Nat := rows * ((k + 31) / 32)

/-- Shape of a codebook operand: [G, E] with G 1 or one group for each 128 channels (R55). -/
def cbOk (s : State) (f : Nat) (sc : Scale) (fmt channels : Nat) : Chk :=
  if sc.mode = mCODEBOOK then
    let d := s.desc f sc.desc
    .need (d.rank == 2 && some d.e0 == (cbShape fmt).map (·.1) && (d.e1 == 1 || d.e1 == (channels + 127) / 128))
  else .pass

/-- Rows, blocks or channels to be scaled by mode, for a tensor of `rows` rows of `k` elements. -/
def scaleNeed (rows k mode : Nat) : Nat :=
  if mode = mMX then mxBlocks rows k else if mode = mRESCALE then k else if mode = mCODEBOOK then 0 else rows

/-- Checks of MM at issue (R142, R150). -/
def mmChk (s : State) (f : Nat) (o : FmtT) : Chk :=
  let a := s.desc f o.da.toNat
  let b := s.desc f o.db.toNat
  let sa := s.scale f o.sa.toNat
  let sb := s.scale f o.sb.toNat
  Chk.all [
    .need (o.dd == 0 && o.sd == 0 && o.rmode == 0 && o.sat == 0 && decide (o.fn.toNat < 2)),
    accSelOk s f o,
    checkDesc s f o.da.toNat 1 fun d => d.plain && d.rank == 2 && decide (d.e1 ≤ 128),
    checkDesc s f o.db.toNat 2 fun d => d.plain && d.rank == 2 && decide (d.e1 ≤ 512),
    .need (a.e0 == b.e0 && macPairOk a.fmt b.fmt (sa.mode == mMX) && ((sa.mode == mMX) == (sb.mode == mMX))
      && (isCbFmt b.fmt == (sb.mode == mCODEBOOK))),
    checkScale s f 1 sa [mUNIT, mUNIFORM, mROW, mMX] (scaleNeed a.e1 a.e0) 0,
    checkScale s f 2 sb [mUNIT, mUNIFORM, mROW, mMX, mCODEBOOK] (scaleNeed b.e1 b.e0) 0,
    cbOk s f sb b.fmt b.e1,
    .need (o.fn == 0 || (s.face f).accIsInt o.dc.toNat == macIsInt a.fmt b.fmt sa sb)]

/-- What MM and PTL read of ACCk: all of it when they add to it. -/
def accReads (f : Nat) (o : FmtT) : List (Nat × Nat) := if bitOf o.fn.toNat 0 then accSpans f o.dc.toNat else []

/-- The effects that put rows into ACCk, cleared first when the accumulator starts afresh. -/
def accFx (f : Nat) (o : FmtT) (rows : List (List Nat × List Bool)) : List Fx :=
  (if bitOf o.fn.toNat 0 then [] else accClear f o.dc.toNat) ++
    rows.zipIdx.flatMap fun p => accStoreRow f o.dc.toNat p.2 p.1.1 p.1.2

/-- The table entries that MM adds for one output element, in order (R153). -/
def mmEntries (per k : Nat) (cb : List Num) (acts : List Num) (codes : List Nat) : List Num :=
  let n := (k + 127) / 128 * 128
  (List.zip (chunksOf per n (padTo n (Num.zero false) acts)) (chunksOf per n (padTo n 0 codes))).map fun g => cbEntry cb g.2 g.1

/-- The tiles that MM uses, and those whose residue check fails (R431). -/
def mmMac (s : State) (f : Nat) (o : FmtT) : Nat × Nat :=
  let ta := s.tref f o.da.toNat
  let tb := s.tref f o.db.toNat
  let sb := s.scale f o.sb.toNat
  let n := tb.d.e1
  let as := (s.macRows f ta (s.scale f o.sa.toNat)).map fun r => r.map (·.1)
  (tilesOf n,
    if isCbFmt tb.d.fmt then
      let cb := s.productBook f sb
      let per := ((cbShape tb.d.fmt).map (·.2.1)).getD 1
      let bs := tb.rowsOf s
      tilesBad n fun c => as.zipIdx.any fun a =>
        lookupBad (if bitOf o.fn.toNat 0 then fp32Val (s.accElem f o.dc.toNat a.2 c).1 else .zero false)
          (mmEntries per ta.d.e0 (cb.getD (if cb.length = 1 then 0 else c / 128) []) a.1 (bs.getD c []))
    else
      let bs := (s.macRows f tb sb).map fun r => r.map (·.1)
      tilesBad n fun c => as.any fun a => columnBad a (bs.getD c []))

/-- What MM does: ACCk = A B transposed, in the fixed group order (R151). -/
def mmOut (v : State) (f : Nat) (o : FmtT) : TOut := ⟨none, [], accFx f o (mmRows v f o), 0, [], mmMac v f o⟩

/-- MM (R151). -/
def execMm (f : Fin 6) (h : Hdr) (o : FmtT) (s : State) : Out :=
  let sa := s.scale f o.sa.toNat
  let sb := s.scale f o.sb.toNat
  issueTensor s f h
    { ins := .mm f h o, unit := .tile, dd := 0, isN := false, order := .loose, scratch := []
      uses := [(o.da.toNat, false), (o.db.toNat, false)] ++ s.srcScales f [o.sa.toNat, o.sb.toNat] }
    (mmChk s f o)
    (fun s => (s.tref f o.da.toNat).spans s ++ (s.tref f o.db.toNat).spans s ++ s.scaleSpans f sa ++ s.scaleSpans f sb
      ++ accReads f o)
    (fun s => s.bankFree f) (fun v => mmOut v f o)
    (fun t => if o.fn = 0 then t.setAccType f o.dc.toNat
      (macIsInt (s.desc f o.da.toNat).fmt (s.desc f o.db.toNat).fmt sa sb) else t)

/-! ## PTB and PTL (R154, R155) -/

/-- Codebook format of an entry count. -/
def cbFmtOf (e : Nat) : Nat := if e = 4 then 14 else if e = 8 then 15 else if e = 16 then 16 else 0

/-- Checks of PTB (R142, R154). -/
def ptbChk (s : State) (f : Nat) (o : FmtT) : Chk :=
  let a := s.desc f o.da.toNat
  let sa := s.scale f o.sa.toNat
  let sb := s.scale f o.sb.toNat
  let c := s.desc f sb.desc
  let d := s.desc f o.dd.toNat
  Chk.all [
    .need (o.db == 0 && o.dc == 0 && o.sd == 0 && o.rmode == 0 && o.sat == 0 && o.fn == 0),
    checkDesc s f o.dd.toNat 0 fun d => d.layout == 0 && d.rank == 4 && d.fmt == fFP32,
    checkDesc s f o.da.toNat 1 fun d => d.plain && d.rank == 2 && [1, 2, 5, 6, 7, 8, 9, 10].contains d.fmt,
    checkScale s f 1 sa [mUNIT, mUNIFORM, mROW] (scaleNeed a.e1 a.e0) 0,
    checkScale s f 2 sb [mCODEBOOK] (fun _ => 0) 0,
    .need (match cbShape (cbFmtOf c.e0) with
      | some (e, per, gpc) => c.rank == 2 && d.e3 == c.e1 && d.e2 == a.e1 && d.e1 == (a.e0 + 127) / 128 * gpc
          && d.e0 == e ^ per
      | none => false)]

/-- The product tables: row (g, m, group) holds every entry (R56). -/
def ptbRows (s : State) (f : Nat) (o : FmtT) : List (List Nat) × Nat :=
  let ta := s.tref f o.da.toNat
  let sa := s.scale f o.sa.toNat
  let cb := s.productBook f (s.scale f o.sb.toNat)
  let e := (cb.headD []).length
  let per := ((cbShape (cbFmtOf e)).map (·.2.1)).getD 1
  let n := (ta.d.e0 + 127) / 128 * 128
  let acts := s.macRows f ta sa
  let rows := cb.flatMap fun c => acts.flatMap fun r =>
    (chunksOf per n (padTo n (Num.zero false) (r.map (·.1)))).map fun g =>
      (List.range (e ^ per)).map fun i => fp32Code (cbEntry c ((List.range per).map fun j => i / e ^ j % e) g)
  let hits := cb.length * ((acts.filter fun r => r.any (·.2)).length) * ((ta.d.e0 + per - 1) / per) * e ^ per
  (rows, hits)

/-- Does DD meet one of the spans `l`? The results are unpredictable then (R158). -/
def dstMeets (s : State) (f : Nat) (o : FmtT) (l : List (Nat × Nat)) : Bool := anyMeet ((s.tref f o.dd.toNat).spans s) l

/-- What PTB reads. -/
def ptbReads (s : State) (f : Nat) (o : FmtT) : List (Nat × Nat) :=
  (s.tref f o.da.toNat).spans s ++ s.scaleSpans f (s.scale f o.sa.toNat) ++ s.scaleSpans f (s.scale f o.sb.toNat)

/-- What PTB writes. -/
def ptbOut (v : State) (f : Nat) (o : FmtT) : TOut :=
  let r := ptbRows v f o
  let t : TOut := ⟨some (v.tref f o.dd.toNat), numbered r.1, [], r.2, [], (0, 0)⟩
  if dstMeets v f o (ptbReads v f o) then t.freed v.fresh else t

/-- PTB: builds product tables into a store tensor (R154). -/
def execPtb (f : Fin 6) (h : Hdr) (o : FmtT) (s : State) : Out :=
  issueTensor s f h
    { ins := .ptb f h o, unit := .vector, dd := o.dd.toNat, isN := false, order := .loose, scratch := []
      uses := [(o.da.toNat, false)] ++ s.srcScales f [o.sa.toNat, o.sb.toNat] ++ [(o.dd.toNat, true)] }
    (ptbChk s f o) (fun s => ptbReads s f o)
    (fun s => if dstMeets s f o (ptbReads s f o) then 8 * (s.desc f o.dd.toNat).count else 0) (fun v => ptbOut v f o)

/-- Checks of PTL (R155). -/
def ptlChk (s : State) (f : Nat) (o : FmtT) : Chk :=
  let a := s.desc f o.da.toNat
  let b := s.desc f o.db.toNat
  Chk.all [
    .need (o.dd == 0 && o.sd == 0 && o.sa == 0 && o.sb == 0 && o.rmode == 0 && o.sat == 0 && decide (o.fn.toNat < 2)),
    accSelOk s f o,
    checkDesc s f o.da.toNat 1 fun d => d.layout == 0 && d.rank == 4 && d.fmt == fFP32 && decide (d.e2 ≤ 128),
    checkDesc s f o.db.toNat 2 fun d => d.plain && d.rank == 2 && isCbFmt d.fmt && decide (d.e1 ≤ 512),
    .need (match cbShape b.fmt with
      | some (e, per, gpc) => a.e0 == e ^ per && a.e1 == (b.e0 + 127) / 128 * gpc
          && (a.e3 == 1 || a.e3 == (b.e1 + 127) / 128)
      | none => false),
    .need (o.fn == 0 || !(s.face f).accIsInt o.dc.toNat)]

/-- What PTL leaves in ACCk: the reduction of R153 through the table. -/
def ptlRows (s : State) (f : Nat) (o : FmtT) : List (List Nat × List Bool) :=
  let ta := s.tref f o.da.toNat
  let tb := s.tref f o.db.toNat
  let k := o.dc.toNat
  let add := bitOf o.fn.toNat 0
  let per := ((cbShape tb.d.fmt).map (·.2.1)).getD 1
  let e := ((cbShape tb.d.fmt).map (·.1)).getD 4
  let n := (tb.d.e0 + 127) / 128 * 128
  let tab := ta.rowsOf s
  let idx := (tb.rowsOf s).map fun r => (chunksOf per n (padTo n 0 r)).map (cbIndex e)
  (List.range ta.d.e2).map fun m =>
    let r := idx.zipIdx.map fun q =>
      let x := if add then s.accElem f k m q.2 else (0, false)
      let g := if ta.d.e3 = 1 then 0 else q.2 / 128
      (fp32Code (q.1.zipIdx.foldl (fun acc p =>
        add32 acc (fp32Val ((tab.getD ((g * ta.d.e2 + m) * ta.d.e1 + p.2) []).getD p.1 0))) (fp32Val x.1)), x.2)
    (r.map (·.1), r.map (·.2))

/-- The tiles that PTL uses, and those whose residue check fails (R431). -/
def ptlMac (s : State) (f : Nat) (o : FmtT) : Nat × Nat :=
  let ta := s.tref f o.da.toNat
  let tb := s.tref f o.db.toNat
  let per := ((cbShape tb.d.fmt).map (·.2.1)).getD 1
  let e := ((cbShape tb.d.fmt).map (·.1)).getD 4
  let n := (tb.d.e0 + 127) / 128 * 128
  let tab := ta.rowsOf s
  let idx := (tb.rowsOf s).map fun r => (chunksOf per n (padTo n 0 r)).map (cbIndex e)
  (tilesOf tb.d.e1, tilesBad tb.d.e1 fun c => (List.range ta.d.e2).any fun m =>
    let g := if ta.d.e3 = 1 then 0 else c / 128
    lookupBad (if bitOf o.fn.toNat 0 then fp32Val (s.accElem f o.dc.toNat m c).1 else .zero false)
      ((idx.getD c []).zipIdx.map fun p => fp32Val ((tab.getD ((g * ta.d.e2 + m) * ta.d.e1 + p.2) []).getD p.1 0)))

/-- What PTL does. -/
def ptlOut (v : State) (f : Nat) (o : FmtT) : TOut := ⟨none, [], accFx f o (ptlRows v f o), 0, [], ptlMac v f o⟩

/-- PTL: accumulates through a product table (R155). -/
def execPtl (f : Fin 6) (h : Hdr) (o : FmtT) (s : State) : Out :=
  issueTensor s f h
    { ins := .ptl f h o, unit := .tile, dd := 0, isN := false, order := .loose, scratch := []
      uses := [(o.da.toNat, false), (o.db.toNat, false)] }
    (ptlChk s f o)
    (fun s => (s.tref f o.da.toNat).spans s ++ (s.tref f o.db.toNat).spans s ++ accReads f o)
    (fun s => s.bankFree f) (fun v => ptlOut v f o)
    (fun t => if o.fn = 0 then t.setAccType f o.dc.toNat false else t)

/-! ## ACCOUT, ACCIN, ACCZ (R156, R157) -/

/-- Formats a result can be narrowed to (R47): all but E8M0 and the codebook indices. -/
def dstFmtOk (fmt : Nat) : Bool := fmt != fE8M0 && !isCbFmt fmt

/-- MX destinations have MX element formats (R54). -/
def mxDstOk (sd : Scale) (fmt : Nat) : Bool := sd.mode != mMX || (mxEmax fmt).isSome

/-- Checks of ACCOUT (R142, R156). -/
def accoutChk (s : State) (f : Nat) (o : FmtT) : Chk :=
  let d := s.desc f o.dd.toNat
  let b := s.desc f o.db.toNat
  let sa := s.scale f o.sa.toNat
  let sd := s.scale f o.sd.toNat
  let bias := bitOf o.fn.toNat 0
  let int := (s.face f).accIsInt o.dc.toNat
  Chk.all [
    .need (o.da == 0 && o.sb == 0 && rmodeOk o && decide (o.fn.toNat < 4) && (bias || o.db == 0)),
    accSelOk s f o,
    checkDesc s f o.dd.toNat 0 fun d => d.plain && d.rank == 2 && dstFmtOk d.fmt && decide (d.e1 ≤ 128) && decide (d.e0 ≤ 512),
    (if bias then checkDesc s f o.db.toNat 2 fun x => x.plain && x.rank == 1 &&
      (if int then x.fmt == fINT32 else x.fmt == fFP32 || x.fmt == fBF16 || x.fmt == fFP16) else .pass),
    .need (!bias || b.e0 == d.e0),
    .need (!int || sa.mode == mUNIT),
    checkScale s f 1 sa [mUNIT, mUNIFORM, mROW] (fun _ => d.e0) 0,
    checkScale s f 0 sd [mUNIT, mUNIFORM, mROW, mROWDYN, mMX, mRESCALE] (scaleNeed d.e1 d.e0) d.fmt,
    dstScaleOk s f o.sd.toNat,
    .need (mxDstOk sd d.fmt)]

/-- One element read out of a reduction: channel scale, bias, activation (R156). -/
def readout (int unit relu : Bool) (c : Num × Bool) (bias : Option Num) (v0 : Num × Bool) : Num × Bool :=
  let v1 := if unit then v0 else (rne32 (v0.1.mul c.1), v0.2 || c.2)
  let v2 := match bias with
    | none => v1
    | some b =>
      if int then
        let x := v1.1.rat.num + b.rat.num
        (Num.ofInt (clampInt (-2147483648) 2147483647 x), v1.2 || decide (x < -2147483648) || decide (2147483647 < x))
      else (rne32 (v1.1.add b), v1.2)
  if relu && v2.1.isNeg then (.zero false, v2.2) else v2

/-- Values of ACCOUT before narrowing, row by row, each with whether it is counted already (R156). -/
def accoutVals (s : State) (f : Nat) (o : FmtT) : List (List (Num × Bool)) :=
  let d := s.desc f o.dd.toNat
  let k := o.dc.toNat
  let sa := s.scale f o.sa.toNat
  let vec := s.scaleVec f sa
  let int := (s.face f).accIsInt k
  let relu := bits o.fn.toNat 2 1 == 1
  let tb := s.tref f o.db.toNat
  let bias := if bitOf o.fn.toNat 0 then (tb.flat s).map fun c => some (numOf tb.d.fmt c) else []
  (List.range d.e1).map fun m => (List.range d.e0).map fun n =>
    let e := s.accElem f k m n
    readout int (sa.mode == mUNIT) relu (sa.at vec n) (bias.getD n none)
      (if int then (Num.ofInt (signed 32 e.1), e.2) else (fp32Val e.1, e.2))

/-- What ACCOUT reads besides the accumulator. -/
def accoutReads (s : State) (f : Nat) (o : FmtT) : List (Nat × Nat) :=
  (if bitOf o.fn.toNat 0 then (s.tref f o.db.toNat).spans s else []) ++ s.scaleSpans f (s.scale f o.sa.toNat)
    ++ s.scaleSpans f (s.scale f o.sd.toNat)

/-- What ACCOUT writes. -/
def accoutOut (v : State) (f : Nat) (o : FmtT) : TOut :=
  let dst := v.tref f o.dd.toNat
  let src := if (v.face f).accIsInt o.dc.toNat then fINT32 else fFP32
  let r := v.narrowRows f (v.narrowCtx f o) src dst (v.scale f o.sd.toNat) (accoutVals v f o)
  let t : TOut := ⟨some dst, numbered r.1, [], r.2.1, r.2.2, (0, 0)⟩
  if dstMeets v f o (accoutReads v f o) then t.freed (v.fresh + 0x100000 + dst.d.count) else t

/-- ACCOUT: reads out an accumulator with scale, bias, activation and narrowing (R156). -/
def execAccout (f : Fin 6) (h : Hdr) (o : FmtT) (s : State) : Out :=
  let d := s.desc f o.dd.toNat
  issueTensor s f h
    { ins := .accout f h o, unit := .vector, dd := o.dd.toNat, isN := isSrh o, order := .loose, scratch := []
      uses := (if bitOf o.fn.toNat 0 then [(o.db.toNat, false)] else []) ++ s.srcScales f [o.sa.toNat] ++ [(o.dd.toNat, true)]
        ++ s.dstScale f o.sd.toNat }
    (accoutChk s f o) (fun s => accSpans f o.dc.toNat ++ accoutReads s f o)
    (fun s => max (if isSrh o then d.count else 0) (s.bankFree f)
      + if dstMeets s f o (accoutReads s f o) then 0x100000 + 9 * d.count else 0)
    (fun v => accoutOut v f o)

/-- Checks of ACCIN. -/
def accinChk (s : State) (f : Nat) (o : FmtT) : Chk :=
  (Chk.all [
      .need (o.dd == 0 && o.db == 0 && o.sd == 0 && o.sa == 0 && o.sb == 0 && o.rmode == 0 && o.sat == 0 && o.fn == 0),
      accSelOk s f o,
      checkDesc s f o.da.toNat 1 fun d => d.rank == 2 && dstFmtOk d.fmt && decide (d.e1 ≤ 128) && decide (d.e0 ≤ 512)])

/-- What ACCIN does. -/
def accinOut (v : State) (f : Nat) (o : FmtT) : TOut :=
  let a := v.desc f o.da.toNat
  let rows := ((v.tref f o.da.toNat).rowsOf v).map fun r => r.map fun c =>
    if isIntFmt a.fmt then wrap 32 (intOf a.fmt c) else (convert a.fmt fFP32 .rne false 0 (numOf a.fmt c)).code
  ⟨none, [], accFx f o (rows.map fun r => (r, [])), 0, [], (0, 0)⟩

/-- ACCIN: loads a tensor into an accumulator and sets its type (R157). -/
def execAccin (f : Fin 6) (h : Hdr) (o : FmtT) (s : State) : Out :=
  issueTensor s f h
    { ins := .accin f h o, unit := .vector, dd := 0, uses := [(o.da.toNat, false)], isN := false, order := .loose, scratch := [] }
    (accinChk s f o) (fun s => (s.tref f o.da.toNat).spans s) (fun _ => 0) (fun v => accinOut v f o)
    (fun t => t.setAccType f o.dc.toNat (isIntFmt (s.desc f o.da.toNat).fmt))

/-- Checks of ACCZ. -/
def acczChk (s : State) (f : Nat) (o : FmtT) : Chk :=
  ((Chk.need (o.dd == 0 && o.da == 0 && o.db == 0 && o.sd == 0 && o.sa == 0 && o.sb == 0 && o.rmode == 0 && o.sat == 0
      && decide (o.fn.toNat < 2))).and (accSelOk s f o))

/-- What ACCZ does. -/
def acczOut (f : Nat) (o : FmtT) : TOut := ⟨none, [], accClear f o.dc.toNat, 0, [], (0, 0)⟩

/-- ACCZ: clears an accumulator and sets its type from FN[0] (R157). -/
def execAccz (f : Fin 6) (h : Hdr) (o : FmtT) (s : State) : Out :=
  issueTensor s f h
    { ins := .accz f h o, unit := .tile, dd := 0, uses := [], isN := false, order := .loose, scratch := [] }
    (acczChk s f o) (fun _ => []) (fun _ => 0) (fun _ => acczOut f o)
    (fun t => t.setAccType f o.dc.toNat (bitOf o.fn.toNat 0))

end Sys2Proof.Machine
end

