-- ==== Sys2Proof/Machine/Vtr.lean ====
section
/-! DEFINITION. The correctly rounded functions of VTR (R160). A value is enclosed between two rationals at a working
precision; where both round to one FP32 code that code is the result, else the precision is raised. Enclosures are
integer pairs (lo, hi) that stand for lo / 2^p and hi / 2^p. -/

namespace Sys2Proof.Machine

/-- An enclosure at the working precision. -/
structure Iv where
  lo : Int
  hi : Int
  deriving DecidableEq, Repr

/-- Floor and ceiling of an integer quotient by a positive number. -/
def fdiv (a b : Int) : Int := a / b
/-- Ceiling. -/
def cdiv (a b : Int) : Int := -((-a) / b)

/-- Enclose a rational at precision p. -/
def Iv.ofRat (p : Nat) (q : Rat) : Iv := ⟨fdiv (q.num * 2 ^ p) q.den, cdiv (q.num * 2 ^ p) q.den⟩

/-- Sum. -/
def Iv.add (a b : Iv) : Iv := ⟨a.lo + b.lo, a.hi + b.hi⟩
/-- Difference. -/
def Iv.sub (a b : Iv) : Iv := ⟨a.lo - b.hi, a.hi - b.lo⟩
/-- Product. -/
def Iv.mul (p : Nat) (a b : Iv) : Iv :=
  let w := a.lo * b.lo; let x := a.lo * b.hi; let y := a.hi * b.lo; let z := a.hi * b.hi
  ⟨fdiv (min (min w x) (min y z)) (2 ^ p), cdiv (max (max w x) (max y z)) (2 ^ p)⟩
/-- Quotient by a positive integer. -/
def Iv.divNat (a : Iv) (n : Nat) : Iv := ⟨fdiv a.lo n, cdiv a.hi n⟩
/-- Quotient by a positive enclosure. -/
def Iv.div (p : Nat) (a b : Iv) : Iv :=
  ⟨if 0 ≤ a.lo then fdiv (a.lo * 2 ^ p) b.hi else fdiv (a.lo * 2 ^ p) b.lo,
   if 0 ≤ a.hi then cdiv (a.hi * 2 ^ p) b.lo else cdiv (a.hi * 2 ^ p) b.hi⟩
/-- Times an integer of known sign. -/
def Iv.mulInt (a : Iv) (n : Int) : Iv := if 0 ≤ n then ⟨a.lo * n, a.hi * n⟩ else ⟨a.hi * n, a.lo * n⟩
/-- Widen by e on both sides. -/
def Iv.widen (a : Iv) (e : Int) : Iv := ⟨a.lo - e, a.hi + e⟩
/-- The number 1. -/
def Iv.one (p : Nat) : Iv := ⟨2 ^ p, 2 ^ p⟩

/-- Alternating or plain odd series of z: sum of s^i z^(2i+1)/(2i+1), n terms, with z2 = z squared. -/
def oddSeries (p : Nat) (alt : Bool) (z2 : Iv) : Nat → Nat → Iv → Iv
  | 0, _, _ => ⟨0, 0⟩
  | n + 1, i, zp =>
    let t := zp.divNat (2 * i + 1)
    let r := oddSeries p alt z2 n (i + 1) (zp.mul p z2)
    if alt && i % 2 == 1 then r.sub t else r.add t

/-- atanh z for |z| at most 1/3: the terms left out are below 2^-p. -/
def atanhIv (p : Nat) (z : Iv) : Iv := (oddSeries p false (z.mul p z) (p / 3 + 4) 0 z).widen 2
/-- atan z for |z| at most 1/5. -/
def atanIv (p : Nat) (z : Iv) : Iv := (oddSeries p true (z.mul p z) (p / 4 + 4) 0 z).widen 2

/-- ln 2 = 2 atanh (1/3). -/
def ln2Iv (p : Nat) : Iv := (atanhIv p (Iv.ofRat p (1 / 3))).mulInt 2
/-- pi, by Machin's formula. -/
def piIv (p : Nat) : Iv :=
  ((atanIv p (Iv.ofRat p (1 / 5))).mulInt 16).sub ((atanIv p (Iv.ofRat p (1 / 239))).mulInt 4)

/-- Taylor sum of exp: terms t, t r/(i+1), … n of them. -/
def expSeries (p : Nat) (r : Iv) : Nat → Nat → Iv → Iv
  | 0, _, _ => ⟨0, 0⟩
  | n + 1, i, t => t.add (expSeries p r n (i + 1) ((t.mul p r).divNat (i + 1)))

/-- exp r for |r| at most 1. -/
def expSmall (p : Nat) (r : Iv) : Iv := (expSeries p r (p / 4 + 20) 0 (Iv.one p)).widen 2

/-- Lower and upper rational bounds. -/
abbrev Bounds := Rat × Rat

/-- The bounds an enclosure stands for, times 2^k. -/
def Iv.bounds (p : Nat) (a : Iv) (k : Int) : Bounds :=
  ((a.lo : Rat) * pow2 (k - p), (a.hi : Rat) * pow2 (k - p))

/-- exp q. The caller keeps |q| below 2^12. -/
def expB (p : Nat) (q : Rat) : Bounds :=
  let l := ln2Iv p
  let k : Int := (q * mkRat 13 9).floor
  let r := (Iv.ofRat p q).sub (l.mulInt k)
  (expSmall p r).bounds p k

/-- ln q for q above 0: q = m 2^e with m in [3/4, 3/2). -/
def logB (p : Nat) (q : Rat) : Bounds :=
  let e0 := ilog2 q
  let e := if q * pow2 (-e0) < 3 / 2 then e0 else e0 + 1
  let m := q * pow2 (-e)
  let z := Iv.ofRat p ((m - 1) / (m + 1))
  ((((atanhIv p z).mulInt 2).add ((ln2Iv p).mulInt e))).bounds p 0

/-- Integer square root, bit by bit from bit k down. -/
def isqrtFrom (n : Nat) : Nat → Nat → Nat
  | 0, r => if (r + 1) * (r + 1) ≤ n then r + 1 else r
  | k + 1, r => isqrtFrom n k (if (r + 2 ^ (k + 1)) * (r + 2 ^ (k + 1)) ≤ n then r + 2 ^ (k + 1) else r)

/-- Floor of the square root. -/
def isqrt (n : Nat) : Nat := isqrtFrom n (Nat.log2 n / 2 + 1) 0

/-- sqrt q for q above 0: exact where it is rational at this scale. -/
def sqrtB (p : Nat) (q : Rat) : Bounds :=
  let n := (q * pow2 (2 * p)).floor.toNat
  let r := isqrt n
  let exact : Bool := decide ((n : Rat) = q * pow2 (2 * p)) && r * r == n
  ((r : Rat) * pow2 (-(p : Int)), if exact then (r : Rat) * pow2 (-(p : Int)) else ((r : Rat) + 1) * pow2 (-(p : Int)))

/-- 1 / (1 + exp(-q)). -/
def sigmoidB (p : Nat) (q : Rat) : Bounds :=
  if q < -700 then (0, pow2 (-900))
  else if 700 < q then (1 - pow2 (-900), 1)
  else let e := expB p (-q); (1 / (1 + e.2), 1 / (1 + e.1))

/-- Times a rational. -/
def Bounds.times (b : Bounds) (q : Rat) : Bounds := if 0 ≤ q then (b.1 * q, b.2 * q) else (b.2 * q, b.1 * q)

/-- Taylor sum of sin or cos: terms t, −t r²/((i+1)(i+2)), … -/
def trigSeries (p : Nat) (r2 : Iv) : Nat → Nat → Iv → Iv
  | 0, _, _ => ⟨0, 0⟩
  | n + 1, i, t => t.sub (trigSeries p r2 n (i + 2) ((t.mul p r2).divNat ((i + 1) * (i + 2))))

/-- sin (k = 0) or cos (k = 1) of q: reduced by the nearest multiple of pi/2 at 300 more bits. -/
def trigB (p : Nat) (q : Rat) (k : Nat) : Bounds :=
  let p' := p + 300
  let pi := piIv p'
  let n : Int := (q * 2 / ((pi.lo : Rat) * pow2 (-(p' : Int))) + 1 / 2).floor
  let x := (Iv.ofRat p' q).mulInt 2 |>.sub (pi.mulInt n)
  let r : Iv := ⟨fdiv x.lo 2, cdiv x.hi 2⟩
  let m := ((n + k) % 4).toNat
  let r2 := r.mul p' r
  let v := if m % 2 = 0 then (trigSeries p' r2 (p / 6 + 60) 1 r).widen 4
    else (trigSeries p' r2 (p / 6 + 60) 0 (Iv.one p')).widen 4
  let b := v.bounds p' 0
  if m < 2 then b else (-b.2, -b.1)

/-- Enclosure of the function FN at a finite non-zero argument (R160). -/
def vtrBounds (fn p : Nat) (q : Rat) : Bounds :=
  match fn with
  | 0 => if 200 < q then (pow2 200, pow2 201) else if q < -200 then (0, pow2 (-200)) else expB p q
  | 1 =>
    if 300 < q then (pow2 200, pow2 201) else if q < -300 then (0, pow2 (-200))
    else if q.den = 1 then (pow2 q.num, pow2 q.num)
    else let l := (ln2Iv p).bounds p 0
      let a := expB p (q * (if 0 < q then l.1 else l.2))
      let b := expB p (q * (if 0 < q then l.2 else l.1))
      (a.1, b.2)
  | 2 => if q = 1 then (0, 0) else logB p q
  | 3 => (1 / q, 1 / q)
  | 4 => let b := sqrtB p q; (1 / b.2, 1 / b.1)
  | 5 => sqrtB p q
  | 6 =>
    if 100 < q then (1 - pow2 (-200), 1) else if q < -100 then (-1, -(1 - pow2 (-200)))
    else let e := expB p (2 * q); ((e.1 - 1) / (e.1 + 1), (e.2 - 1) / (e.2 + 1))
  | 7 => sigmoidB p q
  | 8 => (sigmoidB p q).times q
  | 9 => (sigmoidB p (2 * (mkRat 7978846 10000000 * (q + mkRat 44715 1000000 * (q * q * q))))).times q
  | 10 =>
    if 300 < q then (q, q + pow2 (-400)) else if q < -300 then (0, pow2 (-200))
    else let e := expB p q; ((logB p (1 + e.1)).1, (logB p (1 + e.2)).2)
  | 11 => trigB p q 0
  | _ => trigB p q 1

/-- The FP32 code that both bounds round to by RNE, if they agree. A bound of 0 takes the sign of the other. -/
def agree (b : Bounds) : Option Nat :=
  let neg := decide (b.1 < 0) && decide (b.2 ≤ 0)
  let code := fun (q : Rat) => fp32Code (if q = 0 then .zero neg else .fin q)
  if code b.1 = code b.2 then some (code b.1) else none

/-- Raise the precision until the bounds agree. The tails that a special value of the function decides are below. -/
def vtrFinite (fn : Nat) (q : Rat) : Nat :=
  match agree (vtrBounds fn 320 q) with
  | some c => c
  | none => match agree (vtrBounds fn 700 q) with
    | some c => c
    | none => match agree (vtrBounds fn 1500 q) with
      | some c => c
      | none => Config.freeReal fn (fp32Code (.fin q)) % 2 ^ 32

/-- VTR function FN of an FP32 value (R160): special values by the limits of IEEE 754, every other result correctly
rounded. -/
def vtr (fn : Nat) (x : Num) : Num :=
  let one : Num := .fin 1
  match x with
  | .nan => .nan
  | .inf n =>
    match fn with
    | 0 | 1 => if n then .zero false else .inf false
    | 2 => if n then .nan else .inf false
    | 3 => .zero n
    | 4 => if n then .nan else .zero false
    | 5 => if n then .nan else .inf false
    | 6 => if n then .fin (-1) else one
    | 7 => if n then .zero false else one
    | 8 | 9 => if n then .zero true else .inf false
    | 10 => if n then .zero false else .inf false
    | _ => .nan
  | .zero n =>
    match fn with
    | 0 | 1 => one
    | 2 => .inf true
    | 3 => .inf n
    | 4 => .inf n
    | 5 => .zero n
    | 6 => .zero n
    | 7 => .fin (1 / 2)
    | 8 | 9 => .zero n
    | 10 => fp32Val (vtrFinite 2 2)
    | 11 => .zero n
    | _ => one
  | .fin q =>
    if (fn = 2 ∨ fn = 4 ∨ fn = 5) ∧ q < 0 then .nan else fp32Val (vtrFinite fn q)

end Sys2Proof.Machine
end

