-- ==== Sys2Proof/Machine/Vector.lean ====
section
/-! DEFINITION. The vector instructions VEW, VTR, VRED, VNORM, VSMX, QNT and VRND (R158 to R165). -/

namespace Sys2Proof.Machine

/-! ## Shared forms (R158) -/

/-- The extents of `b` equal those of `a` or are 1, and the ranks match. -/
def bcastOk (a b : Desc) : Bool :=
  b.rank == a.rank && (b.e0 == a.e0 || b.e0 == 1) && (b.e1 == a.e1 || b.e1 == 1) && (b.e2 == a.e2 || b.e2 == 1)
    && (b.e3 == a.e3 || b.e3 == 1)

/-- The row of `b` that is broadcast over row `r` of `a`. -/
def bcastRow (a b : Desc) (r : Nat) : Nat :=
  let i1 := if b.e1 = 1 then 0 else r % a.e1
  let i2 := if b.e2 = 1 then 0 else r / a.e1 % a.e2
  let i3 := if b.e3 = 1 then 0 else r / (a.e1 * a.e2)
  (i3 * b.e2 + i2) * b.e1 + i1

/-- The element of `b` broadcast to position (r, i) of `a`. -/
def bcastAt (a b : Desc) (rows : List (List (Num × Bool))) (r i : Nat) : Num × Bool :=
  (rows.getD (bcastRow a b r) []).getD (if b.e0 = 1 then 0 else i) (.zero false, false)

/-- A source of the vector unit carries no codebook format unless its scale says so (R142). -/
def vecSrcOk (sc : Scale) (d : Desc) : Bool := isCbFmt d.fmt == (sc.mode == mCODEBOOK)

/-- The UNIT scale. -/
def unitScale : Scale := ⟨0, 0, false, 0, 0⟩

/-- Checks of the destination of a vector instruction: descriptor, scale and the format narrowed to. -/
def vecDstChk (s : State) (f : Nat) (o : FmtT) (modes : List Nat) : Chk :=
  let d := s.desc f o.dd.toNat
  let sd := s.scale f o.sd.toNat
  (checkDesc s f o.dd.toNat 0 fun d => dstOk d && dstFmtOk d.fmt).and
    ((checkScale s f 0 sd modes (scaleNeed d.rows d.e0) d.fmt).and
      ((dstScaleOk s f o.sd.toNat).and (.need (mxDstOk sd d.fmt))))

/-- Checks of a source of a vector instruction with its scale. -/
def vecSrcChk (s : State) (f n opnd : Nat) (sc : Scale) (modes : List Nat) : Chk :=
  let d := s.desc f n
  (checkDesc s f n opnd fun d => vecSrcOk sc d).and
    ((checkScale s f opnd sc modes (scaleNeed d.rows d.e0) 0).and (checkPagedScale s f d sc))

/-- DD overlaps a source otherwise than in place (R158): DA by another descriptor, or a further source. -/
def vecOverlap (s : State) (f : Nat) (o : FmtT) (more : List Nat) : Bool :=
  let w := (s.tref f o.dd.toNat).spans s
  ((s.face f).dReg o.dd.toNat != (s.face f).dReg o.da.toNat && anyMeet w ((s.tref f o.da.toNat).spans s)) ||
    more.any fun n => anyMeet w ((s.tref f n).spans s)

/-- What a vector instruction takes: the sources after DA, the scale registers of its sources, the format that its values
narrow from, and the values, row by row, each with whether it is counted already. -/
structure VecSrc where
  more : List Nat
  scs : List Nat
  src : Nat
  rows : List (List (Num × Bool))
  deriving DecidableEq, Repr

/-- What a vector instruction writes: its values narrowed to DD by SD; free values where DD overlaps a source (R158). -/
def vecOut (v : State) (f : Nat) (o : FmtT) (val : State → Nat → FmtT → VecSrc) : TOut :=
  let x := val v f o
  let dst := v.tref f o.dd.toNat
  let r := v.narrowRows f (v.narrowCtx f o) x.src dst (v.scale f o.sd.toNat) x.rows
  let t : TOut := ⟨some dst, numbered r.1, [], r.2.1, r.2.2, (0, 0)⟩
  if vecOverlap v f o x.more then t.freed (v.fresh + if isSrh o then dst.d.count else 0) else t

/-- Issue an instruction of the vector unit that takes what `val` says and narrows it to DD by SD. -/
def issueVec (s : State) (f : Fin 6) (h : Hdr) (ins : Instr) (o : FmtT) (chk : Chk) (val : State → Nat → FmtT → VecSrc) : Out :=
  let d := s.desc f o.dd.toNat
  let x := val s f o
  issueTensor s f h
    { ins := ins, unit := .vector, dd := o.dd.toNat, isN := isSrh o, order := .loose, scratch := []
      uses := (o.da.toNat, false) :: (x.more.map fun n => (n, false)) ++ s.srcScales f x.scs ++ [(o.dd.toNat, true)]
        ++ s.dstScale f o.sd.toNat }
    chk
    (fun s => (s.tref f o.da.toNat).spans s ++ (x.more.flatMap fun n => (s.tref f n).spans s)
      ++ ((o.sd.toNat :: x.scs).flatMap fun c => s.scaleSpans f (s.scale f c)))
    (fun s => (if isSrh o then d.count else 0) + if vecOverlap s f o x.more then 8 * d.count else 0)
    (fun v => vecOut v f o val)

/-- Scale modes of a vector source. -/
def srcModes : List Nat := [mUNIT, mUNIFORM, mROW]
/-- Scale modes of a vector destination. -/
def dstModes : List Nat := [mUNIT, mUNIFORM, mROW, mROWDYN]

/-! ## VEW (R159) -/

/-- Does the operation use DB? -/
def vewB (op : Nat) : Bool := decide (op ≤ 10)
/-- Does it use DC? -/
def vewC (op : Nat) : Bool := op == 6 || op == 7

/-- Is the integer path taken? -/
def vewInt (s : State) (f : Nat) (o : FmtT) : Bool :=
  let op := o.fn.toNat
  isIntFmt (s.desc f o.da.toNat).fmt && isIntFmt (s.desc f o.dd.toNat).fmt
    && (!vewB op || isIntFmt (s.desc f o.db.toNat).fmt) && (!vewC op || isIntFmt (s.desc f o.dc.toNat).fmt)
    && (s.scale f o.sa.toNat).mode == mUNIT && (!vewB op || (s.scale f o.sb.toNat).mode == mUNIT)
    && (s.scale f o.sd.toNat).mode == mUNIT

/-- One element of the floating path: each operation rounds to FP32 by RNE; SEL copies. -/
def vewOp (op : Nat) (a b c : Num) : Num :=
  let bool := fun (x : Bool) => Num.ofInt (if x then 1 else 0)
  match op with
  | 0 => rne32 (a.add b)
  | 1 => rne32 (a.sub b)
  | 2 => rne32 (a.mul b)
  | 3 => rne32 (a.div b)
  | 4 => rne32 (a.min b)
  | 5 => rne32 (a.max b)
  | 6 => rne32 ((a.mul b).add c)
  | 7 => if c.eqv (.zero false) then b else a
  | 8 => bool (a.lt b)
  | 9 => bool (a.lt b || a.eqv b)
  | 10 => bool (a.eqv b)
  | 11 => rne32 a.abs
  | 12 => rne32 a.neg
  | _ => if a.isNan then .nan else if (Num.zero false).lt a then rne32 a else .zero false

/-- One element of the integer path, exactly. -/
def vewIntOp (op : Nat) (a b c : Int) : Int :=
  match op with
  | 0 => a + b
  | 1 => a - b
  | 2 => a * b
  | 4 => min a b
  | 5 => max a b
  | 6 => a * b + c
  | 7 => if c ≠ 0 then a else b
  | 8 => if a < b then 1 else 0
  | 9 => if a ≤ b then 1 else 0
  | 10 => if a = b then 1 else 0
  | 11 => |a|
  | 12 => -a
  | _ => max a 0

/-- Saturate to INT32; the flag says whether that changed the value. -/
def satInt32 (x : Int) : Num × Bool :=
  (Num.ofInt (clampInt (-2147483648) 2147483647 x), decide (x < -2147483648) || decide (2147483647 < x))

/-- Checks of VEW (R142, R158, R159). -/
def vewChk (s : State) (f : Nat) (o : FmtT) : Chk :=
  let op := o.fn.toNat
  let a := s.desc f o.da.toNat
  let d := s.desc f o.dd.toNat
  Chk.all [
    .need (decide (op ≤ 13) && rmodeOk o && (vewB op || (o.db == 0 && o.sb == 0)) && (vewC op || o.dc == 0)),
    vecDstChk s f o dstModes,
    vecSrcChk s f o.da.toNat 1 (s.scale f o.sa.toNat) srcModes,
    (if vewB op then vecSrcChk s f o.db.toNat 2 (s.scale f o.sb.toNat) srcModes else .pass),
    (if vewC op then vecSrcChk s f o.dc.toNat 3 unitScale srcModes else .pass),
    .need (d.rank == a.rank && d.sameExt a && (!vewB op || bcastOk a (s.desc f o.db.toNat))
      && (!vewC op || bcastOk a (s.desc f o.dc.toNat))),
    .need (op != 3 || !vewInt s f o)]

/-- Rows of a source exactly as integers or numbers, by path. -/
def State.vewRows (s : State) (f : Nat) (int : Bool) (n : Nat) (sc : Scale) : List (List (Num × Bool)) :=
  let t := s.tref f n
  if int then (t.rowsOf s).map fun r => r.map fun c => (numOf t.d.fmt c, false) else s.vecRows f t sc

/-- Values of VEW before narrowing. Of SEL the stored scales of both selectable operands count, whichever is taken: R63 says that a
clamped scale counts where its value enters, and does not say whether an operand not taken enters (DESIGN CHOICE, assumption
110). -/
def vewVals (s : State) (f : Nat) (o : FmtT) : List (List (Num × Bool)) :=
  let op := o.fn.toNat
  let int := vewInt s f o
  let a := s.desc f o.da.toNat
  let db := s.desc f o.db.toNat
  let dc := s.desc f o.dc.toNat
  let ra := s.vewRows f int o.da.toNat (s.scale f o.sa.toNat)
  let rb := if vewB op then s.vewRows f int o.db.toNat (s.scale f o.sb.toNat) else []
  let rc := if vewC op then s.vewRows f int o.dc.toNat unitScale else []
  ra.zipIdx.map fun p => p.1.zipIdx.map fun e =>
    let b := bcastAt a db rb p.2 e.2
    let c := bcastAt a dc rc p.2 e.2
    if int then satInt32 (vewIntOp op e.1.1.rat.num b.1.rat.num c.1.rat.num)
    else (vewOp op e.1.1 b.1 c.1, e.1.2 || b.2)

/-- What VEW takes. -/
def vewSrc (s : State) (f : Nat) (o : FmtT) : VecSrc :=
  let op := o.fn.toNat
  { more := (if vewB op then [o.db.toNat] else []) ++ (if vewC op then [o.dc.toNat] else [])
    scs := o.sa.toNat :: (if vewB op then [o.sb.toNat] else [])
    src := if vewInt s f o then fINT32 else fFP32
    rows := vewVals s f o }

/-- VEW: an elementwise operation (R159). -/
def execVew (f : Fin 6) (h : Hdr) (o : FmtT) (s : State) : Out := issueVec s f h (.vew f h o) o (vewChk s f o) vewSrc

/-! ## VTR (R160) -/

/-- Checks of an instruction with DD, DA, SA, SD whose destination has DA's extents. -/
def unaryChk (s : State) (f : Nat) (o : FmtT) (ok : Bool) : Chk :=
  let a := s.desc f o.da.toNat
  let d := s.desc f o.dd.toNat
  Chk.all [
    .need (ok && rmodeOk o && o.db == 0 && o.dc == 0 && o.sb == 0),
    vecDstChk s f o dstModes,
    vecSrcChk s f o.da.toNat 1 (s.scale f o.sa.toNat) srcModes,
    .need (d.rank == a.rank && d.sameExt a)]

/-- What VTR takes. -/
def vtrSrc (s : State) (f : Nat) (o : FmtT) : VecSrc :=
  { more := [], scs := [o.sa.toNat], src := fFP32
    rows := (s.vecRows f (s.tref f o.da.toNat) (s.scale f o.sa.toNat)).map fun r => r.map fun x => (vtr o.fn.toNat (rne32 x.1), x.2) }

/-- VTR: a transcendental function, correctly rounded to FP32 (R160). -/
def execVtr (f : Fin 6) (h : Hdr) (o : FmtT) (s : State) : Out :=
  issueVec s f h (.vtr f h o) o (unaryChk s f o (decide (o.fn.toNat ≤ 12))) vtrSrc

/-! ## VRED (R161) -/

/-- Sum neighbouring lanes. -/
def pairSums : List Num → List Num
  | a :: b :: l => add32 a b :: pairSums l
  | l => l

/-- One block of 256 lanes by a balanced pairwise tree. -/
def blockSum (l : List Num) : Num :=
  (pairSums (pairSums (pairSums (pairSums (pairSums (pairSums (pairSums (pairSums
    (padTo 256 (Num.zero false) l))))))))).headD (.zero false)

/-- A row's sum in VRED order: block sums added in ascending order. -/
def rowSum (l : List Num) : Num :=
  match (chunksOf 256 l.length l).map blockSum with
  | [] => .zero false
  | b :: bs => bs.foldl add32 b

/-- Σ x², each square rounded. -/
def rowSumSq (l : List Num) : Num := rowSum (l.map fun x => mul32 x x)

/-- Largest or smallest value, NaN skipped; NaN when nothing else is there. -/
def foldBest (better : Num → Num → Num) (l : List Num) : Num :=
  match l.filter fun x => !x.isNan with
  | [] => .nan
  | x :: xs => xs.foldl better x

/-- Lowest index of the largest value, NaN skipped; −1 for a row of NaN. -/
def argMax (l : List Num) : Int :=
  (l.zipIdx.foldl (fun (st : Int × Num) p =>
    if p.1.isNan then st else if st.1 < 0 || st.2.lt p.1 then ((p.2 : Int), p.1) else st) (-1, .nan)).1

/-- The sticky INT32 sum of R49. -/
def stickySum (l : List Int) : Int × Bool := macInt (0, false) l (l.map fun _ => 1)

/-- Is the integer path taken? -/
def vredInt (s : State) (f : Nat) (o : FmtT) : Bool :=
  isIntFmt (s.desc f o.da.toNat).fmt && (s.scale f o.sa.toNat).mode == mUNIT && (s.scale f o.sd.toNat).mode == mUNIT

/-- fp32_rne(1 / E0). -/
def recipLen (n : Nat) : Num := rne32 (.fin (1 / (n : Rat)))

/-- One row reduced in the floating path. -/
def vredRow (fn : Nat) (l : List Num) : Num :=
  match fn with
  | 0 => rowSum l
  | 1 => rne32 (foldBest Num.max l)
  | 2 => rne32 (foldBest Num.min l)
  | 3 => rne32 (foldBest Num.max (l.map Num.abs))
  | 4 => rowSumSq l
  | 5 => Num.ofInt (argMax l)
  | _ => mul32 (rowSum l) (recipLen l.length)

/-- One row reduced in the integer path. -/
def vredIntRow (fn : Nat) (l : List Num) : Num × Bool :=
  match fn with
  | 0 => let r := stickySum (l.map fun x => x.rat.num)
    (Num.ofInt r.1, r.2)
  | 1 => (foldBest Num.max l, false)
  | 2 => (foldBest Num.min l, false)
  | 3 => (foldBest Num.max (l.map Num.abs), false)
  | 5 => (Num.ofInt (argMax l), false)
  | _ => let r := stickySum (l.map fun x => x.rat.num)
    ((Num.ofInt r.1).mul (recipLen l.length), r.2)

/-- Checks of VRED. -/
def vredChk (s : State) (f : Nat) (o : FmtT) : Chk :=
  let a := s.desc f o.da.toNat
  let d := s.desc f o.dd.toNat
  Chk.all [
    .need (decide (o.fn.toNat ≤ 6) && rmodeOk o && o.db == 0 && o.dc == 0 && o.sb == 0),
    vecDstChk s f o srcModes,
    vecSrcChk s f o.da.toNat 1 (s.scale f o.sa.toNat) srcModes,
    .need (d.rank == a.rank && d.e0 == 1 && d.e1 == a.e1 && d.e2 == a.e2 && d.e3 == a.e3),
    .need ((o.fn != 5 || d.fmt == fINT32) && !(o.fn == 4 && vredInt s f o))]

/-- What VRED takes. -/
def vredSrc (s : State) (f : Nat) (o : FmtT) : VecSrc :=
  let int := vredInt s f o
  { more := [], scs := [o.sa.toNat], src := if o.fn = 5 ∨ (int ∧ o.fn ≠ 6) then fINT32 else fFP32
    rows := (s.vewRows f int o.da.toNat (s.scale f o.sa.toNat)).map fun r =>
      if int then [vredIntRow o.fn.toNat (r.map (·.1))]
      else [(vredRow o.fn.toNat (r.map (·.1)), r.any (·.2))] }

/-- VRED: reduces each row along dimension 0 (R161). -/
def execVred (f : Fin 6) (h : Hdr) (o : FmtT) (s : State) : Out := issueVec s f h (.vred f h o) o (vredChk s f o) vredSrc

/-! ## VNORM and VSMX (R162, R163) -/

/-- One normalised row. -/
def normRow (layer : Bool) (e : Nat) (gain bias : Option (List Num)) (x : List Num) : List Num :=
  let inv := recipLen x.length
  let mean := if layer then mul32 (rowSum x) inv else .zero false
  let d := x.map fun v => rne32 (v.sub mean)
  let var := mul32 (rowSumSq d) inv
  let ve := var.add (if e = 0 then .zero false else .fin (pow2 (-(e : Int))))
  let r := vtr 4 (rne32 ve)
  d.zipIdx.map fun p =>
    let y := if ve.eqv (.zero false) then .zero false else mul32 p.1 r
    let y := match gain with
      | some g => mul32 y (g.getD p.2 (.zero false))
      | none => y
    match bias with
    | some b => add32 y (b.getD p.2 (.zero false))
    | none => y

/-- Checks of VNORM. -/
def vnormChk (s : State) (f : Nat) (o : FmtT) : Chk :=
  let a := s.desc f o.da.toNat
  let d := s.desc f o.dd.toNat
  let g := bitOf o.fn.toNat 1
  let b := bitOf o.fn.toNat 2
  let vecOk := fun (n : Nat) =>
    let x := s.desc f n
    x.rank == a.rank && x.e0 == a.e0 && x.e1 == 1 && x.e2 == 1 && x.e3 == 1
  Chk.all [
    .need (rmodeOk o && (g || o.db == 0) && (b || o.dc == 0) && o.sb == 0),
    vecDstChk s f o dstModes,
    vecSrcChk s f o.da.toNat 1 (s.scale f o.sa.toNat) srcModes,
    (if g then vecSrcChk s f o.db.toNat 2 unitScale srcModes else .pass),
    (if b then vecSrcChk s f o.dc.toNat 3 unitScale srcModes else .pass),
    .need (d.rank == a.rank && d.sameExt a && (!g || vecOk o.db.toNat) && (!b || vecOk o.dc.toNat))]

/-- What VNORM takes. -/
def vnormSrc (s : State) (f : Nat) (o : FmtT) : VecSrc :=
  let fn := o.fn.toNat
  let one := fun (use : Bool) (n : Nat) =>
    if use then some (((s.vecRows f (s.tref f n) unitScale).headD []).map (·.1)) else none
  { more := (if bitOf fn 1 then [o.db.toNat] else []) ++ (if bitOf fn 2 then [o.dc.toNat] else []), scs := [o.sa.toNat]
    src := fFP32
    rows := (s.vecRows f (s.tref f o.da.toNat) (s.scale f o.sa.toNat)).map fun r =>
      let hit := r.any (·.2)
      (normRow (bitOf fn 0) (bits fn 7 3) (one (bitOf fn 1) o.db.toNat) (one (bitOf fn 2) o.dc.toNat) (r.map (·.1))).map
        fun y => (y, hit) }

/-- VNORM: RMS or layer normalisation of each row (R162). -/
def execVnorm (f : Fin 6) (h : Hdr) (o : FmtT) (s : State) : Out := issueVec s f h (.vnorm f h o) o (vnormChk s f o) vnormSrc

/-- One row of softmax (R163). -/
def softmaxRow (x : List Num) : List Num :=
  if x.any fun v => v.isNan || v == .inf false then x.map fun _ => .nan
  else
    let mx := foldBest Num.max x
    if mx == .inf true then x.map fun _ => .zero false
    else
      let e := x.map fun v => vtr 0 (rne32 (v.sub mx))
      let r := vtr 3 (rowSum e)
      e.map fun v => mul32 v r

/-- What VSMX takes. -/
def vsmxSrc (s : State) (f : Nat) (o : FmtT) : VecSrc :=
  { more := [], scs := [o.sa.toNat], src := fFP32
    rows := (s.vecRows f (s.tref f o.da.toNat) (s.scale f o.sa.toNat)).map fun r =>
      let hit := r.any (·.2)
      (softmaxRow (r.map (·.1))).map fun y => (y, hit) }

/-- VSMX: softmax of each row (R163). -/
def execVsmx (f : Fin 6) (h : Hdr) (o : FmtT) (s : State) : Out :=
  issueVec s f h (.vsmx f h o) o (unaryChk s f o (o.fn == 0)) vsmxSrc

/-! ## QNT (R164) -/

/-- Checks of QNT. -/
def qntChk (s : State) (f : Nat) (o : FmtT) : Chk :=
  let a := s.desc f o.da.toNat
  let d := s.desc f o.dd.toNat
  let sa := s.scale f o.sa.toNat
  Chk.all [
    .need (rmodeOk o && o.db == 0 && o.dc == 0 && o.sb == 0 && o.fn == 0),
    vecDstChk s f o [mUNIT, mUNIFORM, mROW, mROWDYN, mMX, mRESCALE],
    vecSrcChk s f o.da.toNat 1 sa [mUNIT, mUNIFORM, mROW, mMX, mCODEBOOK],
    cbOk s f sa a.fmt a.rows,
    .need (d.rank == a.rank && d.sameExt a && (sa.mode != mMX || (mxEmax a.fmt).isSome))]

/-- What QNT takes: with both scales UNIT the conversion of R45 to R47 is direct. -/
def qntSrc (s : State) (f : Nat) (o : FmtT) : VecSrc :=
  let sa := s.scale f o.sa.toNat
  let plain := sa.mode == mUNIT && (s.scale f o.sd.toNat).mode == mUNIT
  { more := [], scs := [o.sa.toNat], src := if plain then (s.desc f o.da.toNat).fmt else fFP32
    rows := s.vewRows f plain o.da.toNat sa }

/-- QNT: convert, quantise, dequantise, rescale (R164). -/
def execQnt (f : Fin 6) (h : Hdr) (o : FmtT) (s : State) : Out := issueVec s f h (.qnt f h o) o (qntChk s f o) qntSrc

/-! ## VRND (R165) -/

/-- Is p usable in BERN: mode UNIFORM, no low bits, not NaN (R59, R165)? -/
def bernOk (sc : Scale) : Bool := sc.mode == mUNIFORM && sc.value % 65536 == 0 && !(fp32Val sc.value).isNan

/-- floor(p × 2^32), held in 0 to 2^32. -/
def bernLimit (p : Num) : Nat :=
  match p with
  | .inf n => if n then 0 else 2 ^ 32
  | .fin q => if 1 ≤ q then 2 ^ 32 else (q * 2 ^ 32).floor.toNat
  | _ => 0

/-- Checks of VRND. RMODE and SAT of BITS and BERN, which round nothing, may have any value but a reserved RMODE, and SRH makes the
issue non-deterministic with them too: the spec does not say whether such a field is one "that the instruction does not use"
(DESIGN CHOICE, assumption 111). -/
def vrndChk (s : State) (f : Nat) (o : FmtT) : Chk :=
  let fn := o.fn.toNat
  Chk.all [
    .need (decide (fn ≤ 2) && rmodeOk o && o.da == 0 && o.db == 0 && o.dc == 0 && o.sb == 0 && o.sd == 0
      && (fn == 2 || o.sa == 0)),
    checkDesc s f o.dd.toNat 0 fun d => dstOk d && dstFmtOk d.fmt && (fn != 0 || isIntFmt d.fmt),
    .need (fn != 2 || bernOk (s.scale f o.sa.toNat))]

/-- The element that draw `u` gives. -/
def vrndElem (c : NarrowCtx) (fn fmt limit u i : Nat) : Narrowed :=
  if fn = 0 then ⟨u % 2 ^ fmtBits fmt, false, false⟩
  else if fn = 1 then convert fFP32 fmt c.mode c.sat (c.draw i) (Num.ofRat ((bits u 63 40 : Rat) * pow2 (-24)))
  else convert fFP32 fmt c.mode c.sat (c.draw i) (Num.ofInt (if bits u 63 32 < limit then 1 else 0))

/-- What VRND writes. -/
def vrndOut (v : State) (f : Nat) (o : FmtT) : TOut :=
  let d := v.desc f o.dd.toNat
  let limit := bernLimit (fp32Val (v.scale f o.sa.toNat).value)
  let c := v.narrowCtx f o
  let rows := (List.range d.rows).map fun r => (List.range d.e0).map fun i =>
    let k := r * d.e0 + i
    vrndElem c o.fn.toNat d.fmt limit
      (roll (BitVec.ofNat 64 c.seed) (BitVec.ofNat 64 (c.seed / 2 ^ 64)) c.stream c.step k).toNat k
  ⟨some (v.tref f o.dd.toNat), numbered (rows.map fun r => r.map (·.code)), [], (rows.flatMap fun r => r.filter (·.sat)).length, [],
    (0, 0)⟩

/-- VRND: fills DD from the roll generator (R165). -/
def execVrnd (f : Fin 6) (h : Hdr) (o : FmtT) (s : State) : Out :=
  issueTensor s f h
    { ins := .vrnd f h o, unit := .vector, dd := o.dd.toNat, uses := [(o.dd.toNat, true)], isN := isSrh o, order := .loose, scratch := [] }
    (vrndChk s f o) (fun _ => []) (fun s => if isSrh o then (s.desc f o.dd.toNat).count else 0) (fun v => vrndOut v f o)

end Sys2Proof.Machine
end

