-- ==== Sys2Proof/Machine/Arrange.lean ====
section
/-! DEFINITION. Data rearrangement, state bank export and import, and layer digests: TRP, GATH, SCAT, GFA, RACC, SEXP,
SIMP, DGARM, DGOUT, DGRD (R166 to R171, R223 to R226, R290 to R293). -/

namespace Sys2Proof.Machine

/-- The fields of format T that an instruction does not use are 0: all scales, RMODE and SAT. -/
def noNarrow (o : FmtT) : Bool := o.sd == 0 && o.sa == 0 && o.sb == 0 && o.rmode == 0 && o.sat == 0

/-- Does DD meet a source of a copying instruction? -/
def copyMeets (s : State) (f : Nat) (o : FmtT) (srcs : List Nat) : Bool :=
  srcs.any fun n => dstMeets s f o ((s.tref f n).spans s)

/-- What a copying instruction writes: where DD overlaps a source the results are unpredictable (R158), and the codes written are
free values, taken after `extra` others. -/
def copyOut (v : State) (f : Nat) (o : FmtT) (srcs : List Nat) (extra : Nat) (t : TOut) : TOut :=
  if copyMeets v f o srcs then t.freed (v.fresh + extra) else t

/-- Issue an instruction of the vector unit that copies codes. -/
def issueCopy (s : State) (f : Fin 6) (h : Hdr) (ins : Instr) (o : FmtT) (chk : Chk) (srcs : List Nat) (isN : Bool) (extra : Nat)
    (more : List (Nat × Bool)) (compute : State → TOut) : Out :=
  issueTensor s f h
    { ins := ins, unit := .vector, dd := o.dd.toNat, uses := (srcs.map fun n => (n, false)) ++ [(o.dd.toNat, true)] ++ more, isN := isN
      order := .loose, scratch := [] }
    chk (fun s => srcs.flatMap fun n => (s.tref f n).spans s)
    (fun s => extra + if copyMeets s f o srcs then 8 * (s.desc f o.dd.toNat).count else 0) compute

/-! ## TRP (R166) -/

/-- Checks of TRP. -/
def trpChk (s : State) (f : Nat) (o : FmtT) : Chk :=
  let a := s.desc f o.da.toNat
  let d := s.desc f o.dd.toNat
  (Chk.all [
      .need (noNarrow o && o.db == 0 && o.dc == 0 && o.fn == 0),
      checkDesc s f o.dd.toNat 0 dstOk,
      checkDesc s f o.da.toNat 1 fun _ => true,
      .need (d.fmt == a.fmt && d.rank == a.rank && decide (2 ≤ a.rank) && d.e0 == a.e1 && d.e1 == a.e0 && d.e2 == a.e2
        && d.e3 == a.e3)])

/-- What TRP writes. -/
def trpOut (v : State) (f : Nat) (o : FmtT) : TOut :=
  let a := v.desc f o.da.toNat
  let d := v.desc f o.dd.toNat
  let rows := (v.tref f o.da.toNat).rowsOf v
  let out := (List.range d.rows).map fun r =>
    let plane := r / d.e1 * a.e1
    (List.range d.e0).map fun i => (rows.getD (plane + i) []).getD (r % d.e1) 0
  copyOut v f o [o.da.toNat] 0 ⟨some (v.tref f o.dd.toNat), numbered out, [], 0, [], (0, 0)⟩

/-- TRP: DA with dimensions 0 and 1 swapped. -/
def execTrp (f : Fin 6) (h : Hdr) (o : FmtT) (s : State) : Out :=
  issueCopy s f h (.trp f h o) o (trpChk s f o) [o.da.toNat] false 0 [] (fun v => trpOut v f o)

/-! ## GATH, SCAT, GFA (R167, R168) -/

/-- Checks of the three: `exact` is the side with one row for each index, `c` says whether DC is used. -/
def indexChk (s : State) (f : Nat) (o : FmtT) (exactDst useC : Bool) : Chk :=
  let a := s.desc f o.da.toNat
  let b := s.desc f o.db.toNat
  let d := s.desc f o.dd.toNat
  Chk.all [
    .need (noNarrow o && o.fn == 0 && (useC || o.dc == 0)),
    checkDesc s f o.dd.toNat 0 fun d => dstOk d && d.rank == 2,
    checkDesc s f o.da.toNat 1 fun d => d.rank == 2,
    checkDesc s f o.db.toNat 2 fun d => d.rank == 1 && d.fmt == fINT32,
    (if useC then checkDesc s f o.dc.toNat 3 fun d => dstOk d && d.rank == 1 && d.fmt == fINT32 else .pass),
    .need (a.fmt == d.fmt && a.e0 == d.e0 && (if exactDst then d.e1 else a.e1) == b.e0
      && (!useC || (s.desc f o.dc.toNat).e0 == b.e0))]

/-- The index vector. -/
def State.indices (s : State) (f n : Nat) : List Int := ((s.tref f n).flat s).map (signed 32)

/-- Row of A for an index; one outside gives zero codes. -/
def gatherRow (rows : List (List Nat)) (e0 : Nat) (i : Int) : List Nat :=
  if 0 ≤ i then rows.getD i.toNat (List.replicate e0 0) else List.replicate e0 0

/-- What GATH writes. -/
def gathOut (v : State) (f : Nat) (o : FmtT) : TOut :=
  let rows := (v.tref f o.da.toNat).rowsOf v
  let e0 := (v.desc f o.da.toNat).e0
  copyOut v f o [o.da.toNat, o.db.toNat] 0
    ⟨some (v.tref f o.dd.toNat), numbered ((v.indices f o.db.toNat).map (gatherRow rows e0)), [], 0, [], (0, 0)⟩

/-- GATH: DD row j is DA row DB[j] (R167). -/
def execGath (f : Fin 6) (h : Hdr) (o : FmtT) (s : State) : Out :=
  issueCopy s f h (.gath f h o) o (indexChk s f o true false) [o.da.toNat, o.db.toNat] false 0 [] (fun v => gathOut v f o)

/-- The rows SCAT writes: of equal indices the highest j, and none outside DD. -/
def scatterRows (idx : List Int) (rows : List (List Nat)) (limit : Nat) : List (Nat × List Nat) :=
  let l := (idx.zip rows).filter fun p => decide (0 ≤ p.1) && decide (p.1 < (limit : Int))
  (l.zipIdx.filter fun p => !((l.drop (p.2 + 1)).any fun q => q.1 == p.1.1)).map fun p => (p.1.1.toNat, p.1.2)

/-- What SCAT writes. -/
def scatOut (v : State) (f : Nat) (o : FmtT) : TOut :=
  copyOut v f o [o.da.toNat, o.db.toNat] 0 ⟨some (v.tref f o.dd.toNat),
    scatterRows (v.indices f o.db.toNat) ((v.tref f o.da.toNat).rowsOf v) (v.desc f o.dd.toNat).e1, [], 0, [], (0, 0)⟩

/-- SCAT: DD row DB[j] is DA row j (R167). -/
def execScat (f : Fin 6) (h : Hdr) (o : FmtT) (s : State) : Out :=
  issueCopy s f h (.scat f h o) o (indexChk s f o false false) [o.da.toNat, o.db.toNat] false 0 [] (fun v => scatOut v f o)

/-- Positions 0 to n − 1 in the order of the arrival keys of free value `k`. -/
def arrivalOrder (k n : Nat) : List Nat :=
  ((List.range n).map fun j => (Config.arrival k j, j)).mergeSort (fun a b => decide (a.1 ≤ b.1)) |>.map (·.2)

/-- What GFA writes. -/
def gfaOut (v : State) (f : Nat) (o : FmtT) : TOut :=
  let rows := (v.tref f o.da.toNat).rowsOf v
  let e0 := (v.desc f o.da.toNat).e0
  let idx := v.indices f o.db.toNat
  let order := arrivalOrder v.fresh idx.length
  copyOut v f o [o.da.toNat, o.db.toNat] 1
    ⟨some (v.tref f o.dd.toNat), numbered (order.map fun j => gatherRow rows e0 (idx.getD j (-1))), [], 0,
      [⟨v.tref f o.dc.toNat, numbered (order.map fun j => [j]) |>.map fun p => (p.1, p.2.headD 0), 0⟩], (0, 0)⟩

/-- GFA: gathers rows in the order in which they arrive, and writes their positions to DC (R168). -/
def execGfa (f : Fin 6) (h : Hdr) (o : FmtT) (s : State) : Out :=
  issueCopy s f h (.gfa f h o) o (indexChk s f o true true) [o.da.toNat, o.db.toNat] true 1 [(o.dc.toNat, true)]
    (fun v => gfaOut v f o)

/-! ## RACC (R169) -/

/-- A LIFE 1 buffer pinned to the Board. -/
def BufEnt.boardPinned (b : BufEnt) : Bool := b.life1 && bits b.record.toNat 39 38 == 1 && bits b.record.toNat 37 36 == 2

/-- Checks of RACC. -/
def raccChk (s : State) (f : Nat) (o : FmtT) : Chk :=
  let a := s.desc f o.da.toNat
  let d := s.desc f o.dd.toNat
  let pinned := match s.findBuf (s.face f).job d.bufId with
    | some (_, b) => b.boardPinned
    | none => false
  (Chk.all [
      .need (noNarrow o && o.db == 0 && o.dc == 0 && o.fn == 0),
      checkDesc s f o.dd.toNat 0 fun d => dstOk d && d.fmt == fFP32,
      checkDesc s f o.da.toNat 1 fun d => d.fmt == fFP32 || d.fmt == fBF16,
      .need (pinned && d.rank == a.rank && d.sameExt a)])

/-- What RACC adds: each piece of a row with the logical index of its first element. -/
def raccOut (v : State) (f : Nat) (o : FmtT) : TOut :=
  let a := v.desc f o.da.toNat
  let dst := v.tref f o.dd.toNat
  let rows := ((v.tref f o.da.toNat).rowsOf v).map fun r => r.map fun c => fp32Code (numOf a.fmt c)
  let fx := rows.zipIdx.flatMap fun p => ((dst.pieces v p.2).foldl (fun (acc : List Fx × Nat × List Nat) q =>
    (acc.1 ++ (match q.1 with
      | some k => [Fx.racc k acc.2.1 (acc.2.2.take q.2.2)]
      | none => []), acc.2.1 + q.2.2, acc.2.2.drop q.2.2)) ([], p.2 * dst.d.e0, p.1)).1
  ⟨none, [], fx, 0, [], (0, 0)⟩

/-- RACC: adds DA elementwise into DD at the Board, in order of arrival (R169). What it writes is folded into an armed slot as it
arrives (R171). -/
def execRacc (f : Fin 6) (h : Hdr) (o : FmtT) (s : State) : Out :=
  issueTensor s f h
    { ins := .racc f h o, unit := .vector, dd := o.dd.toNat, uses := [(o.da.toNat, false), (o.dd.toNat, true)], isN := true
      order := .loose, scratch := [] }
    (raccChk s f o) (fun s => (s.tref f o.da.toNat).spans s) (fun _ => 0) (fun v => raccOut v f o)

/-! ## SEXP and SIMP (R170, R223 to R225) -/

/-- Banks DC[3:0] to DC[3:0] + FN[3:0] exist and the upper bits are 0. -/
def bankSelOk (o : FmtT) : Bool :=
  decide (o.dc.toNat < 16) && decide (o.fn.toNat < 16) && decide (o.dc.toNat + o.fn.toNat ≤ 15)

/-- Payload of an image: banks in ascending order, raw (R224); a word of no defined value is free (R209). -/
def State.bankBytes (s : State) (f first n : Nat) : List Byte :=
  (List.range n).flatMap fun i =>
    let k := bankKey f (first + i)
    if bitOf (s.face f).accMixed ((first + i) / 4) then (List.range 16384).flatMap fun w => leBytes 4 (s.bankNat f (k + 4 * w) 4)
    else s.load k 65536

/-- The image digest: 64 bytes of SHAKE256 over the whole image, as a little-endian number (R88). -/
def imageDigest (img : JobImage) : Nat := leNat (shake256 64 img.bytes)

/-- The low 64 bits of a job image's digest (R88). -/
def imageTag (img : JobImage) : Nat := imageDigest img % 2 ^ 64

/-- An image of banks (R223). -/
def bankImage (first n jstep stream tag : Nat) (payload : List Byte) : List Byte :=
  let head := leBytes 4 0x3142534E ++ leBytes 1 1 ++ leBytes 1 n ++ leBytes 1 first ++ leBytes 1 0 ++ leBytes 8 jstep
    ++ leBytes 4 stream ++ leBytes 4 0 ++ leBytes 8 tag ++ leBytes 16 0 ++ leBytes 8 (crc64Ecma payload)
  head ++ leBytes 8 (crc64Ecma head) ++ payload

/-- Status of an image (R225): the first check that fails, or 0. -/
def imageStatus (img : List Byte) (n tag : Nat) : Nat :=
  let at_ := fun (k len : Nat) => leNat ((img.drop k).take len)
  if at_ 0 4 ≠ 0x3142534E then 1
  else if at_ 4 1 ≠ 1 then 2
  else if at_ 5 1 ≠ n then 3
  else if at_ 56 8 ≠ crc64Ecma (img.take 56) then 4
  else if at_ 48 8 ≠ crc64Ecma (img.drop 64) then 5
  else if at_ 24 8 ≠ tag then 6
  else 0

/-- Tag of the image of the job on Face `f`. -/
def State.faceTag (s : State) (f : Nat) : Nat :=
  match s.job (s.face f).job with
  | some jb => imageTag jb.img
  | none => 0

/-- A UINT8 vector of `n` elements. -/
def isBytes (n : Nat) (d : Desc) : Bool := d.plain && d.fmt == fUINT8 && d.rank == 1 && d.e0 == n

/-- Checks of SEXP. A bank that another partition reserves may not be named (R251). -/
def sexpChk (s : State) (f : Nat) (o : FmtT) : Chk :=
  let n := o.fn.toNat + 1
  ((Chk.need (noNarrow o && o.da == 0 && o.db == 0 && bankSelOk o && banksAllowed s f o.dc.toNat n)).and
      (checkDesc s f o.dd.toNat 0 (isBytes (64 + 65536 * n))))

/-- What SEXP writes. -/
def sexpOut (v : State) (f : Nat) (o : FmtT) : TOut :=
  let n := o.fn.toNat + 1
  let fs := v.face f
  let img := bankImage o.dc.toNat n (fs.jstep.getD 0) fs.stream (v.faceTag f) (v.bankBytes f o.dc.toNat n)
  ⟨some (v.tref f o.dd.toNat), [(0, img.map (·.toNat))], [], 0, [], (0, 0)⟩

/-- SEXP: exports banks to an image (R170). It waits in the tile queue for the writers ahead of it. -/
def execSexp (f : Fin 6) (h : Hdr) (o : FmtT) (s : State) : Out :=
  issueTensor s f h
    { ins := .sexp f h o, unit := .tile, dd := o.dd.toNat, uses := [(o.dd.toNat, true)], isN := false, order := .afterAll, scratch := [] }
    (sexpChk s f o) (fun _ => []) (fun s => s.bankFree f) (fun v => sexpOut v f o)

/-- Checks of SIMP. A bank that another partition reserves may not be named (R251). -/
def simpChk (s : State) (f : Nat) (o : FmtT) : Chk :=
  let n := o.fn.toNat + 1
  (Chk.all [.need (noNarrow o && o.db == 0 && bankSelOk o && banksAllowed s f o.dc.toNat n),
      checkDesc s f o.dd.toNat 0 (isBytes 8),
      checkDesc s f o.da.toNat 1 (isBytes (64 + 65536 * n))])

/-- What SIMP does. -/
def simpOut (v : State) (f : Nat) (o : FmtT) : TOut :=
  let n := o.fn.toNat + 1
  let img := ((v.tref f o.da.toNat).flat v).map fun c => BitVec.ofNat 8 c
  let st := imageStatus img n (v.faceTag f)
  let key := bankKey f o.dc.toNat
  ⟨some (v.tref f o.dd.toNat), [(0, [st, 0, 0, 0, 0, 0, 0, 0])],
    if st = 0 then [.store key (img.drop 64)] else [.zero key (65536 * n), .count (Reg.REC_SIMPFAIL f) 1], 0, [], (0, 0)⟩

/-- SIMP: imports an image into banks, or zeroes them, and writes a status word (R170, R225). It waits in the tile queue for the
instructions ahead of it. -/
def execSimp (f : Fin 6) (h : Hdr) (o : FmtT) (s : State) : Out :=
  issueTensor s f h
    { ins := .simp f h o, unit := .tile, dd := o.dd.toNat, uses := [(o.da.toNat, false), (o.dd.toNat, true)], isN := false
      order := .afterAll, scratch := [] }
    (simpChk s f o) (fun s => (s.tref f o.da.toNat).spans s) (fun _ => 0) (fun v => simpOut v f o)
    (fun t => t.banksDefined f o.dc.toNat (o.fn.toNat + 1))

/-! ## Layer digests (R171, R290 to R293) -/

/-- A digest record: both CRCs of the canonical bytes, elements folded, elements of the extent. -/
def digestRecord (bs : List Byte) (folded count : Nat) : List Byte :=
  leBytes 8 (crc64Ecma bs) ++ leBytes 8 (crc64Iso bs) ++ leBytes 8 folded ++ leBytes 8 count

/-- The canonical byte sequence of rows of codes (R291). -/
def canonical (fmt : Nat) (rows : List (List Nat)) : List Byte := rows.flatMap (packCodes fmt)

/-- The record of a slot. -/
def DigSlot.record (g : DigSlot) : List Byte :=
  let d := descOf (BitVec.ofNat 256 g.desc)
  digestRecord (canonical d.fmt ((List.range d.rows).map fun r => (List.range d.e0).map fun i =>
    Map.get 0 g.codes (r * d.e0 + i))) g.folded d.count

/-- Slot selected by DC[2:0]. -/
def slotOk (o : FmtT) : Bool := decide (o.dc.toNat < 8)

/-- Checks of DGARM. -/
def dgarmChk (s : State) (f : Nat) (o : FmtT) : Chk :=
  ((Chk.need (noNarrow o && o.dd == 0 && o.db == 0 && o.fn == 0 && slotOk o)).and
      (checkDesc s f o.da.toNat 1 fun _ => true))

/-- An entry whose writes no longer fold into slot `k`: the slot has been armed anew (R171, R292). -/
def Entry.unfold (k : Nat) (e : Entry) : Entry :=
  { e with
    folds := putBits e.folds k k 0
    redo := e.redo.map fun r => { r with folds := r.folds.map fun p => (p.1, putBits p.2 k k 0) } }

/-- DGARM: latches DA in a slot and starts a fresh digest as it issues; it takes a place in the digest unit's queue (R143, R171). -/
def execDgarm (f : Fin 6) (h : Hdr) (o : FmtT) (s : State) : Out :=
  issue s f h ((dgarmChk s f o).and (if unitFree (s.face f) .digest then .pass else .hold)) fun s =>
    let fs := s.face f
    let k := o.dc.toNat
    let s := s.setFace f { fs with
      window := fs.window.map (Entry.unfold k)
      digs := Map.put DigSlot.off fs.digs k { armed := true, desc := noTier (fs.dReg o.da.toNat), codes := [], folded := 0 } }
    .next (s.enter f h (Entry.of .digest))

/-- The log entry of a DGOUT but for PERT and TIME, which it takes as it completes (R293). -/
def dgoutLog (s : State) (f tag : Nat) (r : List Byte) : List Byte :=
  let fs := s.face f
  let dev := match s.job fs.job with
    | some jb => if 1 < jb.img.devices then jb.device else 0
    | none => 0
  let partial_ := leNat ((r.drop 16).take 8) != leNat ((r.drop 24).take 8)
  leBytes 8 (fs.jstep.getD 0) ++ leBytes 4 fs.cmdno ++ leBytes 1 fs.vf ++ leBytes 1 tag ++ leBytes 1 (min 255 fs.ord)
    ++ leBytes 1 ((if fs.taint then 1 else 0) + (if partial_ then 2 else 0)) ++ r ++ leBytes 1 dev ++ leBytes 7 0
    ++ leBytes 8 0

/-- Checks of DGOUT. -/
def dgoutChk (s : State) (f : Nat) (o : FmtT) : Chk :=
  let slot := Map.get DigSlot.off (s.face f).digs o.dc.toNat
  let busy := (s.face f).window.any fun e => bitOf e.folds o.dc.toNat
  (Chk.all [.need (noNarrow o && o.da == 0 && o.db == 0 && slotOk o && slot.armed),
      checkDesc s f o.dd.toNat 0 (isBytes 32),
      (if busy then .hold else .pass)])

/-- DGOUT: once every write that folds into the slot has completed, writes and logs the digest record (R171, R293). -/
def execDgout (f : Fin 6) (h : Hdr) (o : FmtT) (s : State) : Out :=
  let slot := Map.get DigSlot.off (s.face f).digs o.dc.toNat
  issueTensor s f h
    { ins := .dgout f h o, unit := .digest, dd := o.dd.toNat, uses := [(o.dd.toNat, true)], isN := false, order := .loose, scratch := [] }
    (dgoutChk s f o) (fun _ => []) (fun _ => 0)
    (fun v =>
      let r := slot.record
      ⟨some (v.tref f o.dd.toNat), [(0, r.map (·.toNat))],
        [.log (v.face f).job (dgoutLog v f o.fn.toNat r)], 0, [], (0, 0)⟩)
    (fun t => t.setFace f { t.face f with
      digs := Map.put DigSlot.off (t.face f).digs o.dc.toNat DigSlot.off, ord := (t.face f).ord + 1 })

/-- Checks of DGRD. -/
def dgrdChk (s : State) (f : Nat) (o : FmtT) : Chk :=
  (Chk.all [.need (noNarrow o && o.db == 0 && o.dc == 0 && o.fn == 0),
      checkDesc s f o.dd.toNat 0 (isBytes 32),
      checkDesc s f o.da.toNat 1 fun _ => true])

/-- What DGRD writes. -/
def dgrdOut (v : State) (f : Nat) (o : FmtT) : TOut :=
  let a := v.desc f o.da.toNat
  copyOut v f o [o.da.toNat] 0 ⟨some (v.tref f o.dd.toNat),
    [(0, (digestRecord (canonical a.fmt ((v.tref f o.da.toNat).rowsOf v)) a.count a.count).map (·.toNat))], [], 0, [], (0, 0)⟩

/-- DGRD: reads DA and writes the same record, with both counts equal (R171). -/
def execDgrd (f : Fin 6) (h : Hdr) (o : FmtT) (s : State) : Out :=
  issueCopy s f h (.dgrd f h o) o (dgrdChk s f o) [o.da.toNat] false 0 [] (fun v => dgrdOut v f o)

end Sys2Proof.Machine
end

