-- ==== Sys2Proof/Machine/Attn.lean ====
section
/-! DEFINITION. Attention: ATTN, ATTNB and the cache writer KVPUT (R174 to R190, R196 to R199). -/

namespace Sys2Proof.Machine

/-! ## Operands (R174 to R177) -/

/-- Formats of queries. -/
def qFmtOk (fmt : Nat) : Bool := [fBF16, fFP16, fFP32, fFP8A, fFP8B, fINT8].contains fmt
/-- Formats of keys and values. -/
def kvFmtOk (fmt : Nat) : Bool := qFmtOk fmt || [fFP6A, fFP6B, fFP4, fINT4].contains fmt

/-- Extents of a descriptor, dimension 3 first. -/
def Desc.ext (d : Desc) : List Nat := [d.e3, d.e2, d.e1, d.e0]

/-- The indices of the attention operands: Q, K, V, parameters, mask. -/
structure AttnOps where
  q : Nat
  k : Nat
  v : Nat
  par : Nat
  causal : Bool
  masked : Bool
  deriving DecidableEq, Repr

/-- The fixed scale registers s12 to s15 are used, so SA, SB and SD are 0 (R174). -/
def fixedScales (o : FmtT) : Bool := o.sd == 0 && o.sa == 0 && o.sb == 0

/-- Checks of the operands that ATTN and ATTNB share (R177). -/
def attnSrcChk (s : State) (f : Nat) (x : AttnOps) : Chk :=
  let q := s.desc f x.q
  let k := s.desc f x.k
  let v := s.desc f x.v
  let p := s.desc f x.par
  let m := s.desc f (x.par + 1)
  let fs := s.face f
  Chk.all [
    .need (decide (x.v ≤ 63) && (!x.masked || decide (x.par + 1 ≤ 63))),
    checkDesc s f x.q 1 fun d => d.rank == 4 && qFmtOk d.fmt && decide (d.e1 ≤ 128) && decide (d.e0 ≤ 256),
    checkDesc s f x.k 2 fun d => d.rank == 4 && kvFmtOk d.fmt,
    checkDesc s f x.v 2 fun d => d.rank == 4 && kvFmtOk d.fmt && decide (d.e0 ≤ 128),
    checkDesc s f x.par 3 fun d => d.rank == 2 && d.fmt == fINT32 && d.layout == 0,
    (if x.masked then checkDesc s f (x.par + 1) 3 fun d => d.rank == 3 && d.fmt == fUINT8 else .pass),
    .need (k.e3 == q.e3 && v.e3 == q.e3 && v.e2 == k.e2 && v.e1 == k.e1 && k.e0 == q.e0 && q.e2 % k.e2 == 0
      && p.e1 == q.e3 && p.e0 == 4 && (!x.masked || (m.e2 == q.e3 && m.e1 == q.e1 && m.e0 == k.e1))
      && k.layout == v.layout && (k.layout != 2 || k.pt == v.pt)),
    checkScale s f 1 (s.scale f 12) srcModes (scaleNeed q.rows q.e0) 0,
    checkScale s f 2 (s.scale f 13) srcModes (scaleNeed k.rows k.e0) 0,
    checkScale s f 2 (s.scale f 14) srcModes (scaleNeed v.rows v.e0) 0,
    checkPagedScale s f q (s.scale f 12), checkPagedScale s f k (s.scale f 13), checkPagedScale s f v (s.scale f 14),
    .need (bits (s.liveMask f fs.job fs.vf) 15 8 == 0)]

/-- Spans the shared operands read. -/
def attnSpans (s : State) (f : Nat) (x : AttnOps) : List (Nat × Nat) :=
  (s.tref f x.q).spans s ++ (s.tref f x.k).spans s ++ (s.tref f x.v).spans s ++ (s.tref f x.par).spans s
    ++ (if x.masked then (s.tref f (x.par + 1)).spans s else [])
    ++ s.scaleSpans f (s.scale f 12) ++ s.scaleSpans f (s.scale f 13) ++ s.scaleSpans f (s.scale f 14)

/-! ## Which keys a row sees (R175, R178, R188) -/

/-- Everything read that decides keys and scores. -/
structure AttnData where
  q : List (List (Num × Bool))
  k : List (List (Num × Bool))
  v : List (List (Num × Bool))
  /-- KV_LEN, Q_POS0, WIN by sequence -/
  par : List (List Int)
  mask : List (List Nat)
  /-- presence of each page of each sequence, by sequence and page; empty where the layout is not PAGED -/
  pages : List (List Bool)
  hq : Nat
  hk : Nat
  lq : Nat
  tcap : Nat
  causal : Bool
  masked : Bool
  deriving DecidableEq, Repr

/-- Presence of the pages of a PAGED tensor. -/
def TRef.presence (s : State) (t : TRef) : List (List Bool) :=
  match t.pt with
  | none => []
  | some pt => (List.range t.d.e3).map fun i => (List.range (t.d.e1 / 256)).map fun p =>
    !pageAbsent pt.2.2 (pageEntry s pt i (256 * p))

/-- Read the operands. -/
def State.attnData (s : State) (f : Nat) (x : AttnOps) : AttnData :=
  let tq := s.tref f x.q
  let tk := s.tref f x.k
  let tv := s.tref f x.v
  let pk := tk.presence s
  let pv := tv.presence s
  { q := s.macRows f tq (s.scale f 12), k := s.macRows f tk (s.scale f 13), v := s.macRows f tv (s.scale f 14),
    par := ((s.tref f x.par).rowsOf s).map fun r => r.map (signed 32),
    mask := if x.masked then (s.tref f (x.par + 1)).rowsOf s else [],
    pages := List.zipWith (List.zipWith (· && ·)) pk pv,
    hq := tq.d.e2, hk := tk.d.e2, lq := tq.d.e1, tcap := tk.d.e1, causal := x.causal, masked := x.masked }

/-- Parameter `i` of sequence `n`; KV_LEN and WIN below 0 act as 0. -/
def AttnData.param (a : AttnData) (n i : Nat) : Int :=
  let v := (a.par.getD n []).getD i 0
  if i = 1 then v else max v 0

/-- The key lies on a present page. -/
def AttnData.present (a : AttnData) (n j : Nat) : Bool :=
  a.pages.isEmpty || (a.pages.getD n []).getD (j / 256) false

/-- Every condition of R178 but that of the page. -/
def AttnData.wanted (a : AttnData) (n i j : Nat) : Bool :=
  let pos := a.param n 1 + i
  decide ((j : Int) < min (a.param n 0) a.tcap) && (!a.causal || decide ((j : Int) ≤ pos))
    && (a.param n 2 == 0 || decide (pos - a.param n 2 + 1 ≤ (j : Int)))
    && (!a.masked || (a.mask.getD (n * a.lq + i) []).getD j 0 != 0)

/-- keep(s, h, i, j) of R178. -/
def AttnData.keep (a : AttnData) (n i j : Nat) : Bool := a.wanted n i j && a.present n j

/-- Key-value row of head `h` and key `j` of sequence `n`. -/
def AttnData.kvRow (a : AttnData) (n h j : Nat) : Nat := (n * a.hk + h / (a.hq / a.hk)) * a.tcap + j

/-- Query row. -/
def AttnData.qRow (a : AttnData) (n h i : Nat) : Nat := (n * a.hq + h) * a.lq + i

/-- The score of R179: the FP32 path of R151 over the key width. -/
def AttnData.score (a : AttnData) (n h i j : Nat) : Num :=
  (macFloat false (.zero false) ((a.q.getD (a.qRow n h i) []).map (·.1)) ((a.k.getD (a.kvRow n h j) []).map (·.1))).1

/-- Kept keys of a row in ascending order with their scores. -/
def AttnData.kept (a : AttnData) (n h i : Nat) : List (Nat × Num) :=
  ((List.range a.tcap).filter fun j => a.keep n i j).map fun j => (j, a.score n h i j)

/-- Has a stored scale that enters the row been clamped or replaced? -/
def AttnData.hit (a : AttnData) (n h i : Nat) (keys : List Nat) : Bool :=
  (a.q.getD (a.qRow n h i) []).any (·.2) ||
    keys.any fun j => (a.k.getD (a.kvRow n h j) []).any (·.2) || (a.v.getD (a.kvRow n h j) []).any (·.2)

/-! ## The forward row (R179 to R182) -/

/-- Running values of a row: maximum, sum, outputs, spoiled. -/
structure AttnRun where
  m : Num
  l : Num
  o : List Num
  bad : Bool
  deriving DecidableEq, Repr

/-- VTR EXP of a difference. -/
def expDiff (a b : Num) : Num := vtr 0 (rne32 (a.sub b))

/-- One block of 128 keys: `ks` its kept keys with their scores, `val` the value rows. -/
def attnBlock (pfmt : Nat) (val : Nat → List Num) (dv : Nat) (b : Nat) (ks : List (Nat × Num)) (r : AttnRun) : AttnRun :=
  if ks.isEmpty then r
  else
    let r := { r with bad := r.bad || ks.any fun k => k.2.isNan || k.2 == .inf false }
    let mb := foldBest Num.max (ks.map (·.2))
    if mb == .inf true then r
    else
      let mn := r.m.max mb
      let c := if r.m == .inf true then .zero false else expDiff r.m mn
      let ps := ks.map fun k => (k.1, numOf pfmt (narrowTo pfmt .rne true 0 (expDiff k.2 mn)).code)
      let lanes := (List.range 128).map fun i => match ps.find? fun p => p.1 == 128 * b + i with
        | some p => p.2
        | none => .zero false
      let groups := (List.range 4).map fun g => ps.filter fun p => p.1 / 32 == 4 * b + g
      { m := mn, l := add32 (mul32 r.l c) (blockSum lanes), bad := r.bad,
        o := (List.range dv).map fun ch => groups.foldl (fun acc g =>
          if g.isEmpty then acc
          else rne32 (acc.add (Num.sum (g.map fun p => p.2.mul ((val p.1).getD ch (.zero false))))))
          (mul32 (r.o.getD ch (.zero false)) c) }

/-- What a forward row leaves. -/
structure AttnRow where
  out : List (Num × Bool)
  status : Nat
  m : Num
  l : Num
  /-- a kept score was NaN, so R179 does not state the maximum -/
  mOpen : Bool
  /-- nor the sum, where no block makes it NaN whatever that maximum is -/
  lOpen : Bool
  deriving DecidableEq, Repr

/-- Do the kept scores make the sum NaN whatever the maximum of a block with a NaN is: +∞ stands somewhere, or a finite score
stands in the block of a NaN (R179)? -/
def sumIsNan (ks : List (Nat × Num)) : Bool :=
  ks.any (fun k => k.2 == .inf false) ||
    ks.any fun k => k.2.isNan && ks.any fun j => j.1 / 128 == k.1 / 128 && !j.2.isNan && !j.2.isInf

/-- Row i of pair (n, h) (R179, R182). -/
def AttnData.row (a : AttnData) (pfmt dv n h i : Nat) : AttnRow :=
  let ks := a.kept n h i
  let val := fun j => (a.v.getD (a.kvRow n h j) []).map (·.1)
  let r := (List.range ((a.tcap + 127) / 128)).foldl
    (fun r b => attnBlock pfmt val dv b (ks.filter fun k => k.1 / 128 == b) r)
    { m := .inf true, l := .zero false, o := List.replicate dv (.zero false), bad := false }
  let hit := a.hit n h i (ks.map (·.1))
  let clip := decide ((a.tcap : Int) < a.param n 0)
  let miss := (List.range a.tcap).any fun j => a.wanted n i j && !a.present n j
  let st := (if clip then 8 else 0) + (if miss then 4 else 0)
  let nan := ks.any fun k => k.2.isNan
  if r.bad then ⟨r.o.map fun _ => (.nan, hit), st + 2, r.m, if sumIsNan ks then .nan else r.l, nan, nan && !sumIsNan ks⟩
  else if r.m == .inf true then ⟨r.o.map fun _ => (.zero false, false), st + 1, .inf true, .zero false, false, false⟩
  else
    let rl := vtr 3 r.l
    ⟨r.o.map fun x => (mul32 x rl, hit), st, r.m, r.l, false, false⟩

/-- Counter updates for row statuses (R199). -/
def attnCounts (f : Nat) (sts : List Nat) : List Fx :=
  let n := fun k => (sts.filter fun x => bitOf x k).length
  [(Reg.ATTN_EMPTY f, n 0), (Reg.ATTN_NANROW f, n 1), (Reg.ATTN_PAGEMISS f, n 2), (Reg.ATTN_LENCLIP f, n 3)].filterMap
    fun p => if p.2 = 0 then none else some (Fx.count p.1 p.2)

/-- The accumulators ATTN works in become FP32 ones that hold +0 (R177). -/
def attnAcc (f : Nat) : List Fx := accClear f 2 ++ accClear f 3

/-- Checks of ATTN. -/
def attnChk (s : State) (f : Nat) (o : FmtT) : Chk :=
  let fn := o.fn.toNat
  let q := s.desc f o.da.toNat
  let v := s.desc f (o.db.toNat + 1)
  let d := s.desc f o.dd.toNat
  let st := s.desc f (o.dd.toNat + 1)
  let ss := s.desc f (o.dd.toNat + 2)
  let stats := bitOf fn 2
  let last := if stats then o.dd.toNat + 2 else o.dd.toNat + 1
  Chk.all [
    .need (fixedScales o && rmodeOk o && decide (fn < 16) && decide (last ≤ 63)),
    checkDesc s f o.dd.toNat 0 fun d => dstOk d && dstFmtOk d.fmt && d.rank == 4,
    attnSrcChk s f ⟨o.da.toNat, o.db.toNat, o.db.toNat + 1, o.dc.toNat, bitOf fn 0, bitOf fn 1⟩,
    checkDesc s f (o.dd.toNat + 1) 0 fun d => dstOk d && d.fmt == fUINT8 && d.rank == 3,
    (if stats then checkDesc s f (o.dd.toNat + 2) 0 fun d => dstOk d && d.fmt == fFP32 && d.rank == 4 else .pass),
    .need (d.ext == [q.e3, q.e2, q.e1, v.e0] && st.e2 == q.e3 && st.e1 == q.e2 && st.e0 == q.e1
      && (!stats || ss.ext == [q.e3, q.e2, q.e1, 2])),
    checkScale s f 0 (s.scale f 15) dstModes (scaleNeed d.rows d.e0) d.fmt,
    dstScaleOk s f 15]

/-- All forward rows in order (n, h, i). -/
def AttnData.rows (a : AttnData) (pfmt dv : Nat) : List AttnRow :=
  (List.range a.par.length).flatMap fun n => (List.range a.hq).flatMap fun h => (List.range a.lq).map fun i =>
    a.row pfmt dv n h i

/-- Operands of ATTN. -/
def attnOps (o : FmtT) : AttnOps :=
  ⟨o.da.toNat, o.db.toNat, o.db.toNat + 1, o.dc.toNat, bitOf o.fn.toNat 0, bitOf o.fn.toNat 1⟩

/-- Everything that decides the results of ATTN, as codes: what an open value depends on (R279). -/
def State.attnCodes (s : State) (f : Nat) (x : AttnOps) : List Nat :=
  ([x.q, x.k, x.v, x.par] ++ (if x.masked then [x.par + 1] else []) ++
    ((s.srcScales f [12, 13, 14]).map (·.1))).flatMap (fun n => (s.tref f n).flat s)
    ++ [12, 13, 14].map fun n => (s.scale f n).value

/-- The tiles ATTN and ATTNB use, all four, and those on which a score fails its residue check (R431). Which tiles a pass uses is not
stated (DESIGN CHOICE, assumption 112). -/
def AttnData.mac (a : AttnData) : Nat × Nat :=
  (15, if (List.range a.par.length).any fun n => (List.range a.hq).any fun h => (List.range a.lq).any fun i =>
    (a.kept n h i).any fun p => columnBad ((a.q.getD (a.qRow n h i) []).map (·.1)) ((a.k.getD (a.kvRow n h p.1) []).map (·.1))
  then 15 else 0)

/-- The statistics of a row (R181). What R179 leaves open is an open code, a function of what the instruction reads. -/
def AttnRow.stats (r : AttnRow) (codes : List Nat) (i : Nat) : List (Nat × Nat) :=
  [(2 * i, if r.mOpen then Config.openCode codes (2 * i) % 2 ^ 32 else fp32Code r.m),
    (2 * i + 1, if r.lOpen then Config.openCode codes (2 * i + 1) % 2 ^ 32 else fp32Code r.l)]

/-- What ATTN writes. -/
def attnOut (v : State) (f : Nat) (o : FmtT) : TOut :=
  let fn := o.fn.toNat
  let x := attnOps o
  let d := v.desc f o.dd.toNat
  let a := v.attnData f x
  let rows := a.rows (if bitOf fn 3 then fFP8A else fBF16) d.e0
  let dst := v.tref f o.dd.toNat
  let r := v.narrowRows f (v.narrowCtx f o) fFP32 dst (v.scale f 15) (rows.map (·.out))
  let st : More := ⟨v.tref f (o.dd.toNat + 1), rows.zipIdx.map fun p => (p.2, p.1.status), 0⟩
  let ss : List More := if bitOf fn 2 then [⟨v.tref f (o.dd.toNat + 2),
    let codes := fn :: v.attnCodes f x
    rows.zipIdx.flatMap fun p => p.1.stats codes p.2, 0⟩] else []
  ⟨some dst, numbered r.1, attnAcc f ++ attnCounts f (rows.map (·.status)), r.2.1, r.2.2 ++ st :: ss, a.mac⟩

/-- ACC2 and ACC3, in which ATTN and ATTNB work (R177). -/
def attnScratch (f : Nat) : List (Nat × Nat) := accSpans f 2 ++ accSpans f 3

/-- ATTN: multi-head attention (R174 to R182). -/
def execAttn (f : Fin 6) (h : Hdr) (o : FmtT) (s : State) : Out :=
  let x := attnOps o
  let d := s.desc f o.dd.toNat
  issueTensor s f h
    { ins := .attn f h o, unit := .tile, dd := o.dd.toNat, isN := isSrh o, order := .loose, scratch := attnScratch f
      uses := [(x.q, false), (x.k, false), (x.v, false), (x.par, false)] ++ (if x.masked then [(x.par + 1, false)] else [])
        ++ s.srcScales f [12, 13, 14] ++ [(o.dd.toNat, true), (o.dd.toNat + 1, true)]
        ++ (if bitOf o.fn.toNat 2 then [(o.dd.toNat + 2, true)] else []) ++ s.dstScale f 15 }
    (attnChk s f o) (fun s => attnSpans s f x ++ s.scaleSpans f (s.scale f 15))
    (fun _ => if isSrh o then d.count else 0) (fun v => attnOut v f o)
    (fun t => (t.setAccType f 2 false).setAccType f 3 false)

/-! ## Backward (R196, R197) -/

/-- One row's part of the gradients: dq, and for each kept key its (p, ds); `none` where the row contributes nothing. -/
structure AttnGrad where
  dq : List (Num × Bool)
  terms : List (Nat × Num × Num)
  hit : Bool
  status : Nat
  deriving DecidableEq, Repr

/-- Sum ds × k over the keys of a row, in groups of 32 keys. -/
def groupedSum (acc : Num) (terms : List (Nat × Num)) : Num :=
  let last := terms.foldl (fun m t => max m (t.1 / 32 + 1)) 0
  (List.range last).foldl (fun acc g =>
    let l := terms.filter fun t => t.1 / 32 == g
    if l.isEmpty then acc else rne32 (acc.add (Num.sum (l.map (·.2))))) acc

/-- Row i of pair (n, h) of the backward pass; `dO` and `O` widened rows, `m` and `l` its statistics. -/
def AttnData.grad (a : AttnData) (dk n h i : Nat) (dO O : List (Num × Bool)) (m l : Num) : AttnGrad :=
  let ks := a.kept n h i
  let clip := decide ((a.tcap : Int) < a.param n 0)
  let miss := (List.range a.tcap).any fun j => a.wanted n i j && !a.present n j
  let bad := ks.any fun k => k.2.isNan || k.2 == .inf false
  let st := (if clip then 8 else 0) + (if miss then 4 else 0) + (if bad then 2 else 0)
  if !(ks.any fun k => !k.2.isNan && !k.2.isInf) then
    ⟨List.replicate dk (.zero false, false), [], false, st + (if bad then 0 else 1)⟩
  else if l.isNan || l.isInf || !(Num.zero false).lt l || m.isNan || m.isInf then
    ⟨List.replicate dk (.nan, false), [], false, st⟩
  else
    let r := vtr 3 l
    let dd := rowSum (List.zipWith (fun x y => mul32 x.1 y.1) dO O)
    let terms := ks.map fun k =>
      let p := mul32 (expDiff k.2 m) r
      let dp := (macFloat false (.zero false) (dO.map (·.1)) ((a.v.getD (a.kvRow n h k.1) []).map (·.1))).1
      (k.1, p, mul32 p (rne32 (dp.sub dd)))
    let rowHit := (a.q.getD (a.qRow n h i) []).any (·.2) || dO.any (·.2) || O.any (·.2)
    let hit := rowHit || a.hit n h i (ks.map (·.1))
    ⟨(List.range dk).map fun ch => (groupedSum (.zero false) (terms.map fun t =>
        (t.1, t.2.2.mul ((a.k.getD (a.kvRow n h t.1) []).getD ch (.zero false, false)).1)), hit),
      terms, rowHit, st⟩

/-- Checks of ATTNB. -/
def attnbChk (s : State) (f : Nat) (o : FmtT) : Chk :=
  let fn := o.fn.toNat
  let q := s.desc f o.da.toNat
  let k := s.desc f (o.da.toNat + 1)
  let v := s.desc f (o.da.toNat + 2)
  let acc := bitOf fn 2
  let ok := fun (d : Desc) => d.layout == 0 && d.rank == 4 && (d.fmt == fFP32 || (!acc && d.fmt == fBF16))
  Chk.all [
    .need (fixedScales o && rmodeOk o && decide (fn < 16) && decide (o.db.toNat + 2 ≤ 63) && decide (o.dd.toNat + 2 ≤ 63)),
    checkDesc s f o.dd.toNat 0 ok, checkDesc s f (o.dd.toNat + 1) 0 ok, checkDesc s f (o.dd.toNat + 2) 0 ok,
    attnSrcChk s f ⟨o.da.toNat, o.da.toNat + 1, o.da.toNat + 2, o.dc.toNat, bitOf fn 0, bitOf fn 1⟩,
    checkDesc s f o.db.toNat 2 fun d => dstFmtOk d.fmt && d.rank == 4,
    checkDesc s f (o.db.toNat + 1) 2 fun d => dstFmtOk d.fmt && d.rank == 4,
    checkDesc s f (o.db.toNat + 2) 2 fun d => d.fmt == fFP32 && d.rank == 4,
    .need ((s.desc f o.db.toNat).ext == [q.e3, q.e2, q.e1, v.e0] && (s.desc f (o.db.toNat + 1)).ext == [q.e3, q.e2, q.e1, v.e0]
      && (s.desc f (o.db.toNat + 2)).ext == [q.e3, q.e2, q.e1, 2] && (s.desc f o.dd.toNat).ext == q.ext
      && (s.desc f (o.dd.toNat + 1)).ext == k.ext && (s.desc f (o.dd.toNat + 2)).ext == v.ext),
    checkScale s f 2 (s.scale f 15) srcModes (scaleNeed q.rows v.e0) 0,
    checkPagedScale s f (s.desc f o.db.toNat) (s.scale f 15)]

/-- Elements of dK or dV: for every key row, terms ordered by (h, i) in groups of 32 (R197). A row with no term keeps
what it held. -/
def AttnData.keyGrad (a : AttnData) (s : State) (t : TRef) (acc : Bool) (g : Nat → Nat → Nat → AttnGrad)
    (coef : Num × Num → Num) (row : Nat → List Num) (nv : Bool) (c : NarrowCtx) : More :=
  let per := a.hq / a.hk
  let all := (List.range t.d.rows).flatMap fun r =>
    let j := r % a.tcap
    let kh := r / a.tcap % a.hk
    let n := r / (a.tcap * a.hk)
    let terms := (List.range per).flatMap fun x => (List.range a.lq).filterMap fun i =>
      let gr := g n (kh * per + x) i
      (gr.terms.find? fun y => y.1 == j).map fun y =>
        (x * a.lq + i, coef y.2, a.qRow n (kh * per + x) i, gr.hit)
    let own := (a.k.getD r []).any (·.2) || (a.v.getD r []).any (·.2)
    if terms.isEmpty && acc then []
    else
      let old := if acc then t.row s r else List.replicate t.d.e0 0
      (List.range t.d.e0).map fun ch =>
        let i := r * t.d.e0 + ch
        let v := groupedSum (numOf t.d.fmt (old.getD ch 0))
          (terms.map fun y => (y.1, y.2.1.mul ((row y.2.2.1).getD ch (.zero false))))
        let w := narrowTo t.d.fmt c.mode c.sat (c.draw i) v
        (i, w.code, w.sat || (nv && w.lostNan) || (!terms.isEmpty && own) || terms.any (·.2.2.2))
  ⟨t, all.map fun e => (e.1, e.2.1), (all.filter fun e => e.2.2).length⟩

/-- Operands of ATTNB that ATTN has too. -/
def attnbOps (o : FmtT) : AttnOps :=
  ⟨o.da.toNat, o.da.toNat + 1, o.da.toNat + 2, o.dc.toNat, bitOf o.fn.toNat 0, bitOf o.fn.toNat 1⟩

/-- What ATTNB writes. -/
def attnbOut (v : State) (f : Nat) (o : FmtT) : TOut :=
  let x := attnbOps o
  let acc := bitOf o.fn.toNat 2
  let a := v.attnData f x
  let dO := v.macRows f (v.tref f o.db.toNat) (v.scale f 15)
  let O := v.macRows f (v.tref f (o.db.toNat + 1)) unitScale
  let st := (v.tref f (o.db.toNat + 2)).rowsOf v
  let dk := (v.desc f x.q).e0
  let g := fun n h i =>
    let r := a.qRow n h i
    let m := fp32Val ((st.getD r []).getD 0 0)
    let l := fp32Val ((st.getD r []).getD 1 0)
    a.grad dk n h i (dO.getD r []) (O.getD r []) m l
  let rows := (List.range a.par.length).flatMap fun n => (List.range a.hq).flatMap fun h =>
    (List.range a.lq).map fun i => g n h i
  let c := v.narrowCtx f o
  let dst := v.tref f o.dd.toNat
  let nq := (v.desc f o.dd.toNat).count
  let nk := (v.desc f (o.dd.toNat + 1)).count
  let r := v.narrowRows f c fFP32 dst unitScale (rows.map (·.dq))
  let gk := a.keyGrad v (v.tref f (o.dd.toNat + 1)) acc g (·.2) (fun r => (a.q.getD r []).map (·.1)) (v.nvEn f)
    { c with fresh := c.fresh + nq }
  let gv := a.keyGrad v (v.tref f (o.dd.toNat + 2)) acc g (·.1) (fun r => (dO.getD r []).map (·.1)) (v.nvEn f)
    { c with fresh := c.fresh + nq + nk }
  ⟨some dst, numbered r.1, attnAcc f ++ attnCounts f (rows.map (·.status)), r.2.1, [gk, gv], a.mac⟩

/-- ATTNB: gradients of attention (R196, R197). -/
def execAttnb (f : Fin 6) (h : Hdr) (o : FmtT) (s : State) : Out :=
  let x := attnbOps o
  let acc := bitOf o.fn.toNat 2
  let nq := (s.desc f o.dd.toNat).count
  let nk := (s.desc f (o.dd.toNat + 1)).count
  let nv := (s.desc f (o.dd.toNat + 2)).count
  issueTensor s f h
    { ins := .attnb f h o, unit := .tile, dd := o.dd.toNat, isN := isSrh o, order := .loose, scratch := attnScratch f
      uses := [(x.q, false), (x.k, false), (x.v, false), (o.db.toNat, false), (o.db.toNat + 1, false), (o.db.toNat + 2, false),
        (x.par, false)] ++ (if x.masked then [(x.par + 1, false)] else []) ++ s.srcScales f [12, 13, 14, 15]
        ++ (if acc then [(o.dd.toNat + 1, false), (o.dd.toNat + 2, false)] else [])
        ++ [(o.dd.toNat, true), (o.dd.toNat + 1, true), (o.dd.toNat + 2, true)] }
    (attnbChk s f o)
    (fun s => attnSpans s f x ++ (s.tref f o.db.toNat).spans s ++ (s.tref f (o.db.toNat + 1)).spans s
      ++ (s.tref f (o.db.toNat + 2)).spans s ++ s.scaleSpans f (s.scale f 15)
      ++ (if acc then (s.tref f (o.dd.toNat + 1)).spans s ++ (s.tref f (o.dd.toNat + 2)).spans s else []))
    (fun _ => if isSrh o then nq + nk + nv else 0) (fun v => attnbOut v f o)
    (fun t => (t.setAccType f 2 false).setAccType f 3 false)

/-! ## KVPUT (R190) -/

/-- Checks of KVPUT. -/
def kvputChk (s : State) (f : Nat) (o : FmtT) : Chk :=
  let d := s.desc f o.dd.toNat
  let a := s.desc f o.da.toNat
  let b := s.desc f o.db.toNat
  let c := s.desc f o.dc.toNat
  Chk.all [
    .need (fixedScales o && rmodeOk o && o.fn == 0),
    checkDesc s f o.dd.toNat 0 fun d => d.layout != 1 && d.rank == 4 && dstFmtOk d.fmt,
    checkDesc s f o.da.toNat 1 fun a => a.rank == 4 && !isCbFmt a.fmt && decide (a.e1 ≤ 256),
    checkDesc s f o.db.toNat 2 fun b => b.rank == 1 && b.fmt == fINT32,
    checkDesc s f o.dc.toNat 3 fun c => dstOk c && c.rank == 1 && c.fmt == fINT32,
    .need (a.e3 == d.e3 && a.e2 == d.e2 && a.e0 == d.e0 && b.e0 == d.e3 && c.e0 == d.e3),
    checkScale s f 1 (s.scale f 14) srcModes (scaleNeed a.rows a.e0) 0,
    checkScale s f 0 (s.scale f 15) dstModes (scaleNeed d.rows d.e0) d.fmt,
    checkPagedScale s f a (s.scale f 14), checkPagedScale s f d (s.scale f 15)]

/-- Row of the cache that row `r` of the new rows goes to, if it is written. -/
def kvDest (s : State) (t : TRef) (a : Desc) (start : List Int) (r : Nat) : Option Nat :=
  let n := r / (a.e1 * a.e2)
  let pos := start.getD n 0 + (r % a.e1 : Nat)
  if 0 ≤ pos ∧ pos < t.d.e1 then
    let row := (n * a.e2 + r / a.e1 % a.e2) * t.d.e1 + pos.toNat
    if (t.pieces s row).all (·.2.1) then some row else none
  else none

/-- Spans that KVPUT reads: the new rows, the start positions, the scales, and the page table it writes by. -/
def kvputReads (s : State) (f : Nat) (o : FmtT) : List (Nat × Nat) :=
  (s.tref f o.da.toNat).spans s ++ (s.tref f o.db.toNat).spans s ++ s.scaleSpans f (s.scale f 14)
    ++ s.scaleSpans f (s.scale f 15)
    ++ (match (s.tref f o.dd.toNat).pt with
      | some (k, st, _) => (List.range (s.desc f o.da.toNat).e3).map fun i => (k + i * st, 4 * ((s.desc f o.dd.toNat).e1 / 256))
      | none => [])

/-- What KVPUT writes. Rows of two sequences that land on one page race, and the bytes are unpredictable (R115). -/
def kvputOut (v : State) (f : Nat) (o : FmtT) : TOut :=
  let a := v.desc f o.da.toNat
  let sd := v.scale f 15
  let sa := v.scale f 14
  let dst := v.tref f o.dd.toNat
  let plain := sa.mode == mUNIT && sd.mode == mUNIT
  let start := v.indices f o.db.toNat
  let vals := v.vewRows f plain o.da.toNat sa
  let put := vals.zipIdx.filterMap fun p => (kvDest v dst a start p.2).map fun row => (p.2, row, p.1)
  let c := v.narrowCtx f o
  let vec := v.scaleVec f sd
  let k0 := v.fresh + (if isSrh o then dst.d.count else 0)
  let key := fun (row : Nat) => ((dst.pieces v row).head?.bind fun q => q.1).getD 0
  let outs := put.map fun p =>
    let r := narrowRow c (v.nvEn f) (if plain then a.fmt else fFP32) dst.d sd vec [] p.2.1 p.2.2
    let raced := put.any fun q => q.1 != p.1 && key q.2.1 == key p.2.1
    let fr := fun (fmt : Nat) (l : List Nat) (off : Nat) =>
      if raced then l.zipIdx.map fun e => freeCode fmt (k0 + 8 * (p.1 * a.e0 + e.2) + off) else l
    (p.2.1, fr dst.d.fmt r.codes 0, r.counted, fr (v.desc f sd.desc).fmt r.scales 4)
  let drops := (List.range a.e3).map fun n =>
    a.e2 * a.e1 - (put.filter fun p => p.1 / (a.e1 * a.e2) == n).length
  let total := drops.foldl (· + ·) 0
  ⟨some dst, outs.map fun x => (x.1, x.2.1), if total = 0 then [] else [.count (Reg.ATTN_KVDROP f) total],
    outs.foldl (fun n x => n + x.2.2.1) 0,
    ⟨v.tref f o.dc.toNat, drops.zipIdx.map fun p => (p.2, p.1), 0⟩ ::
      (if sd.mode = mROWDYN then [⟨v.tref f sd.desc, outs.flatMap fun x => x.2.2.2.map fun q => (x.1, q), 0⟩] else []), (0, 0)⟩

/-- KVPUT: writes new key or value rows into a cache (R190). -/
def execKvput (f : Fin 6) (h : Hdr) (o : FmtT) (s : State) : Out :=
  issueTensor s f h
    { ins := .kvput f h o, unit := .vector, dd := o.dd.toNat, isN := isSrh o, order := .loose, scratch := []
      uses := [(o.da.toNat, false), (o.db.toNat, false)] ++ s.srcScales f [14] ++ [(o.dd.toNat, true), (o.dc.toNat, true)]
        ++ s.dstScale f 15 }
    (kvputChk s f o) (fun s => kvputReads s f o)
    (fun s => (if isSrh o then (s.desc f o.dd.toNat).count else 0) + 8 * (s.desc f o.da.toNat).count)
    (fun v => kvputOut v f o)

end Sys2Proof.Machine
end

