-- ==== Sys2Proof/Machine/Conv.lean ====
section
/-! DEFINITION. Convolution: CONV and the reduction it shares with the Pip engine (R227 to R237). -/

namespace Sys2Proof.Machine

/-! ## Geometry (R229, R230) -/

/-- A geometry record. -/
structure Geo where
  sh : Int
  sw : Int
  dh : Int
  dw : Int
  pt : Int
  pb : Int
  pl : Int
  pr : Int
  groups : Int
  hg : Int
  iy0 : Int
  oy0 : Int
  padv : Int
  rest : List Int
  deriving DecidableEq, Repr

/-- Sixteen words as a record; PADV is a code (R229). -/
def geoOf (l : List Int) : Geo :=
  let g := fun i => l.getD i 0
  { sh := g 0, sw := g 1, dh := g 2, dw := g 3, pt := g 4, pb := g 5, pl := g 6, pr := g 7, groups := g 8, hg := g 9,
    iy0 := g 10, oy0 := g 11, padv := g 12 % 4294967296, rest := [g 13, g 14, g 15] }

/-- The sizes of a convolution. -/
structure ConvDim where
  hs : Nat
  w : Nat
  cin : Nat
  cout : Nat
  kh : Nat
  kw : Nat
  deriving DecidableEq, Repr

/-- HO (R230). -/
def Geo.ho (g : Geo) (d : ConvDim) : Int := (g.pt + g.hg + g.pb - g.dh * ((d.kh : Int) - 1) - 1) / g.sh + 1
/-- WO (R230). -/
def Geo.wo (g : Geo) (d : ConvDim) : Int := (g.pl + d.w + g.pr - g.dw * ((d.kw : Int) - 1) - 1) / g.sw + 1

/-- Does a value lie in a range? -/
def inRange (lo hi x : Int) : Bool := decide (lo ≤ x) && decide (x ≤ hi)

/-- Every word has a legal value, and the sizes are within their limits (R229, R231). `fmt` is X's format. -/
def Geo.legal (g : Geo) (d : ConvDim) (fmt : Nat) : Bool :=
  inRange 1 16 g.sh && inRange 1 16 g.sw && inRange 1 64 g.dh && inRange 1 64 g.dw
    && inRange 0 (g.dh * ((d.kh : Int) - 1)) g.pt && inRange 0 (g.dh * ((d.kh : Int) - 1)) g.pb
    && inRange 0 (g.dw * ((d.kw : Int) - 1)) g.pl && inRange 0 (g.dw * ((d.kw : Int) - 1)) g.pr
    && decide (0 < g.groups) && decide ((d.cin : Int) % g.groups = 0) && decide ((d.cout : Int) % g.groups = 0)
    && decide ((d.hs : Int) ≤ g.hg) && decide (0 ≤ g.iy0) && decide (g.iy0 + d.hs ≤ g.hg) && decide (0 ≤ g.oy0)
    && inRange 0 (2 ^ fmtBits fmt - 1) g.padv && g.rest == [0, 0, 0]
    && decide (d.kh ≤ 31) && decide (d.kw ≤ 31) && decide (d.cin ≤ 8192) && decide (d.cout ≤ 8192)
    && decide (1 ≤ g.ho d) && decide (1 ≤ g.wo d)

/-- Image row of tap ky for output row oy. -/
def Geo.iy (g : Geo) (oy ky : Nat) : Int := oy * g.sh - g.pt + ky * g.dh
/-- Image column of tap kx for output column ox. -/
def Geo.ix (g : Geo) (ox kx : Nat) : Int := ox * g.sw - g.pl + kx * g.dw

/-- Every unpadded tap of the output rows from OY0, `ro` of them, reads an image row that X holds (R231). -/
def Geo.rowsHeld (g : Geo) (d : ConvDim) (ro : Nat) : Bool :=
  let anyCol := (List.range (g.wo d).toNat).any fun ox => (List.range d.kw).any fun kx =>
    inRange 0 (d.w - 1) (g.ix ox kx)
  !anyCol || (List.range ro).all fun r => (List.range d.kh).all fun ky =>
    let iy := g.iy (g.oy0.toNat + r) ky
    !(inRange 0 (g.hg - 1) iy) || inRange g.iy0 (g.iy0 + d.hs - 1) iy

/-- Is PADV a zero code of X's format (R233)? -/
def Geo.zeroPad (g : Geo) (fmt : Nat) : Bool :=
  match numOf fmt g.padv.toNat with
  | .zero _ => true
  | _ => false

/-! ## The reduction (R232, R233) -/

/-- The activations a[j] of output pixel (n, oy, ox) in group `grp`; `none` where a zero pad leaves the product out. -/
def convTerms (g : Geo) (d : ConvDim) (pad : Option Num) (xs : List (List (Num × Bool))) (n oy ox grp : Nat) :
    List (Option (Num × Bool)) :=
  let cg := d.cin / g.groups.toNat
  (List.range d.kh).flatMap fun ky => (List.range d.kw).flatMap fun kx =>
    let iy := g.iy oy ky
    let ix := g.ix ox kx
    if inRange 0 (g.hg - 1) iy && inRange 0 (d.w - 1) ix then
      (((xs.getD ((n * d.hs + (iy - g.iy0).toNat) * d.w + ix.toNat) []).drop (grp * cg)).take cg).map some
    else List.replicate cg (pad.map fun p => (p, false))

/-- The FP32 reduction of R151 over kept products, group boundaries at their positions in j. -/
def convFloat (mx : Bool) (l : List (Option (Num × Bool) × (Num × Bool))) : Num × Bool :=
  (chunksOf 32 l.length l).foldl (fun (st : Num × Bool) grp =>
    let kept := grp.filterMap fun p => p.1.map fun a => (a.1.mul p.2.1, a.2 || p.2.2)
    let r := accRound mx (st.1.add (Num.sum (kept.map (·.1))))
    (r.1, st.2 || kept.any (·.2) || r.2)) (.zero false, false)

/-- The INT32 reduction of R49 over kept products. -/
def convInt (l : List (Option (Num × Bool) × (Num × Bool))) : Int × Bool :=
  let kept := l.filterMap fun p => p.1.map fun a => (a.1.rat.num, p.2.1.rat.num)
  macInt (0, false) (kept.map (·.1)) (kept.map (·.2))

/-- Does a pass of that reduction fail its residue check (R431)? -/
def convBad (l : List (Option (Num × Bool) × (Num × Bool))) : Bool :=
  (chunksOf 32 l.length l).any fun grp =>
    let kept := grp.filterMap fun p => p.1.map fun a => (a.1, p.2.1)
    !passOk 0 (kept.map (·.1)) (kept.map (·.2)) (Num.sum (kept.map fun k => k.1.mul k.2))

/-- The table entries that a column adds for kept activations, each with whether it is counted (R153). -/
def convEntries (per : Nat) (cb : List Num) (l : List (Option (Num × Bool) × Nat)) : List (Num × Bool) :=
  let n := (l.length + 127) / 128 * 128
  (chunksOf per n (padTo n (some (Num.zero false, false), 0) l)).map fun grp =>
    let kept := grp.filterMap fun p => p.1.map fun a => (a.1, p.2, a.2)
    (rne32 (Num.sum (kept.map fun k => (cb.getD k.2.1 (.zero false)).mul k.1)), kept.any (·.2.2))

/-- The product-table reduction of R153 over kept activations. -/
def convCode (per : Nat) (cb : List Num) (l : List (Option (Num × Bool) × Nat)) : Num × Bool :=
  (convEntries per cb l).foldl (fun (st : Num × Bool) e => (add32 st.1 e.1, st.2 || e.2)) (.zero false, false)

/-- The weights of a convolution: widened rows, or codebook indices with their codebook. -/
inductive ConvW
  | plain (rows : List (List (Num × Bool))) (int mx : Bool)
  | coded (rows : List (List Nat)) (per : Nat) (cb : List (List Num))
  deriving DecidableEq, Repr

/-- acc of output channel `co` at pixel (n, oy, ox), with whether it is counted already. -/
def convAcc (g : Geo) (d : ConvDim) (pad : Option Num) (xs : List (List (Num × Bool))) (w : ConvW) (n oy ox co : Nat) :
    Num × Bool :=
  let og := d.cout / g.groups.toNat
  let a := convTerms g d pad xs n oy ox (co / og)
  let taps := d.kh * d.kw
  match w with
  | .plain rows int mx =>
    let l := List.zip a ((List.range taps).flatMap fun t => rows.getD (co * taps + t) [])
    if int then let r := convInt l; (Num.ofInt r.1, r.2) else convFloat mx l
  | .coded rows per cb =>
    convCode per (cb.getD (if cb.length = 1 then 0 else co / 128) [])
      (List.zip a ((List.range taps).flatMap fun t => rows.getD (co * taps + t) []))

/-- Does some pass or look-up for output channel `co` of the pixel fail its residue check (R431)? -/
def convAccBad (g : Geo) (d : ConvDim) (pad : Option Num) (xs : List (List (Num × Bool))) (w : ConvW) (n oy ox co : Nat) : Bool :=
  let og := d.cout / g.groups.toNat
  let a := convTerms g d pad xs n oy ox (co / og)
  let taps := d.kh * d.kw
  match w with
  | .plain rows _ _ => convBad (List.zip a ((List.range taps).flatMap fun t => rows.getD (co * taps + t) []))
  | .coded rows per cb =>
    lookupBad (.zero false) ((convEntries per (cb.getD (if cb.length = 1 then 0 else co / 128) [])
      (List.zip a ((List.range taps).flatMap fun t => rows.getD (co * taps + t) []))).map (·.1))

/-- Every output pixel's channels before narrowing, in logical row order: reduction, channel scale, bias, ReLU. -/
def convVals (g : Geo) (d : ConvDim) (imgs ro : Nat) (pad : Option Num) (xs : List (List (Num × Bool))) (w : ConvW)
    (int unit relu : Bool) (scale : Nat → Num × Bool) (bias : Nat → Option Num) : List (List (Num × Bool)) :=
  (List.range imgs).flatMap fun n => (List.range ro).flatMap fun r => (List.range (g.wo d).toNat).map fun ox =>
    (List.range d.cout).map fun co =>
      readout int unit relu (scale co) (bias co) (convAcc g d pad xs w n (g.oy0.toNat + r) ox co)

/-! ## CONV -/

/-- Accumulator of CONV. -/
def convK (o : FmtT) : Nat := bits o.fn.toNat 7 6

/-- Sizes of a CONV. -/
def convDim (s : State) (f : Nat) (o : FmtT) : ConvDim :=
  let x := s.desc f o.da.toNat
  let w := s.desc f o.db.toNat
  ⟨x.e2, x.e1, x.e0, w.e3, w.e2, w.e1⟩

/-- The words of a CONV's geometry record, as the front end reads them. -/
def State.geoWords (s : State) (f n : Nat) : List Int := ((s.tref f n).flat s).map (signed 32)

/-- The geometry record of a CONV. -/
def State.geoAt (s : State) (f n : Nat) : Geo := geoOf (s.geoWords f n)

/-- Is the accumulation INT32 (R227)? -/
def convIsInt (s : State) (f : Nat) (o : FmtT) : Bool :=
  macIsInt (s.desc f o.da.toNat).fmt (s.desc f o.db.toNat).fmt (s.scale f 12) (s.scale f 13)

/-- Checks of CONV (R227, R228, R231). `g` is the geometry record that the front end has read. -/
def convChk (s : State) (f : Nat) (o : FmtT) (g : Geo) : Chk :=
  let x := s.desc f o.da.toNat
  let w := s.desc f o.db.toNat
  let y := s.desc f o.dd.toNat
  let d := convDim s f o
  let s12 := s.scale f 12
  let s13 := s.scale f 13
  let s14 := s.scale f 14
  let s15 := s.scale f 15
  let int := convIsInt s f o
  let bias := bitOf o.fn.toNat 3
  let cg := d.cin / g.groups.toNat
  Chk.all [
    .need (fixedScales o && rmodeOk o && o.fn.toNat % 8 == 0 && decide (bits o.fn.toNat 5 4 < 2)
      && (!bias || decide (o.db.toNat + 1 ≤ 63))),
    checkDesc s f o.dd.toNat 0 fun y => dstOk y && y.rank == 4 && dstFmtOk y.fmt,
    checkDesc s f o.da.toNat 1 fun x => x.rank == 4 && x.layout == 0,
    checkDesc s f o.db.toNat 2 fun w => w.rank == 4 && w.layout == 0,
    (if bias then checkDesc s f (o.db.toNat + 1) 2 fun b => b.plain && b.rank == 1 && b.e0 == w.e3 &&
      (if int then b.fmt == fINT32 else b.fmt == fFP32 || b.fmt == fBF16 || b.fmt == fFP16) else .pass),
    checkDesc s f o.dc.toNat 3 fun c => c.rank == 1 && c.layout == 0 && c.fmt == fINT32 && c.e0 == 16,
    stgPending s f,
    .need (g.legal d x.fmt && (w.e0 : Int) * g.groups == d.cin && y.e3 == x.e3 && (y.e1 : Int) == g.wo d && y.e0 == d.cout
      && decide (g.oy0 + y.e2 ≤ g.ho d) && g.rowsHeld d y.e2
      && (g.zeroPad x.fmt || !(s12.mode == mROW || s12.mode == mMX)) && (s12.mode != mMX || cg % 32 == 0)
      && macPairOk x.fmt w.fmt (s12.mode == mMX) && ((s12.mode == mMX) == (s13.mode == mMX))
      && (isCbFmt w.fmt == (s13.mode == mCODEBOOK)) && (!int || s14.mode == mUNIT) && !accLive s f (convK o)),
    checkScale s f 1 s12 [mUNIT, mUNIFORM, mROW, mMX] (scaleNeed x.rows x.e0) 0,
    checkScale s f 2 s13 [mUNIT, mUNIFORM, mROW, mMX, mCODEBOOK]
      (fun m => if m = mROW then d.cout else scaleNeed w.rows w.e0 m) 0,
    cbOk s f s13 w.fmt d.cout,
    checkScale s f 1 s14 srcModes (fun _ => d.cout) 0,
    checkScale s f 0 s15 [mUNIT, mUNIFORM, mROW, mROWDYN, mMX, mRESCALE] (scaleNeed y.rows y.e0) y.fmt,
    dstScaleOk s f 15,
    .need (mxDstOk s15 y.fmt)]

/-- The weights of a CONV. -/
def convW (v : State) (f : Nat) (o : FmtT) : ConvW :=
  let d := convDim v f o
  let tw := v.tref f o.db.toNat
  let s13 := v.scale f 13
  if isCbFmt tw.d.fmt then
    ConvW.coded (tw.rowsOf v) (((cbShape tw.d.fmt).map (·.2.1)).getD 1) (v.productBook f s13)
  else .plain (v.macRows f tw s13 fun r => r / (d.kh * d.kw)) (convIsInt v f o) ((v.scale f 12).mode == mMX)

/-- PADV widened with s12; none where it is a zero code (R232, R233). -/
def convPad (v : State) (f : Nat) (o : FmtT) (g : Geo) : Option Num :=
  let fmt := (v.desc f o.da.toNat).fmt
  let s12 := v.scale f 12
  if g.zeroPad fmt then none else some (widenExact fmt (s12.at [] 0) (s12.mode == mUNIT) g.padv.toNat).1

/-- Values of CONV before narrowing. -/
def convRows (v : State) (f : Nat) (o : FmtT) (g : Geo) : List (List (Num × Bool)) :=
  let s14 := v.scale f 14
  let y := v.desc f o.dd.toNat
  let vec := v.scaleVec f s14
  let tb := v.tref f (o.db.toNat + 1)
  let bias := if bitOf o.fn.toNat 3 then (tb.flat v).map fun c => some (numOf tb.d.fmt c) else []
  convVals g (convDim v f o) y.e3 y.e2 (convPad v f o g) (v.macRows f (v.tref f o.da.toNat) (v.scale f 12)) (convW v f o)
    (convIsInt v f o) (s14.mode == mUNIT) (bits o.fn.toNat 5 4 == 1) (fun co => s14.at vec co) (fun co => bias.getD co none)

/-- The tiles that CONV uses, and those whose residue check fails (R431). -/
def convMac (v : State) (f : Nat) (o : FmtT) (g : Geo) : Nat × Nat :=
  let d := convDim v f o
  let y := v.desc f o.dd.toNat
  let xs := v.macRows f (v.tref f o.da.toNat) (v.scale f 12)
  let w := convW v f o
  (tilesOf d.cout, tilesBad (min 512 d.cout) fun c => (List.range ((d.cout + 511 - c) / 512)).any fun q =>
    (List.range y.e3).any fun n => (List.range y.e2).any fun r => (List.range (g.wo d).toNat).any fun ox =>
      convAccBad g d (convPad v f o g) xs w n (g.oy0.toNat + r) ox (512 * q + c))

/-- What CONV does, with the geometry words that its front end read. -/
def convOut (v : State) (f : Nat) (o : FmtT) (words : List Int) : TOut :=
  let g := geoOf words
  let dst := v.tref f o.dd.toNat
  let r := v.narrowRows f (v.narrowCtx f o) (if convIsInt v f o then fINT32 else fFP32) dst (v.scale f 15) (convRows v f o g)
  ⟨some dst, numbered r.1, accClear f (convK o), r.2.1, r.2.2, convMac v f o g⟩

/-- CONV: convolution (R227 to R235). -/
def execConv (f : Fin 6) (h : Hdr) (o : FmtT) (s : State) : Out :=
  let bias := bitOf o.fn.toNat 3
  let y := s.desc f o.dd.toNat
  let v0 := s.raceView f ((s.tref f o.dc.toNat).spans s)
  let words := v0.geoWords f o.dc.toNat
  let g := geoOf words
  let s' := if canIssue s f h && convChk s f o g == .pass && unitFree (s.face f) .tile then { s with fresh := v0.fresh } else s
  issueTensor s' f h
    { ins := .conv f h o, unit := .tile, dd := o.dd.toNat, isN := isSrh o, order := .loose, scratch := accSpans f (convK o)
      uses := [(o.da.toNat, false), (o.db.toNat, false), (o.dc.toNat, false)] ++ (if bias then [(o.db.toNat + 1, false)] else [])
        ++ s.srcScales f [12, 13, 14] ++ [(o.dd.toNat, true)] ++ s.dstScale f 15
      geo := words }
    (convChk s f o g)
    (fun s => (s.tref f o.da.toNat).spans s ++ (s.tref f o.db.toNat).spans s
      ++ (if bias then (s.tref f (o.db.toNat + 1)).spans s else [])
      ++ ([12, 13, 14, 15].flatMap fun n => s.scaleSpans f (s.scale f n)))
    (fun _ => if isSrh o then y.count else 0) (fun v => convOut v f o words)
    (fun t => t.setAccType f (convK o) (convIsInt s f o))

end Sys2Proof.Machine
end

