-- ==== Sys2Proof/Machine/Guard.lean ====
section
/-! DEFINITION. Regions that wait for their scrub, and accesses to device addresses as every agent makes them (R16, R18, R68,
R99, R101). -/

namespace Sys2Proof.Machine

/-! ## Jobs -/

/-- vFaces of job `j`. -/
def State.vfCountOf (s : State) (j : Nat) : Nat :=
  match s.job j with
  | some jb => jb.img.vfs.length
  | none => 0

/-- Does a Face run a command of job `j`? -/
def State.jobRuns (s : State) (j : Nat) : Bool := (List.range 6).any fun g => (s.face g).running && (s.face g).job == j

/-- Has job `j` ended, its scrub not yet over (R257)? -/
def State.jobEnding (s : State) (j : Nat) : Bool :=
  match s.job j with
  | some jb => jb.ending
  | none => false

/-- Is job `j` loaded and not ending? -/
def State.jobLive (s : State) (j : Nat) : Bool := (s.job j).isSome && !s.jobEnding j

/-- A Pip record of job `j` is running. -/
def State.pipRuns (s : State) (j : Nat) : Bool :=
  match s.pip.running with
  | some r => r.job == j
  | none => false

/-- Windows of job `j` (R417). -/
def State.windowsOf (s : State) (j : Nat) : List Nat :=
  (List.range 64).filter fun i => s.fld (Reg.WINA i) 59 56 == j

/-- A window of job `j` still completes an accepted piece (R423). -/
def State.closing (s : State) (j : Nat) : Bool := (s.windowsOf j).any fun i => s.flag (Reg.WINA i) 62

/-! ## Regions that wait for their scrub (R99, R101) -/

/-- The parts of a span that lie outside another. -/
def spanMinus (a b : Nat × Nat) : List (Nat × Nat) :=
  if spansMeet a b then
    (if a.1 < b.1 then [(a.1, b.1 - a.1)] else [])
      ++ (if b.1 + b.2 < a.1 + a.2 then [(b.1 + b.2, a.1 + a.2 - (b.1 + b.2))] else [])
  else [a]

/-- What the scrub engine zeroes after job `j`, stores and banks first (R99). -/
def State.jobRegions (s : State) (j : Nat) : List (Nat × Nat) :=
  match s.job j with
  | none => []
  | some jb =>
    let faces := (List.range 6).flatMap fun f =>
      let ran := bitOf jb.ranScrub f
      let fs := s.face f
      let banks := (List.range 16).filter fun b =>
        let o := Map.get 0 fs.owner b
        if o = 0 then ran else (o - 1) / 8 == j
      (if ran then [(storeBase f, storeBytes)] else []) ++ banks.map fun b => (bankKey f b, 0x10000)
    faces ++ (jb.regions.filter fun r => isBoard r.1) ++ jb.regions.filter fun r => isHbm r.1

/-- Nothing of job `j`, which has ended, is still at work: its regions wait for the scrub (R99). -/
def State.jobOver (s : State) (j : Nat) : Bool := s.jobEnding j && !s.jobRuns j && !s.pipRuns j && !s.closing j

/-- Does the region hold a byte that the scrub engine has still to zero, a debug hold aside? -/
def State.awaitsScrub (s : State) (a n : Nat) : Bool :=
  s.place.scrub.any (fun r => spansMeet (r.1, r.2.1) (a, n)) || s.place.unzeroed.any (fun r => spansMeet r (a, n))
    || (List.range 16).any fun j => s.jobOver j && (s.jobRegions j).any fun r => spansMeet r (a, n)

/-- Is the region held for a debug session (R101, R472)? -/
def State.isHeld (s : State) (a n : Nat) : Bool := s.place.held.any fun r => spansMeet (r.1, r.2.1) (a, n)

/-- Is the region still to be zeroed (R101, R475)? Every access to it completes with a bus error. -/
def State.unscrubbed (s : State) (a n : Nat) : Bool := s.awaitsScrub a n || s.isHeld a n

/-! ## Accesses (R68) -/

/-- Is the access to `n` bytes from device address `a` served: every byte mapped, none in a region that waits for its scrub? -/
def State.served (s : State) (a n : Nat) : Bool := s.accessOk a n && !s.unscrubbed a n

/-- One write access: all of it, or nothing (R68). -/
def State.storeDev (s : State) (a : Nat) (bs : List Byte) : State :=
  if s.served a bs.length then s.store (devKey a) bs else s

/-- How many of `n` bytes from `a` lie before the first that is not served. Regions are whole 4 KiB pages or 64-byte lines. -/
def State.servedPrefix (s : State) (a n : Nat) : Nat := ((List.range n).takeWhile fun i => s.served (a + i) 1).length

/-- A byte as an engine that reads device address `a` finds it. An access that is not served returns no data: what stands for it
is a free byte. -/
def State.devByte (s : State) (a : Nat) : Byte := if s.served a 1 then s.loadByte (devKey a) else Config.busByte s.fresh a

/-- The little-endian number in `n` such bytes. -/
def State.devNat (s : State) (a n : Nat) : Nat := leNat ((List.range n).map fun i => s.devByte (a + i))

end Sys2Proof.Machine
end

