-- ==== Sys2Proof/Machine/Pip.lean ====
section
/-! DEFINITION. The Pip engine: records, stages, queues and completion (R240 to R247). -/

namespace Sys2Proof.Machine

/-! ## Records (R240) -/

/-- A Pip record. -/
structure PipRec where
  src : Nat
  dst : Nat
  param : Nat
  status : Nat
  w : Nat
  h : Nat
  stride : Nat
  fmt : Nat
  stages : Nat
  mode : Nat
  dstFmt : Nat
  cx : Nat
  cy : Nat
  cw : Nat
  ch : Nat
  ow : Nat
  oh : Nat
  event : Nat
  job : Nat
  rsv : Nat
  frame : Nat
  deriving DecidableEq, Repr

/-- Decode a record's 64 bytes. -/
def pipRecOf (l : List Byte) : PipRec :=
  let g := fun k n => leNat ((l.drop k).take n)
  { src := g 0 8, dst := g 8 8, param := g 16 8, status := g 24 8, w := g 32 2, h := g 34 2, stride := g 36 4, fmt := g 40 1,
    stages := g 41 1, mode := g 42 1, dstFmt := g 43 1, cx := g 44 2, cy := g 46 2, cw := g 48 2, ch := g 50 2, ow := g 52 2,
    oh := g 54 2, event := g 56 2, job := g 58 1, rsv := g 59 1, frame := g 60 4 }

/-- Is stage `k` set? -/
def PipRec.stage (r : PipRec) (k : Nat) : Bool := bitOf r.stages k

/-- The parameter block's fields. -/
structure PipParam where
  black : List Nat
  gain : List Num
  zero8 : Nat
  mean : List Num
  inv : List Num
  geo : Geo
  kh : Nat
  kw : Nat
  cin : Nat
  cout : Nat
  xFmt : Nat
  wFmt : Nat
  xMode : Nat
  yMode : Nat
  weights : Nat
  bias : Nat
  wScales : Nat
  table : Nat
  xScale : Nat
  wScale : Nat
  alpha : Nat
  zero4 : Nat
  tail : List Nat
  deriving DecidableEq, Repr

/-- Read the parameter block. -/
def State.pipParam (s : State) (a : Nat) : PipParam :=
  let g := fun k n => s.devNat (a + k) n
  let f := fun k => fp32Val (g k 4)
  { black := (List.range 4).map fun i => g (2 * i) 2, gain := (List.range 4).map fun i => f (8 + 4 * i), zero8 := g 0x18 8,
    mean := (List.range 16).map fun i => f (0x20 + 8 * i), inv := (List.range 16).map fun i => f (0x24 + 8 * i),
    geo := geoOf ((List.range 16).map fun i => signed 32 (g (0xA0 + 4 * i) 4)),
    kh := g 0xE0 4, kw := g 0xE4 4, cin := g 0xE8 4, cout := g 0xEC 4, xFmt := g 0xF0 4, wFmt := g 0xF4 4, xMode := g 0xF8 4,
    yMode := g 0xFC 4, weights := g 0x100 8, bias := g 0x108 8, wScales := g 0x110 8, table := g 0x118 8,
    xScale := g 0x120 4, wScale := g 0x124 4, alpha := g 0x128 4, zero4 := g 0x12C 4, tail := (List.range 4).map fun i => g (0x120 + 4 * i) 4 }

/-- X formats the engine accepts (R242). -/
def pipXFmt (f : Nat) : Bool := [fUINT8, fINT8, fFP8A, fFP8B, fBF16, fFP16].contains f
/-- Weight formats it accepts. -/
def pipWFmt (f : Nat) : Bool := [fINT8, fFP8A, fFP8B, fBF16, fFP16].contains f

/-- Size after the RESIZE stage. -/
def PipRec.size (r : PipRec) : Nat × Nat := if r.stage 2 then (r.ow, r.oh) else (r.cw, r.ch)

/-- Channels after the DEBAYER stage. -/
def PipRec.chans (r : PipRec) (p : PipParam) : Nat :=
  if r.fmt = 0x10 then p.cin else if 3 ≤ r.fmt then 3 else if r.stage 1 then 3 else 1

/-- Sizes of the CONV stage. -/
def PipRec.dim (r : PipRec) (p : PipParam) : ConvDim := ⟨r.size.2, r.size.1, p.cin, p.cout, p.kh, p.kw⟩

/-- Output rows of the CONV stage: from OY0 to the end of the whole image. -/
def PipRec.ro (r : PipRec) (p : PipParam) : Nat := (p.geo.ho (r.dim p) - p.geo.oy0).toNat

/-- The fields of the record are in order and inside R242. -/
def PipRec.fieldsOk (r : PipRec) : Bool :=
  decide (16 ≤ r.w) && decide (r.w ≤ 4096) && decide (16 ≤ r.h) && decide (r.h ≤ 4096) && decide (r.src < 2 ^ 48)
    && decide (r.stages < 32) && decide (r.mode < 16) && (decide (r.fmt ≤ 4) || r.fmt == 0x10) && decide (r.job < 16)
    && r.rsv == 0 && decide (1 ≤ r.cw) && decide (1 ≤ r.ch) && decide (r.cx + r.cw ≤ r.w) && decide (r.cy + r.ch ≤ r.h)
    && (!r.stage 2 || (let up := if bitOf r.mode 3 then 1 else 4
      decide (r.cw ≤ 16 * r.ow) && decide (r.ow ≤ up * r.cw) && decide (r.ch ≤ 16 * r.oh) && decide (r.oh ≤ up * r.ch)))

/-- Does the record use a parameter block? -/
def PipRec.usesParam (r : PipRec) : Bool := r.stage 0 || r.stage 3 || r.stage 4 || r.fmt == 0x10

/-- The record and its parameters are inside R242, and what R240 gives as 0 is 0. BLACK and TENSOR use the block too, so their
records may name one (DEDUCED, assumption 31). -/
def PipRec.ok (r : PipRec) (p : PipParam) : Bool :=
  let c := r.chans p
  let d := r.dim p
  r.fieldsOk
    && (if r.usesParam then p.zero8 == 0 && p.zero4 == 0 else r.param == 0)
    && (r.stage 4 || (decide (r.dstFmt < 0x12) && dstFmtOk r.dstFmt))
    && (!r.stage 3 || (inRange 1 16 c))
    && (r.fmt != 0x10 || pipXFmt p.xFmt)
    && (!r.stage 4 || (pipXFmt p.xFmt && pipWFmt p.wFmt && p.cin == c && (decide (p.cin ≤ 16) || decide (p.cout ≤ 16))
      && decide (p.cin ≤ 1024) && decide (p.cout ≤ 1024) && decide (1 ≤ p.cin) && decide (1 ≤ p.cout)
      && decide (1 ≤ p.kh) && decide (1 ≤ p.kw) && p.geo.legal d p.xFmt && decide (p.geo.oy0 < p.geo.ho d)
      && (p.geo.groups == 1 || p.geo.groups == p.cin) && p.geo.rowsHeld d (r.ro p)
      && (p.xMode == mUNIT || p.xMode == mUNIFORM)
      && (p.yMode == mUNIT || p.yMode == mUNIFORM || p.yMode == mROWDYN || p.yMode == mRESCALE)))

/-! ## Stages (R241) -/

/-- An image: pixel x, y, channel c. -/
abbrev PipImg := Nat → Nat → Nat → Num

/-- Hold a coordinate in 0 to n − 1. -/
def clampTo (n : Nat) (x : Int) : Nat := (clampInt 0 ((n : Int) - 1) x).toNat

/-- A sum of products, each operation rounded to FP32 in an order that the spec does not give. Where every order is exact it is the
exact sum; else it is a free value inside the bound that the roundings of the operations and of the coefficients leave. -/
def pipMix (stage : Nat) (terms : List (Rat × Num)) : Num :=
  let ps := terms.map fun t => (Num.ofRat t.1).mul t.2
  let e := Num.sum ps
  if ps.any fun p => p.isNan || p.isInf then e
  else
    let mag := ps.foldl (fun a p => a + |p.rat|) (0 : Rat)
    let k := ps.foldl (fun a p => max a p.rat.den) 1
    if ps.all (fun p => 2 ^ Nat.log2 p.rat.den == p.rat.den) && decide (mag * k < 2 ^ 24) then e
    else
      let n := Config.pipError stage (terms.flatMap fun t => [t.1.num.toNat, t.1.den, fp32Code t.2])
      let u : Rat := (((n % (2 ^ 31 + 1) : Nat) : Int) - 2 ^ 30 : Int) / 2 ^ 30
      rne32 (Num.ofRat (e.rat + u * ((terms.length + 8) * pow2 (-23) * mag + pow2 (-140))))

/-- Rows of the ITU-R BT.601 full-range matrix for R, G and B: the factors of Cb − 128 and Cr − 128, from Kr = 0.299 and
Kb = 0.114 (R241). -/
def bt601 : Nat → Rat × Rat
  | 0 => (0, 1402 / 1000)
  | 1 => (-(114 * 1772 / 587000), -(299 * 1402 / 587000))
  | _ => (1772 / 1000, 0)

/-- Unpack one source sample. -/
def pipUnpack (s : State) (r : PipRec) (p : PipParam) : PipImg := fun x y c =>
  let line := r.src + y * r.stride
  let b := fun k => (s.devByte (line + k)).toNat
  match r.fmt with
  | 0 => Num.ofInt (b x)
  | 1 => Num.ofInt (b (x / 4 * 5 + x % 4) * 4 + b (x / 4 * 5 + 4) / 4 ^ (x % 4) % 4 : Nat)
  | 2 => Num.ofInt (b (x / 2 * 3 + x % 2) * 16 + b (x / 2 * 3 + 2) / 16 ^ (x % 2) % 16 : Nat)
  | 3 =>
    let at_ := fun k => Num.ofInt (b (x / 2 * 4 + Config.pipYuvByte k % 4))
    let off := fun k => (at_ k).sub (Num.ofInt 128)
    pipMix 0 [(1, at_ (x % 2)), ((bt601 c).1, off 2), ((bt601 c).2, off 3)]
  | 4 => Num.ofInt (b (3 * x + Config.pipRgb c % 3))
  | _ => numOf p.xFmt ((unpackCodes p.xFmt p.cin ((List.range (rowBytes p.xFmt p.cin)).map fun i =>
      s.devByte (line + x * rowBytes p.xFmt p.cin + i))).getD c 0)

/-- BLACK. -/
def pipBlack (p : PipParam) (im : PipImg) : PipImg := fun x y c =>
  let k := y % 2 * 2 + x % 2
  let v := rne32 ((im x y c).sub (Num.ofInt (p.black.getD k 0)))
  mul32 ((Num.zero false).max v) (p.gain.getD k (.zero false))

/-- Colour (0 R, 1 G, 2 B) of the pixel at column and row parity `x`, `y` in a colour filter layout (R240). -/
def cfaColour (cfa x y : Nat) : Nat :=
  (match cfa with
    | 0 => [0, 1, 1, 2]
    | 1 => [1, 0, 2, 1]
    | 2 => [1, 2, 0, 1]
    | _ => [2, 1, 1, 0]).getD (y % 2 * 2 + x % 2) 0

/-- DEBAYER, the image edge replicated. Bilinear: a colour that the pixel does not have is the mean of its neighbours of that
colour in the 3 by 3 window. -/
def pipDebayer (r : PipRec) (im : PipImg) : PipImg := fun x y c =>
  let rad : Nat := if bitOf r.mode 2 then 2 else 1
  let n := 2 * rad + 1
  let cfa := bits r.mode 1 0
  let win := (List.range n).flatMap fun j => (List.range n).map fun i =>
    (cfaColour cfa (x + i + rad) (y + j + rad), im (clampTo r.w ((x : Int) + i - rad)) (clampTo r.h ((y : Int) + j - rad)) 0)
  if bitOf r.mode 2 then fp32Val (Config.pipDebayer cfa (y % 2 * 2 + x % 2) c (win.map fun p => fp32Code p.2))
  else if cfaColour cfa x y = c then im x y 0
  else
    let l := win.filter fun p => p.1 == c
    pipMix 1 (l.map fun p => (1 / (l.length : Rat), p.2))

/-- Position of output pixel centre x + 1/2 in the source (R241). -/
def resizePos (cw ow x : Nat) : Rat :=
  max 0 (min ((cw : Rat) - 1) (((x : Rat) + 1 / 2) * cw / ow - 1 / 2))

/-- The samples that the interval from `k * n / m` to `(k + 1) * n / m` covers, and how much of each. -/
def covered (n m k : Nat) : List (Nat × Rat) :=
  let a : Rat := (k * n : Nat) / (m : Rat)
  let b : Rat := ((k + 1) * n : Nat) / (m : Rat)
  let i0 := k * n / m
  (List.range (((k + 1) * n + m - 1) / m - i0)).map fun i =>
    (i0 + i, min b ((i0 + i + 1 : Nat) : Rat) - max a ((i0 + i : Nat) : Rat))

/-- Crop, then RESIZE: bilinear between the four samples around the position, or the mean of the covered box (R241). -/
def pipResize (r : PipRec) (im : PipImg) : PipImg := fun x y c =>
  let at_ := fun (i j : Nat) => im (r.cx + min i (r.cw - 1)) (r.cy + min j (r.ch - 1)) c
  if !r.stage 2 then at_ x y
  else if bitOf r.mode 3 then
    let area : Rat := ((r.cw * r.ch : Nat) : Rat) / ((r.ow * r.oh : Nat) : Rat)
    pipMix 2 ((covered r.ch r.oh y).flatMap fun j => (covered r.cw r.ow x).map fun i =>
      (i.2 * j.2 / area, at_ i.1 j.1))
  else
    let px := resizePos r.cw r.ow x
    let py := resizePos r.ch r.oh y
    let i := px.floor.toNat
    let j := py.floor.toNat
    let fx := px - i
    let fy := py - j
    if fx = 0 ∧ fy = 0 then at_ i j
    else pipMix 3 [((1 - fx) * (1 - fy), at_ i j), (fx * (1 - fy), at_ (i + 1) j), ((1 - fx) * fy, at_ i (j + 1)),
      (fx * fy, at_ (i + 1) (j + 1))]

/-- NORM. -/
def pipNorm (p : PipParam) (im : PipImg) : PipImg := fun x y c =>
  mul32 (rne32 ((im x y c).sub (p.mean.getD c (.zero false)))) (p.inv.getD c (.zero false))

/-- The image after stage 5. -/
def pipFront (s : State) (r : PipRec) (p : PipParam) : PipImg :=
  let a := pipUnpack s r p
  let a := if r.stage 0 then pipBlack p a else a
  let a := if r.stage 1 then pipDebayer r a else a
  let a := pipResize r a
  if r.stage 3 then pipNorm p a else a

/-- The narrowing context of the Pip engine: RNE, SAT 1. -/
def pipCtx : NarrowCtx := ⟨.rne, true, 0, 0, 0, 0⟩

/-- The weights' scale mode: per output channel where the block gives their address, UNIFORM where it gives a scale,
else UNIT. -/
def PipParam.wMode (p : PipParam) : Nat := if p.wScales ≠ 0 then mROW else if p.wScale ≠ 0 then mUNIFORM else mUNIT

/-- Codes of a contiguous vector in memory. -/
def State.vecAt (s : State) (a fmt n : Nat) : List Nat :=
  unpackCodes fmt n ((List.range (rowBytes fmt n)).map fun i => s.devByte (a + i))

/-- Values of the CONV stage before narrowing, whether the accumulation is INT32, and how many elements were flagged in narrowing to
the X format (R63). -/
def pipConv (s : State) (r : PipRec) (p : PipParam) (im : PipImg) : List (List (Num × Bool)) × Bool × Nat :=
  let d := r.dim p
  let xs1 := fp32Val p.xScale
  let narrowed := (List.range d.hs).flatMap fun y => (List.range d.w).map fun x => (List.range p.cin).map fun c =>
    let v := im x y c
    narrowTo p.xFmt .rne true 0 (if p.xMode = mUNIFORM ∧ Config.pipDivides then v.div xs1 else v)
  let xsc : Scale := ⟨p.xMode, 0, false, p.xScale, 0⟩
  let wide := fun (c : Nat) => widenExact p.xFmt (xsc.at [] 0) (p.xMode == mUNIT) c
  let cg := p.cin / p.geo.groups.toNat
  let taps := p.kh * p.kw
  let sc := if p.wScales = 0 then [] else
    (s.vecAt p.wScales Config.pipScaleFmt p.cout).map fun c => readScale (numOf Config.pipScaleFmt c)
  let ws := (List.range (p.cout * taps)).map fun k =>
    (s.vecAt (p.weights + k * rowBytes p.wFmt cg) p.wFmt cg).map fun c =>
      if p.wMode = mROW then widenExact p.wFmt (sc.getD (k / taps) (.fin 1, false)) false c
      else if p.wMode = mUNIFORM then widenExact p.wFmt (fp32Val p.wScale, false) false c
      else (numOf p.wFmt c, false)
  let int := decide (p.xFmt ≤ 3) && decide (p.wFmt ≤ 3) && p.xMode == mUNIT && p.wMode == mUNIT
  let pad := if p.geo.zeroPad p.xFmt then none else some (wide p.geo.padv.toNat).1
  let bf := if int then fINT32 else Config.pipBiasFmt
  let bias := if p.bias = 0 then [] else (s.vecAt p.bias bf p.cout).map fun c => some (numOf bf c)
  (convVals p.geo d 1 (r.ro p) pad (narrowed.map fun px => px.map fun e => wide e.code) (.plain ws int false) int true false
    (fun _ => (.fin 1, false)) (fun co => bias.getD co none), int, (narrowed.flatMap fun px => px.filter (·.sat)).length)

/-- What a record computes: rows of output codes with their count, the output format (R241, stage 7), and the elements flagged in
narrowing to the X format. -/
structure PipOut where
  rows : List RowOut
  fmt : Nat
  flagged : Nat
  deriving DecidableEq, Repr

/-- Nothing computed. -/
def PipOut.none : PipOut := ⟨[], 0, 0⟩

/-- What the record computes. -/
def pipOutput (s : State) (r : PipRec) (p : PipParam) : PipOut :=
  let im := pipFront s r p
  if r.stage 4 then
    let v := pipConv s r p im
    let fmt := Config.pipConvFmt r.dstFmt p.xFmt
    let sd : Scale := if p.yMode = mUNIFORM then ⟨mUNIFORM, 0, false, Config.pipYScale p.tail, 0⟩
      else ⟨p.yMode, if Config.pipRowdynE8 then 1 else 0, Config.pipRowdynUp, p.alpha, 0⟩
    let d : Desc := { bufId := 0, rank := 4, fmt := fmt, layout := 0, valid := true, off := 0, e0 := p.cout,
                      e1 := (p.geo.wo (r.dim p)).toNat, e2 := r.ro p, e3 := 1, s1 := 0, s2 := 0, s3 := 0 }
    let tab := if p.yMode = mRESCALE then (List.range p.cout).map fun c => s.devNat (p.table + 8 * c) 8 else []
    ⟨v.1.zipIdx.map fun x => narrowRow pipCtx false (if v.2.1 then fINT32 else fFP32) d sd [] tab x.2 x.1, fmt, v.2.2⟩
  else
    let n := r.chans p
    ⟨(List.range r.size.2).flatMap fun y => (List.range r.size.1).map fun x =>
      let l := (List.range n).map fun c => narrowTo r.dstFmt .rne true 0 (im x y c)
      ⟨l.map (·.code), (l.filter (·.sat)).length, []⟩, r.dstFmt, 0⟩

/-! ## Addresses -/

/-- Bytes of a source line. -/
def PipRec.lineBytes (r : PipRec) (p : PipParam) : Nat :=
  match r.fmt with
  | 0 => r.w
  | 1 => (r.w + 3) / 4 * 5
  | 2 => (r.w + 1) / 2 * 3
  | 3 => (r.w + 1) / 2 * 4
  | 4 => 3 * r.w
  | _ => r.w * rowBytes p.xFmt p.cin

/-- Every address the record uses beside its block is mapped, and in no region that waits for its scrub (R101, R245). -/
def PipRec.mapped (r : PipRec) (s : State) (p : PipParam) (outBytes : Nat) : Bool :=
  s.served r.src ((r.h - 1) * r.stride + r.lineBytes p) && s.served r.dst outBytes && s.served r.status 16
    && (!r.stage 4 || (s.served p.weights (p.cout * p.kh * p.kw * rowBytes p.wFmt (p.cin / p.geo.groups.toNat))
      && (p.bias == 0 || s.served p.bias (p.cout * 4)) && (p.wScales == 0 || s.served p.wScales p.cout)
      && (p.yMode != mRESCALE || s.served p.table (8 * p.cout))))

/-! ## Completion (R246) -/

/-- The first bytes of the output are written, none beyond an address that is not served; how many is a free value. -/
def State.pipPart (s : State) (dst : Nat) (bs : List Byte) : State :=
  let t := s.take 1
  t.2.storeDev dst (bs.take (min (Config.freeCount t.1) (s.servedPrefix dst bs.length)))

/-- PIP_SAT of a record that ended early: how many of the elements it would have flagged is a free value (R247). -/
def State.pipSome (s : State) (o : PipOut) : State :=
  let t := s.take 1
  t.2.countReg Reg.PIP_SAT (Config.freeCount t.1 % (o.flagged + o.rows.foldl (fun n x => n + x.counted) 0 + 1))

/-- Write the status, count the record and raise its event. -/
def State.pipFinish (s : State) (r : PipRec) (code : Nat) : State :=
  let st := leBytes 4 r.frame ++ leBytes 1 code ++ leBytes 3 0 ++ leBytes 8 s.raw
  ((s.storeDev r.status st).countReg (if code = 0 then Reg.PIP_DONE else Reg.PIP_FAIL) 1).raiseEv r.event

/-- The engine is free again. -/
def State.pipIdle (s : State) : State :=
  { s with pip := { s.pip with running := none } }.setFld Reg.PIP_STATUS 63 56 0

/-- Packed bytes of the output. -/
def PipOut.bytes (o : PipOut) : List Byte := o.rows.flatMap fun r => packCodes o.fmt r.codes

/-- Why a record ends before it reads its source, if it does: a field out of order (1), or a block at an address that is not mapped
(2), whose fields then cannot be judged (R245, R246). -/
def State.pipStop (s : State) (r : PipRec) (p : PipParam) : Option Nat :=
  if !r.fieldsOk then some 1
  else if r.usesParam && !s.served r.param 0x130 then some 2
  else if !r.ok p then some 1
  else none

/-- PIP_RECORD_DONE: the running record writes its output and status and raises EVENT; `memErr` says that it met an
uncorrectable memory error. A flushed record ends without status or event (R246). -/
def execPipRecordDone (memErr : Bool) (s : State) : Out :=
  match s.pip.running with
  | none => s.noEvent
  | some run =>
    let r := pipRecOf run.image
    let p := s.pipParam r.param
    let stop := s.pipStop r p
    let o := if stop.isNone then pipOutput s r p else PipOut.none
    if run.flushed then .next ((s.pipPart r.dst o.bytes).pipSome o).pipIdle
    else match stop with
      | some c => .next (s.pipFinish r c).pipIdle
      | none =>
        if memErr then .next (((s.pipPart r.dst o.bytes).pipSome o).pipFinish r 3).pipIdle
        else if !r.mapped s p o.bytes.length then .next (((s.pipPart r.dst o.bytes).pipSome o).pipFinish r 2).pipIdle
        else
          .next (((s.storeDev r.dst o.bytes).countReg Reg.PIP_SAT
            (o.flagged + o.rows.foldl (fun n x => n + x.counted) 0)).pipFinish r 0).pipIdle

/-- PIP_TIMEOUT: a record has run longer than REC_LIMIT and is abandoned (R245). -/
def execPipTimeout (s : State) : Out :=
  match s.pip.running with
  | none => s.noEvent
  | some run =>
    let r := pipRecOf run.image
    let p := s.pipParam r.param
    if s.raw ≤ run.start + 1000 * s.fld Reg.PIP_CTRL 31 16 then s.noEvent
    else
      let o := if (s.pipStop r p).isNone then pipOutput s r p else PipOut.none
      let s := (s.pipPart r.dst o.bytes).pipSome o
      if run.flushed then .next s.pipIdle else .next (s.pipFinish r 4).pipIdle

/-! ## Queues (R245, R247) -/

/-- Queue of partition `p`. -/
def State.pipQueue (s : State) (p : Nat) : List Nat := Map.get [] s.pip.queues p

/-- Replace it; PIP_QLEVEL shows its length. -/
def State.setPipQueue (s : State) (p : Nat) (l : List Nat) : State :=
  { s with pip := { s.pip with queues := Map.put [] s.pip.queues p l } }.setFld (Reg.PIP_QLEVEL p) 4 0 l.length

/-- EVENT of a record in memory is granted to its JOB. -/
def pipGranted (s : State) (r : PipRec) : Bool := srcGranted s r.job r.event

/-- PIP_QPUSH: pushes a record; a full queue sets QFULL, and a record that Ulnal cannot read, or whose EVENT is not granted to JOB,
is refused (R246, R247). -/
def execPipQpush (p : BitVec 3) (v : Word) (s : State) : Out :=
  let p := p.toNat
  let a := bits v.toNat 47 6 * 64
  if !s.served a 64 || !pipGranted s (pipRecOf (s.load (devKey a) 64)) then .next (s.answer .denied)
  else if 16 ≤ (s.pipQueue p).length then .next ((s.setFlag Reg.PIP_STATUS p true).answer (.ok []))
  else .next ((s.setPipQueue p (s.pipQueue p ++ [a])).answer (.ok []))

/-- The next queue in round robin after `last` that is not empty. -/
def State.pipNext (s : State) : Option Nat :=
  ((List.range 8).map fun i => (s.pip.last + 1 + i) % 8).find? fun p => !(s.pipQueue p).isEmpty

/-- PIP_RECORD_START: the engine starts the next queued record (R245). One that it cannot read fails, with no status to write and no
EVENT to raise (DESIGN CHOICE, assumption 32). -/
def execPipRecordStart (s : State) : Out :=
  if s.pip.running.isSome || !s.flag Reg.PIP_CTRL 0 then s.noEvent
  else match s.pipNext with
    | none => s.noEvent
    | some p => match s.pipQueue p with
      | [] => s.noEvent
      | a :: rest =>
        if !s.served a 64 then .next ((s.setPipQueue p rest).countReg Reg.PIP_FAIL 1)
        else
        let image := s.load (devKey a) 64
        let job := (pipRecOf image).job % 16
        let s := s.setPipQueue p rest
        let s := { s with pip := { s.pip with
          running := some ⟨a, image, p, job, s.raw, false⟩
          last := p } }
        .next (((s.setFld Reg.PIP_STATUS 58 56 p).setFld Reg.PIP_STATUS 62 59 job).setFlag Reg.PIP_STATUS 63 true)

/-- Drop the records of job `j` (R246). -/
def State.pipFlush (s : State) (j : Nat) : State :=
  let mine := fun a => (pipRecOf (s.load (devKey a) 64)).job % 16 == j
  let s' := s.each (List.range 8) fun t p =>
    if (t.pipQueue p).any mine then t.setPipQueue p ((t.pipQueue p).filter fun a => !mine a) else t
  match s'.pip.running with
  | some run => if run.job = j then { s' with pip := { s'.pip with running := some { run with flushed := true } } } else s'
  | none => s'

/-- PIP_QFLUSH: with GO 1, drops a job's queued records and abandons its running one (R246). -/
def execPipQflush (v : Word) (s : State) : Out :=
  if bitOf v.toNat 4 then .next (s.pipFlush (bits v.toNat 3 0)) else .next s

end Sys2Proof.Machine
end

