-- ==== Sys2Proof/Machine/Jobs.lean ====
section
/-! DEFINITION. The end of a job: unload, kill, program exception, and the scrub that follows (R99 to R101, R123, R137,
R246, R503). -/

namespace Sys2Proof.Machine

/-! ## The end of a job -/

/-- Cancel the waiting acquires of job `j` (R123): a cancelled SACQ leaves its window without a signal. -/
def State.dropJobWaiters (s : State) (j : Nat) : State :=
  let mine := (s.waiters.flatMap fun e => e.2).filter fun r => r.job == j
  let s' := s.each s.waiters fun s e => (s.setWaiters e.1 (e.2.filter fun r => r.job != j)).semRefresh e.1
  s'.each (mine.filterMap (·.face)) fun s w => s.leaveWindow w.1 w.2

/-- The NET of job `j` goes back to every COUNT, saturating at 65,535 (R123). -/
def State.returnNet (s : State) (j : Nat) : State :=
  s.each (s.net.filter fun e => e.1 / 256 == j) fun s e =>
    let m := e.1 % 256
    ((s.setFld (Reg.SYNC_SEM m) 15 0 (min 65535 (s.semCount m + e.2))).setNet j m 0).semRefresh m

/-- Ulnal clears the event bindings and grants of job `j` (R503). -/
def State.dropGrants (s : State) (j : Nat) : State :=
  let ks := s.regs.filterMap fun e => if Reg.EVT_SRC 0 ≤ e.1 && e.1 < Reg.EVT_SRC 512 then some e.1 else none
  s.each ks fun s a =>
    let s := if s.flag a 60 && s.fld a 59 56 == j then s.setFld a 60 49 0 else s
    if s.flag a 48 && s.fld a 47 44 == j then s.setFld a 48 44 0 else s

/-- Its queues are taken out of use (R277). -/
def State.dropQueues (s : State) (j : Nat) : State :=
  s.each (List.range 6) fun s v =>
    let q := s.vf j v
    s.setVf j v { q with qbase := BitVec.ofNat 64 (putBits q.qbase.toNat 63 63 0) }

/-- Moves of its buffers stop; the destinations are scrubbed with the rest (R97). -/
def State.stopMoves (s : State) (j : Nat) : State :=
  let mine := fun e => bits (s.buf e).record.toNat 62 59 == j
  let s' := s.each (s.place.moving.filter fun m => mine m.1) fun s m =>
    let b := s.buf m.1
    s.setBuf m.1 { b with bind := BitVec.ofNat 64 (putBits b.bind.toNat 61 61 0) }
  let s' := { s' with place := { s'.place with
    moves := s.place.moves.filter fun m => !mine m.1
    moving := s.place.moving.filter fun m => !mine m.1
    adopt := s.place.adopt.filter fun a => a.1 != j } }
  (if s'.place.moving.isEmpty then s'.setFlag Reg.PLACE_STATUS 1 false else s').placeSettle

/-- A piece accepted by window `i` is still completing (R423). -/
def State.eflOpenPieces (s : State) (i : Nat) : Bool := s.efl.accepted.any fun p => p.win == i && p.status == 0

/-- Ulnal closes the windows of job `j`: closed to new work at once, CLOSING while an accepted piece is left (R423). -/
def State.closeWindow (s : State) (i : Nat) : State :=
  if s.flag (Reg.WINA i) 63 then
    (s.setFlag (Reg.WINA i) 63 false).setFlag (Reg.WINA i) 62 (s.eflOpenPieces i)
  else s

/-- No further command of job `j` starts (R99). -/
def State.beginEnd (s : State) (j : Nat) : State :=
  let s := (((s.modJob j fun b => { b with ending := true }).dropJobWaiters j).dropGrants j).dropQueues j
  let s := { s with kept := { s.kept with
    reload := s.kept.reload.filter fun r => r.1 != j
    jstep := Map.put 0 s.kept.jstep j 0 } }
  s.each (s.windowsOf j) State.closeWindow

/-- Cancel the running commands of job `j`, as R136 cancels instructions. -/
def State.cancelJob (s : State) (j : Nat) : State :=
  s.each (List.range 6) fun s g =>
    if (s.face g).running && (s.face g).job == j then (s.cancelWindow g).endCommand g else s

/-- End job `j` at once: a kill, or a program error, while it is unloading too (R99, R123, R137, R246). -/
def State.killJob (s : State) (j : Nat) : State :=
  if (s.job j).isSome then ((((s.beginEnd j).cancelJob j).returnNet j).stopMoves j).pipFlush j else s

/-- Save the counts of job `j`'s buffers (R88). -/
def State.saveHistory (s : State) (j : Nat) : State :=
  match s.job j with
  | none => s
  | some jb =>
    let d := imageDigest jb.img
    s.each (s.bufs.filter fun e => e.2.isValid && bits e.2.record.toNat 62 59 == j) fun s e =>
      let id := bits e.2.record.toNat 55 40
      { s with kept := { s.kept with
        history := (d, id, Ctr.count e.2.reads, Ctr.count e.2.writes)
          :: s.kept.history.filter fun h => !(h.1 == d && h.2.1 == id) } }

/-- JOB_UNLOAD: no further command starts; those running complete at their END (R99). Its counts are saved (R88). -/
def execJobUnload (j : BitVec 4) (s : State) : Out :=
  if s.jobLive j.toNat then .next ((s.saveHistory j.toNat).beginEnd j.toNat) else s.noEvent

/-- JOB_KILL (R99). Where a debug hold has been requested for the job, its regions will be held (R472). -/
def execJobKill (j : BitVec 4) (s : State) : Out :=
  let j := j.toNat
  if (s.job j).isSome then
    .next ((s.killJob j).modJob j fun b => { b with hold := b.hold || s.sec.holdJob == some j })
  else s.noEvent

/-- ULNAL_EXCEPTION_RESPONSE: Ulnal answers the oldest exception of Face `f`; on a program exception it ends the job (R137). A
hardware exception has been recorded in HFLT by the mechanism that found the error. -/
def execUlnalExceptionResponse (f : Fin 6) (s : State) : Out :=
  match (s.face f).excJobs with
  | [] => s.noEvent
  | (j, hw) :: rest =>
    let s' := s.setFace f { s.face f with excJobs := rest }
    if hw then .next s' else .next (s'.killJob j)

/-! ## Scrub (R99 to R101) -/

/-- Are the regions of job `j` to be held: was a hold in force when it was killed, and is it still (R101, R472)? -/
def State.holdWanted (s : State) (j : Nat) : Bool :=
  s.sec.holdJob == some j && match s.job j with
    | some jb => jb.hold
    | none => false

/-- The banks of job `j` are nobody's from now on, and its exceptions need no answer. -/
def State.disown (s : State) (j : Nat) : State :=
  s.each (List.range 6) fun s f =>
    let fs := s.face f
    s.setFace f { fs with
      owner := fs.owner.filter fun e => (e.2 - 1) / 8 != j
      excJobs := fs.excJobs.filter fun e => e.1 != j }

/-- The scrub of job `j` starts, or its regions are held. -/
def State.scrubJob (s : State) (j : Nat) : State :=
  let l := (s.jobRegions j).map fun r => (r.1, r.2, j)
  let s := (((s.endJobTurns j).returnNet j).stopMoves j).disown j
  let s := s.modJob j fun b => { b with
    regions := []
    ranScrub := 0 }
  if s.holdWanted j then
    { s with place := { s.place with held := s.place.held ++ l } }.setFlag Reg.SEC_DBGSTAT 24 true
  else { s with place := { s.place with scrub := s.place.scrub ++ l } }

/-- Job index `j` is free again. -/
def State.freeJob (s : State) (j : Nat) : State :=
  let s := s.each (s.bufs.filter fun e => bits e.2.record.toNat 62 59 == j) fun s e => s.setBuf e.1 BufEnt.free
  let s := s.each (List.range 6) fun s v => s.setVf j v VfSt.empty
  let s := s.each (s.kv.filter fun e => e.1 / 16 == j) fun s e => { s with kv := Map.put KvSet.empty s.kv e.1 KvSet.empty }
  ((s.setJob j none).setFlag (Reg.SCHED_JOB j) 63 false).wr (Reg.PLACE_VMAP j) 0xFFFFFF

/-- Once nothing of an ended job is left to scrub, its index is free. -/
def State.settleJob (s : State) (j : Nat) : State :=
  if s.jobEnding j && !(s.place.scrub.any fun r => r.2.2 == j) && !(s.place.held.any fun r => r.2.2 == j) then s.freeJob j
  else s

/-- Does a command, of another job, run on a Face whose store or banks are among the regions? The scrub does not change what it
computes (R282; DEDUCED, assumption 117): it waits. -/
def State.regionsBusy (s : State) (l : List (Nat × Nat)) : Bool :=
  (List.range 6).any fun g => (s.face g).running &&
    l.any fun r => spansMeet r (storeBase g, storeBytes) || spansMeet r (bankKey g 0, 0x100000)

/-- SCRUB_START: once nothing of ended job `j` runs, its regions are being zeroed (R99, R246). -/
def execScrubStart (t : ScrubOf) (s : State) : Out :=
  match t with
  | .job j =>
    let j := j.toNat
    let begun := s.place.scrub.any (fun r => r.2.2 == j) || s.place.held.any fun r => r.2.2 == j
    if s.jobOver j && !begun && !s.regionsBusy (s.jobRegions j) then .next ((s.scrubJob j).settleJob j) else s.noEvent
  | .region a n =>
    if s.place.unzeroed.any fun r => r.1 ≤ a && a + n ≤ r.1 + r.2 then
      .next { s with place := { s.place with
        scrub := s.place.scrub ++ [(a, n, 16)]
        unzeroed := s.place.unzeroed.flatMap fun r => spanMinus r (a, n) } }
    else s.noEvent

/-- The Face whose store starts at a key. -/
def storeFace (a : Nat) : Option Nat := (List.range 6).find? fun f => storeBase f == a

/-- The store of Face `f` has been scrubbed: no job has run there since (R99). -/
def State.noteScrub (s : State) (f : Nat) : State :=
  s.each (List.range 16) fun s j => s.modJob j fun b => { b with
    ranScrub := if bitOf b.ranScrub f then b.ranScrub - 2 ^ f else b.ranScrub }

/-- SCRUB_DONE: the first region is zeroed and can be allocated again (R99, R101). -/
def execScrubDone (s : State) : Out :=
  match s.place.scrub with
  | [] => s.noEvent
  | r :: rest =>
    let s := { (s.zero r.1 r.2.1) with place := { s.place with scrub := rest } }
    let s := match storeFace r.1 with
      | some f => s.noteScrub f
      | none => s
    .next (s.settleJob r.2.2)

end Sys2Proof.Machine
end

