-- ==== Sys2Proof/Machine/Sched.lean ====
section
/-! DEFINITION. Queues, readiness, slots, turns, switches, donation, step advances and the scheduler's registers
(R248 to R267, R277, R286). -/

namespace Sys2Proof.Machine

/-! ## Command records (R254) -/

/-- A command record. -/
structure CmdRec where
  entry : Nat
  xentry : Nat
  args : List Nat
  bound : Nat
  striped : Bool
  xcap : Bool
  waitEn : Bool
  semEn : Bool
  set : Nat
  waitEv : Nat
  sem : Nat
  semN : Nat
  waitVal : Nat
  /-- every reserved byte and bit is 0 -/
  clean : Bool
  deriving DecidableEq, Repr

/-- Decode the 64 bytes of a record. -/
def cmdRecOf (l : List Byte) : CmdRec :=
  let g := fun k n => leNat ((l.drop k).take n)
  { entry := g 0 4, xentry := g 4 4, args := [g 8 8, g 16 8, g 24 8, g 32 8], bound := g 40 2,
    striped := bitOf (g 42 1) 0, xcap := bitOf (g 42 1) 1, waitEn := bitOf (g 42 1) 2, semEn := bitOf (g 42 1) 3,
    set := g 43 1, waitEv := g 44 1 % 16, sem := g 45 1, semN := g 46 2, waitVal := g 48 6,
    clean := decide (g 42 1 < 16) && decide (g 44 1 < 16) && g 54 2 == 0 && g 56 8 == 0 }

/-- EN of a queue. -/
def VfSt.en (q : VfSt) : Bool := bitOf q.qbase.toNat 63
/-- Address of the queue header. -/
def VfSt.base (q : VfSt) : Nat := bits q.qbase.toNat 47 6 * 64
/-- Records of the ring. -/
def VfSt.size (q : VfSt) : Nat := 2 ^ bits q.qbase.toNat 3 0
/-- Key of record `i`. -/
def VfSt.recKey (q : VfSt) (i : Nat) : Nat := q.base + 64 + 64 * (i % q.size)
/-- The queue holds a command. -/
def VfSt.holds (q : VfSt) : Bool := q.en && decide (0 < (q.tail - q.head).toInt)

/-- The record at the head of a queue. -/
def State.headRec (s : State) (j v : Nat) : CmdRec :=
  let q := s.vf j v
  cmdRecOf (s.load (q.recKey q.head.toNat) 64)

/-- The device publishes HEAD and TAIL in the queue header (R253). -/
def State.publish (s : State) (j v : Nat) : State :=
  let q := s.vf j v
  (s.storeNat q.base 4 q.head.toNat).storeNat (q.base + 4) 4 q.tail.toNat

/-- Is the head command at or after a captured TAIL (R286)? -/
def State.stepHeld (s : State) (j v : Nat) : Bool :=
  match s.job j with
  | some jb => match jb.captured[v]? with
    | some t => decide ((t - (s.vf j v).head).toInt ≤ 0)
    | none => false
  | none => true

/-- COMMAND_READY: the head command of a queue passes its next stage: the start wait, then the request of its
semaphore, which a grant completes (R255). The time in the acquire counts as queue waiting (R267; DEDUCED, assumption 118). One
whose semaphore is disabled or of another partition fails as SEM_DENIED would: a program error of the job. -/
def execCommandReady (j : BitVec 4) (v : BitVec 3) (s : State) : Out :=
  let j := j.toNat
  let v := v.toNat
  let q := s.vf j v
  if s.jobLive j && decide (v < s.vfCountOf j) && q.holds && q.stage == 0 && !s.stepHeld j v then
    let r := s.headRec j v
    let c := s.routedCtr j v r.waitEv
    if r.waitEn && !(c.ovf || decide (r.waitVal ≤ c.count)) then s.noEvent
    else if !r.semEn then .next (s.setVf j v { q with
      stage := 3
      readyAt := s.raw })
    else if !semAllowed s j r.sem then .next (s.killJob j)
    else .next (((s.setVf j v { q with
      stage := 2
      readyAt := s.raw }).setWaiters r.sem
      (s.semWaiters r.sem ++ [⟨j, none, v, r.semN, s.raw, false, 0⟩])).semRefresh r.sem)
  else s.noEvent

/-! ## Slots (R258 to R262) -/

/-- FRAME in ns. -/
def State.frameNs (s : State) : Nat := 1000 * s.fld Reg.SCHED_FRAME 16 0

/-- Fields of active slot entry `i`. -/
def State.slotPart (s : State) (i : Nat) : Nat := s.fld (Reg.SCHED_SLOT i) 61 59
/-- Faces of a slot. -/
def State.slotFaces (s : State) (i : Nat) : Nat := s.fld (Reg.SCHED_SLOT i) 55 50
/-- Raw count at which the slot of this frame starts. -/
def State.slotStartAt (s : State) (i : Nat) : Nat := s.sched.frameAt + 1000 * s.fld (Reg.SCHED_SLOT i) 19 0
/-- Raw count at which it ends. -/
def State.slotEndAt (s : State) (i : Nat) : Nat := s.slotStartAt i + 1000 * s.fld (Reg.SCHED_SLOT i) 39 20
/-- A TEST slot of the safety partition (R259, R441). -/
def State.slotTest (s : State) (i : Nat) : Bool :=
  s.flag (Reg.SCHED_SLOT i) 62 && s.slotPart i == s.fld Reg.GOLD_CTRL 61 59

/-- The slot of Face `f` ends: the turn in it is cut short with its time remaining and its place in the job's queues, after its
snapshots; a command still running is an overrun, which its turn pays for when it ends (R252, R262, R263). -/
def State.slotOff (s : State) (f : Nat) : State :=
  match (s.face f).slot with
  | none => s
  | some i =>
    let p := s.slotPart i
    let t := s.turn f p
    let s := match t.job with
      | none => s
      | some j => (s.turnSnap f j).setTurn f p (t.cutShort j t.left t.nextVf)
    let fs := s.face f
    let s := if fs.running then (s.setFlag Reg.SCHED_STATUS 1 true).raiseEv 17 else s
    s.setFace f { fs with slot := none }

/-- SLOT_START: the START offset of entry `i` is reached, and its Faces pass to its partition (R259). -/
def execSlotStart (i : BitVec 6) (s : State) : Out :=
  let i := i.toNat
  if s.flag Reg.SCHED_CTRL 0 && s.flag (Reg.SCHED_SLOT i) 63 && decide (s.slotStartAt i ≤ s.raw)
      && decide (s.raw < s.slotEndAt i) then
    .next (s.each (List.range 6) fun s f =>
      if bitOf (s.slotFaces i) f && (s.face f).slot != some i then
        let s := s.slotOff f
        s.setFace f { s.face f with slot := some i }
      else s)
  else s.noEvent

/-- SLOT_END: entry `i` ends on its Faces (R262). -/
def execSlotEnd (i : BitVec 6) (s : State) : Out :=
  let i := i.toNat
  if s.slotEndAt i ≤ s.raw then
    .next (s.each (List.range 6) fun s f => if (s.face f).slot = some i then s.slotOff f else s)
  else s.noEvent

/-! ## The choice of a command (R263) -/

/-- Face bound to vFace `v` of job `j`. -/
def State.boundTo (s : State) (j v : Nat) : Nat := s.fld (Reg.PLACE_VMAP j) (4 * v + 3) (4 * v)

/-- A ready command of vFace `v` of job `j` bound to Face `f`. -/
def State.readyOn (s : State) (f j v : Nat) : Bool :=
  s.jobLive j && s.boundTo j v == f && (s.vf j v).en && (s.vf j v).stage == 3 && !s.vfRuns j v

/-- Job `j` has a ready command on Face `f`. -/
def State.jobReadyOn (s : State) (f j : Nat) : Bool := (List.range 6).any fun v => s.readyOn f j v

/-- Is job `j` the golden job? -/
def State.isGolden (s : State) (j : Nat) : Bool :=
  match s.job j with
  | some jb => jb.img.golden
  | none => false

/-- Job `j` has a borrowed turn on Face `f` (R266). -/
def State.borrows (s : State) (f j : Nat) : Bool :=
  match s.job j with
  | some jb => bitOf jb.borrow f
  | none => false

/-- The first of `l` after `k` in cyclic order below `n`. -/
def nextAfter (n k : Nat) (l : List Nat) : Option Nat := ((List.range n).map fun i => (k + 1 + i) % n).find? l.contains

/-- The job that Face `f` serves next in the slot of entry `i` (R239, R263, R442): one that exchanges there goes on;
golden instances in a TEST slot, and only there; a borrowed turn; then the highest PRIO, in turns: the turn in progress, one that
was cut short, the next in round robin. -/
def State.chooseJob (s : State) (f i : Nat) : Option Nat :=
  let p := s.slotPart i
  let t := s.turn f p
  let js := (List.range 16).filter fun j => s.jobReadyOn f j && s.partOf j == p && (s.slotTest i || !s.isGolden j)
  let top := js.foldl (fun m j => max m (s.prioOf j)) 0
  let best := js.filter fun j => s.prioOf j == top
  let usual := match t.job with
    | some j => if best.contains j && decide (0 < t.left) then some j else nextAfter 16 j best
    | none => match best.find? fun j => Map.get 0 t.cut j != 0 with
      | some j => some j
      | none => nextAfter 16 (Map.get 0 t.last top + 15) best
  match t.job.filter s.exchanging with
  | some j => if js.contains j then some j else none
  | none => match if s.slotTest i then js.find? s.isGolden else none with
    | some j => some j
    | none => match js.find? (s.borrows f) with
      | some j => some j
      | none => usual

/-- The vFace of job `j` that Face `f` serves next: ascending from the one after the last of the turn, then around. -/
def State.chooseVf (s : State) (f i j : Nat) : Option Nat :=
  let t := s.turn f (s.slotPart i)
  let start := if t.job = some j then t.nextVf else Map.get 0 t.cutVf j
  nextAfter 6 (start + 5) ((List.range 6).filter (s.readyOn f j))

/-- The command that Face `f` runs next: slot entry, job and vFace. -/
def State.choose (s : State) (f : Nat) : Option (Nat × Nat × Nat) :=
  match (s.face f).slot with
  | none => none
  | some i => match s.chooseJob f i with
    | none => none
    | some j => (s.chooseVf f i j).map fun v => (i, j, v)

/-! ## Live banks (R205, R265) -/

/-- LIVE mask of vFace `v` of job `j` (R202). -/
def State.liveBanks (s : State) (j v : Nat) : Nat :=
  match s.job j with
  | some jb => jb.live v
  | none => 0

/-- Banks of Face `f` whose live image leaves before a command of vFace `v` of job `j`: those in which the vFace has its own, and
those of another partition's jobs, but for what that partition reserves. Other images of the same partition stay (R205, R251,
R265). -/
def State.banksOut (s : State) (f j v : Nat) : List Nat :=
  (List.range 16).filter fun b =>
    let o := Map.get 0 (s.face f).owner b
    o != 0 && o != ownerMark j v && (bitOf (s.liveBanks j v) b
      || (s.partOf ((o - 1) / 8) != s.partOf j && !bitOf (s.liveMask f j v) b))

/-- Live banks of vFace `v` of job `j` that Face `f` does not hold. -/
def State.banksIn (s : State) (f j v : Nat) : List Nat :=
  (List.range 16).filter fun b => bitOf (s.liveBanks j v) b && Map.get 0 (s.face f).owner b != ownerMark j v

/-- Set bits of a mask below bit `b`. -/
def rankBit (m b : Nat) : Nat := ((List.range b).filter (bitOf m)).length

/-- First key of the save area of vFace `v` of job `j` (R205). -/
def State.saveArea (s : State) (j v : Nat) : Nat :=
  match s.job j with
  | some jb => jb.saves.getD v 0
  | none => 0

/-- Key of the place of bank `b` in that area: the places of the vFace's live banks follow the header in ascending order (R224;
DESIGN CHOICE for an image that does not hold all of them, assumption 119). -/
def State.saveKey (s : State) (j v b : Nat) : Nat := s.saveArea j v + 64 + 65536 * rankBit (s.liveBanks j v) b

/-- Banks that the save area holds. -/
def State.savedBanks (s : State) (j v : Nat) : List Nat := (List.range 16).filter (bitOf (s.vf j v).inSave)

/-- Their contents, in ascending order. -/
def State.savedBytes (s : State) (j v : Nat) : List Byte := (s.savedBanks j v).flatMap fun b => s.load (s.saveKey j v b) 65536

/-- Write the header of a save area for the banks that it holds (R205, R223). No command runs: STREAM is 0. -/
def State.saveHead (s : State) (j v : Nat) : State :=
  let tag := match s.job j with
    | some jb => imageTag jb.img
    | none => 0
  let l := s.savedBanks j v
  s.store (s.saveArea j v) ((bankImage (l.headD 0) l.length (s.rd (Reg.DET_JSTEP j)).toNat 0 tag (s.savedBytes j v)).take 64)

/-- Is the image in the save area whole: no uncorrectable word, and both CRCs right (R205)? -/
def State.saveGood (s : State) (j v : Nat) : Bool :=
  let a := s.saveArea j v
  let head := s.load a 64
  !s.badIn a 64 && !((s.savedBanks j v).any fun b => s.badIn (s.saveKey j v b) 65536)
    && leNat (head.drop 56) == crc64Ecma (head.take 56)
    && leNat ((head.drop 48).take 8) == crc64Ecma (s.savedBytes j v)

/-- The owner of bank `b` of Face `f` from now on. -/
def State.setOwner (s : State) (f b o : Nat) : State :=
  s.setFace f { s.face f with owner := Map.put 0 (s.face f).owner b o }

/-- Move the live image in bank `b` of Face `f` to its owner's save area; the bank is empty. -/
def State.bankSave (s : State) (f b : Nat) : State :=
  let o := Map.get 0 (s.face f).owner b
  if o = 0 then s
  else
    let j := (o - 1) / 8
    let v := (o - 1) % 8
    let q := s.vf j v
    let s := (s.copy (bankKey f b) (s.saveKey j v b) 65536).zero (bankKey f b) 65536
    ((s.setVf j v { q with inSave := q.inSave ||| 2 ^ b }).saveHead j v).setOwner f b 0

/-- The Face that holds the live image of bank `b` of vFace `v` of job `j`. -/
def State.bankHolder (s : State) (j v b : Nat) : Option Nat :=
  (List.range 6).find? fun g => Map.get 0 (s.face g).owner b == ownerMark j v

/-- Bring the live image of bank `b` of vFace `v` of job `j` to Face `f`: over the mesh from the Face that holds it, from the save
area, or +0 in every word where there is none since the load (R205). -/
def State.bankLoad (s : State) (f j v b : Nat) : State :=
  let q := s.vf j v
  let s := match s.bankHolder j v b with
    | some g => ((s.copy (bankKey g b) (bankKey f b) 65536).zero (bankKey g b) 65536).setOwner g b 0
    | none =>
      if bitOf q.inSave b then
        (s.copy (s.saveKey j v b) (bankKey f b) 65536).setVf j v { q with inSave := q.inSave - 2 ^ b }
      else s.zero (bankKey f b) 65536
  s.setOwner f b (ownerMark j v)

/-- Nanoseconds that an image of `n` banks takes at Face `f` (R265): 64 + 65,536 n bytes at 333 GB/s times the pace
ratio. -/
def State.imageNs (s : State) (f n : Nat) : Nat :=
  if n = 0 then 0 else (64 + 65536 * n) * 1300 / (333 * max 1 (s.paceOf f))

/-- BANK_SWAP_DONE: the save and the restore for the command that Face `f` runs next are complete (R265). The time is
charged in full accounting to the jobs whose images moved (R271). A restore whose CRC fails is a compute fault (R205), of source
HBM_UE, for the area lies in HBM (DESIGN CHOICE, assumption 119), and brings no bank. -/
def execBankSwapDone (f : Fin 6) (s : State) : Out :=
  match s.choose f with
  | none => s.noEvent
  | some (_, j, v) =>
    let out := s.banksOut f j v
    let inn := s.banksIn f j v
    if (s.face f).running || (out.isEmpty && inn.isEmpty) then s.noEvent
    else
      let owners := (out.map fun b => (Map.get 0 (s.face f).owner b - 1) / 8).eraseDups
      let s' := if s.acctFull then
        (s.each owners fun s k => s.account k (0x40 + 8 * f)
          (s.imageNs f (out.filter fun b => (Map.get 0 (s.face f).owner b - 1) / 8 == k).length)).account j
            (0x40 + 8 * f) (s.imageNs f inn.length)
        else s
      let s' := s'.each out fun s b => s.bankSave f b
      if inn.any (fun b => (s'.bankHolder j v b).isNone && bitOf (s'.vf j v).inSave b) && !s'.saveGood j v then
        .next (s'.fault 0x03 none (some j) false (s'.saveArea j v / 16))
      else
        let s' := s'.each inn fun s b => s.bankLoad f j v b
        .next (if (s'.vf j v).inSave = 0 then s' else s'.saveHead j v)

/-! ## Starting a command (R102, R261, R264) -/

/-- Does the command fit in what is left of the slot (R261)? The pace ratio is RATE / 1300. -/
def State.fits (s : State) (f i j bound : Nat) : Bool :=
  let rate := s.paceOf f
  let left := s.slotEndAt i - s.raw
  let mine := (List.range 6).filter fun v => s.boundTo j v == f && decide (v < s.vfCountOf j)
  let live := match s.job j with
    | some jb => mine.foldl (fun m v => m ||| jb.live v) 0
    | none => 0
  let resv := s.fld (Reg.SCHED_PARTA (s.partOf j)) 47 32
  let n := ((List.range 16).filter fun b => bitOf live b && !bitOf resv b).length
  let out := if n = 0 then 0 else 64 + 65536 * n
  decide (0 < rate)
    && decide (bound * 1000 * 1300 * 333 + mine.length * 120 * rate * 333 + out * 1300 ≤ left * rate * 333)

/-- May Face `f` start a command at all: idle, healthy, powered, not being reset, its store scrubbed (R101, R262,
R471, R473, R512)? Before Retain and Watch the jobs stop at their command boundaries (R474). -/
def State.faceFree (s : State) (f : Nat) : Bool :=
  let fs := s.face f
  !fs.running && !fs.halted && !fs.resetting && !fs.gated && !s.unscrubbed (storeBase f) storeBytes
    && !s.unscrubbed (bankKey f 0) 0x100000 && !bitOf (s.fld Reg.HFLT_QUAR 5 0) f && (match s.pwr.toHome with
      | some t => decide (t < 3)
      | none => true)

/-- All that a start needs, besides the choice: scheduling enabled, the Face free, no bank left to swap, the command
fits, and for an EXCHANGE set the same on all its Faces. -/
def State.startOk (s : State) (f i j v : Nat) : Bool :=
  s.flag Reg.SCHED_CTRL 0 && s.faceFree f && (s.banksOut f j v).isEmpty && (s.banksIn f j v).isEmpty
    && s.fits f i j (s.headRec j v).bound

/-- The vFaces of an exchange-capable stripe set of job `j` (R238). -/
def State.stripeOf (s : State) (j set : Nat) : List Nat :=
  match s.job j with
  | some jb => (jb.img.stripes.find? fun x => x.1 == set).elim [] (·.2)
  | none => []

/-- The vFaces of the stripe set of a command that runs in EXCHANGE, else its own alone (R238, R239). -/
def State.startSet (s : State) (j v : Nat) : List Nat × Option Nat :=
  let r := s.headRec j v
  if r.striped && r.xcap && s.place.exSets.contains (256 * j + r.set) && (s.stripeOf j r.set).contains v then
    (s.stripeOf j r.set, some r.set)
  else ([v], none)

/-- The turn of job `j` begins, or goes on after it was cut short; one of the same PRIO that was cut short and has nothing ready is
over (R263). -/
def State.openTurn (s : State) (f p j v : Nat) : State :=
  let t := (List.range 16).foldl (fun (t : TurnSt) k =>
    if k != j && Map.get 0 t.cut k != 0 && s.prioOf k == s.prioOf j then t.over (s.prioOf k) k else t) (s.turn f p)
  let cut := Map.get 0 t.cut j
  s.setTurn f p { t with
    job := some j
    left := if cut = 0 then 1000 * max 10 (s.fld (Reg.SCHED_PARTB p) 31 16) else cut
    nextVf := v + 1
    cut := Map.put 0 t.cut j 0
    cutVf := Map.put 0 t.cutVf j 0 }

/-- Begin or go on with the turn of job `j` on Face `f`: a turn that ends here gives its snapshots, a pre-emption is
counted and leaves its turn cut short (R263, R264). -/
def State.takeTurn (s : State) (f i j v : Nat) (borrowed : Bool) : State :=
  let p := s.slotPart i
  let t := s.turn f p
  if t.job = some j then s.setTurn f p { t with nextVf := v + 1 }
  else
    let s := match t.job with
      | none => s
      | some k =>
        if s.jobReadyOn f k && decide (0 < t.left) then
          (((s.turnSnap f k).setTurn f p (t.cutShort k t.left t.nextVf)).account k 0x10 1).modJob k fun b =>
            { b with preempted := true }
        else s.endTurn f p
    if borrowed then s else s.openTurn f p j v

/-- Start the head command of vFace `v` of job `j` on Face `f` (R102): HEAD advances and is published; the registers
start as R102 says, and banks that are scratch for it read as 0 (R148). -/
def State.startCommand (s : State) (f i j v : Nat) (ex : Option Nat) : State :=
  let r := s.headRec j v
  let borrowed := s.borrows f j
  let s := (s.takeTurn f i j v borrowed).setAside f j v
  let q := s.vf j v
  let s := s.account j 0x08 (s.raw - q.readyAt)
  let s := (s.setVf j v { q with
    head := q.head + 1
    stage := 0
    cmdno := q.cmdno + 1 }).publish j v
  let s := s.modJob j fun b => { b with
    started := true
    preempted := false
    ranStatus := b.ranStatus ||| 2 ^ f
    ranScrub := b.ranScrub ||| 2 ^ f
    borrow := if bitOf b.borrow f then b.borrow - 2 ^ f else b.borrow }
  let fs := s.face f
  let g := r.args.zipIdx.foldl (fun (m : Map Word) a => Map.put 0 m (a.2 + 1) (BitVec.ofNat 64 a.1)) []
  s.setFace f { FaceSt.idle with
    running := true, job := j, vf := v, pc := if ex.isSome then r.xentry else r.entry, g := g,
    seed := (s.rd (Reg.DET_SEEDHI j)).toNat * 2 ^ 64 + (s.rd (Reg.DET_SEEDLO j)).toNat, cmdno := q.cmdno,
    exchange := ex, borrowed := borrowed, startAt := s.raw,
    owner := fs.owner, slot := fs.slot, excJobs := fs.excJobs }

/-- COMMAND_START: the dispatcher of Face `f` starts the command it chooses, when it can; the commands of an EXCHANGE
stripe set start together, each Face of them having chosen its command of the set (R239, R261, R263). -/
def execCommandStart (f : Fin 6) (s : State) : Out :=
  match s.choose f with
  | none => s.noEvent
  | some (i, j, v) =>
    let st := s.startSet j v
    let ok := st.1.all fun w => match s.choose (s.boundTo j w) with
      | some (k, j', w') => j' == j && w' == w && s.startOk (s.boundTo j w) k j w && (s.startSet j w).2 == st.2
          && s.slotPart k == s.slotPart i
      | none => false
    if ok then
      .next (s.each st.1 fun s w =>
        let g := s.boundTo j w
        s.startCommand g ((s.face g).slot.getD i) j w st.2)
    else s.noEvent

/-- TURN_EXPIRE: the turn on Face `f` has run out, or its job has no ready command there. Between commands it ends at once;
under a command it ends when the command does (R263). -/
def execTurnExpire (f : Fin 6) (s : State) : Out :=
  let fs := s.face f
  match fs.slot with
  | none => s.noEvent
  | some i =>
    let p := s.slotPart i
    let t := s.turn f p
    match t.job with
    | none => s.noEvent
    | some j =>
      if fs.running then s.noEvent
      else if (t.left = 0 || !s.jobReadyOn f j) && !s.exchanging j then .next (s.endTurn f p)
      else s.noEvent

/-! ## Donation (R266, R267) -/

/-- Does a Face run job `j` (R257: RUNNING)? HOLDER of semaphore `m`, where HVALID is 1. -/
def State.holderOf (s : State) (m : Nat) : Option Nat :=
  if s.flag (Reg.SYNC_SEM m) 58 then some (s.fld (Reg.SYNC_SEM m) 62 59) else none

/-- The semaphores that job `j` waits on, through record acquires and SACQs. -/
def State.waitsOn (s : State) (j : Nat) : List Nat := (s.waiters.filter fun e => e.2.any fun r => r.job == j).map (·.1)

/-- The jobs, other than `j`, that hold the semaphores it waits on. -/
def State.waitsFor (s : State) (j : Nat) : List Nat := ((s.waitsOn j).filterMap s.holderOf).filter (· != j)

/-- A waiter of semaphore `m` that has waited more than 2 us for a holder that does not run, and for which SEM_BLOCK has not been
raised (R266). -/
def State.blockedWaiter (s : State) (m : Nat) : Option SemReq :=
  match s.holderOf m with
  | none => none
  | some h => (s.semWaiters m).find? fun r => !r.blocked && decide (2000 < s.raw - r.since) && r.job != h && !s.jobRuns h

/-- Replace a waiter of semaphore `m`, keeping its place. -/
def State.setWaiter (s : State) (m : Nat) (r r' : SemReq) : State :=
  s.setWaiters m ((s.semWaiters m).map fun x => if x = r then r' else x)

/-- SEM_BLOCK: raised once for a wait (R266). -/
def execSemBlock (m : BitVec 8) (s : State) : Out :=
  let m := m.toNat
  match s.blockedWaiter m with
  | some r => .next ((s.setWaiter m r { r with blocked := true }).raiseEv 14)
  | none => s.noEvent

/-- Follow the chain of holders from job `h`: who gets the turn, or the job whose wait closes a cycle (R267). A job that waits on
several semaphores passes the turn on to the first holder, and any of them closes a cycle. -/
def State.donee (s : State) : Nat → List Nat → Nat → Sum Nat Nat
  | 0, _, h => .inl h
  | k + 1, seen, h =>
    if (s.waitsFor h).any seen.contains then .inr h
    else
      let ends := (s.waitsFor h).map fun h2 => s.donee k (seen ++ [h2]) h2
      match ends.find? (·.isRight) with
      | some c => c
      | none => ends.headD (.inl h)

/-- TURN_DONATE: Ulnal gives the holder of semaphore `m`, or the end of its chain, a borrowed turn on each Face with a
ready command of it; at most 4 in a row for one wait, then DONATE_LIMIT; a cycle raises SEM_CYCLE and ends the job
whose wait closed it (R266, R267). -/
def execTurnDonate (m : BitVec 8) (s : State) : Out :=
  let m := m.toNat
  match s.holderOf m, (s.semWaiters m).find? fun r => r.blocked && decide (r.donated < 5) with
  | some h, some r =>
    match s.donee 4 [r.job, h] h with
    | .inr k => .next ((s.raiseEv 16).killJob k)
    | .inl d =>
      let faces := (List.range 6).filter fun f => s.jobReadyOn f d
      if s.jobRuns d || (List.range 6).any (fun f => s.borrows f d) || faces.isEmpty then s.noEvent
      else if r.donated = 4 then .next ((s.setWaiter m r { r with donated := 5 }).raiseEv 15)
      else
        .next ((s.setWaiter m r { r with donated := r.donated + 1 }).modJob d fun b =>
          { b with borrow := faces.foldl (fun a f => a ||| 2 ^ f) 0 })
  | _, _ => s.noEvent

/-! ## Partition records (R248 to R250) -/

/-- The enabled partitions, partition `p` counted as enabled. -/
def State.parts (s : State) (p : Nat) : List Nat := (List.range 8).filter fun k => k == p || s.flag (Reg.SCHED_PARTA k) 63

/-- The first check of R249 that fails with partition `p` enabled: its error code. -/
def State.partErr (s : State) (p : Nat) : Option Nat :=
  let ps := s.parts p
  let sum := fun (g : Nat → Nat) => ps.foldl (fun n k => n + g k) 0
  let faces := fun k => s.fld (Reg.SCHED_PARTA k) 53 48
  let resv := fun k => s.fld (Reg.SCHED_PARTA k) 47 32
  if 256 < sum (fun k => s.fld (Reg.SCHED_PARTA k) 62 54) then some 0x07
  else if hbmBytes / 0x100000 < sum (fun k => s.fld (Reg.SCHED_PARTA k) 15 0) then some 0x08
  else if ps.any (fun a => ps.any fun b => a != b && (faces a &&& faces b) != 0 && (resv a &&& resv b) != 0) then some 0x06
  else if 128 < sum (fun k => s.fld (Reg.SCHED_PARTB k) 39 32)
      ∨ 128 < sum (fun k => s.fld (Reg.SCHED_PARTB k) 47 40) then some 0x09
  else none

/-- SCHED_ERR: INDEX and CODE. -/
def State.schedErr (s : State) (idx code : Nat) : State := s.setFld Reg.SCHED_ERR 15 0 (idx * 256 + code)

/-- A job of partition `p` is loaded. -/
def State.partLoaded (s : State) (p : Nat) : Bool := (List.range 16).any fun j => (s.job j).isSome && s.partOf j == p

/-- SCHED_PARTA written (R249, R250). -/
def State.partAWrite (s : State) (p v : Nat) : State :=
  let a := Reg.SCHED_PARTA p
  let mask := 0xFFFFFFFF0000FFFF
  if s.partLoaded p then
    if v &&& mask = (s.rd a).toNat &&& mask then s else s.schedErr p 0x05
  else
    let s := s.wr a (BitVec.ofNat 64 (v &&& (mask - 2 ^ 63)))
    if bitOf v 63 then match s.partErr p with
      | some e => s.schedErr p e
      | none => s.setFlag a 63 true
    else s

/-- SCHED_PARTB written: CMD_BOUND is held in 10 to 200; TURN and MAXCLS are never protected (R250, R277). -/
def State.partBWrite (s : State) (p v : Nat) : State :=
  let a := Reg.SCHED_PARTB p
  let bound := max 10 (min 200 (bits v 15 8))
  let s' := (s.setFld a 31 16 (bits v 31 16)).setFld a 7 6 (bits v 7 6)
  if s.partLoaded p then
    if bits v 47 32 = s.fld a 47 32 ∧ bound = s.fld a 15 8 then s' else s'.schedErr p 0x05
  else (s'.setFld a 47 32 (bits v 47 32)).setFld a 15 8 bound

/-- SCHED_PART_WRITE (R250). -/
def execSchedPartWrite (p : BitVec 3) (b : Bool) (v : Word) (s : State) : Out :=
  .next (if b then s.partBWrite p.toNat v.toNat else s.partAWrite p.toNat v.toNat)

/-! ## Slot-table commit (R260) -/

/-- Shadow entry `i`. -/
def State.sslot (s : State) (i : Nat) : Nat := (s.rd (Reg.SCHED_SSLOT i)).toNat

/-- The checks of one valid shadow entry, in table order: its error code. -/
def State.slotErr (s : State) (i : Nat) : Option Nat :=
  let e := s.sslot i
  let frame := s.fld Reg.SCHED_SFRAME 16 0
  let p := bits e 61 59
  let faces := bits e 55 50
  let allowed := s.fld (Reg.SCHED_PARTA p) 53 48
  if !bitOf e 63 then none
  else if frame < bits e 19 0 + bits e 39 20 ∨ bits e 39 20 = 0 then some 0x01
  else if !s.flag (Reg.SCHED_PARTA p) 63 ∨ faces = 0 ∨ faces &&& allowed ≠ faces then some 0x02
  else if (List.range i).any (fun k =>
      let o := s.sslot k
      bitOf o 63 && (bits o 55 50 &&& faces) != 0 && spansMeet (bits o 19 0, bits o 39 20) (bits e 19 0, bits e 39 20))
    then some 0x03
  else none

/-- The first failing check: index and code. -/
def State.tableErr (s : State) : Option (Nat × Nat) :=
  let frame := s.fld Reg.SCHED_SFRAME 16 0
  if frame < 100 ∨ 100000 < frame then some (0, 0x04)
  else ((List.range 64).filterMap fun i => (s.slotErr i).map fun e => (i, e)).head?

/-- Faces named by a valid entry of a table. -/
def tableFaces (l : List Nat) : Nat := l.foldl (fun m e => if bitOf e 63 then m ||| bits e 55 50 else m) 0

/-- The table and frame length become active. -/
def State.activate (s : State) (table : List Word) (frame : Nat) : State :=
  (s.each table.zipIdx fun s e => s.wr (Reg.SCHED_SLOT e.2) e.1).setFld Reg.SCHED_FRAME 16 0 frame

/-- A Face wakes: its banks are zeroed (R477). The saved images come back with the first command of their vFace. -/
def State.wakeFace (s : State) (f : Nat) : State :=
  let s := s.zero (bankKey f 0) 0x100000
  s.setFace f { s.face f with gated := false }

/-- GO: validate and stage the shadow; at once active while EN is 0 (R260). A gated Face that the staged table names is
woken (R473). -/
def State.schedGo (s : State) : State :=
  match s.tableErr with
  | some e => s.schedErr e.1 e.2
  | none =>
    let table := (List.range 64).map fun i => s.rd (Reg.SCHED_SSLOT i)
    let frame := s.fld Reg.SCHED_SFRAME 16 0
    let named := tableFaces (table.map (·.toNat))
    let s := if s.fld Reg.PWR_STATUS 2 0 = 1 then
      s.each (List.range 6) fun s f => if bitOf named f && (s.face f).gated then s.wakeFace f else s
      else s
    if s.flag Reg.SCHED_CTRL 0 then
      { s with sched := { s.sched with
        staged := table
        stagedFrame := frame
        stagedAt := s.raw } }.setFlag Reg.SCHED_STATUS 0 true
    else s.activate table frame

/-- SCHED_COMMIT: a write with GO set (R260). -/
def execSchedCommit (v : Word) (s : State) : Out := .next (if bitOf v.toNat 0 then s.schedGo else s)

/-! ## Queue registers (R253, R277) -/

/-- Job and vFace that SCHED_QSEL selects. -/
def State.qsel (s : State) : Nat × Nat := (s.fld Reg.SCHED_QSEL 7 4, s.fld Reg.SCHED_QSEL 2 0)

/-- Does Ulnal reject a record at push: a bound above CMD_BOUND or reserved bytes that are not 0 (R256)? -/
def State.pushBad (s : State) (j : Nat) (r : CmdRec) : Bool :=
  !r.clean || decide (s.fld (Reg.SCHED_PARTB (s.partOf j)) 15 8 < r.bound)

/-- May TAIL of the selected queue become `t`: TAIL - HEAD from 0 to the ring's size (R253)? -/
def State.tailInRange (s : State) (t : BitVec 32) : Bool :=
  let q := s.vf s.qsel.1 s.qsel.2
  decide (0 ≤ (t - q.head).toInt) && decide ((t - q.head).toInt ≤ q.size)

/-- Does Ulnal reject one of the records from TAIL up to `t` (R256)? -/
def State.pushRejected (s : State) (t : BitVec 32) : Bool :=
  let q := s.vf s.qsel.1 s.qsel.2
  decide (0 < (t - q.tail).toInt) && ((List.range (t - q.tail).toNat).take q.size).any fun i =>
    s.pushBad s.qsel.1 (cmdRecOf (s.load (q.recKey (q.tail.toNat + i)) 64))

/-- The register TAIL written: out of range the write is ignored with QUEUE_RANGE; the device reads no record (R253). -/
def State.tailWrite (s : State) (v : Word) : State :=
  let (j, f) := s.qsel
  let q := s.vf j f
  if 6 ≤ f then s
  else if s.tailInRange (v.setWidth 32) then
    let s := s.setVf j f { q with tail := v.setWidth 32 }
    if q.en then s.publish j f else s
  else s.schedErr (s.partOf j) 0x0A

/-- SCHED_QTAIL_WRITE: Ulnal pushes the records up to the new TAIL, which it writes unless it rejects one of them (R253,
R256). A bare write of the register comes as REGISTER_WRITE. -/
def execSchedQtailWrite (v : Word) (s : State) : Out :=
  if decide (s.qsel.2 < 6) && s.tailInRange (v.setWidth 32) && s.pushRejected (v.setWidth 32) then .next (s.answer .denied) else .next (s.tailWrite v)

/-- SCHED_QBASE written: while EN is 1 only a write that clears EN counts; EN with K outside 4 to 12 is refused
(R277). -/
def State.qbaseWrite (s : State) (v : Word) : State :=
  let (j, f) := s.qsel
  let q := s.vf j f
  let w := v.toNat &&& 0x8000FFFFFFFFFFCF
  let k := bits w 3 0
  if 6 ≤ f ∨ (q.en ∧ bitOf w 63) then s
  else
    let w := if bitOf w 63 && !(decide (4 ≤ k) && decide (k ≤ 12)) then w - 2 ^ 63 else w
    s.setVf j f { q with qbase := BitVec.ofNat 64 w }

/-- SCHED_QBASE_WRITE (R277). -/
def execSchedQbaseWrite (v : Word) (s : State) : Out := .next (s.qbaseWrite v)

/-- SCHED_JOB written: PART only while the index is free, PRIO always (R257). -/
def State.jobWrite (s : State) (j : Nat) (v : Word) : State :=
  let a := Reg.SCHED_JOB j
  let s := s.setFld a 59 58 (bits v.toNat 59 58)
  if s.flag a 63 then s else s.setFld a 62 60 (bits v.toNat 62 60)

/-- SCHED_JOB_WRITE (R257). -/
def execSchedJobWrite (j : BitVec 4) (v : Word) (s : State) : Out := .next (s.jobWrite j.toNat v)

/-- STATE of job `j` as SCHED_JOB shows it (R257). -/
def State.jobState (s : State) (j : Nat) : Nat :=
  match s.job j with
  | none => 0
  | some jb =>
    let ready := (List.range 6).any fun v => (s.vf j v).en && (s.vf j v).stage == 3
    if jb.ending then 5
    else if (List.range 6).any (fun g => (s.face g).running && (s.face g).job == j && (s.face g).borrowed) then 4
    else if s.jobRuns j then 2
    else if jb.preempted && ready then 3
    else if ready then 1 else 0

/-- SCHED_CTRL written: setting EN puts the frames of the grid from SCHED_BASE in force, the one in progress too, or waits
for boundary 0 (R258, R277); clearing it ends every slot. -/
def State.schedCtrlWrite (s : State) (v : Nat) : State :=
  let was := s.flag Reg.SCHED_CTRL 0
  let s := s.wr Reg.SCHED_CTRL (BitVec.ofNat 64 (v % 8))
  if bitOf v 0 && !was then
    let base := (s.rd Reg.SCHED_BASE).toNat
    let fr := max 1 s.frameNs
    let now := base + (s.raw - base) / fr * fr
    { s with sched := { s.sched with
      frameAt := now
      nextBoundary := if s.raw < base then base else now + fr } }.setFld Reg.SCHED_STATUS 63 32 0
  else if !bitOf v 0 && was then
    let s := s.each (List.range 6) fun s f => s.slotOff f
    { s with sched := { s.sched with staged := [] } }.setFlag Reg.SCHED_STATUS 0 false
  else s

/-! ## Step advances (R286, R302) -/

/-- DET_STEP written: ADV captures the TAILs, or sets BUSY (R286). -/
def State.stepWrite (s : State) (j : Nat) (v : Nat) : State :=
  let a := Reg.DET_STEP j
  let s := if bitOf v 2 then s.setFlag a 2 false else s
  if !bitOf v 0 then s
  else if s.flag a 1 then s.setFlag a 2 true
  else match s.job j with
    | none => s
    | some _ =>
      if s.rd (Reg.DET_JSTEP j) = 0xFFFFFFFFFFFFFFFF then s
      else (s.modJob j fun b => { b with captured := (List.range 6).map fun i => (s.vf j i).tail }).setFlag a 1 true

/-- STEP_ADVANCE_REQUEST: a write of DET_STEP (R286). -/
def execStepAdvanceRequest (j : BitVec 4) (v : Word) (s : State) : Out := .next (s.stepWrite j.toNat v.toNat)

/-- STEP_ADVANCE_APPLY: every command before the captured TAILs has ended (R286); JSTEP is copied to the job's record
(R287). -/
def execStepAdvanceApply (j : BitVec 4) (s : State) : Out :=
  let j := j.toNat
  match s.job j with
  | none => s.noEvent
  | some jb =>
    if s.flag (Reg.DET_STEP j) 1 && jb.captured.zipIdx.all fun t => decide ((t.1 - (s.vf j t.2).ended).toInt ≤ 0) then
      let n := s.rd (Reg.DET_JSTEP j) + 1
      let s := (s.wr (Reg.DET_JSTEP j) n).setFlag (Reg.DET_STEP j) 1 false
      let s := s.modJob j fun b => { b with captured := [] }
      .next { s with kept := { s.kept with jstep := Map.put 0 s.kept.jstep j n.toNat } }
    else s.noEvent

/-- DET_JSTEP_WRITE: ignored once the job's first command has started (R302). The step of a loaded job is kept for a restart
(R287). -/
def State.jstepWrite (s : State) (j : Nat) (v : Word) : State :=
  match s.job j with
  | some jb => if jb.started then s else { (s.wr (Reg.DET_JSTEP j) v) with kept := { s.kept with
      jstep := Map.put 0 s.kept.jstep j v.toNat } }
  | none => s.wr (Reg.DET_JSTEP j) v

/-- DET_JSTEP_WRITE (R302). -/
def execDetJstepWrite (j : BitVec 4) (v : Word) (s : State) : Out := .next (s.jstepWrite j.toNat v)

end Sys2Proof.Machine
end

