-- ==== Sys2Proof/Machine/Place.lean ====
section
/-! DEFINITION. Buffer and vFace records, job load, placement plans, buffer moves and major-frame boundaries (R83 to R98,
R202, R205, R258, R302). -/

namespace Sys2Proof.Machine

/-! ## Records (R83, R84) -/

/-- BUF_ID. -/
def recId (r : BitVec 128) : Nat := bits r.toNat 127 112
/-- TIER. -/
def recTier (r : BitVec 128) : Nat := bits r.toNat 111 110
/-- STRENGTH: 0 none, 1 hint, 2 pin. -/
def recStrength (r : BitVec 128) : Nat := bits r.toNat 109 108
/-- LIFE 1. -/
def recLife1 (r : BitVec 128) : Bool := bitOf r.toNat 107
/-- SIZE. -/
def recSize (r : BitVec 128) : Nat := bits r.toNat 47 0
/-- REUSE. -/
def recReuse (r : BitVec 128) : Nat := bits r.toNat 103 96
/-- A reserved value. -/
def recBad (r : BitVec 128) : Bool :=
  recStrength r == 3 || bits r.toNat 106 104 != 0 || bits r.toNat 95 48 != 0 || recSize r % 64 != 0
/-- Pinned to a tier. -/
def recPin (r : BitVec 128) (t : Nat) : Bool := recStrength r == 2 && recTier r == t
/-- STRENGTH of a vFace record. -/
def vfStrength (v : BitVec 8) : Nat := bits v.toNat 7 6
/-- FACE of a vFace record. -/
def vfFace (v : BitVec 8) : Nat := bits v.toNat 3 0
/-- A reserved value. -/
def vfBad (v : BitVec 8) : Bool := vfStrength v == 3 || bits v.toNat 5 4 != 0 || (vfStrength v != 0 && decide (5 < vfFace v))

/-- The tier a record asks for (R83, R85): a store hint on a LIFE 1 buffer counts as a Board hint, and a remote hint
places nothing. -/
def tierAsked (strength tier : Nat) (life1 : Bool) : Nat :=
  if strength = 0 then 2
  else if strength = 1 ∧ tier = 0 ∧ life1 then 1
  else if strength = 1 ∧ tier = 3 then 2
  else tier

/-- Bytes of all instances of a buffer (R86, R98). -/
def instTotal (nvf size : Nat) (life1 : Bool) : Nat := if life1 then size else nvf * ((size + 4095) / 4096 * 4096)

/-- Bits set in a 16-bit mask. -/
def popcount16 (m : Nat) : Nat := ((List.range 16).filter (bitOf m)).length

/-! ## Where a vFace may be bound (R89 to R91, R251) -/

/-- Is Face `f` quarantined? The mirror of HFLT's bits (R456). -/
def State.quarantined (s : State) (f : Nat) : Bool := bitOf (s.fld Reg.HFLT_QUAR 5 0) f

/-- Face `f` is one of partition `p`, is healthy and under no debug hold (R101), and no other partition reserves a bank of `live`
on it. -/
def State.faceOk (s : State) (p live f : Nat) : Bool :=
  bitOf (s.fld (Reg.SCHED_PARTA p) 53 48) f && !s.quarantined f
    && !s.isHeld (storeBase f) storeBytes && !s.isHeld (bankKey f 0) 0x100000
    && (List.range 8).all fun q => q == p || !s.flag (Reg.SCHED_PARTA q) 63 || !bitOf (s.fld (Reg.SCHED_PARTA q) 53 48) f
      || (s.fld (Reg.SCHED_PARTA q) 47 32 &&& live) == 0

/-- LIVE mask of a state record. -/
def liveOf (img : JobImage) (v : Nat) : Nat := bits (img.live.getD v 0).toNat 15 0

/-! ## The policy of placement (R92, R93) -/

/-- Insert into a list sorted by a rank (lower first). -/
def insertBy {α : Type} (rank : α → Rat) (x : α) : List α → List α
  | [] => [x]
  | y :: l => if rank x < rank y then x :: y :: l else y :: insertBy rank x l

/-- Sort by a rank, keeping the order of equals. -/
def sortBy {α : Type} (rank : α → Rat) (l : List α) : List α := l.foldl (fun acc x => insertBy rank x acc) []

/-- STRENGTH of an entry. -/
def BufEnt.strength (b : BufEnt) : Nat := bits b.record.toNat 37 36

/-- Are fewer than 64 accesses recorded? -/
def BufEnt.young (b : BufEnt) : Bool := decide (b.lreads + b.lwrites < 64)

/-- r of an entry: reads per write in the latched window; REUSE where only the record counts (R92, R98). -/
def State.ratio (s : State) (b : BufEnt) : Rat :=
  if b.young || !s.flag Reg.PLACE_CTRL 0 then (bits b.record.toNat 31 24 : Nat) else (b.dreads : Rat) / (max b.dwrites 1 : Nat)

/-- Tier of the backing space. -/
def BufEnt.backTier (b : BufEnt) : Nat := if bitOf b.back.toNat 63 then 3 else 2

/-- The tier the policy wants for an unpinned entry. -/
def State.want (s : State) (b : BufEnt) : Nat :=
  let hint := tierAsked b.strength (bits b.record.toNat 39 38) b.life1
  let promote := s.fld Reg.PLACE_CTRL 15 8
  let low := fun t => if t = 2 then b.backTier else t
  if b.young || !s.flag Reg.PLACE_CTRL 0 then low hint
  else if promote ≠ 0 ∧ (promote : Rat) ≤ s.ratio b ∧ 2 ≤ b.tier ∧ b.life1 then 1
  else if s.ratio b < (promote : Rat) / 4 ∧ b.tier = 1 ∧ !(b.strength = 1 ∧ hint = 1) then b.backTier
  else b.tier

/-- Fill a tier of capacity `cap`: candidates by descending r, then ascending BUF_ID; one that does not fit goes to the
list of the tier below. -/
def fillTier (ratio : BufEnt → Rat) (cost : Nat × BufEnt → Nat) (cap : Nat) (l : List (Nat × BufEnt)) : List Nat × List (Nat × BufEnt) :=
  let key := fun (e : Nat × BufEnt) => (bits e.2.record.toNat 55 40 : Rat)
  let sorted := sortBy (fun e => -ratio e.2) (sortBy key l)
  let r := sorted.foldl (fun (acc : Nat × List Nat × List (Nat × BufEnt)) e =>
    if acc.1 + cost e ≤ cap then (acc.1 + cost e, acc.2.1 ++ [e.1], acc.2.2) else (acc.1, acc.2.1, acc.2.2 ++ [e]))
    (0, [], [])
  (r.2.1, r.2.2)

/-- The tier of every entry of a list, from the tiers that the policy wants: pins, then store, Board and what is below, each filled
by descending r, with what does not fit one tier down (R92, R93). `vf` gives the vFaces of an entry's job, `board` the Board
capacity. -/
def State.fillTiers (s : State) (vf want : BufEnt → Nat) (board : Nat) (all : List (Nat × BufEnt)) : List (Nat × Nat) :=
  let pins := all.filter fun e => e.2.strength == 2
  let rest := all.filter fun e => e.2.strength != 2
  let pin := fun (e : Nat × BufEnt) => bits e.2.record.toNat 39 38
  let size := fun (e : Nat × BufEnt) => e.2.sizeB
  let cost := fun (e : Nat × BufEnt) => instTotal (vf e.2) e.2.sizeB e.2.life1
  let sum := fun (f : Nat × BufEnt → Nat) (l : List (Nat × BufEnt)) => l.foldl (fun n e => n + f e) 0
  let jobs := (rest.map fun e => bits e.2.record.toNat 62 59).eraseDups
  let stores := jobs.map fun j =>
    let mine := fun (e : Nat × BufEnt) => bits e.2.record.toNat 62 59 == j
    fillTier s.ratio size (storeBytes - sum size (pins.filter fun e => mine e && pin e == 0))
      (rest.filter fun e => mine e && want e.2 == 0)
  let inStore := stores.flatMap fun x => x.1
  let spilled := stores.flatMap fun x => x.2
  let onBoard := fillTier s.ratio cost (board - sum cost (pins.filter fun e => pin e == 1))
    ((rest.filter fun e => want e.2 == 1) ++ spilled)
  (pins.map fun e => (e.1, pin e)) ++ (inStore.map fun e => (e, 0)) ++ (onBoard.1.map fun e => (e, 1))
    ++ (rest.filter fun e => !inStore.contains e.1 && !onBoard.1.contains e.1).map fun e => (e.1, e.2.backTier)

/-- Is a Face avoided: hot, or more than 10 % below the median pace of the partition (R92)? -/
def State.avoided (s : State) (p hot f : Nat) : Bool :=
  let rates := sortBy (fun (x : Nat) => (x : Rat))
    (((List.range 6).filter fun g => bitOf (s.fld (Reg.SCHED_PARTA p) 53 48) g).map s.paceOf)
  let med := rates.getD (rates.length / 2) 0
  bitOf hot f || decide (s.paceOf f * 10 < med * 9)

/-- Faces to which vFaces of loaded jobs are bound, one for each vFace, where `face` gives the binding. -/
def State.boundFaces (s : State) (face : Nat → Nat → Nat) : List Nat :=
  (List.range 16).flatMap fun j => if s.jobLive j then (List.range (s.vfCountOf j)).map (face j) else []

/-- May vFaces be bound so (R89, R91, R92)? `hot` holds the Faces above the soft thermal limit, `bound` the Face of every vFace of the
device when all are bound. A pinned vFace is on its Face. Another is on no Face to be avoided while a Face fit for it stands without a
vFace; a hinted one is on its Face, unless that is unfit, or it has left it as one to be avoided for a Face of its own. -/
def State.mapOk (s : State) (p hot : Nat) (bound : List Nat) (img : JobImage) (faces : List Nat) : Bool :=
  faces.length == img.vfs.length && faces.zipIdx.all fun f =>
    let r := img.vfs.getD f.2 0
    let live := liveOf img f.2
    let bad := s.avoided p hot
    let spare := (List.range 6).any fun g => s.faceOk p live g && !bad g && !bound.contains g
    s.faceOk p live f.1
      && (if vfStrength r = 2 then f.1 == vfFace r
        else (!bad f.1 || !spare)
          && (vfStrength r != 1 || f.1 == vfFace r || !s.faceOk p live (vfFace r)
            || (bad (vfFace r) && !bad f.1 && decide ((bound.filter (· == f.1)).length ≤ 1))))

/-! ## Load checks (R85, R86, R90, R91, R252, R256) -/

/-- The table entry of record `r` of job `j` at load: register layouts of R98, counts restored from history (R88). -/
def State.entryOf (s : State) (j i : Nat) (r : BitVec 128) (img : JobImage) (pl : LoadPlan) (tracked : Bool) : BufEnt :=
  let h := s.kept.history.find? fun h => h.1 == imageDigest img && h.2.1 == recId r
  let reads := match h with
    | some (_, _, a, _) => a
    | none => 0
  let writes := match h with
    | some (_, _, _, b) => b
    | none => 0
  { BufEnt.free with
    record := BitVec.ofNat 64 (2 ^ 63 + j * 2 ^ 59 + recId r * 2 ^ 40 + recTier r * 2 ^ 38 + recStrength r * 2 ^ 36
      + (if recLife1 r then 2 ^ 35 else 0) + recReuse r * 2 ^ 24)
    size := BitVec.ofNat 64 (recSize r)
    back := pl.backs.getD i 0
    bind := BitVec.ofNat 64 (putBits (putBits (pl.binds.getD i 0).toNat 61 48 0) 60 60 (if tracked then 1 else 0))
    sbind := BitVec.ofNat 64 (putBits (pl.binds.getD i 0).toNat 61 48 0)
    reads := Ctr.ofCount reads
    writes := Ctr.ofCount writes
    lreads := reads
    lwrites := writes }


/-- Board bytes in use by the jobs of partition `p`. -/
def State.boardUsed (s : State) (p : Nat) : Nat :=
  (s.bufs.filter fun e => e.2.isValid && e.2.tier == 1 && s.partOf (bits e.2.record.toNat 62 59) == p).foldl (fun n e =>
    n + instTotal (s.vfCountOf (bits e.2.record.toNat 62 59)) e.2.sizeB e.2.life1) 0

/-- HBM bytes reserved by the jobs of partition `p`. -/
def State.hbmUsedBy (s : State) (p : Nat) : Nat :=
  (List.range 16).foldl (fun n j => match s.job j with
    | some jb => if s.partOf j == p then n + jb.hbmUsed else n
    | none => n) 0

/-- BUF_ID and bytes of the backing space of each buffer, by tier; one on a peer takes none here (R86). -/
def backBytes (img : JobImage) (tiers : List Nat) : List (Nat × Nat) :=
  img.bufs.zipIdx.map fun r => (recId r.1, if tiers.getD r.2 2 = 3 then 0
    else instTotal img.vfs.length (recSize r.1) (recLife1 r.1))

/-- Bytes of the save areas of an image. -/
def saveBytes (img : JobImage) : Nat :=
  (List.range img.vfs.length).foldl (fun n v => if liveOf img v = 0 then n else n + 64 + 65536 * popcount16 (liveOf img v)) 0

/-- HBM that an image reserves: backing spaces not on a peer, and save areas. -/
def hbmNeed (img : JobImage) (tiers : List Nat) : Nat := (backBytes img tiers).foldl (fun n r => n + r.2) (saveBytes img)

/-- The tier of each record at load (R92, R93): as its record asks, for there is no window and no binding yet, filled with what the
partition has left. In a multi-chip job a LIFE 1 buffer in HBM goes to a peer once the partition's limit is reached. -/
def State.loadTiers (s : State) (img : JobImage) (pl : LoadPlan) : List Nat :=
  let p := pl.part
  let all := img.bufs.zipIdx.map fun r => (r.2, s.entryOf 0 r.2 r.1 img pl false)
  let cost := fun (e : Nat × BufEnt) => instTotal img.vfs.length e.2.sizeB e.2.life1
  let asked := fun (b : BufEnt) => tierAsked b.strength (bits b.record.toNat 39 38) b.life1
  let got := s.fillTiers (fun _ => img.vfs.length) asked (s.fld (Reg.SCHED_PARTA p) 62 54 * 0x10000 - s.boardUsed p)
    (all.map fun e => (e.1, { e.2 with back := 0 }))
  let tier := fun i => ((got.find? fun t => t.1 == i).map (·.2)).getD 2
  let far := all.filter fun e => decide (1 < img.devices) && e.2.life1 && e.2.strength != 2 && tier e.1 == 2
  let near := all.filter fun e => tier e.1 != 3 && !(far.any fun x => x.1 == e.1)
  let used := near.foldl (fun n e => n + cost e) (s.hbmUsedBy p + saveBytes img)
  let home := (fillTier s.ratio cost (s.fld (Reg.SCHED_PARTA p) 15 0 * 0x100000 - used) far).1
  (List.range img.bufs.length).map fun i => if (far.any fun e => e.1 == i) && !home.contains i then 3 else tier i

/-- The first buffer record of a list that satisfies `f`, as an error with `code`. -/
def bufErr (code : Nat) (l : List (BitVec 128)) (f : BitVec 128 → Bool) : Option (Nat × Nat) :=
  (l.find? f).map fun r => (code, recId r)

/-- A BUF_ID that occurs twice. -/
def dupId (l : List Nat) : Option Nat := l.find? fun x => decide (1 < (l.filter (· == x)).length)

/-- BUF_ID and bytes of the records pinned to tier `t`. -/
def pinnedBytes (img : JobImage) (t : Nat) : List (Nat × Nat) :=
  (img.bufs.filter (recPin · t)).map fun r =>
    (recId r, instTotal (if t = 0 then 1 else img.vfs.length) (recSize r) (recLife1 r))

/-- BUF_ID of the first buffer of a list that does not fit in `room` beside those before it; 0 where none is concerned. -/
def firstOver : Nat → List (Nat × Nat) → Nat
  | _, [] => 0
  | room, r :: l => if room < r.2 then r.1 else firstOver (room - r.2) l

/-- `code` and the buffer concerned, where the buffers of `l` and `more` bytes do not fit in `cap` beside `used`. -/
def fitErr (code cap used : Nat) (l : List (Nat × Nat)) (more : Nat) : Option (Nat × Nat) :=
  if cap < l.foldl (fun n r => n + r.2) (used + more) then some (code, firstOver (cap - used) l) else none

/-- The first check of a load that fails: its PLACE_ERR code and BUF_ID. -/
def State.loadErr (s : State) (img : JobImage) (pl : LoadPlan) : Option (Nat × Nat) :=
  let p := pl.part
  let vfs := List.range img.vfs.length
  let healthy := (List.range 6).filter fun f => bitOf (s.fld (Reg.SCHED_PARTA p) 53 48) f && !s.quarantined f
  let free := 4096 - (s.bufs.filter fun e => e.2.isValid).length
  let cond := fun (c : Bool) (e : Nat) => if c then some (e, 0) else none
  ((((((((((((bufErr 0x09 img.bufs recBad).or
    (cond (img.vfs.any vfBad || decide (6 < img.vfs.length) || img.live.any fun l => bits l.toNat 31 16 != 0) 0x09)).or
    ((dupId (img.bufs.map recId)).map fun i => (0x09, i))).or
    ((img.rings.find? fun r => decide (r.2 < 4) || decide (12 < r.2)).map fun r => (0x09, r.1))).or
    (cond (!s.flag (Reg.SCHED_PARTA p) 63) 0x0A)).or
    (bufErr 0x05 img.bufs fun r => recPin r 0 && recLife1 r)).or
    (bufErr 0x04 img.bufs fun r => recPin r 3 && decide (img.devices ≤ 1))).or
    (bufErr 0x05 img.bufs fun r => recPin r 0 && decide (0xC00000 < recSize r))).or
    (cond (decide (free < img.bufs.length)) 0x06)).or
    (cond healthy.isEmpty 0x07)).or
    (cond (vfs.any fun v => vfStrength (img.vfs.getD v 0) == 2 && !s.faceOk p (liveOf img v) (vfFace (img.vfs.getD v 0))) 0x02)).or
    (cond (vfs.any fun v => !(List.range 6).any (s.faceOk p (liveOf img v))) 0x07)).or
    ((fitErr 0x03 (s.fld (Reg.SCHED_PARTA p) 15 0 * 0x100000) (s.hbmUsedBy p) (backBytes img (s.loadTiers img pl)) (saveBytes img)).or
    ((fitErr 0x01 (s.fld (Reg.SCHED_PARTA p) 62 54 * 0x10000) (s.boardUsed p) (pinnedBytes img 1) 0).or
    (fitErr 0x01 storeBytes 0 (pinnedBytes img 0) 0)))

/-- The Eflet port by which device `d` is reached (R410). -/
def State.portTo (s : State) (d : Nat) : Nat :=
  let n := s.fld Reg.EFL_TOPO 5 4 + 1
  let me := s.fld Reg.EFL_TOPO 1 0
  if s.fld Reg.EFL_TOPO 7 6 = 3 ∧ (me + n - 1) % n = d ∧ n ≠ 2 then 1 else 0

/-- Ulnal refuses a load: a declared bound above CMD_BOUND (R256), or a pool of 0 on a port that the job's routes use
(R422). -/
def State.loadRefused (s : State) (img : JobImage) (pl : LoadPlan) : Bool :=
  let pool := fun n => s.fld (Reg.SCHED_PARTB pl.part) (if n = 0 then 39 else 47) (if n = 0 then 32 else 40)
  decide (s.fld (Reg.SCHED_PARTB pl.part) 15 8 < img.bound)
    || (decide (1 < img.devices) && pl.backs.any fun b => bitOf b.toNat 63 &&
      (pool (s.portTo (bits b.toNat 60 59)) == 0 || (s.fld Reg.EFL_TOPO 7 6 == 2 && pool 1 == 0)))

/-! ## The allocation of a load -/

/-- Regions that a plan allocates: backing spaces, Board bindings, save areas, code. -/
def planRegions (img : JobImage) (pl : LoadPlan) : List (Nat × Nat) :=
  let one := fun (r : BitVec 128 × Nat) =>
    let n := instTotal img.vfs.length (recSize r.1) (recLife1 r.1)
    let back := (pl.backs.getD r.2 0).toNat
    let bind := (pl.binds.getD r.2 0).toNat
    (if bitOf back 63 then [] else [(bits back 47 12 * 4096, n)])
      ++ if bits bind 63 62 = 1 then [(bits bind 47 6 * 64, n)] else []
  (img.bufs.zipIdx.flatMap one)
    ++ ((List.range img.vfs.length).filterMap fun v =>
      if liveOf img v = 0 then none else some (pl.saves.getD v 0, 64 + 65536 * popcount16 (liveOf img v)))
    ++ [(pl.codeBase, 16 * img.codeLen)]

/-- Spans that meet no other of the list. -/
def disjointSpans : List (Nat × Nat) → Bool
  | [] => true
  | a :: l => l.all (fun b => !spansMeet a b) && disjointSpans l

/-- Every region allocated to a job. -/
def State.allocated (s : State) : List (Nat × Nat) :=
  (List.range 16).flatMap fun j => match s.job j with
    | some jb => jb.regions
    | none => []

/-- A region of one tier, wholly in it. -/
def regionMapped (r : Nat × Nat) : Bool :=
  r.2 == 0 || (isHbm r.1 && isHbm (r.1 + r.2 - 1)) || (isBoard r.1 && isBoard (r.1 + r.2 - 1))

/-- Is the plan one that placement could make: entries free, vFaces on the Faces that the policy takes, buffers in its tiers,
bindings in their places and apart, regions free and scrubbed, Board within capacity? A LIFE 0 buffer pinned to a peer, for which
R85 lists no error, has no plan: its contents could not read as zeros there (DESIGN CHOICE, assumption 121). -/
def State.planOk (s : State) (img : JobImage) (pl : LoadPlan) : Bool :=
  let n := img.bufs.length
  let regs := planRegions img pl
  let tier := fun (i : Nat) => bits (pl.binds.getD i 0).toNat 63 62
  let tiers := s.loadTiers img pl
  pl.entries.length == n && pl.backs.length == n && pl.binds.length == n && pl.faces.length == img.vfs.length
    && pl.saves.length == img.vfs.length && img.rings.length == img.vfs.length
    && (dupId pl.entries).isNone && pl.entries.all (fun e => decide (e < 4096) && !(s.buf e).isValid)
    && s.mapOk pl.part pl.hot.toNat (s.boundFaces s.boundTo ++ pl.faces) img pl.faces
    && disjointSpans (img.bufs.zipIdx.filterMap fun r =>
      if tier r.2 = 0 then some (bits (pl.binds.getD r.2 0).toNat 47 6 * 64, recSize r.1) else none)
    && img.bufs.zipIdx.all (fun r =>
      let t := tier r.2
      let back := (pl.backs.getD r.2 0).toNat
      let bind := (pl.binds.getD r.2 0).toNat
      t == tiers.getD r.2 2 && (bitOf back 63 == (t == 3))
        && (t != 3 || (recLife1 r.1 && decide (1 < img.devices)))
        && (t != 0 || (!recLife1 r.1 && decide (bits bind 47 6 * 64 + recSize r.1 ≤ storeBytes)))
        && (t != 1 || isBoard (bits bind 47 6 * 64))
        && (t < 2 || bits bind 47 6 * 64 == bits back 47 12 * 4096))
    && img.rings.all (fun r => img.bufs.zipIdx.any fun b =>
      recId b.1 == r.1 && recLife1 b.1 && recPin b.1 1 && recSize b.1 == 64 + 64 * 2 ^ r.2)
    && disjointSpans regs && regs.all (fun r => regionMapped r && !s.unscrubbed r.1 r.2
      && s.allocated.all fun a => !spansMeet a r)
    && decide (s.boardUsed pl.part + (regs.filter fun r => isBoard r.1).foldl (fun k r => k + r.2) 0
      ≤ s.fld (Reg.SCHED_PARTA pl.part) 62 54 * 0x10000)

/-! ## Loading -/

/-- Bytes of LIFE 0 HBM instances that the written-bit table covers (R74). -/
def State.tracked (s : State) : Nat :=
  (s.bufs.filter fun e => e.2.isValid && bitOf e.2.bind.toNat 60).foldl (fun n e =>
    n + instTotal (s.vfCountOf (bits e.2.record.toNat 62 59)) e.2.sizeB false) 0

/-- Indices of the records that the written-bit table covers: in descending REUSE, then ascending BUF_ID, while 1 GiB
lasts (R74). Whole buffers are covered, and one that still fits is, after one that does not (DESIGN CHOICE, assumption 120). -/
def State.coverage (s : State) (img : JobImage) (pl : LoadPlan) : List Nat :=
  let cand := img.bufs.zipIdx.filter fun r => !recLife1 r.1 && bits (pl.binds.getD r.2 0).toNat 63 62 == 2
  let sorted := sortBy (fun (r : BitVec 128 × Nat) => (65536 * (255 - recReuse r.1) + recId r.1 : Nat)) cand
  (sorted.foldl (fun (acc : Nat × List Nat) r =>
    let n := instTotal img.vfs.length (recSize r.1) false
    if acc.1 + n ≤ 0x40000000 then (acc.1 + n, acc.2 ++ [r.2]) else acc) (s.tracked, [])).2

/-- Ulnal zeroes the DET registers of job `j`, then writes the seed, JSTEP, NDET and the log (R302). -/
def State.detLoad (s : State) (j : Nat) (img : JobImage) (pl : LoadPlan) : State :=
  let s := (((s.wr (Reg.DET_SEEDLO j) (pl.seed.setWidth 64)).wr (Reg.DET_SEEDHI j) ((pl.seed >>> 64).setWidth 64)).wr
    (Reg.DET_JSTEP j) pl.jstep).wr (Reg.DET_STEP j) 0
  let s := s.wr (Reg.DET_JCTRL j) (BitVec.ofNat 64 ((if img.ndet then 1 else 0) + if pl.logEn then 4 else 0))
  (s.wr (Reg.DET_LOGBASE j) (BitVec.ofNat 64 (putBits (putBits pl.logBase.toNat 63 48 0) 11 4 0))).wr (Reg.DET_LOGSTAT j) 0

/-- An accounting record starts at zero with its IMAGE (R270). -/
def State.acctLoad (s : State) (j : Nat) (img : JobImage) : State :=
  let k := devKey (0x7F80020000 + j * 0x400)
  if s.pwr.vhomeOut then s else (s.zero k 0x400).storeNat k 8 (imageTag img)

/-- The queue of vFace `v`: empty, its header written (R253). -/
def State.queueLoad (s : State) (j v : Nat) (img : JobImage) : State :=
  let ring := img.rings.getD v (0, 4)
  let a := match s.findBuf j ring.1 with
    | some (_, b) => b.base 0 v
    | none => 0
  let s := s.setVf j v { VfSt.empty with qbase := BitVec.ofNat 64 (2 ^ 63 + a + ring.2) }
  (s.zero a 64).storeNat (a + 8) 1 ring.2

/-- Word of a page-table entry that marks the page absent (R186). -/
def kvAbsent : Nat := 0xFFFFFF

/-- Key of entry (slot, k) of a service-managed page table (R186). -/
def State.kvKey (s : State) (j : Nat) (p : PoolRec) (slot k : Nat) : Nat :=
  (match s.findBuf j p.table with
    | some (_, b) => b.base 0 0
    | none => 0) + p.off + slot * p.stride + 4 * k

/-- Every entry of a service-managed table starts absent. -/
def State.kvLoad (s : State) (j : Nat) (p : PoolRec) : State :=
  s.each (List.range p.slots) fun s slot => s.each (List.range p.perSeq) fun s k => s.storeNat (s.kvKey j p slot k) 4 kvAbsent

/-- vFace map register of a list of Faces (R98). -/
def vmapOf (faces : List Nat) : Nat :=
  (List.range 6).foldl (fun n v => n + (faces.getD v 0xF) % 16 * 16 ^ v) 0

/-- What a compute-side reset left in LIFE 0 instances in HBM has to be zeroed before a command of job `j` reads it: by the written-bit
table at once, else by Board DMA (R74). -/
def State.zeroLeft (s : State) (j : Nat) : State :=
  let s' := s.each (s.kept.zeroDue.filter fun z => z.1 == j) fun s z => match s.findBuf j z.2.1 with
    | some (e, b) =>
      if b.life1 || b.tier != 2 then s
      else if bitOf b.bind.toNat 60 then
        s.each ((List.range 6).filter (bitOf z.2.2)) fun s v => s.zero (b.base 0 v) b.sizeB
      else s.setBuf e { b with
        zeroing := z.2.2
        zeroAt := ((List.range 6).filter (bitOf z.2.2)).foldl (fun m v => Map.put 0 m v s.raw) [] }
    | none => s
  { s' with kept := { s'.kept with zeroDue := s.kept.zeroDue.filter fun z => z.1 != j } }

/-- Load job `j`: tables, registers, queues, accounting unless the load is a restart's reload (R270). -/
def State.loadJob (s : State) (j : Nat) (img : JobImage) (pl : LoadPlan) (reload : Bool) : State :=
  let cov := s.coverage img pl
  let s := s.each img.bufs.zipIdx fun t r => t.setBuf (pl.entries.getD r.2 0) (s.entryOf j r.2 r.1 img pl (cov.contains r.2))
  let s := s.setJob j (some { img := img, codeBase := pl.codeBase, device := pl.device, ending := false, started := false,
                              captured := [], latch := 0, ranStatus := 0, ranScrub := 0, borrow := 0, donated := 0,
                              preempted := false, regions := planRegions img pl,
                              hbmUsed := hbmNeed img (pl.binds.map fun b => bits b.toNat 63 62), saves := pl.saves, hold := false })
  let s := ((s.setFld (Reg.SCHED_JOB j) 62 60 pl.part).setFld (Reg.SCHED_JOB j) 59 58 pl.prio).setFlag (Reg.SCHED_JOB j) 63 true
  let m := BitVec.ofNat 64 (vmapOf pl.faces)
  let s := (s.wr (Reg.PLACE_VMAP j) m).wr (Reg.PLACE_SVMAP j) m
  let s := s.detLoad j img pl
  let s := { s with
    routed := s.routed.filter fun e => e.1 / 96 != j
    net := s.net.filter fun e => e.1 / 256 != j
    kept := { s.kept with
      reload := (j, img, pl) :: s.kept.reload.filter fun r => r.1 != j
      jstep := Map.put 0 s.kept.jstep j pl.jstep.toNat
      logFill := Map.put 0 s.kept.logFill j 0 } }
  let s := s.zeroLeft j
  let s := s.each (List.range img.vfs.length) fun s v => s.queueLoad j v img
  let s := s.each img.pools fun s p => s.kvLoad j p
  if reload then s else s.acctLoad j img

/-- Set PLACE_ERR. -/
def State.placeErr (s : State) (j id code : Nat) : State :=
  s.wr Reg.PLACE_ERR (BitVec.ofNat 64 (j * 2 ^ 60 + id * 2 ^ 32 + code))

/-- JOB_LOAD: the checks, then the load; or PLACE_ERR and nothing started (R85). -/
def execJobLoad (j : BitVec 4) (img : JobImage) (pl : LoadPlan) (s : State) : Out :=
  let j := j.toNat
  if (s.job j).isSome then s.noEvent
  else match s.loadErr img pl with
    | some e => .next ((s.placeErr j e.2 e.1).answer .denied)
    | none =>
      if s.loadRefused img pl then .next (s.answer .denied)
      else if s.planOk img pl then .next ((s.loadJob j img pl false).answer (.ok []))
      else s.noEvent

/-! ## LIFE 0 instances zeroed by Board DMA (R74) -/

/-- LIFE0_HBM_ZERO_DONE: the instance of vFace `v` is zero; the time counts as a move (R271). -/
def execLife0HbmZeroDone (e : BitVec 12) (v : BitVec 3) (s : State) : Out :=
  let b := s.buf e.toNat
  if bitOf b.zeroing v.toNat then
    let s := (s.zero (b.base 0 v.toNat) b.sizeB).setBuf e.toNat { b with zeroing := b.zeroing - 2 ^ v.toNat }
    .next (s.account (bits b.record.toNat 62 59) 0x38 (s.raw - Map.get 0 b.zeroAt v.toNat))
  else s.noEvent

/-! ## Registers (R98) -/

/-- A command in flight references entry `e`. -/
def State.bufInUse (s : State) (e : Nat) : Bool := (List.range 6).any fun f => (s.face f).running && (s.face f).refs.contains e

/-- PLACE_BREC written: ignored while a command in flight references the entry; a reserved value sets BAD_RECORD and
leaves VALID at 0 (R98). -/
def State.brecWrite (s : State) (v : Nat) : State :=
  let e := s.fld Reg.PLACE_BSEL 11 0
  let w := v &&& 0xF8FFFFF8FF000000
  if s.bufInUse e then s
  else if bits v 37 36 = 3 then
    (s.setBuf e { s.buf e with record := BitVec.ofNat 64 (putBits w 63 63 0) }).placeErr (bits v 62 59) (bits v 55 40) 0x09
  else s.setBuf e { s.buf e with record := BitVec.ofNat 64 w }

/-- PLACE_BREC_WRITE (R98). -/
def execPlaceBrecWrite (v : Word) (s : State) : Out := .next (s.brecWrite v.toNat)

/-- GO: commits the shadow tables, or COMMIT_BUSY while a plan is pending (R96). A second GO before the boundary commits them anew,
from its own time on (DESIGN CHOICE, assumption 122). -/
def State.placeGo (s : State) : State :=
  if s.flag Reg.PLACE_STATUS 0 then s.setFld Reg.PLACE_ERR 7 0 0x08
  else { s with place := { s.place with
    committed := true
    goAt := s.raw } }

/-- PLACE_COMMIT: a write with GO set (R96). -/
def execPlaceCommit (v : Word) (s : State) : Out := .next (if bitOf v.toNat 0 then s.placeGo else s)

/-! ## Plans (R92, R93, R95) -/

/-- Valid entries of the jobs of partition `p`. -/
def State.partBufs (s : State) (p : Nat) : List (Nat × BufEnt) :=
  s.bufs.filter fun e => e.2.isValid && s.jobLive (bits e.2.record.toNat 62 59) && s.partOf (bits e.2.record.toNat 62 59) == p

/-- The tier of every entry of partition `p` under the policy. -/
def State.planTiers (s : State) (p : Nat) : List (Nat × Nat) :=
  s.fillTiers (fun b => s.vfCountOf (bits b.record.toNat 62 59)) s.want (s.fld (Reg.SCHED_PARTA p) 62 54 * 0x10000) (s.partBufs p)

/-- The binding a plan gives an entry: its tier, and the address: that in force if the tier stays, the backing space
in HBM and on a peer, else the one named. -/
def planBind (b : BufEnt) (tier addr : Nat) : Nat :=
  let a := if tier = b.tier then bits b.bind.toNat 47 6 * 64
    else if 2 ≤ tier then bits b.back.toNat 47 12 * 4096 else addr
  tier * 2 ^ 62 + a

/-- May the plan put an entry at its address? A store offset inside the store; a Board region free of other jobs and of
the job's own Board buffers, and scrubbed. -/
def State.bindOk (s : State) (e tier addr : Nat) : Bool :=
  let b := s.buf e
  let j := bits b.record.toNat 62 59
  let n := instTotal (s.vfCountOf j) b.sizeB b.life1
  if tier = b.tier ∨ 2 ≤ tier then true
  else if tier = 0 then decide (addr + b.sizeB ≤ storeBytes) && addr % 64 == 0
  else isBoard addr && isBoard (addr + n - 1) && addr % 64 == 0 && !s.unscrubbed addr n
    && ((List.range 16).all fun k => k == j || match s.job k with
      | some jb => jb.regions.all fun r => !spansMeet r (addr, n)
      | none => true)
    && s.bufs.all fun x => x.1 == e || x.2.tier != 1 || !x.2.isValid
      || !spansMeet (bits x.2.bind.toNat 47 6 * 64, instTotal (s.vfCountOf (bits x.2.record.toNat 62 59)) x.2.sizeB x.2.life1) (addr, n)

/-- Do the bindings of a plan lie apart: those of a job in its stores, and all on the Board (R93)? -/
def State.bindsApart (s : State) (tiers : List (Nat × Nat)) (addr : Nat → Nat) : Bool :=
  let job := fun e => bits (s.buf e).record.toNat 62 59
  let at_ := fun (t : Nat × Nat) => bits (planBind (s.buf t.1) t.2 (addr t.1)) 47 6 * 64
  (List.range 16).all (fun j => disjointSpans ((tiers.filter fun t => t.2 == 0 && job t.1 == j).map fun t =>
    (at_ t, (s.buf t.1).sizeB)))
    && disjointSpans ((tiers.filter fun t => t.2 == 1).map fun t =>
      (at_ t, instTotal (s.vfCountOf (job t.1)) (s.buf t.1).sizeB (s.buf t.1).life1))

/-- Hops between two Faces (R14). -/
def faceHops (a b : Nat) : Nat :=
  let lo := min a b
  let hi := max a b
  match lo, hi with
  | 0, 1 => 1 | 1, 2 => 1 | 3, 4 => 1 | 4, 5 => 1
  | 0, 2 => 2 | 3, 5 => 2
  | 1, 3 => 3 | 2, 4 => 3
  | 0, 3 => 4 | 1, 4 => 4 | 2, 3 => 4 | 2, 5 => 4
  | 0, 4 => 5 | 1, 5 => 5
  | 0, 5 => 6
  | _, _ => 0

/-- May stripe set `set` of job `j`, of the vFaces `vfs` in stripe order, run in EXCHANGE with the bindings `face` (R238)? The image
marks the set; none of its vFaces is folded with another of the job; neighbours are near; the paces of the last completed major
frame are. -/
def State.exchangeOk (s : State) (face : Nat → Nat → Nat) (j set : Nat) (vfs : List Nat) : Bool :=
  let faces := vfs.map (face j)
  let all := (List.range (s.vfCountOf j)).map (face j)
  let rates := faces.map fun f => Map.get 0 s.sched.framePace f
  let hi := rates.foldl max 0
  let lo := rates.foldl min hi
  !vfs.isEmpty && s.stripeOf j set == vfs && faces.all (fun f => (all.filter (· == f)).length == 1)
    && decide (0 < lo) && decide ((hi - lo) * 20 ≤ hi) && (faces.zip faces.tail).all fun p => decide (faceHops p.1 p.2 ≤ 2)

/-- Does the plan bind every job of partition `p`, and only those, as the policy does? -/
def State.mapsOk (s : State) (p hot : Nat) (maps : List (Nat × List Nat)) (face : Nat → Nat → Nat) : Bool :=
  maps.all (fun m => s.jobLive m.1 && s.partOf m.1 == p && m.2.length == s.vfCountOf m.1)
    && (List.range 16).all fun j => !s.jobLive j || s.partOf j != p || match s.job j with
      | some jb => s.mapOk p hot (s.boundFaces face) jb.img ((List.range jb.img.vfs.length).map (face j))
      | none => true

/-- PLACEMENT_PLAN: Ulnal computes a plan for partition `p` and writes the shadow tables (R92, R95). `maps` are the
Faces chosen for the vFaces of the jobs that it moves, `addrs` the addresses chosen for entries that go to a store or to the Board, `ex` the
stripe sets chosen for EXCHANGE with their vFaces. -/
def execPlacementPlan (p : BitVec 3) (hot : BitVec 6) (maps : List (Nat × List Nat)) (addrs : List (Nat × Nat))
    (ex : List (Nat × Nat × List Nat)) (s : State) : Out :=
  let p := p.toNat
  let tiers := s.planTiers p
  let addr := fun e => ((addrs.find? fun a => a.1 == e).map (·.2)).getD 0
  let face := fun j v => (((maps.find? fun m => m.1 == j).map (·.2)).getD []).getD v (s.boundTo j v)
  if s.mapsOk p hot.toNat maps face && tiers.all (fun t => s.bindOk t.1 t.2 (addr t.1)) && s.bindsApart tiers addr
      && ex.all (fun x => s.exchangeOk face x.1 x.2.1 x.2.2) then
    let s := s.each maps fun s m => s.wr (Reg.PLACE_SVMAP m.1) (BitVec.ofNat 64 (vmapOf m.2))
    let s := s.each tiers fun s t => s.setBuf t.1 { s.buf t.1 with sbind := BitVec.ofNat 64 (planBind (s.buf t.1) t.2 (addr t.1)) }
    .next { s with place := { s.place with exPlan := ex.map fun x => 256 * x.1 + x.2.1 } }
  else s.noEvent

/-! ## Buffer moves (R94, R95, R97) -/

/-- A binding differs from the one in force. -/
def BufEnt.moves (b : BufEnt) : Bool :=
  b.isValid && b.strength != 2 && (bits b.sbind.toNat 63 62 != b.tier || bits b.sbind.toNat 47 6 != bits b.bind.toNat 47 6)

/-- The moves of a plan, within the budget; the others are dropped (R97). They are tried in the order of the table, a later one that
still fits is made, and LIFE 0 buffers count with the bytes of their instances (DESIGN CHOICE, assumption 123). -/
def State.planMoves (s : State) : List (Nat × Word) :=
  let budget := s.fld Reg.PLACE_CTRL 47 16 * 1024
  ((s.bufs.filter fun e => e.2.moves).foldl (fun (acc : Nat × List (Nat × Word)) e =>
    let n := instTotal (s.vfCountOf (bits e.2.record.toNat 62 59)) e.2.sizeB e.2.life1
    if acc.1 + n ≤ budget then (acc.1 + n, acc.2 ++ [(e.1, e.2.sbind)]) else acc) (0, [])).2

/-- BUFFER_MOVE_START: Board DMA starts moving entry `e` once no command in flight references it (R95). -/
def execBufferMoveStart (e : BitVec 12) (s : State) : Out :=
  let e := e.toNat
  match s.place.moves.find? fun m => m.1 == e with
  | none => s.noEvent
  | some m =>
    if s.bufInUse e then s.noEvent
    else
      let b := s.buf e
      let j := bits b.record.toNat 62 59
      let n := instTotal (s.vfCountOf j) b.sizeB b.life1
      let s := s.setBuf e { b with bind := BitVec.ofNat 64 (putBits b.bind.toNat 61 61 1) }
      let s := { s with place := { s.place with
        moves := s.place.moves.filter fun x => x.1 != e
        moving := s.place.moving ++ [(e, m.2, s.raw)] } }
      let s := if bits m.2.toNat 63 62 = 1 then
        s.modJob j fun x => { x with regions := x.regions ++ [(bits m.2.toNat 47 6 * 64, n)] } else s
      .next (s.setFlag Reg.PLACE_STATUS 1 true)

/-- BUFFER_MOVE_DONE: the contents are in the new tier and the binding is in force; the time is charged to the job
(R95, R97). A LIFE 0 buffer holds nothing between commands, and leaves nothing behind in HBM (R74). -/
def execBufferMoveDone (e : BitVec 12) (s : State) : Out :=
  let e := e.toNat
  match s.place.moving.find? fun m => m.1 == e with
  | none => s.noEvent
  | some m =>
    let b := s.buf e
    let j := bits b.record.toNat 62 59
    let n := instTotal (s.vfCountOf j) b.sizeB b.life1
    let w := putBits m.2.1.toNat 61 48 0
    let fits := !b.life1 && bits w 63 62 == 2 && decide (s.tracked + n ≤ 0x40000000)
    let b' := { b with bind := BitVec.ofNat 64 (w + if fits then 2 ^ 60 else 0) }
    let s := if b.life1 then s.copy (b.base 0 0) (b'.base 0 0) b.sizeB
      else
        let s := if b.tier = 2 then s.zero (b.base 0 0) n else s
        if b'.tier = 0 then s else s.zero (b'.base 0 0) n
    let s := s.setBuf e { b' with zeroing := if b.life1 then b.zeroing else 0 }
    let s := { s with place := { s.place with moving := s.place.moving.filter fun x => x.1 != e } }
    let s := s.account j 0x38 (s.raw - m.2.2)
    .next (if s.place.moving.isEmpty then (s.setFlag Reg.PLACE_STATUS 1 false).placeSettle else s)

/-! ## Major-frame boundaries (R95, R96, R258, R260) -/

/-- A placement cycle starts: the counters are latched, their differences are the latched window, and Ulnal saves the
counts (R88, R95). -/
def State.cycleStart (s : State) : State :=
  let s := s.each s.bufs fun t e => t.setBuf e.1 { e.2 with
    dreads := Ctr.count e.2.reads - e.2.lreads
    dwrites := Ctr.count e.2.writes - e.2.lwrites
    lreads := Ctr.count e.2.reads
    lwrites := Ctr.count e.2.writes }
  let s := { s with place := { s.place with
    cycleAt := s.sched.nextBoundary
    cycleOpen := true } }
  s.each (List.range 16) fun s j => s.saveHistory j

/-- The committed plan becomes pending: vFaces between commands adopt at once, the others at their next command
boundary (R94, R95). -/
def State.planPending (s : State) : State :=
  let adopts := (List.range 16).flatMap fun j => match s.job j with
    | some jb => (List.range jb.img.vfs.length).filterMap fun v =>
      let f := s.fld (Reg.PLACE_SVMAP j) (4 * v + 3) (4 * v)
      if f = s.boundTo j v ∨ jb.ending then none else some (j, v, f)
    | none => []
  let s := { s with place := { s.place with
    committed := false
    adopt := adopts
    moves := s.planMoves
    exSets := s.place.exPlan } }.setFlag Reg.PLACE_STATUS 0 true
  (s.each adopts fun s a => if s.vfRuns a.1 a.2.1 then s else s.adoptVf a.1 a.2.1).placeSettle

/-- A staged table that was committed at least 5 us before the boundary becomes active (R260). -/
def State.tableBoundary (s : State) : State :=
  if s.flag Reg.SCHED_STATUS 0 && decide (s.sched.stagedAt + 5000 ≤ s.sched.nextBoundary) then
    (s.activate s.sched.staged s.sched.stagedFrame).setFlag Reg.SCHED_STATUS 0 false
  else s

/-- A committed plan whose cycle is old enough becomes pending, and the next cycle starts (R96). -/
def State.planBoundary (s : State) : State :=
  let due := s.place.committed && decide (s.place.goAt + 5000 ≤ s.sched.nextBoundary)
    && (!s.place.cycleOpen || decide (s.place.cycleAt + 205000 ≤ s.sched.nextBoundary))
  if due then s.planPending.cycleStart else if s.place.cycleOpen then s else s.cycleStart

/-- The pace of each Face in the frame that ends: the mean of its windows (R238; DEDUCED, assumption 124). -/
def State.framePaces (s : State) : State :=
  { s with sched := { s.sched with
    framePace := (List.range 6).foldl (fun m f =>
      let n := Map.get 0 s.sched.paceN f
      if n = 0 then m else Map.put 0 m f (Map.get 0 s.sched.paceSum f / n)) s.sched.framePace
    paceSum := []
    paceN := [] } }

/-- MAJOR_FRAME_BOUNDARY: slots end; the slot table changes first, then the plan (R258, R262). -/
def execMajorFrameBoundary (s : State) : Out :=
  if s.flag Reg.SCHED_CTRL 0 && decide (s.sched.nextBoundary ≤ s.raw) then
    let s := s.each (List.range 6) fun s f => s.slotOff f
    let s := s.framePaces.tableBoundary.planBoundary
    let s := s.setFld Reg.SCHED_STATUS 63 32 (s.fld Reg.SCHED_STATUS 63 32 + 1)
    .next { s with sched := { s.sched with
      frameAt := s.sched.nextBoundary
      nextBoundary := s.sched.nextBoundary + s.frameNs } }
  else s.noEvent

end Sys2Proof.Machine
end

