-- ==== Sys2Proof/Machine/Fault.lean ====
section
/-! DEFINITION. Detections of faults, the status gate, heartbeats, sentinels, patrol, golden runs and injections (R428 to
R457). What a compute-side reset does stands in Reset. -/

namespace Sys2Proof.Machine

/-- Is this detection the one that the injection in progress awaits (R454)? -/
def State.injects (s : State) (kind : Nat) (face : Option Nat) : Bool :=
  match s.safe.inj with
  | some (k, f, _) => k == kind && (face == none || face == some f || f == 7)
  | none => false

/-- The injection was detected. -/
def State.injDone (s : State) : State :=
  { s with safe := { s.safe with inj := none } }.setFlag Reg.SAFE_INJ 63 true

/-- A detection through the normal path: an injected one is only logged (R454). `kind` is the injection kind that this
mechanism would detect. -/
def State.detect (s : State) (kind src : Nat) (face job : Option Nat) (detail : Nat) : State :=
  if s.injects kind face then (s.fault src face job true detail).injDone else s.fault src face job false detail

/-- Injection kind that a source's mechanism detects: RESIDUE 0, ECC2 2, MESH_CRC 3, SENTINEL 4. -/
def injKind (src : Nat) : Nat :=
  if src = 1 then 0 else if src = 2 then 2 else if src = 4 then 3 else if src = 5 then 4 else 15

/-- Key of the on-chip words that an SRAM_UE names by address bits [35:4]: those of a store or a state bank with their Face, else
of the Board (R433, R457). State banks have no device address: their part of the model's key space stands for it. -/
def sramKey (face : Option Nat) (detail : Nat) : Nat :=
  let a := 16 * detail % 2 ^ 36
  match face with
  | none => boardBase + a
  | some _ => if 0x100000000 ≤ a then boardBase + a else bankKey 0 0 + a

/-- FAULT_RECORD: HFLT records a fault from a mechanism (R449). A value that names no source records nothing. The words that an
SRAM_UE names are delivered with an error from then on (R433). -/
def execFaultRecord (src : BitVec 8) (face : Option (Fin 6)) (job : Option (BitVec 4)) (detail : BitVec 32) (s : State) : Out :=
  if faultKind src.toNat = .reserved then s.noEvent
  else
    let t := s.detect (injKind src.toNat) src.toNat (face.map (·.val)) (job.map (·.toNat)) detail.toNat
    .next (if src = 2 && !s.injects 2 (face.map (·.val)) then t.markBad (sramKey (face.map (·.val)) detail.toNat) 2 else t)

/-! ## Patrol, mesh, sentinels, lockstep, lines, heartbeat -/

/-- Face of a store or state-bank key. -/
def keyFace (a : Nat) : Option Nat :=
  if isStore a then some ((a - 0x4100000000) / 0x1000000)
  else if bankKey 0 0 ≤ a ∧ a < bankKey 6 0 then some ((a - bankKey 0 0) / 0x1000000)
  else none

/-- Is a word live for the patrol (R434): a written store line, a live bank or the bank of a running command, an
allocated region, Home memory? `alloc` says so where only Ulnal knows. -/
def State.patrolLive (s : State) (a : Nat) (alloc : Bool) : Bool :=
  let line := a - a % 64
  if homeSpace ≤ a && a < homeSpace + 0x100000 then true
  else match keyFace a with
    | some f =>
      if s.quarantined f then false
      else if isStore a then alloc || (s.load line 64).any (· != 0)
      else Map.get 0 (s.face f).owner (a / 0x10000 % 16) != 0 || (s.face f).running
    | none => alloc || s.allocated.any fun r => r.1 ≤ a && a < r.1 + r.2

/-- What a patrol read finds. -/
inductive PatrolRes
  | clean | corrected | uncorrectable
  deriving DecidableEq, Repr

/-- One patrol read (R434): a corrected word is counted, a dead uncorrectable one is zeroed and counted, a live one is a
fault, in Home memory a Home fault. -/
def State.patrol (s : State) (a : Nat) (res : PatrolRes) (alloc : Bool) : State :=
  let dead := !s.patrolLive a alloc
  match res with
  | .clean => s
  | .corrected =>
    let s := s.countReg Reg.SAFE_CE 1
    if s.injects 1 (keyFace a) then ((s.fault 0x02 (keyFace a) none true (a / 16 % 2 ^ 32))).injDone else s
  | .uncorrectable =>
    if dead then (s.zero (a - a % 8) 8).countReg Reg.SAFE_CE 1
    else if homeSpace ≤ a && a < homeSpace + 0x100000 then s.fault 0x22 none none false (a / 16 % 2 ^ 32)
    else
      let t := s.detect 2 0x02 (keyFace a) none (a / 16 % 2 ^ 32)
      if s.injects 2 (keyFace a) then t else t.markBad a 1

/-- PATROL_READ at key `a`: `last` marks the end of a pass. With SCRUB_EN 0 the compute side's patrol stops (R434). -/
def execPatrolRead (a : Nat) (res : BitVec 2) (alloc last : Bool) (s : State) : Out :=
  let r : PatrolRes := if res = 1 then .corrected else if res = 2 then .uncorrectable else .clean
  let home := homeSpace ≤ a && a < homeSpace + 0x100000
  if home || s.flag Reg.SAFE_CTRL 0 then
    let s := s.patrol a r alloc
    .next (if last && !home then s.seqFld Reg.SAFE_STATUS 31 0 else s)
  else s.noEvent

/-- MESH_CRC: a packet fails its CRC and is discarded; the requester repeats the piece, which changes nothing. A second
failure of the piece is a fault (R435). -/
def execMeshCrc (second : Bool) (s : State) : Out :=
  if s.injects 3 none then .next ((s.fault 0x04 none none true 0).injDone)
  else if second then .next (s.fault 0x04 none none false 0) else .next s

/-- SENT_US, clamped (R456). -/
def State.sentUs (s : State) : Nat := max 10 (min 10000 (s.fld Reg.SAFE_CTRL 29 16))

/-- STALL: a channel's request has waited `us` microseconds: on the compute side SENT_US records STALL, with its Face
when the channel belongs to one; on the Home island 20 us is a Home fault (R436). A quarantined or halted Face has no
sentinel (R452, R471). -/
def execStall (home : Bool) (ch : BitVec 12) (us : Nat) (s : State) : Out :=
  let blk := bits ch.toNat 11 8
  if home then if 20 ≤ us then .next (s.fault 0x23 none none false ch.toNat) else s.noEvent
  else if us < s.sentUs then s.noEvent
  else if blk < 6 then
    if s.quarantined blk || (s.face blk).halted then s.noEvent
    else .next (s.detect 4 0x05 (some blk) none ch.toNat)
  else .next (s.detect 4 0x05 none none ch.toNat)

/-- LOCKSTEP_MISMATCH: of Double `who` below 4, of a Home pair (4), of the control engine or solver (others) (R438,
R439). -/
def execLockstepMismatch (who : BitVec 3) (s : State) : Out :=
  let w := who.toNat
  if w < 4 then
    if s.flag Reg.SYS_CTRL (16 + w) && s.flag Reg.SYS_CTRL (12 + w) then .next (s.fault 0x06 none none false w) else s.noEvent
  else .next (s.fault (if w = 4 then 0x20 else 0x21) none none false 0)

/-- LINE: the fault lines have stopped for 5 us while CSTATE is BOOT or UP (R440). -/
def execLine (s : State) : Out :=
  if s.cstate = 2 ∨ s.cstate = 3 then .next (s.fault 0x08 none none false 0) else s.noEvent

/-- CKICK_MS in ns, held in 1 to 100. -/
def State.ckickNs (s : State) : Nat := 1000000 * max 1 (min 100 (s.fld Reg.HFLT_CTRL 31 24))

/-- CORE_HB: a window has passed without a heartbeat while CSTATE is UP (R440). -/
def execCoreHb (s : State) : Out :=
  if s.cstate = 3 ∧ s.safe.kickAt + s.ckickNs ≤ s.raw then .next (s.fault 0x07 none none false 0) else s.noEvent

/-- SAFE_KICK: a heartbeat (R440, R456). -/
def State.kick (s : State) (v : Nat) : State :=
  if bitOf v 0 then { s with safe := { s.safe with kickAt := s.raw } } else s

/-- SAFE_KICK (R456). -/
def execSafeKick (v : Word) (s : State) : Out := .next (s.kick v.toNat)

/-- BOOT_TIMEOUT: CSTATE has not reached UP within 100 ms of the release (R451). -/
def execBootTimeout (s : State) : Out :=
  if s.cstate = 2 ∧ s.safe.bootAt + 100000000 < s.raw then .next (s.fault 0x0E none none false 0) else s.noEvent

/-- HFLT_CTRL written: CKICK_MS and RST_MAX; RETRY leaves FAILED for a restart; REQ records HOME_REQ (R457). -/
def State.hfltWrite (s : State) (v : Nat) : State :=
  let s := s.setFld Reg.HFLT_CTRL 31 20 (bits v 31 20)
  let s := if bitOf v 1 && s.cstate == 4 then s.setCstate 1 else s
  if bitOf v 0 then s.fault 0x0F none none false 0 else s

/-- HFLT_RETRY: leaves FAILED and starts a restart (R451). -/
def execHfltRetry (s : State) : Out := if s.cstate = 4 then .next (s.setCstate 1) else s.noEvent

/-- HOME_REQ: Home firmware records the fault (R457). -/
def execHomeReq (s : State) : Out := .next (s.fault 0x0F none none false 0)

/-! ## The status gate (R447) -/

/-- The first status word of an entry that the gate has not taken. -/
def State.gateNext (s : State) (f : Nat) (e : Entry) : Option GateHeld :=
  e.fx.findSome? fun x => match x with
    | .gate j p i a app =>
      if s.safe.gate.any (fun g => g.face == f && g.seq == e.seq && g.key == a) then none
      else some ⟨f, e.seq, j, p, i, a, app, s.raw⟩
    | _ => none

/-- STATUS_GATE_WRITE: a status word of the instruction enters the gate (R447). -/
def execStatusGateWrite (f : Fin 6) (seq : Nat) (s : State) : Out :=
  match (s.face f).window.find? fun e => e.seq == seq && e.started with
  | none => s.noEvent
  | some e => match s.gateNext f e with
    | some g => .next { s with safe := { s.safe with gate := s.safe.gate ++ [g] } }
    | none => s.noEvent

/-- The next SEQ of a slot pair: one more than its counter, 0 left out. -/
def nextSeq (n : Nat) : Nat := if (n + 1) % 2 ^ 32 = 0 then 1 else (n + 1) % 2 ^ 32

/-- The gate completes a word: APP kept, FAULT from the latch, SEQ from the slot pair's counter (R446, R447). -/
def State.gateDone (s : State) (g : GateHeld) : State :=
  let k := 16 * g.job + g.pair
  let seq := nextSeq (Map.get 0 s.kept.pubs k)
  let latch := match s.job g.job with
    | some b => b.latch
    | none => 0
  let s := s.store g.key (leBytes 4 seq ++ leBytes 1 g.app ++ leBytes 1 0 ++ leBytes 2 latch)
  let s := { s with
    kept := { s.kept with pubs := Map.put 0 s.kept.pubs k seq }
    safe := { s.safe with gate := s.safe.gate.filter fun x => x != g } }
  let s := s.modJob g.job fun b => { b with
    latch := 0
    ranStatus := 0 }
  let fs := s.face g.face
  s.setFace g.face { fs with window := fs.window.map fun e =>
    if e.seq = g.seq ∧ fs.job = g.job then { e with fx := e.fx.filter fun x => match x with
      | .gate _ _ _ a _ => a != g.key
      | _ => true } else e }

/-- STATUS_GATE_COMPLETE: the oldest word held for 2 us is completed and written (R447). -/
def execStatusGateComplete (s : State) : Out :=
  match s.safe.gate with
  | [] => s.noEvent
  | g :: _ => if g.since + 2000 ≤ s.raw then .next (s.gateDone g) else s.noEvent

/-! ## Injection (R454) -/

/-- SAFE_INJ written: GO injects. A write from a core that is not in lockstep is ignored (R439), a reserved KIND
injects nothing. -/
def State.injWrite (s : State) (v : Nat) (lockstep : Bool) : State :=
  if !lockstep then s
  else
    let s := if bitOf v 62 then s.setFlag Reg.SAFE_INJ 62 false else s
    let s := s.setFld Reg.SAFE_INJ 15 7 (bits v 15 7)
    if bitOf v 0 && decide (bits v 15 12 ≤ 4) then
      { s with safe := { s.safe with inj := some (bits v 15 12, bits v 11 9, s.raw) } }.setFlag Reg.SAFE_INJ 63 false
    else s

/-- SAFE_INJ (R454). -/
def execSafeInj (v : Word) (lockstep : Bool) (s : State) : Out := .next (s.injWrite v.toNat lockstep)

/-- Time within which an injection of a kind must be detected, in ns (R429). -/
def State.injNs (s : State) (kind : Nat) : Nat :=
  if kind = 0 ∨ kind = 3 then 1000 else if kind = 4 then 1000 * (s.sentUs + 2) else 100000000

/-- Fault source of the checker that an injection tests. -/
def injSrc (kind : Nat) : Nat := if kind = 0 then 1 else if kind ≤ 2 then 2 else if kind = 3 then 4 else 5

/-- INJECTION_MISSED: the detection time has passed: MISSED, and a fault of the checker's source (R454). -/
def execInjectionMissed (s : State) : Out :=
  match s.safe.inj with
  | none => s.noEvent
  | some (k, f, t) =>
    if t + s.injNs k < s.raw then
      let s := { s with safe := { s.safe with inj := none } }.setFlag Reg.SAFE_INJ 62 true
      .next (s.fault (injSrc k) (if f < 6 then some f else none) none false 0)
    else s.noEvent

/-! ## Golden runs (R441 to R445) -/

/-- The safety partition. -/
def State.safePart (s : State) : Nat := s.fld Reg.GOLD_CTRL 61 59

/-- Covered Faces: named by TEST entries of the safety partition, less quarantined ones (R441). -/
def State.cover (s : State) : List Nat :=
  (List.range 6).filter fun f => !s.quarantined f && (List.range 64).any fun i =>
    s.flag (Reg.SCHED_SLOT i) 63 && s.slotTest i && bitOf (s.slotFaces i) f

/-- Loaded golden instances: job and Face. -/
def State.goldJobs (s : State) : List (Nat × Nat) :=
  ((List.range 16).filter fun j => s.isGolden j).map fun j => (j, s.boundTo j 0)

/-- GPERIOD in ns. -/
def State.gperiodNs (s : State) : Nat := 1000000 * s.fld Reg.GOLD_CTRL 47 32
/-- Deferrals of the pending run. -/
def State.defers (s : State) : Nat := s.fld Reg.GOLD_STATUS 51 50
/-- Deadline of the pending run (R442). -/
def State.goldDeadline (s : State) : Nat := s.safe.goldFrom + (1 + s.defers) * s.gperiodNs

/-- A covered Face is halted: the deadlines are suspended (R471). -/
def State.goldSuspended (s : State) : Bool := s.cover.any fun f => (s.face f).halted

/-- A PRIO 3 command of another job of the safety partition is ready on a covered Face (R444). -/
def State.goldBusy (s : State) : Bool :=
  s.cover.any fun f => (List.range 16).any fun j =>
    s.jobReadyOn f j && s.partOf j == s.safePart && !s.isGolden j && s.prioOf j == 3

/-- GOLDEN_RELEASE: the run is released GLEAD before its deadline, or deferred (R442, R444). -/
def execGoldenRelease (s : State) : Out :=
  let due := s.goldDeadline ≤ s.raw + 1000 * s.fld Reg.GOLD_CTRL 31 16
  if !s.flag Reg.GOLD_CTRL 63 || s.safe.goldReleased || s.flag Reg.GOLD_STATUS 49 || !due || s.goldSuspended then s.noEvent
  else if s.flag Reg.GOLD_CTRL 62 && decide (s.defers < 2) && s.goldBusy then
    .next (s.setFld Reg.GOLD_STATUS 51 50 (s.defers + 1))
  else .next { s with safe := { s.safe with goldReleased := true } }

/-- GOLDEN_START: the released run starts in a TEST slot on all covered Faces together (R442). -/
def execGoldenStart (s : State) : Out :=
  let ok := s.cover.all fun f => match (s.face f).slot with
    | some i => s.slotTest i
    | none => false
  if s.safe.goldReleased && !s.flag Reg.GOLD_STATUS 49 && ok && !s.cover.isEmpty then
    let logs := s.goldJobs.foldl (fun m j => Map.put 0 m j.1 (s.fld (Reg.DET_LOGSTAT j.1) 63 32)) []
    .next ({ s with safe := { s.safe with
      goldReleased := false
      goldAt := s.raw
      goldUsed := []
      goldLog := logs } }.setFlag Reg.GOLD_STATUS 49 true)
  else s.noEvent

/-- A log entry without its time, FLAGS bit 2 and what follows DEVICE: what R294 compares. -/
def logKeyed (bs : List Byte) : List Byte :=
  (bs.take 15) ++ (((bs.drop 15).take 1).map fun b => b &&& 0xFB) ++ (bs.drop 16).take 33

/-- The key of a log entry: JSTEP, CMDNO, VFACE, ORD, DEVICE (R294). -/
def logKey (bs : List Byte) : List Byte :=
  bs.take 13 ++ (bs.drop 14).take 1 ++ (bs.drop 48).take 1

/-- Log entries that job `j` has written since the run started. -/
def State.goldEntries (s : State) (j : Nat) : List (List Byte) :=
  let size := 2 ^ (s.fld (Reg.DET_LOGBASE j) 3 0 + 6)
  let n0 := Map.get 0 s.safe.goldLog j
  let n := (s.fld (Reg.DET_LOGSTAT j) 63 32 + 2 ^ 32 - n0) % 2 ^ 32
  (List.range (min n size)).map fun i =>
    s.load (devKey (s.fld (Reg.DET_LOGBASE j) 47 12 * 4096 + 64 * ((n0 + n - min n size + i) % size))) 64

/-- Does every entry of an instance equal the reference entry with its key? -/
def goldMatches (ref ents : List (List Byte)) : Bool :=
  ents.all fun e => match ref.find? fun r => logKey r == logKey e with
    | some r => logKeyed r == logKeyed e
    | none => false

/-- The run is over, without a pass. -/
def State.goldAbandon (s : State) : State :=
  { s with safe := { s.safe with goldReleased := false } }.setFlag Reg.GOLD_STATUS 49 false

/-- GOLDEN_COMPARE: the logs are compared with the reference log at `ref`, `n` entries; `refOk` says that the reference
passes its own digest. The run passes, or records its faults (R442, R443). -/
def execGoldenCompare (ref n : Nat) (refOk : Bool) (s : State) : Out :=
  if !s.flag Reg.GOLD_STATUS 49 || s.goldJobs.any (fun j => s.jobRuns j.1) then s.noEvent
  else
    let rl := (List.range n).map fun i => s.load (devKey (ref + 64 * i)) 64
    let bad := s.goldJobs.filter fun j => !goldMatches rl (s.goldEntries j.1)
    let faces := bad.map (·.2)
    let alike := !bad.isEmpty && bad.length == s.goldJobs.length && bad.all fun j =>
      (s.goldEntries j.1).map logKeyed == (s.goldEntries (bad.headD (0, 0)).1).map logKeyed
    let s' := s.goldAbandon
    if !refOk then .next ((s'.raiseEv 20).fault 0x0B none none false 0)
    else if !bad.isEmpty then
      let s' := (s'.setFld Reg.GOLD_STATUS 57 52 (faces.foldl (fun m f => m ||| 2 ^ f) 0)).raiseEv 20
      .next (if alike then s'.fault 0x09 none none false 0
        else s'.each bad fun s j => s.fault 0x09 (some j.2) (some j.1) false (s.vf j.1 0).cmdno)
    else if s.goldDeadline < s.raw && !s.goldSuspended then .next ((s'.raiseEv 20).fault 0x0A none none false 0)
    else
      let s' := (s'.wr Reg.GOLD_START (BitVec.ofNat 64 s.safe.goldAt)).setFld Reg.GOLD_STATUS 51 50 0
      .next ({ s' with safe := { s'.safe with goldFrom := s.safe.goldAt } }.seqFld Reg.GOLD_STATUS 31 0)

/-- GOLD_LATE: no pass by the deadline, or an instance beyond GMAX (R443). -/
def execGoldLate (s : State) : Out :=
  let beyond := s.safe.goldUsed.any fun u => decide (1000 * s.fld Reg.GOLD_CTRL 15 0 < u.2)
  if s.flag Reg.GOLD_CTRL 63 && !s.goldSuspended && (decide (s.goldDeadline < s.raw) || (s.flag Reg.GOLD_STATUS 49 && beyond)) then
    .next ((s.goldAbandon.raiseEv 20).fault 0x0A none none false 0)
  else s.noEvent

/-- GOLD_CTRL written: while EN is 1 only EN is; EN with a field out of range stays 0; a write from a core that is not
in lockstep is ignored (R439, R456). -/
def State.goldWrite (s : State) (v : Nat) (lockstep : Bool) : State :=
  if !lockstep then s
  else if s.flag Reg.GOLD_CTRL 63 then s.setFlag Reg.GOLD_CTRL 63 (bitOf v 63)
  else
    let inR := fun lo hi x => decide (lo ≤ x) && decide (x ≤ hi)
    let ok := inR 10 1000 (bits v 47 32) && inR 1000 30000 (bits v 31 16) && inR 100 2000 (bits v 15 0)
    let s := (s.setFld Reg.GOLD_CTRL 62 59 (bits v 62 59)).setFld Reg.GOLD_CTRL 47 0 (bits v 47 0)
    if bitOf v 63 && ok then
      let s := s.setFlag Reg.GOLD_CTRL 63 true
      if s.safe.goldFrom = 0 then { s with safe := { s.safe with goldFrom := s.raw } } else s
    else s

/-- GOLD_CTRL_WRITE (R456). -/
def execGoldCtrlWrite (v : Word) (lockstep : Bool) (s : State) : Out := .next (s.goldWrite v.toNat lockstep)

end Sys2Proof.Machine
end

