-- ==== Sys2Proof/Machine/Time.lean ====
section
/-! DEFINITION. The timebase, PPS, the time mailbox and launch times (R342 to R366). -/

namespace Sys2Proof.Machine

/-! ## Time of day (R343, R344) -/

/-- Time of day at raw count `r`, in units of 2^-16 ns, before it is reduced to 96 bits. -/
def State.timeAt (s : State) (r : Int) : Int :=
  let d := r - (s.time.ra : Int)
  (s.time.ta : Int) + d * 2 ^ 16 + d * s.time.rho / 2 ^ 32

/-- The same as a 96-bit number. -/
def State.timeOf (s : State) (r : Int) : Nat := (s.timeAt r % (2 : Int) ^ 96).toNat

/-- Units of 2^-16 ns in a second. -/
def secUnits : Nat := 1000000000 * 2 ^ 16

/-- The timestamp of a time of day (R344). -/
def stampOf (t : Nat) : Nat := t / secUnits * 2 ^ 48 + t % secUnits

/-- PSEQ counts a change of parameters. -/
def State.pseq (s : State) : State := s.seqFld Reg.TIME_STATUS 15 0

/-- Largest magnitude of the rate (R346). -/
def rhoMax : Int := 2 ^ 38

/-- Load a rate at the present raw count (R346). -/
def State.applyRate (s : State) (rho : Int) : State :=
  let ta := s.timeOf s.raw
  let s := if rho < -rhoMax ∨ rhoMax < rho then s.setFlag Reg.TIME_STATUS 30 true else s
  { s with time := { s.time with
    ta := ta
    ra := s.raw
    rho := clampInt (-rhoMax) rhoMax rho } }.pseq

/-- Is a step within range: T now stays at 0 or above, and SEC within 48 bits (R347)? -/
def State.stepOk (s : State) (d : Int) : Bool :=
  let t := (s.timeOf s.raw : Int) + d
  decide (0 ≤ t) && decide (t < ((2 ^ 48 * secUnits : Nat) : Int))

/-- Step time of day by an amount in units of 2^-16 ns (R347). -/
def State.applyStep (s : State) (d : Int) : State :=
  if s.stepOk d then
    { s with time := { s.time with ta := ((((s.time.ta : Int) + d) % (2 : Int) ^ 96)).toNat } }.pseq
  else s.setFlag Reg.TIME_STATUS 29 true

/-- Does PPS discipline own the rate (R350)? -/
def State.rateOwned (s : State) : Bool := decide (2 ≤ s.fld Reg.PPS_CTRL 1 0)

/-- TIME_RATELO written by Home pair `p`: applies the rate with that pair's staged RHO_H (R346, R350). -/
def State.rateWrite (s : State) (p v : Nat) : State :=
  if s.rateOwned then s.setFlag Reg.TIME_STATUS 28 true
  else s.applyRate (signed 48 (v % 2 ^ 32 + Map.get 0 s.time.rhoH p * 2 ^ 32))

/-- TIME_RATE_WRITE (R346). -/
def execTimeRateWrite (p : Fin 2) (v : Half) (s : State) : Out := .next (s.rateWrite p v.toNat)

/-- TIME_RATEHI written: stages RHO_H for the pair. -/
def State.rateHiWrite (s : State) (p v : Nat) : State :=
  { s with time := { s.time with rhoH := Map.put 0 s.time.rhoH p (v % 2 ^ 16) } }

/-- TIME_STEPLO written: applies the step with the staged halves (R347). -/
def State.stepTimeWrite (s : State) (v : Nat) : State :=
  s.applyStep (signed 64 (v % 2 ^ 32 + s.time.stepH * 2 ^ 32) * 2 ^ 16 + s.time.stepF)

/-- TIME_STEP_WRITE (R347). -/
def execTimeStepWrite (v : Half) (s : State) : Out := .next (s.stepTimeWrite v.toNat)

/-! ## Reads (R348) -/

/-- The bytes of an answer of `n` bytes. -/
def okNat (n v : Nat) : Resp := .ok (leBytes n v)

/-- A read of TIME_RAWLO latches TIME_RAWHI for the pair. -/
def State.rawRead (s : State) (p : Nat) : State :=
  { s with time := { s.time with rawHi := Map.put 0 s.time.rawHi p (s.raw / 2 ^ 32 % 2 ^ 32) } }

/-- TIME_RAW_READ (R348). -/
def execTimeRawRead (p : Fin 2) (s : State) : Out := .next ((s.rawRead p).answer (okNat 4 s.raw))

/-- A read of TIME_NOW0 latches TIME_NOW1 and TIME_NOW2 for the pair. -/
def State.nowRead (s : State) (p : Nat) : State :=
  let t := stampOf (s.timeOf s.raw)
  { s with time := { s.time with
    now1 := Map.put 0 s.time.now1 p (t / 2 ^ 32 % 2 ^ 32)
    now2 := Map.put 0 s.time.now2 p (t / 2 ^ 64) } }

/-- TIME_NOW_READ (R348). -/
def execTimeNowRead (p : Fin 2) (s : State) : Out :=
  .next ((s.nowRead p).answer (okNat 4 (stampOf (s.timeOf s.raw))))

/-- A read of TIMEM_NOW0 latches NOW1 for the requester. -/
def State.memNowRead (s : State) (q : Nat) : State :=
  { s with time := { s.time with memNow1 := Map.put 0 s.time.memNow1 q (stampOf (s.timeOf s.raw) / 2 ^ 64) } }

/-- Numbers of the requesters beside the control cores 0 to 7 (R348): the command-port bridge, and debug. -/
def bridgeReq : Nat := 8
def debugReq : Nat := 9

/-- TIMEM_NOW_READ by a requester: a control core, the command-port bridge or debug (R348). -/
def execTimemNowRead (q : BitVec 4) (s : State) : Out :=
  .next ((s.memNowRead q.toNat).answer (okNat 8 (stampOf (s.timeOf s.raw))))

/-- A read of TIMEM_RA latches TA, the rate and PSEQ. -/
def State.memRaRead (s : State) : State :=
  { s with time := { s.time with
    memTa := s.time.ta
    memRho := s.time.rho
    memPseq := s.fld Reg.TIME_STATUS 15 0 } }

/-- TIMEM_RA_READ (R348). -/
def execTimemRaRead (s : State) : Out := .next (s.memRaRead.answer (okNat 8 s.time.ra))

/-! ## The mailbox (R349) -/

/-- Key of the mailbox. -/
def timeMbox : Nat := homeSpace + 0xFF000

/-- What a request does, and its RESULT. -/
def State.mboxServe (s : State) : State × Nat :=
  let kind := s.loadNat (timeMbox + 4) 1
  let v := s.loadNat (timeMbox + 8) 8
  if kind = 1 ∨ kind = 2 then
    if s.rateOwned then (s.setFlag Reg.TIME_STATUS 28 true, 1)
    else
      let rho := signed 64 v + if kind = 2 then s.time.rho else 0
      (s.applyRate rho, if rho < -rhoMax ∨ rhoMax < rho then 2 else 0)
  else if kind = 3 then
    let d := signed 64 v * 2 ^ 16 + s.loadNat (timeMbox + 16) 2
    (s.applyStep d, if s.stepOk d then 0 else 3)
  else (s, 4)

/-- TIME_MAILBOX_REQUEST: Home firmware serves the posted request, then writes RESULT, and ACKSEQ last (R349). -/
def execTimeMailboxRequest (s : State) : Out :=
  let q := s.loadNat timeMbox 4
  if q = s.loadNat (timeMbox + 24) 4 then s.noEvent
  else
    let r := s.mboxServe
    .next ((r.1.storeNat (timeMbox + 28) 1 r.2).storeNat (timeMbox + 24) 4 q)

/-! ## PPS_IN (R351 to R356) -/

/-- STATE. -/
def State.ppsState (s : State) : Nat := s.fld Reg.PPS_STATUS 31 30

/-- Change the PPS record. -/
def State.setPps (s : State) (p : PpsSt) : State := { s with time := { s.time with pps := p } }

/-- Is a time from one edge to the next a second (R351)? -/
def aboutSecond (d : Int) : Bool := decide (999000000 ≤ d) && decide (d ≤ 1001000000)

/-- TRACK begins, on rising (0) or falling (1) edges. -/
def State.ppsTrack (s : State) (edge : Nat) (ambig : Bool) : State :=
  (((s.setFld Reg.PPS_STATUS 31 30 2).setFld Reg.PPS_STATUS 29 29 edge).setFlag Reg.PPS_STATUS 28 ambig).setPps
    { s.time.pps with
      first := true
      prev := none
      last := s.raw
      rise := none
      fall := none
      periods := 0
      high := 0 }

/-- An edge in DETECT (R352): two full periods decide which edge is on time. `last` keeps the start of the first. -/
def State.ppsDetect (s : State) (rising : Bool) : State :=
  let p := s.time.pps
  let s := s.setFld Reg.PPS_STATUS 31 30 1
  if !rising then s.setPps { p with fall := some s.raw }
  else match p.rise, p.fall with
    | some r, some f =>
      if aboutSecond ((s.raw : Int) - r) && decide (r < f) then
        let high := p.high + (f - r)
        if 1 ≤ p.periods then
          let all := s.raw - p.last
          if 100 * high < 45 * all then s.ppsTrack 0 false
          else if 100 * (all - high) < 45 * all then s.ppsTrack 1 false
          else s.ppsTrack 0 true
        else s.setPps { p with
          rise := some s.raw
          fall := none
          periods := 1
          high := high
          last := r }
      else s.setPps { p with
        rise := some s.raw
        fall := none
        periods := 0
        high := 0 }
    | _, _ => s.setPps { p with
        rise := some s.raw
        fall := none
        periods := 0
        high := 0 }

/-- The phase error of an edge captured at raw count `c`: T there less the nearest whole second, a tie to the later one
(R353), in units of 2^-16 ns. TA wraps below 0 at a backward step, and T with it. -/
def State.phaseErr (s : State) (c : Int) : Int :=
  let t : Int := (s.timeAt c + 2 ^ 95) % 2 ^ 96 - 2 ^ 95
  let k := (2 * t + secUnits) / (2 * secUnits)
  t - k * secUnits

/-- A rational rounded to an integer by RNE. -/
def rneInt (n d : Int) : Int := roundRat .rne 0 ((n : Rat) / (d : Rat))

/-- The trim of discipline (R355): errors in units of 2^-16 ns. -/
def State.ppsTrim (s : State) (e : Int) (prev : Option Int) : State :=
  let tc := min 10 (s.fld Reg.PPS_CTRL 7 4)
  let one := match prev with
    | some p => rneInt (2 ^ 32 * (e - p)) 1000000000
    | none => 0
  s.applyRate (s.time.rho - one - rneInt (2 ^ 32 * e) (1000000000 * 2 ^ tc))

/-- PPS_CTRL written: a new POL takes effect where edges have been seen: auto detects anew, the others track the edge they name
(R352). -/
def State.ppsCtrlWrite (s : State) (v : Nat) : State :=
  let was := s.fld Reg.PPS_CTRL 3 2
  let pol := bits v 3 2
  let s := s.wr Reg.PPS_CTRL (BitVec.ofNat 64 (v % 2 ^ 28))
  if pol = was ∨ s.ppsState = 0 then s
  else if pol = 1 then s.ppsTrack 0 false
  else if pol = 2 then s.ppsTrack 1 false
  else if pol = 0 then (s.setFld Reg.PPS_STATUS 31 30 1).setPps { s.time.pps with
    rise := none
    fall := none
    periods := 0
    high := 0 }
  else s

/-- PPS_CAPLO read: it latches PPS_CAPHI (R365). -/
def State.capRead (s : State) : State := { s with time := { s.time with capHi := s.time.pps.cap / 2 ^ 32 % 2 ^ 32 } }

/-- An accepted edge (R353 to R356). -/
def State.ppsAccept (s : State) : State :=
  let p := s.time.pps
  let c : Int := (s.raw : Int) - signed 32 (s.rd Reg.PPS_DLY).toNat
  let e := s.phaseErr c
  let mode := s.fld Reg.PPS_CTRL 1 0
  let s := (s.wr Reg.PPS_CAPLO (BitVec.ofNat 64 (s.raw % 2 ^ 32))).wr Reg.PPS_ERR (BitVec.ofNat 64 (wrap 32 (rneInt e (2 ^ 16))))
  let step := if mode = 1 then decide (((s.fld Reg.PPS_CTRL 27 8 : Nat) : Int) * 2 ^ 16 ≤ |e|) else mode == 3 && p.first
  let left := if step && s.stepOk (-e) then 0 else e
  let s := if step then s.applyStep (-e)
    else if 2 ≤ mode then s.ppsTrim e p.prev else s
  (((s.setPps { p with
    first := false
    cap := s.raw
    prev := some left
    last := s.raw }).seqFld Reg.PPS_EDGES 31 0)).raiseEv 131

/-- PPS_EDGE: an edge of PPS_IN, of a pulse that lasts `pulse` ns: a shorter one than 100 ns is filtered out (R351). Edges
returning after a loss start detection again where POL is 0 (R356). The edge with which detection ends is accepted where it is the
edge on time (DEDUCED, assumption 125). -/
def execPpsEdge (rising : Bool) (pulse : Nat) (s : State) : Out :=
  let pol := s.fld Reg.PPS_CTRL 3 2
  if pulse < 100 then .next s
  else
    let edge := if rising then 0 else 1
    let s := if s.ppsState = 2 then s
      else if pol = 1 then s.ppsTrack 0 false
      else if pol = 2 then s.ppsTrack 1 false
      else s
    let s := if s.ppsState ≠ 2 then s.ppsDetect rising else s
    if s.ppsState ≠ 2 then .next s
    else if edge ≠ s.fld Reg.PPS_STATUS 29 29 then .next s
    else if s.time.pps.first || aboutSecond ((s.raw : Int) - s.time.pps.last) then .next s.ppsAccept
    else .next (s.satFld Reg.PPS_STATUS 15 0)

/-- PPS_LOST: no edge has been accepted for 1.5 s (R356). -/
def execPpsLost (s : State) : Out :=
  if s.ppsState = 2 ∧ s.time.pps.last + 1500000000 ≤ s.raw then
    .next (((s.setFld Reg.PPS_STATUS 31 30 3).setPps { s.time.pps with
      rise := none
      fall := none
      periods := 0
      high := 0 }).raiseEv 132)
  else s.noEvent

/-- TCXO_FAIL: the clock monitor finds TCXO_IN missing or off (R363). The failure is a Home fault (R453). -/
def execTcxoFail (s : State) : Out :=
  if s.flag Reg.TIME_STATUS 31 then s.noEvent
  else .next (((s.setFlag Reg.TIME_STATUS 31 true).raiseEv 133).fault 0x24 none none false 0)

/-! ## Launch times (R360) -/

/-- LT − R[31:0] as a signed 32-bit value. -/
def State.launchDiff (s : State) (lt : Nat) : Int := signed 32 (lt + 2 ^ 32 - s.raw % 2 ^ 32)

/-- Has a launch time come? -/
def State.launchDue (s : State) (lt : Nat) : Bool := decide (s.launchDiff lt ≤ 0)

/-- Is a release now a late one? -/
def State.launchLate (s : State) (lt : Nat) : Bool := decide (s.launchDiff lt < 0)

end Sys2Proof.Machine
end

