-- ==== Sys2Proof/Machine/Edge.lean ====
section
/-! DEFINITION. The compute side's edge units: camera ports (R367 to R373), Ethernet (R374 to R378), PCIe (R379, R380). -/

namespace Sys2Proof.Machine

/-! ## Camera ports -/

/-- Stream `f` of port `p`. -/
def State.csi (s : State) (p f : Nat) : CsiSt := Map.get CsiSt.idle s.edge.csi (4 * p + f)
/-- Replace it. -/
def State.setCsi (s : State) (p f : Nat) (c : CsiSt) : State :=
  { s with edge := { s.edge with csi := Map.put CsiSt.idle s.edge.csi (4 * p + f) c } }

/-- Address of the descriptor that stream `f` uses next. -/
def State.csiDesc (s : State) (p f : Nat) : Nat :=
  s.fld (Reg.CSI_RBASE p f) 47 5 * 32 + 32 * s.fld (Reg.CSI_RCTL p f) 10 8

/-- Read a descriptor at `a`: its frame, unless its fields break the table or name an unmapped address (R369). An address that is
mapped and waits for its scrub is not refused: what is written there is lost (R101). -/
def State.csiRead (s : State) (a vc fnum seq : Nat) : Option CsiFrame :=
  let k := devKey a
  let data := s.loadNat k 8
  let stride := s.loadNat (k + 8) 4
  let lb := s.loadNat (k + 12) 2
  let ml := s.loadNat (k + 14) 2
  let st := s.loadNat (k + 16) 8
  if data < 2 ^ 48 ∧ data % 64 = 0 ∧ stride % 64 = 0 ∧ lb ≤ stride ∧ 1 ≤ lb ∧ lb ≤ 8192 ∧ 1 ≤ ml ∧ ml ≤ 16384
      ∧ st % 32 = 0 ∧ s.loadNat (k + 24) 1 / 2 = 0 ∧ s.loadNat (k + 25) 7 = 0 ∧ s.accessOk data (stride * (ml - 1) + lb) = true
      ∧ s.accessOk st 32 = true then
    some { desc := a, data := data, stride := stride, lineBytes := lb, maxLines := ml, status := st, vc := vc, dt := 0,
           fnum := fnum, seq := seq, met := 0, lines := 0, dropped := 0, crcErr := 0, flags := 0, startAt := s.raw, lastAt := s.raw }
  else none

/-- Close the open frame of a stream with FLAGS bits `extra` (bit 0: no frame end arrived): bytes 0 to 15 of the status, OWN
cleared, NEXT advanced, CSI_FE raised (R369 to R371). Ulnal has its stamps still to write. -/
def State.csiClose (s : State) (p f extra : Nat) : State :=
  match (s.csi p f).frame with
  | none => s
  | some g =>
    let r := Reg.CSI_RCTL p f
    let bytes := leBytes 4 g.seq ++ leBytes 1 g.vc ++ leBytes 1 g.dt ++ leBytes 2 g.fnum ++ leBytes 2 g.lines
      ++ leBytes 2 g.dropped ++ leBytes 2 (min 65535 g.crcErr) ++ leBytes 1 (g.flags ||| extra) ++ leBytes 1 0
    let s := (s.storeDev g.status bytes).storeDev (g.desc + 24) [0]
    let s := (s.setFld r 10 8 ((s.fld r 10 8 + 1) % (s.fld r 2 0 + 1))).seqFld r 23 16
    (s.setCsi p f { s.csi p f with
      frame := none
      unstamped := (s.csi p f).unstamped ++ [(g.status, g.startAt, if extra % 2 = 1 then 0 else s.raw)] }).raiseEv (32 + p)

/-- A frame starts on stream `f`: an open one is closed with NO_FE; the next descriptor is taken if it is owned and in
order (R369, R372). A descriptor whose address the ring's base puts where no access is served is no free one. -/
def State.csiOpen (s : State) (p f vc fnum : Nat) : State :=
  let s := s.csiClose p f 1
  let a := s.csiDesc p f
  let c := s.csi p f
  if !s.served a 32 || s.loadNat (devKey a + 24) 1 % 2 == 0 then s.countReg (Reg.CSI_NOBUF p) 1
  else match s.csiRead a vc fnum (c.opened + 1) with
    | none => ((s.storeDev (a + 24) [0]).setFlag (Reg.CSI_STATUS p) 2 true).countReg (Reg.CSI_NOBUF p) 1
    | some g => s.setCsi p f { c with
        opened := c.opened + 1
        frame := some { g with dt := s.fld (Reg.CSI_STREAM p f) 5 0 } }

/-- Streams of port `p` in use on a virtual channel. -/
def State.csiOn (s : State) (p vc : Nat) : List Nat :=
  (List.range 4).filter fun f => s.flag (Reg.CSI_STREAM p f) 15 && s.fld (Reg.CSI_STREAM p f) 11 8 == vc

/-- Does port `p` receive? -/
def State.csiRuns (s : State) (p : Nat) : Bool := s.flag (Reg.CSI_CTRL p) 0 && s.flag (Reg.CSI_STATUS p) 0

/-- CSI_FRAME_START: a frame-start packet of a virtual channel (R369). One that no filter's channel has is unselected. -/
def execCsiFrameStart (p : Fin 12) (vc : BitVec 4) (fnum : BitVec 16) (s : State) : Out :=
  if !s.csiRuns p then s.noEvent
  else match s.csiOn p vc.toNat with
    | [] => .next (s.countReg (Reg.CSI_UNSEL p) 1)
    | l => .next (s.each l fun s f => s.csiOpen p f vc.toNat fnum.toNat)

/-- The open frame after one more line (R370, R372): written, cut at LINE_BYTES, or dropped. -/
def csiLine (g : CsiFrame) (len : Nat) (lost crcBad fixed : Bool) : CsiFrame :=
  let large := decide (g.maxLines ≤ g.met)
  let wr := !lost && !large
  { g with
    met := g.met + 1
    lines := if wr then g.lines + 1 else g.lines
    dropped := if wr then g.dropped else g.dropped + 1
    crcErr := if wr && crcBad then g.crcErr + 1 else g.crcErr
    flags := g.flags ||| (if wr && decide (g.lineBytes < len) then 2 else 0) ||| (if large then 4 else 0)
      ||| (if fixed then 8 else 0) }

/-- CSI_LINE: a long packet. `lost`: the line buffer is full or its header could not be corrected; `crcBad`: payload CRC
error; `fixed`: a header error was corrected (R370, R372). -/
def execCsiLine (p : Fin 12) (vc : BitVec 4) (dt : BitVec 6) (bs : List Byte) (lost crcBad fixed : Bool) (s : State) : Out :=
  if !s.csiRuns p then s.noEvent
  else match (s.csiOn p vc.toNat).find? fun f => s.fld (Reg.CSI_STREAM p f) 5 0 == dt.toNat with
    | none => .next (s.countReg (Reg.CSI_UNSEL p) 1)
    | some f => match (s.csi p f).frame with
      | none => .next s
      | some g =>
        let g' := csiLine g bs.length lost crcBad fixed
        let wr := g'.lines != g.lines
        let s' := if wr then s.storeDev (g.data + g.met * g.stride) (bs.take g.lineBytes)
          else s.countReg (Reg.CSI_DROP p) 1
        let s' := if wr && crcBad then s'.countReg (Reg.CSI_CRCERR p) 1 else s'
        .next (s'.setCsi p f { s'.csi p f with frame := some { g' with lastAt := s.raw } })

/-- CSI_FRAME_END: the port closes the frames of the channel (R371); a packet that no filter's channel has is unselected (R368). -/
def execCsiFrameEnd (p : Fin 12) (vc : BitVec 4) (s : State) : Out :=
  if !s.csiRuns p then s.noEvent
  else match s.csiOn p vc.toNat with
    | [] => .next (s.countReg (Reg.CSI_UNSEL p) 1)
    | l => .next (s.each l fun s f => s.csiClose p f 0)

/-- CSI_FRAME_TIMEOUT: no frame end within FTO us of the last line (R372). -/
def execCsiFrameTimeout (p : Fin 12) (f : Fin 4) (s : State) : Out :=
  match (s.csi p f).frame with
  | some g => if g.lastAt + 1000 * s.fld (Reg.CSI_CTRL p) 63 32 ≤ s.raw then .next (s.csiClose p f 1) else s.noEvent
  | none => s.noEvent

/-- CSI_SYNC_LOST: lane synchronisation is lost; the `rest` lines of each open frame that were still to come count as
dropped (R372). -/
def execCsiSyncLost (p : Fin 12) (rest : Nat) (s : State) : Out :=
  if !s.csiRuns p then s.noEvent
  else
    let s := (s.setFlag (Reg.CSI_STATUS p) 0 false).setFlag (Reg.CSI_STATUS p) 1 true
    .next (s.each (List.range 4) fun s f => match (s.csi p f).frame with
      | some g => ((s.setCsi p f { s.csi p f with frame := some { g with dropped := g.dropped + rest } }).countReg
          (Reg.CSI_DROP p) rest).csiClose p f 1
      | none => s)

/-- Is `t` a stamp that Ulnal may take of a packet that arrived at raw count `at0`: 0.2 to 5 us after it at pace ratio 1 or more, and
scaled by 1/ρ below that (R22, R359)? A pace not yet measured counts as 1 (DESIGN CHOICE, assumption 127). -/
def State.stampOk (s : State) (at0 t : Nat) : Bool :=
  let rate := s.fld Reg.PACE_COMMON 13 0
  let rho := if rate = 0 then 1300 else min 1300 rate
  decide (at0 * rho + 200 * 1300 ≤ t * rho) && decide (t * rho ≤ at0 * rho + 5000 * 1300) && decide (t ≤ s.raw)

/-- Does an access to `n` bytes from `a` touch a buffer that the Pip engine is reading? -/
def State.pipReads (s : State) (a n : Nat) : Bool :=
  match s.pip.running with
  | some r =>
    let q := pipRecOf r.image
    spansMeet (a, n) (q.src, q.stride * q.h)
  | none => false

/-- Ulnal overwrites the oldest capture that has not been processed, for want of a free buffer (R34, R372): every descriptor of the
ring is used, so that the oldest is the next one; it is handed to the port again, and counted in the job's accounting record. The
buffer of a pass in progress is left alone. -/
def State.csiOverwrite (s : State) (p f j : Nat) : State :=
  let a := s.csiDesc p f
  let free := (List.range (s.fld (Reg.CSI_RCTL p f) 2 0 + 1)).any fun i =>
    s.loadNat (devKey (s.fld (Reg.CSI_RBASE p f) 47 5 * 32 + 32 * i) + 24) 1 % 2 == 1
  let span := s.loadNat (devKey a + 8) 4 * s.loadNat (devKey a + 14) 2
  if free || (s.csi p f).frame.isSome || s.pipReads (s.loadNat (devKey a) 8) span || !s.served a 32 then s
  else (s.storeDev (a + 24) [1]).account j 0x28 1

/-- CSI_STAMP: Ulnal writes both stamps of the oldest closed frame without them and raises the granted source (R359, R371); of a frame
that no frame end closed, the second has no packet to keep to. `room`: it then makes room for the next capture (R34). Not while
the compute side is down. -/
def execCsiStamp (p : Fin 12) (f : Fin 4) (ts : CsiTimes) (src : BitVec 9) (room : Bool) (s : State) : Out :=
  match (s.csi p f).unstamped with
  | [] => s.noEvent
  | a :: rest =>
    if 256 ≤ src.toNat ∧ s.flag (Reg.EVT_SRC src.toNat) 48 ∧ s.gateDown = false ∧ s.stampOk a.2.1 ts.fs.toNat
        ∧ (a.2.2 = 0 ∨ s.stampOk a.2.2 ts.fe.toNat) then
      let s := ((s.storeDev (a.1 + 16) (leBytes 8 ts.fs.toNat ++ leBytes 8 ts.fe.toNat)).setCsi p f { s.csi p f with
        unstamped := rest }).raiseEv src.toNat
      .next (if room then s.csiOverwrite p f (s.fld (Reg.EVT_SRC src.toNat) 47 44) else s)
    else s.noEvent

/-- CSI_RCTL written: SIZE, and NEXT becomes 0; ignored while the filter is in use (R373). -/
def State.rctlWrite (s : State) (p f v : Nat) : State :=
  if s.flag (Reg.CSI_STREAM p f) 15 then s
  else (s.setFld (Reg.CSI_RCTL p f) 2 0 v).setFld (Reg.CSI_RCTL p f) 10 8 0

/-- CSI_RCTL_WRITE (R373). -/
def execCsiRctlWrite (p : Fin 12) (f : Fin 4) (v : Word) (s : State) : Out := .next (s.rctlWrite p f v.toNat)

/-- CSI_LANE_SYNC: the configured lanes are synchronised (R373). -/
def execCsiLaneSync (p : Fin 12) (s : State) : Out :=
  if s.flag (Reg.CSI_CTRL p) 0 then .next (s.setFlag (Reg.CSI_STATUS p) 0 true) else s.noEvent

/-! ## Ethernet -/

/-- Port `n`. -/
def State.eth (s : State) (n : Nat) : EthSt := Map.get EthSt.idle s.edge.eth n
/-- Replace it. -/
def State.setEth (s : State) (n : Nat) (e : EthSt) : State :=
  { s with edge := { s.edge with eth := Map.put EthSt.idle s.edge.eth n e } }

/-- Device address of descriptor number `i` of a ring whose base and control registers are `b` and `c`. -/
def State.ringAt (s : State) (b c i : Nat) : Nat := s.fld b 47 5 * 32 + 32 * (i % 2 ^ s.fld c 51 48)

/-- TAIL − HEAD as a signed 16-bit difference. -/
def State.ringLevel (s : State) (c : Nat) : Int := signed 16 (s.fld c 31 16 + 65536 - s.fld c 15 0)

/-- HEAD advances. -/
def State.ringStep (s : State) (c : Nat) : State := s.seqFld c 15 0

/-- Bits per microsecond of port `n`. -/
def State.ethRate (s : State) (n : Nat) : Nat := if s.flag (Reg.ETH_CTRL n) 1 then 25000 else 10000

/-- Does the port's link carry frames? -/
def State.ethUp (s : State) (n : Nat) : Bool := s.flag (Reg.ETH_CTRL n) 0 && s.flag (Reg.ETH_STATUS n) 0

/-- Time in ns for which the gate of queue `q` stays open from `t` ns into the cycle on; none where it is shut. `fuel`
bounds the entries looked at; a gate open through a whole cycle stays open. -/
def gateOpenFor (l : List (Nat × Nat)) (q : Nat) : Nat → Nat → Option Nat
  | 0, _ => some (2 ^ 40)
  | k + 1, t =>
    match l.foldl (fun (acc : Option (Nat × Nat) × Nat) e =>
        (if acc.1.isNone && decide (t < acc.2 + e.2) then some (e.1, acc.2 + e.2 - t) else acc.1, acc.2 + e.2)) (none, 0) with
    | (some (g, left), total) =>
      if bitOf g q then
        match gateOpenFor l q k (if total = 0 then 0 else (t + left) % total) with
        | some m => some (left + m)
        | none => some left
      else none
    | (none, _) => none

/-- Cycle time of a gate list: the sum of its intervals (R378). -/
def gclTime (l : List (Nat × Nat)) : Nat := l.foldl (fun a x => a + x.2) 0

/-- May a frame of `len` bytes leave queue `q` now: its gate is open and stays so until it ends (R375)? No gate acts
before the list's first cycle has started. -/
def State.ethGate (s : State) (n q len : Nat) : Bool :=
  let e := s.eth n
  let total := gclTime e.gcl
  match e.cycle with
  | none => true
  | some t0 =>
    if e.gcl.isEmpty || total == 0 then true
    else match gateOpenFor e.gcl q (2 * e.gcl.length) ((s.raw - t0) % total) with
      | some d => decide ((len + 12) * 8 * 1000 ≤ d * s.ethRate n)
      | none => false

/-- The PTP event frame in these bytes, if they are one (R358): messageType, domain, sequenceId. -/
def ptpOf (bs : List Byte) : Option (Nat × Nat × Nat) :=
  let b := fun i => (bs.getD i 0).toNat
  let o := if b 12 = 0x81 ∧ b 13 = 0 then 4 else 0
  if b (12 + o) = 0x88 ∧ b (13 + o) = 0xF7 ∧ b (14 + o) % 16 < 4 then
    some (b (14 + o) % 16, b (18 + o), b (44 + o) * 256 + b (45 + o))
  else none

/-- A stamp enters a FIFO of 64, or is dropped and counted (R358). -/
def State.ethStamp (s : State) (n : Nat) (tx : Bool) (raw : Nat) (bs : List Byte) : State :=
  match ptpOf bs with
  | none => s
  | some m =>
    let e := s.eth n
    let st : EthStamp := { raw := raw, mtype := m.1, domain := m.2.1, seqId := m.2.2 }
    if 64 ≤ (if tx then e.tx else e.rx).length then s.countReg (Reg.ETH_TSDROP n) 1
    else s.setEth n (if tx then { e with tx := e.tx ++ [st] } else { e with rx := e.rx ++ [st] })

/-- Is queue `q` of port `n` shaped (R378)? -/
def State.ethShaped (s : State) (n q : Nat) : Bool := decide (4 ≤ q) && decide (q < 8) && s.flag (Reg.ETH_CBS n (q - 4)) 63

/-- idleSlope of queue `q` in kbit/s. -/
def State.ethSlope (s : State) (n q : Nat) : Nat := s.fld (Reg.ETH_CBS n (q - 4)) 31 0

/-- Is a frame of queue `q` being sent? -/
def EthSt.sends (e : EthSt) (q : Nat) : Bool := e.sending.any fun x => x.1 == q

/-- Has queue `q` a released frame? -/
def EthSt.holds (e : EthSt) (q : Nat) : Bool := Map.get 0 e.released q != 0

/-- Credit of queue `q` after `dt` ns in which nothing changed, in millionths of a bit (IEEE 802.1Q: it falls by sendSlope, which is
idleSlope less the port's rate, while the queue sends; it rises by idleSlope while a released frame waits, and while it is below 0;
a queue with nothing to send holds no credit above 0). PRESUMED (assumption 128). -/
def State.ethCredit (s : State) (n : Nat) (e : EthSt) (q dt : Nat) : Int :=
  let c := Map.get 0 e.credit q
  let slope : Int := s.ethSlope n q
  if !s.ethShaped n q then 0
  else if e.sends q then c + (slope - s.ethRate n * 1000) * dt
  else if e.holds q then c + slope * dt
  else min 0 (c + slope * dt)

/-- The credits at raw count `t`. -/
def State.ethAccrue (s : State) (n : Nat) (e : EthSt) (t : Nat) : EthSt :=
  { e with
    credit := (List.range 8).foldl (fun m q => Map.put 0 m q (s.ethCredit n e q (t - e.creditAt))) e.credit
    creditAt := t }

/-- When the port may begin the released frame of queue `q`, if nothing else is sent: at once, or once its credit is back at 0. -/
def State.ethReady (s : State) (n : Nat) (e : EthSt) (q : Nat) : Option Nat :=
  let c := Map.get 0 e.credit q
  let slope := s.ethSlope n q
  if !e.holds q then none
  else if !s.ethShaped n q || decide (0 ≤ c) then some e.creditAt
  else if slope = 0 then none
  else some (e.creditAt + ((-c).toNat + slope - 1) / slope)

/-- The first frame that an idle port begins, from raw count `t` on and not after `now`: of the queues that may, the highest
(R375). -/
def State.ethBegin (s : State) (n : Nat) (e : EthSt) (t now : Nat) : EthSt :=
  let e := s.ethAccrue n e t
  match ((List.range 8).filterMap (s.ethReady n e)).min? with
  | some b => if b ≤ now then
      let e := s.ethAccrue n e b
      { e with sending := ((List.range 8).filter fun q => s.ethReady n e q == some b).getLast?.map fun q => (q, b) }
    else e
  | none => e

/-- Bring port `n` up to the present: an idle port begins a frame, but not while a pause holds it (R374, R375). -/
def State.ethSettle (s : State) (n : Nat) : State :=
  let e := s.eth n
  let t := max e.creditAt e.paused
  let e := if e.sending.isNone && decide (t ≤ s.raw) then s.ethBegin n e t s.raw else e
  s.setEth n (s.ethAccrue n e s.raw)

/-- A frame has reached the head of queue `q`: did it do so after its launch time (R360)? -/
def State.ethHead (s : State) (n q : Nat) : State :=
  let c := Reg.ETH_TXCTL n q
  let a := s.ringAt (Reg.ETH_TXBASE n q) c (s.fld c 15 0)
  let late := s.flag c 63 && decide (0 < s.ringLevel c) && s.devNat (a + 10) 1 % 2 == 1 && s.launchLate (s.devNat (a + 12) 4)
  s.setEth n { s.eth n with headLate := putBits (s.eth n).headLate q q (if late then 1 else 0) }

/-- The head frame of queue `q` is released, or passed over where its LEN is out of range (R375, R377). Its release is late if it
came to the head after its launch time, or leaves after it: the first edge of the 2.56 ns clock at or after it is on time (R360). -/
def State.ethRelease (s : State) (n q : Nat) : Option State :=
  let c := Reg.ETH_TXCTL n q
  let a := s.ringAt (Reg.ETH_TXBASE n q) c (s.fld c 15 0)
  let len := s.devNat (a + 8) 2
  let lt := s.devNat (a + 12) 4
  let timed := s.devNat (a + 10) 1 % 2 == 1
  let behind := bitOf (s.eth n).headLate q
  if !s.ethUp n || !s.flag c 63 || !decide (0 < s.ringLevel c) || !s.served a 32 || (s.eth n).holds q then none
  else if len < 60 ∨ 9212 < len then some (((s.storeDev (a + 24) [12]).ringStep c).ethHead n q)
  else if (!timed || behind || s.launchDue lt) && s.ethGate n q len then
    let late := timed && (behind || decide (s.launchDiff lt < -2))
    let s := (if late then s.countReg (Reg.ETH_LATE n) 1 else s).ethSettle n
    let e := s.eth n
    some ((s.setEth n { e with
      released := Map.put 0 e.released q (s.raw + 1)
      late := putBits e.late q q (if late then 1 else 0)
      sending := e.sending.filter fun x => !(x.2 == s.raw && decide (x.1 < q)) }).ethSettle n)
  else none

/-- ETH_TX_RELEASE (R375). -/
def execEthTxRelease (n : BitVec 2) (q : BitVec 3) (s : State) : Out :=
  match s.ethRelease n.toNat q.toNat with
  | some t => .next t
  | none => s.noEvent

/-- The frame of queue `q` of port `n` has been sent: TSTAMP, then STATUS, then HEAD (R377); its stamp is `sfd` (R358). -/
def State.ethSent (s : State) (n q : Nat) (err : Bool) (sfd : Nat) : State :=
  let c := Reg.ETH_TXCTL n q
  let a := s.ringAt (Reg.ETH_TXBASE n q) c (s.fld c 15 0)
  let e := s.eth n
  let data := s.devNat a 8
  let frame := (List.range (min 64 (s.devNat (a + 8) 2))).map fun i => s.devByte (data + i)
  let s := (s.storeDev (a + 16) (leBytes 8 (Map.get 0 e.released q - 1))).storeDev (a + 24)
    (leBytes 1 (1 + (if bitOf e.late q then 2 else 0) + if err then 4 else 0))
  let s := ((s.ringStep c).setEth n { e with
    released := Map.put 0 e.released q 0
    sending := none }).ethHead n q
  (s.ethSettle n).ethStamp n true sfd frame

/-- ETH_TX_DONE: the frame of queue `q`, which the port was sending, has been sent; its start-frame delimiter crossed at raw count
`sfd` (R358, R375, R377). A frame once begun is never pre-empted (R374). `err`: it was sent with an error. -/
def execEthTxDone (n : BitVec 2) (q : BitVec 3) (r : EthSent) (s : State) : Out :=
  let t := s.ethSettle n.toNat
  match (t.eth n.toNat).sending with
  | some x =>
    if x.1 = q.toNat ∧ x.2 ≤ r.sfd.toNat ∧ r.sfd.toNat ≤ s.raw then .next (t.ethSent n.toNat q.toNat r.err r.sfd.toNat) else s.noEvent
  | none => s.noEvent

/-- The time that a pause frame asks for, in units of 512 bit times (IEEE 802.3, Annex 31B). -/
def pauseOf (bs : List Byte) : Option Nat :=
  if bs.take 6 = [0x01, 0x80, 0xC2, 0, 0, 0x01] ∧ (bs.drop 12).take 4 = [0x88, 0x08, 0, 0x01] then
    some ((bs.getD 16 0).toNat * 256 + (bs.getD 17 0).toNat)
  else none

/-- A pause frame holds the transmitter for its time from now on; a frame being sent goes on (R374). -/
def State.ethPause (s : State) (n k : Nat) : State :=
  let s := s.ethSettle n
  (s.setEth n { s.eth n with paused := s.raw + (k * 512 * 1000 + s.ethRate n - 1) / s.ethRate n }).ethSettle n

/-- A frame goes to ring `r`, or is dropped for want of a slot (R376, R377). -/
def State.ethDeliver (s : State) (n r : Nat) (bs : List Byte) (bad tagged full : Bool) : State :=
  let c := Reg.ETH_RXCTL n r
  let a := s.ringAt (Reg.ETH_RXBASE n r) c (s.fld c 15 0)
  let e := s.eth n
  let data := s.devNat a 8
  if full || !s.flag c 63 || !decide (0 < s.ringLevel c) || !s.served a 32 || decide (s.devNat (a + 8) 2 < bs.length)
      || !s.served data bs.length then
    (s.countReg (Reg.ETH_RXDROP n) 1).setEth n { e with drops := Map.put 0 e.drops r (Map.get 0 e.drops r + 1) }
  else
    let st := leBytes 2 bs.length ++ leBytes 1 ((if bad then 1 else 0) + if tagged then 2 else 0) ++ leBytes 1 0
      ++ leBytes 4 (Map.get 0 e.drops r) ++ leBytes 8 s.raw
    (((s.storeDev data bs).storeDev (a + 16) st).ringStep c).setEth n { e with drops := Map.put 0 e.drops r 0 }

/-- ETH_RX_FRAME: a frame has arrived, without its FCS (R374, R376, R377). A frame shorter than 64 bytes or longer than 9,216 with its
FCS is not received. A good pause frame goes to the transmitter and to no ring. `sfd`: the raw count at its start-frame delimiter;
`full`: the receive FIFO was full. -/
def execEthRxFrame (n : BitVec 2) (bs : List Byte) (bad full : Bool) (sfd : Word) (s : State) : Out :=
  let n := n.toNat
  if !s.ethUp n then s.noEvent
  else if bs.length < 60 ∨ 9212 < bs.length then .next s
  else match if bad then none else pauseOf bs with
    | some k => .next (s.ethPause n k)
    | none =>
      let tagged := bs.getD 12 0 == 0x81 && bs.getD 13 0 == 0
      let r := if tagged then (bs.getD 14 0).toNat / 32 else 0
      .next ((s.ethStamp n false sfd.toNat bs).ethDeliver n r bs bad tagged full)

/-- A read of ETH_TSRX0 or ETH_TSTX0 latches the oldest entry; its raw count, 0 where there is none. -/
def State.tsRead0 (s : State) (n : Nat) (tx : Bool) : State × Nat :=
  let e := s.eth n
  let x := if tx then e.tx.head? else e.rx.head?
  (s.setEth n (if tx then { e with txLatch := x } else { e with rxLatch := x }), match x with
    | some t => t.raw
    | none => 0)

/-- ETH_TS_READ0 (R378). -/
def execEthTsRead0 (n : BitVec 2) (tx : Bool) (s : State) : Out :=
  let r := s.tsRead0 n.toNat tx
  .next (r.1.answer (okNat 8 r.2))

/-- A read of ETH_TSRX1 or ETH_TSTX1 returns the rest of the latched entry and removes it. -/
def State.tsRead1 (s : State) (n : Nat) (tx : Bool) : State × Nat :=
  let e := s.eth n
  match if tx then e.txLatch else e.rxLatch with
  | some t =>
    let drop := fun (l : List EthStamp) => if l.head? = some t then l.tail else l
    (s.setEth n (if tx then { e with
        txLatch := none
        tx := drop e.tx }
      else { e with
        rxLatch := none
        rx := drop e.rx }), 2 ^ 63 + t.mtype * 2 ^ 32 + t.domain * 2 ^ 24 + t.seqId)
  | none => (s, 0)

/-- ETH_TS_READ1 (R378). -/
def execEthTsRead1 (n : BitVec 2) (tx : Bool) (s : State) : Out :=
  let r := s.tsRead1 n.toNat tx
  .next (r.1.answer (okNat 8 r.2))

/-- The gate list as its registers hold it: the states and interval of each entry in use. -/
def State.gclOf (s : State) (n : Nat) : List (Nat × Nat) :=
  (List.range (min 256 (s.fld (Reg.ETH_GCLCTL n) 8 0))).map fun i =>
    (s.fld (Reg.ETH_GCL n i) 39 32, s.fld (Reg.ETH_GCL n i) 31 0)

/-- The last point BASE + k × T at or before `t`; BASE itself before the first. -/
def gclPoint (b T t : Nat) : Nat := if T = 0 ∨ t < b then b else b + (t - b) / T * T

/-- Cycle time of the list in force, or of the list that waits where none is. -/
def State.gclStep (s : State) (n : Nat) : Nat :=
  if gclTime (s.eth n).gcl = 0 then gclTime (s.gclOf n) else gclTime (s.eth n).gcl

/-- The cycle start that comes next, on the grid of the list in force, or of the list that waits where none is (R378). -/
def State.gclNext (s : State) (n : Nat) : Nat :=
  let b := (s.rd (Reg.ETH_GCLBASE n)).toNat
  let T := s.gclStep n
  match (s.eth n).cycle with
  | none => b
  | some t => if t < b then b else gclPoint b T t + T

/-- ETH_GCL_CYCLE: a cycle of the list starts and takes the changes that wait (R378). -/
def execEthGclCycle (n : BitVec 2) (s : State) : Out :=
  let n := n.toNat
  if s.flag (Reg.ETH_CTRL n) 0 ∧ s.gclNext n ≤ s.raw then
    .next ((s.setEth n { s.eth n with
      gcl := s.gclOf n
      cycle := some (gclPoint (s.rd (Reg.ETH_GCLBASE n)).toNat (s.gclStep n) s.raw) }).setFlag (Reg.ETH_GCLCTL n) 9 false)
  else s.noEvent

/-- ETH_GCLi or ETH_GCLCTL written: the change waits for a cycle start (R378). -/
def State.gclPending (s : State) (n : Nat) : State := s.setFlag (Reg.ETH_GCLCTL n) 9 true

/-- ETH_LINK: the link comes up or goes down (R378, R504). -/
def execEthLink (n : BitVec 2) (up : Bool) (s : State) : Out :=
  let a := Reg.ETH_STATUS n.toNat
  if s.flag (Reg.ETH_CTRL n.toNat) 0 ∧ s.flag a 0 ≠ up then
    let s := s.setFlag a 0 up
    .next ((if up then s else s.setFlag a 1 true).raiseEv (28 + n.toNat))
  else s.noEvent

/-- ETH_TXCTL or ETH_RXCTL written: TAIL; N only while EN is 0; EN only with N from 4 to 12 (R378). -/
def State.ringWrite (s : State) (c v : Nat) : State :=
  let s := s.setFld c 31 16 (bits v 31 16)
  let s := if s.flag c 63 then s else s.setFld c 51 48 (bits v 51 48)
  let n := s.fld c 51 48
  s.setFlag c 63 (bitOf v 63 && decide (4 ≤ n) && decide (n ≤ 12))

/-- Does a frame stand at the head of transmit queue `q`? -/
def State.ethHas (s : State) (n q : Nat) : Bool :=
  s.flag (Reg.ETH_TXCTL n q) 63 && decide (0 < s.ringLevel (Reg.ETH_TXCTL n q))

/-- ETH_TXCTL written: a frame that now comes to the head of its queue meets its launch time there (R360, R378). -/
def State.txRingWrite (s : State) (n q v : Nat) : State :=
  let t := s.ringWrite (Reg.ETH_TXCTL n q) v
  if t.ethHas n q && !s.ethHas n q then t.ethHead n q else t

/-- EN and IDLESLOPE of queue `q`. -/
def State.setCbs (s : State) (n q v : Nat) : State := ((s.setFld (Reg.ETH_CBS n (q - 4)) 31 0 (bits v 31 0)).setFlag (Reg.ETH_CBS n (q - 4)) 63 (bitOf v 63))

/-- ETH_CBS written: the credits are counted up to now at the old slope (R378). -/
def State.cbsWrite (s : State) (n q v : Nat) : State := (s.ethSettle n).setCbs n q v

/-! ## PCIe -/

/-- The link is up, in endpoint mode: ROOT as it stood when the link started (R380). -/
def State.pcieEnd (s : State) : Bool := s.flag Reg.PCIE_STATUS 0 && !s.edge.root
/-- The link is up, in root-port mode. -/
def State.pcieRoot (s : State) : Bool := s.flag Reg.PCIE_STATUS 0 && s.edge.root

/-- PCIE_LINK_UP: the link starts at a rate and width within the limits of PCIE_CTRL, in the mode that ROOT gives (R379, R380). -/
def execPcieLinkUp (rate : BitVec 3) (width : BitVec 2) (s : State) : Out :=
  if s.flag Reg.PCIE_CTRL 0 ∧ !s.flag Reg.PCIE_STATUS 0 ∧ rate.toNat ≤ min 4 (s.fld Reg.PCIE_CTRL 4 2)
      ∧ width.toNat ≤ s.fld Reg.PCIE_CTRL 6 5 then
    let s := { s with edge := { s.edge with root := s.flag Reg.PCIE_CTRL 1 } }
    .next (((s.setFld Reg.PCIE_STATUS 7 5 rate.toNat).setFld Reg.PCIE_STATUS 4 3 width.toNat).setFlag Reg.PCIE_STATUS 0 true)
  else s.noEvent

/-- PCIE_DOWN: a surprise link-down; the `n` outstanding requests complete with an error (R379). -/
def execPcieDown (n : Nat) (s : State) : Out :=
  if s.flag Reg.PCIE_STATUS 0 then
    .next ((((s.setFlag Reg.PCIE_STATUS 0 false).setFlag Reg.PCIE_STATUS 1 true).countReg Reg.PCIE_ERR n).raiseEv 26)
  else s.noEvent

/-- PCIE_DOORBELL: a host write to a doorbell (R380). -/
def execPcieDoorbell (d : BitVec 6) (s : State) : Out :=
  if s.pcieEnd then .next ((s.setFlag Reg.PCIE_DBPEND d.toNat true).raiseEv 27) else s.noEvent

/-- PCIE_MSIX written: the vector goes to the host, in endpoint mode. -/
def State.msix (s : State) (v : Nat) : State := if s.pcieEnd then s.answer (.ok [BitVec.ofNat 8 (v % 32)]) else s

/-- PCIE_MSIX (R380). -/
def execPcieMsix (v : Word) (s : State) : Out := .next (s.msix v.toNat)

/-- Does a span lie wholly in the Board or wholly in mapped HBM? -/
def regionOk (a n : Nat) : Bool :=
  (boardBase ≤ a && a + n ≤ boardBase + 0x1000000) || decide (a + n ≤ hbmBytes)

/-- PCIE_BAR0WIN written: EN only for a mapped region (R380). -/
def State.barWrite (s : State) (v : Nat) : State :=
  let a := bits v 47 24 * 2 ^ 24
  (s.setFld Reg.PCIE_BAR0WIN 47 24 (bits v 47 24)).setFlag Reg.PCIE_BAR0WIN 63 (bitOf v 63 && regionOk a 0x1000000)

/-- PCIE_BAR0WIN_WRITE (R380). -/
def execPcieBar0winWrite (v : Word) (s : State) : Out := .next (s.barWrite v.toNat)

/-- Where a host request to offset `off` goes: BAR0's region, or BAR2's mailbox RAM. -/
def State.pcieTarget (s : State) (bar2 : Bool) (off n : Nat) : Option Nat :=
  if bar2 then (if 0x1000 ≤ off ∧ off + n ≤ 0x2000 then some (0x7F00181000 + (off - 0x1000)) else none)
  else if s.flag Reg.PCIE_BAR0WIN 63 ∧ off + n ≤ 0x1000000 then some (s.fld Reg.PCIE_BAR0WIN 47 24 * 2 ^ 24 + off)
  else none

/-- A transfer of `n` bytes, or of the bytes given, at device address `a`: a bus error makes it complete with an error (R68, R379). -/
def State.pcieMove (s : State) (a n : Nat) (data : List Byte) : State :=
  if !s.served a (if data.isEmpty then n else data.length) then (s.countReg Reg.PCIE_ERR 1).answer .busError
  else if data.isEmpty then s.answer (.ok (s.load (devKey a) n))
  else (s.store (devKey a) data).answer (.ok [])

/-- PCIE_HOST_REQUEST. As an endpoint: the host reads `n` bytes (data empty) or writes bytes at an offset of BAR0 or of BAR2's mailbox
RAM. While BAR0 has no window its requests complete as unsupported; other BAR2 offsets read 0. As a root port: a Board DMA descriptor
moves `n` bytes from device address `off` to the downstream device, or the device's bytes to that address (R379, R380). -/
def execPcieHostRequest (bar2 : Bool) (off n : Nat) (data : List Byte) (s : State) : Out :=
  if s.pcieRoot then .next (s.pcieMove off n data)
  else if !s.pcieEnd then s.noEvent
  else match s.pcieTarget bar2 off (if data.isEmpty then n else data.length) with
    | some a => .next (s.pcieMove a n data)
    | none =>
      if bar2 then .next (s.answer (.ok (if data.isEmpty then List.replicate n 0 else [])))
      else .next ((s.countReg Reg.PCIE_ERR 1).answer .denied)

end Sys2Proof.Machine
end

