-- ==== Sys2Proof/Machine/Move.lean ====
section
/-! DEFINITION. The moves MOV and MOVZ (R131, R132). -/

namespace Sys2Proof.Machine

/-- LIFE 1 of the buffer a descriptor names. -/
def State.descLife1 (s : State) (f n : Nat) : Bool :=
  match s.findBuf (s.face f).job (s.desc f n).bufId with
  | some (_, b) => b.life1
  | none => false

/-- DVF or SVF is in order: 7 for a LIFE 1 buffer, else 7 or a vFace of the job (R132). -/
def instanceOk (s : State) (f n v : Nat) : Bool :=
  if s.descLife1 f n then v == 7 else (vfNamed s f v).isSome

/-- The Face that vFace `v` of the job of Face `f` is bound to. -/
def State.faceOf (s : State) (f v : Nat) : Nat :=
  if v = (s.face f).vf then f else s.fld (Reg.PLACE_VMAP (s.face f).job) (4 * v + 3) (4 * v)

/-- The tensor of descriptor `n` in the instance that a DVF or SVF value names. -/
def State.moveRef (s : State) (f n v : Nat) : TRef :=
  let w := (vfNamed s f v).getD (s.face f).vf
  s.trefAt f (s.faceOf f w) w n

/-- The vFace whose instance a move writes, where it is another one (R132). -/
def moveRemote (s : State) (f n v : Nat) : Option Nat :=
  if s.descLife1 f n then none
  else match vfNamed s f v with
    | some w => if w = (s.face f).vf then none else some w
    | none => none

/-- Does the buffer of descriptor `n` lie on a peer (R418)? -/
def State.descRemote (s : State) (f n : Nat) : Bool :=
  match s.findBuf (s.face f).job (s.desc f n).bufId with
  | some (_, b) => b.tier == 3
  | none => false

/-- Join spans that follow each other without a gap. -/
def joinSpans : List (Nat × Nat) → List (Nat × Nat)
  | [] => []
  | a :: l => match joinSpans l with
    | [] => [a]
    | b :: m => if a.1 + a.2 = b.1 then (a.1, a.2 + b.2) :: m else a :: b :: m

/-- Cut a span into pieces of at most 4 KiB (R131, R419). -/
def cutSpan (a : Nat × Nat) : List (Nat × Nat) :=
  (List.range ((a.2 + 4095) / 4096)).map fun i => (a.1 + 4096 * i, min 4096 (a.2 - 4096 * i))

/-- The pieces of a transfer over these spans. -/
def piecesOf (l : List (Nat × Nat)) : List (Nat × Nat) := (joinSpans l).flatMap cutSpan

/-- Keys that writing the whole tensor touches. -/
def TRef.writeSpans (s : State) (t : TRef) : List (Nat × Nat) :=
  (List.range t.d.rows).flatMap fun r => (t.pieces s r).filterMap fun p => match p.1 with
    | some k => if p.2.1 then some (k, rowBytes t.d.fmt p.2.2) else none
    | none => none

/-- Keys of the elements of a tensor that are present. -/
def TRef.dataSpans (s : State) (t : TRef) : List (Nat × Nat) :=
  (List.range t.d.rows).flatMap fun r => (t.pieces s r).filterMap fun p => p.1.map fun k => (k, rowBytes t.d.fmt p.2.2)

/-- A tensor kept for the end of a get. -/
def State.keepRef (s : State) (f : Nat) (t : TRef) : EflRef := ⟨t.idx, (s.face f).dReg t.idx, t.base, t.pt⟩

/-- Bytes that a get will write, not arrived yet: free values until they are (R115). -/
def awaited (n : Nat) : List (Nat × Nat) → List Fx
  | [] => []
  | a :: l => .store a.1 (freeBytes [a] n a.1 (List.replicate a.2 0)) :: awaited (n + a.2) l

/-- Bytes in a list of spans. -/
def spanSum (l : List (Nat × Nat)) : Nat := l.foldl (fun n a => n + a.2) 0

/-- A remote source is followed by a destination of LIFE 1 in the device's own memory (R418). -/
def remoteOk (s : State) (f : Nat) (o : FmtM) : Chk :=
  if s.descRemote f o.ds.toNat then
    .need (s.descLife1 f o.dd.toNat && !s.descRemote f o.dd.toNat)
  else .pass

/-- The move that has just entered the window of Face `f` goes to or from a peer: its pieces wait to start (R419,
R421). -/
def State.openXfer (s : State) (f dev base : Nat) (put : Bool) (pieces : List (Nat × Nat)) (dst src : Option EflRef) : State :=
  let fs := s.face f
  let fx := match fs.window.find? fun e => e.seq + 1 == fs.seq with
    | some e => e.fx
    | none => []
  let x : EflXfer :=
    { face := f, seq := fs.seq - 1, put := put, dev := dev, waiting := pieces, started := 0, unanswered := 0, win := 0,
      gen := 0, inc := 0, base := base, dst := dst, src := src, issued := fx }
  { s with efl := { s.efl with xfers := s.efl.xfers ++ [x] } }

/-- Device of a key in a peer's memory. -/
def keyDev (k : Nat) : Nat := (k - peerKey 0) / 0x1000000000000

/-- A move enters the window. `remote` opens its transfer where one side lies on a peer. -/
def moveOut (s : State) (f : Fin 6) (h : Hdr) (o : FmtM) (ins : Instr) (chk : Chk) (uses : List (Nat × Bool))
    (reads : State → List (Nat × Nat)) (free : Nat) (compute : State → TOut) (remote : State → State) : Out :=
  let r := (moveRemote s f o.dd.toNat o.dvf.toNat).map fun w => (w, s.faceOf f w)
  issueTensor s f h
    { ins := ins, unit := .mover, dd := o.dd.toNat, uses := uses, isN := false, order := .loose, scratch := [] }
    chk reads (fun _ => free) compute
    (fun t => let fs := t.face f
      remote (t.setFace f { fs with
        window := fs.window.map fun e => if e.seq + 1 = fs.seq then { e with remote := r } else e }))

/-- The transfer of a put to the tensor `d`, if it lies on a peer. -/
def State.putXfer (s : State) (f : Nat) (d : TRef) (t : State) : State :=
  if s.descRemote f d.idx then
    t.openXfer f (keyDev d.base) d.base true (piecesOf (d.writeSpans s)) none none
  else t

/-- Checks of MOV. -/
def movChk (s : State) (f : Nat) (o : FmtM) : Chk :=
  let d := s.desc f o.dd.toNat
  let a := s.desc f o.ds.toNat
  Chk.all [
    .need (o.rsv == 0 && instanceOk s f o.dd.toNat o.dvf.toNat && instanceOk s f o.ds.toNat o.svf.toNat),
    checkDesc s f o.dd.toNat 0 fun _ => true,
    checkDesc s f o.ds.toNat 1 fun _ => true,
    .need (d.fmt == a.fmt && d.sameExt a),
    remoteOk s f o]

/-- MOV: copies every logical element of DS to the same logical index of DD (R131). The spec states no result where the
two overlap: there the codes written are free values. From a peer's buffer it is a get: what it writes arrives later
(R421). -/
def execMov (f : Fin 6) (h : Hdr) (o : FmtM) (s : State) : Out :=
  let d := s.desc f o.dd.toNat
  let dst := s.moveRef f o.dd.toNat o.dvf.toNat
  let src := s.moveRef f o.ds.toNat o.svf.toNat
  let hit := anyMeet (dst.spans s) (src.spans s)
  let get := s.descRemote f o.ds.toNat
  let chk := movChk s f o
  let uses := [(o.ds.toNat, false), (o.dd.toNat, true)]
  if get then
    moveOut s f h o (.mov f h o) chk uses (fun _ => []) (spanSum (dst.writeSpans s))
      (fun v => ⟨some dst, [], awaited v.fresh (dst.writeSpans s), 0, [], (0, 0)⟩)
      (fun t => t.openXfer f (keyDev src.base) src.base false (piecesOf (src.dataSpans s)) (some (s.keepRef f dst))
        (some (s.keepRef f src)))
  else
    moveOut s f h o (.mov f h o) chk uses (fun s => (s.moveRef f o.ds.toNat o.svf.toNat).spans s) (if hit then 8 * d.count else 0)
      (fun v =>
        let rows := (v.moveRef f o.ds.toNat o.svf.toNat).rowsOf v
        let dst := v.moveRef f o.dd.toNat o.dvf.toNat
        let t : TOut := ⟨some dst, numbered ((List.range d.rows).map fun r => rows.getD r []), [], 0, [], (0, 0)⟩
        if hit then t.freed v.fresh else t)
      (s.putXfer f dst)

/-- Checks of MOVZ. -/
def movzChk (s : State) (f : Nat) (o : FmtM) : Chk :=
  (Chk.all [
      .need (o.rsv == 0 && o.ds == 0 && o.svf == 0 && instanceOk s f o.dd.toNat o.dvf.toNat),
      checkDesc s f o.dd.toNat 0 dstOk])

/-- MOVZ: writes the zero code to every logical element of DD (R131). -/
def execMovz (f : Fin 6) (h : Hdr) (o : FmtM) (s : State) : Out :=
  let d := s.desc f o.dd.toNat
  moveOut s f h o (.movz f h o)
    (movzChk s f o)
    [(o.dd.toNat, true)] (fun _ => []) 0
    (fun v => ⟨some (v.moveRef f o.dd.toNat o.dvf.toNat),
      numbered (List.replicate d.rows (List.replicate d.e0 0)), [], 0, [], (0, 0)⟩)
    (s.putXfer f (s.moveRef f o.dd.toNat o.dvf.toNat))

end Sys2Proof.Machine
end

