-- ==== Sys2Proof/Machine/Eflet.lean ====
section
/-! DEFINITION. The Eflet links: ports and frames (R410 to R416), windows (R417, R423), puts and gets (R419 to R422). -/

namespace Sys2Proof.Machine

/-! ## Ports -/

/-- Port `n`. -/
def State.port (s : State) (n : Nat) : EflPort := Map.get EflPort.idle s.efl.ports n
/-- Replace it. -/
def State.setPort (s : State) (n : Nat) (p : EflPort) : State :=
  { s with efl := { s.efl with ports := Map.put EflPort.idle s.efl.ports n p } }

/-- DEVICE, the device count, TOPO. -/
def State.eflMe (s : State) : Nat := s.fld Reg.EFL_TOPO 1 0
def State.eflDevs (s : State) : Nat := s.fld Reg.EFL_TOPO 5 4 + 1
def State.eflTopo (s : State) : Nat := s.fld Reg.EFL_TOPO 7 6

/-- The peer that R410 predicts behind port `n`. -/
def State.eflPeer (s : State) (n : Nat) : Option Nat :=
  let me := s.eflMe
  let k := s.eflDevs
  if s.eflTopo = 1 ∧ k = 2 ∧ n = 0 then some ((me + 1) % 2)
  else if s.eflTopo = 2 ∧ k = 2 then some ((me + 1) % 2)
  else if s.eflTopo = 3 ∧ 3 ≤ k then some (if n = 0 then (me + 1) % k else (me + k - 1) % k)
  else none

/-- LINK. -/
def State.eflUp (s : State) (n : Nat) : Bool := s.flag (Reg.EFL_STATUS n) 0

/-- The link leaves the trained state. -/
def State.eflLose (s : State) (n : Nat) : State :=
  if s.eflUp n then ((s.setFlag (Reg.EFL_STATUS n) 0 false).setFlag (Reg.EFL_STATUS n) 1 true) else s

/-- A retrain begins (R415). -/
def State.eflRetrain (s : State) (n : Nat) : State :=
  let s := ((s.eflLose n).setFlag (Reg.EFL_STATUS n) 3 true).countReg (Reg.EFL_RETRAINS n) 1
  s.setPort n { s.port n with
    retrainAt := s.raw
    naksOut := 0
    naksIn := 0 }

/-- Is a loaded job a multi-chip job whose routes use port `n`: a remote buffer, or an open window's peer, lies that way? -/
def State.jobUsesPort (s : State) (j n : Nat) : Bool :=
  let toPort := fun d => s.portTo d == n || s.eflTopo == 2
  match s.job j with
  | none => false
  | some jb => decide (1 < jb.img.devices) &&
      (s.bufs.any (fun e => e.2.isValid && bits e.2.record.toNat 62 59 == j && bitOf e.2.back.toNat 63
          && toPort (bits e.2.back.toNat 60 59))
        || (List.range 64).any fun i => s.flag (Reg.WINA i) 63 && s.fld (Reg.WINA i) 59 56 == j
          && (List.range 4).any fun d => d != s.eflMe && bitOf (s.fld (Reg.WINB i) 63 60) d && toPort d)

/-- The port is down (R416): the safety manager takes the loss as a compute fault of every multi-chip job whose routes
use it. -/
def State.eflDown (s : State) (n : Nat) : State :=
  let s := (((s.eflLose n).setFlag (Reg.EFL_STATUS n) 3 false).setFlag (Reg.EFL_STATUS n) 4 true).raiseEv (22 + n)
  s.each ((List.range 16).filter fun j => s.jobUsesPort j n) fun s j =>
    let s := s.fault 0x0C none (some j) false n
    { s with safe := { s.safe with jobFaults := if s.safe.jobFaults.contains j then s.safe.jobFaults else s.safe.jobFaults ++ [j] } }

/-- EFL_TRAIN: training completes with the peer's DEVICE, NDEV and TOPO (R411). After a retrain the unacknowledged frames
are replayed (R415). -/
def execEflTrain (n : Fin 2) (dev ndev topo : BitVec 2) (s : State) : Out :=
  let p := n.val
  if !s.flag (Reg.EFL_CTRL p) 0 || s.flag (Reg.EFL_STATUS p) 4 || s.eflUp p then s.noEvent
  else
    let s := s.setFld (Reg.EFL_STATUS p) 7 6 dev.toNat
    if s.eflPeer p = some dev.toNat ∧ ndev.toNat + 1 = s.eflDevs ∧ topo.toNat = s.eflTopo then
      let s := if s.flag (Reg.EFL_STATUS p) 3 then s.countReg (Reg.EFL_RETRY p) (s.port p).unacked.length else s
      let s := (s.setFlag (Reg.EFL_STATUS p) 3 false).setFlag (Reg.EFL_STATUS p) 0 true
      .next (s.setPort p { s.port p with since := s.raw })
    else .next ((s.setFlag (Reg.EFL_STATUS p) 5 true).raiseEv (24 + p))

/-- EFL_RETRAIN: eight NAKs in a row for one SEQ, or 4 us without an acknowledgement while frames are outstanding
(R415). -/
def execEflRetrain (n : Fin 2) (s : State) : Out :=
  let p := s.port n
  if s.eflUp n && (decide (8 ≤ p.naksOut) || decide (8 ≤ p.naksIn) ||
      (!p.unacked.isEmpty && decide (p.since + 4000 ≤ s.raw))) then .next (s.eflRetrain n)
  else s.noEvent

/-- EFL_LANE_FAIL: a lane fails at training or later; the port retrains on the half that works, or is down where neither
trains (R412, R416). -/
def execEflLaneFail (n : Fin 2) (half : Option Bool) (s : State) : Out :=
  if !s.flag (Reg.EFL_CTRL n) 0 || s.flag (Reg.EFL_STATUS n) 4 then s.noEvent
  else match half with
    | none => .next (s.eflDown n)
    | some _ => .next ((s.eflRetrain n).setFlag (Reg.EFL_STATUS n) 2 true)

/-- EFL_DOWN: a retrain has not completed within 1 ms (R416). -/
def execEflDown (n : Fin 2) (s : State) : Out :=
  if s.flag (Reg.EFL_STATUS n) 3 ∧ (s.port n).retrainAt + 1000000 ≤ s.raw then .next (s.eflDown n) else s.noEvent

/-- EFL_CTRL written: EN. Setting it after DOWN restores the port's credits (R416, R427). -/
def State.eflCtrlWrite (s : State) (n v : Nat) : State :=
  let en := bitOf v 0
  let s := if !en then (s.eflLose n).setFlag (Reg.EFL_STATUS n) 3 false
    else if s.flag (Reg.EFL_STATUS n) 4 && !s.flag (Reg.EFL_CTRL n) 0 then
      let gone := s.efl.flights.filter fun x => x.port == n && x.typ != 5
      let s := (((s.setFlag (Reg.EFL_STATUS n) 4 false).setFlag (Reg.EFL_STATUS n) 2 false).setFld (Reg.EFL_CREDIT n) 7 0
        (s.fld (Reg.EFL_CREDIT n) 7 0 + gone.length)).setPort n EflPort.idle
      { s with efl := { s.efl with
        flights := s.efl.flights.filter fun x => x.port != n
        accepted := s.efl.accepted.filter fun x => x.port != n
        used := Map.clear (8 * n) (8 * n + 8) s.efl.used } }
    else s
  s.setFlag (Reg.EFL_CTRL n) 0 en

/-- EFL_CTRL_WRITE (R427). -/
def execEflCtrlWrite (n : Fin 2) (v : Word) (s : State) : Out := .next (s.eflCtrlWrite n v.toNat)

/-- EFL_TOPO written; ignored while a port has EN = 1 (R426). -/
def State.eflTopoWrite (s : State) (v : Nat) : State :=
  if s.flag (Reg.EFL_CTRL 0) 0 || s.flag (Reg.EFL_CTRL 1) 0 then s
  else (s.setFld Reg.EFL_TOPO 7 4 (bits v 7 4)).setFld Reg.EFL_TOPO 1 0 (bits v 1 0)

/-! ## Frames (R414, R415) -/

/-- Room for `k` more frames to a port's peer. -/
def State.eflRoom (s : State) (n k : Nat) : Bool :=
  s.eflUp n && decide ((s.port n).unacked.length + k ≤ 64)

/-- Send sequenced frames from port `n`. -/
def State.eflSend (s : State) (n : Nat) (l : List EflFrame) : State :=
  s.each l fun s x =>
    let p := s.port n
    s.setPort n { p with
      txSeq := p.txSeq + 1
      unacked := p.unacked ++ [{ x with seq := p.txSeq }]
      since := if p.unacked.isEmpty then s.raw else p.since }

/-- A frame without payload from this device. -/
def State.eflFrame (s : State) (typ dst win gen tag status : Nat) : EflFrame :=
  { typ := typ, src := s.eflMe, dst := dst, seq := 0, win := win, gen := gen, tag := tag, status := status, offset := 0,
    last := true, plen := 0, data := [] }

/-- The frames that carry bytes: up to 512 in each, LAST in the last (R414). -/
def framesOf (x : EflFrame) (off : Nat) (bs : List Byte) : List EflFrame :=
  let n := (bs.length + 511) / 512
  (List.range n).map fun i => { x with
    offset := off + 512 * i
    last := i + 1 == n
    data := (bs.drop (512 * i)).take 512 }

/-- Drop the frames up to the acknowledged SEQ, compared by signed difference. -/
def ackedUp (seq : BitVec 16) (l : List EflFrame) : List EflFrame := l.filter fun x => decide (0 < (x.seq - seq).toInt)

/-- EFL_FRAME_RX: a frame arrives (R415). A CRC failure is counted and NAKed; the expected SEQ is delivered, or forwarded
where it goes to another device (R410); any other SEQ is discarded. -/
def execEflFrameRx (n : Fin 2) (i : EflIn) (s : State) : Out :=
  let p := s.port n
  if !s.eflUp n then s.noEvent
  else match i with
    | .bad => .next ((s.countReg (Reg.EFL_CRCERR n) 1).setPort n { p with naksOut := p.naksOut + 1 })
    | .ack seq => .next (s.setPort n { p with
        unacked := ackedUp seq p.unacked
        since := s.raw
        naksIn := 0 })
    | .nak seq =>
      let rest := p.unacked.filter fun x => decide (0 ≤ (x.seq - seq).toInt)
      .next ((s.countReg (Reg.EFL_RETRY n) rest.length).setPort n { p with
        unacked := rest
        since := s.raw
        nakSeq := seq
        naksIn := if p.nakSeq = seq then p.naksIn + 1 else 1 })
    | .frame x =>
      if x.typ = 0 then .next s
      else if x.seq ≠ p.rxSeq then .next s
      else
        let take := fun (s : State) => s.setPort n { s.port n with
          rxSeq := p.rxSeq + 1
          naksOut := 0 }
        if x.dst = s.eflMe then .next ((take s).setPort n { (take s).port n with inbox := p.inbox ++ [x] })
        else if s.eflRoom (1 - n.val) 1 then .next ((take s).eflSend (1 - n.val) [x])
        else s.noEvent

/-- The oldest delivered frame of port `n`, if it is of a type. -/
def State.eflHead (s : State) (n typ : Nat) : Option EflFrame :=
  match (s.port n).inbox with
  | x :: _ => if x.typ = typ then some x else none
  | [] => none

/-- It is served. -/
def State.eflPop (s : State) (n : Nat) : State := s.setPort n { s.port n with inbox := (s.port n).inbox.tail }

/-! ## The requester (R419 to R422) -/

/-- The port of the next piece of a transfer (R419): in PAIR2 the pieces alternate. -/
def State.pieceThrough (s : State) (x : EflXfer) : Nat := if s.eflTopo = 2 then x.started % 2 else s.portTo x.dev

/-- CREDn of partition `p`. -/
def State.creditPool (s : State) (p n : Nat) : Nat := s.fld (Reg.SCHED_PARTB p) (if n = 0 then 39 else 47) (if n = 0 then 32 else 40)

/-- The lowest tag from `t` on that no flight of port `n` uses. -/
def freeTag (used : List Nat) : Nat → Nat → Nat
  | 0, t => t
  | k + 1, t => if used.contains t then freeTag used k (t + 1) else t

/-- A tag for a new flight on port `n`. -/
def State.eflTag (s : State) (n : Nat) : Nat :=
  freeTag ((s.efl.flights.filter fun x => x.port == n).map (·.tag)) 4096 0

/-- Change the transfer of an entry. -/
def State.modXfer (s : State) (f seq : Nat) (g : EflXfer → EflXfer) : State :=
  { s with efl := { s.efl with xfers := s.efl.xfers.map fun x => if x.face == f && x.seq == seq then g x else x } }

/-- The bytes that an entry writes at key `k`. -/
def State.entryBytes (s : State) (e : Entry) (k n : Nat) : List Byte :=
  (s.each (e.fx.filter Fx.isWrite) State.applyFx).load k n

/-- Add `d` to the credits in use, or take them back. -/
def State.useCredit (s : State) (n p : Nat) (take : Bool) : State :=
  let k := 8 * n + p
  let u := Map.get 0 s.efl.used k
  let c := s.fld (Reg.EFL_CREDIT n) 7 0
  { s with efl := { s.efl with used := Map.put 0 s.efl.used k (if take then u + 1 else u - 1) } }.setFld
    (Reg.EFL_CREDIT n) 7 0 (if take then c - 1 else c + 1)

/-- A piece starts: it holds a credit, and its frames go out (R419, R421, R422). -/
def State.startPiece (s : State) (x : EflXfer) (e : Entry) (k len : Nat) (win gen : Nat) : State :=
  let n := s.pieceThrough x
  let part := s.partOf (s.face x.face).job
  let tag := s.eflTag n
  let fr := s.eflFrame (if x.put then 1 else 2) x.dev win gen tag 0
  let fl : EflFlight :=
    { tag := tag, port := n, part := part, face := x.face, seq := x.seq, typ := (if x.put then 1 else 2), off := k - x.base,
      key := k }
  let s' := (s.useCredit n part true).modXfer x.face x.seq fun x => { x with
    waiting := x.waiting.tail
    started := x.started + 1
    unanswered := x.unanswered + 1
    win := win
    gen := gen }
  let s' := { s' with efl := { s'.efl with flights := s'.efl.flights ++ [fl] } }
  s'.eflSend n (if x.put then framesOf fr (k - x.base) (s.entryBytes e k len)
    else [{ fr with
      offset := k - x.base
      plen := (len + 63) / 64 }])

/-- EFL_PUT_PIECE: the next piece of a transfer starts, towards window `win` in generation `gen` of the peer: a put piece
goes out in frames, a get piece as a GETREQ. It waits for a credit of its partition's pool (R419, R421, R422). -/
def execEflPutPiece (f : Fin 6) (seq : Nat) (win : BitVec 6) (gen : BitVec 8) (s : State) : Out :=
  match s.xferOf f seq, (s.face f).window.find? fun e => e.seq == seq with
  | some x, some e => match x.waiting with
    | [] => s.noEvent
    | (k, len) :: _ =>
      let n := s.pieceThrough x
      let part := s.partOf (s.face f).job
      if s.eflRoom n (if x.put then (len + 511) / 512 else 1) && decide (Map.get 0 s.efl.used (8 * n + part) < s.creditPool part n)
      then .next (s.startPiece x e k len win.toNat gen.toNat) else s.noEvent
  | _, _ => s.noEvent

/-- The flight that an answer on port `n` names. -/
def State.flightOf (s : State) (n tag : Nat) : Option EflFlight :=
  s.efl.flights.find? fun x => x.port == n && x.tag == tag

/-- A flight is answered; the credit of a piece returns, whatever the status (R422). -/
def State.endFlight (s : State) (x : EflFlight) : State :=
  let s := { s with efl := { s.efl with flights := s.efl.flights.filter fun y => !(y.port == x.port && y.tag == x.tag) } }
  if x.typ = 5 then s else s.useCredit x.port x.part false

/-- The MOV of a flight raises an exception, if it is still in flight. -/
def State.failXfer (s : State) (x : EflFlight) (code : Nat) : State :=
  match s.xferOf x.face x.seq, (s.face x.face).window.find? fun e => e.seq == x.seq with
  | some _, some e =>
    let s := { s with efl := { s.efl with xfers := s.efl.xfers.filter fun y => !(y.face == x.face && y.seq == x.seq) } }
    (s.leaveWindow x.face x.seq).takeExc x.face ⟨code, 0⟩ false e.pc
  | _, _ => s

/-- Once every piece of a put is acknowledged, one INC goes out (R420). -/
def State.sendInc (s : State) (f seq : Nat) : State :=
  match s.xferOf f seq with
  | some x =>
    if x.put && x.waiting.isEmpty && x.unanswered == 0 && x.inc == 0 then
      let n := if s.eflTopo = 2 then 0 else s.portTo x.dev
      let tag := s.eflTag n
      let fl : EflFlight := { tag := tag, port := n, part := 0, face := f, seq := seq, typ := 5, off := 0, key := 0 }
      let s' := s.modXfer f seq fun x => { x with inc := 1 }
      { s' with efl := { s'.efl with flights := s'.efl.flights ++ [fl] } }.eflSend n [s.eflFrame 5 x.dev x.win x.gen tag 0]
    else s
  | none => s

/-- ACKC: an acknowledgement reaches the sender (R419, R420, R422). -/
def execAckc (n : Fin 2) (s : State) : Out :=
  match s.eflHead n 4 with
  | none => s.noEvent
  | some a =>
    let s := s.eflPop n
    match s.flightOf n a.tag with
    | none => .next s
    | some x =>
      let s := s.endFlight x
      if a.status ≠ 0 then .next (s.failXfer x 0x0A)
      else if x.typ = 5 then .next (s.modXfer x.face x.seq fun y => { y with inc := 2 })
      else .next ((s.modXfer x.face x.seq fun y => { y with unanswered := y.unanswered - 1 }).sendInc x.face x.seq)

/-- GETRSP: get data arrive; the last frame returns the credit (R421, R422). MEM_ERROR makes the MOV raise MEM_ERROR, a
refusal STORE_ACCESS. -/
def execGetrsp (n : Fin 2) (s : State) : Out :=
  match s.eflHead n 3 with
  | none => s.noEvent
  | some a =>
    let s := s.eflPop n
    match s.flightOf n a.tag with
    | none => .next s
    | some x =>
      if a.status ≠ 0 then .next ((s.endFlight x).failXfer x (if a.status = 4 then 0x0E else 0x0A))
      else
        let s := s.store (x.key + (a.offset - x.off)) a.data
        if a.last then
          .next ((s.endFlight x).modXfer x.face x.seq fun y => { y with unanswered := y.unanswered - 1 })
        else .next s

/-! ## The target (R417, R420, R421, R423) -/

/-- Device address and size of window `i`. -/
def State.winBase (s : State) (i : Nat) : Nat := s.fld (Reg.WINA i) 47 12 * 4096
def State.winSize (s : State) (i : Nat) : Nat := s.fld (Reg.WINB i) 39 12 * 4096

/-- The check at the first frame (R423): 0 accepted, 1 CLOSED, 2 DENIED, 3 BOUNDS. `bit` is the ACCESS bit needed; an
INC needs what its puts needed. A piece into or from a region that waits for its scrub meets a bus error (R101), which the link
reports as DENIED (DESIGN CHOICE, assumption 133). -/
def State.winCheck (s : State) (x : EflFrame) (bit len : Nat) : Nat :=
  let i := x.win
  if !s.flag (Reg.WINA i) 63 || s.fld (Reg.WINA i) 55 48 != x.gen then 1
  else if !bitOf (s.fld (Reg.WINA i) 61 60) bit || !bitOf (s.fld (Reg.WINB i) 63 60) x.src then 2
  else if s.winSize i < x.offset + len then 3
  else if len != 0 && s.unscrubbed (s.winBase i + x.offset) len then 2
  else 0

/-- Bytes land in a window. An instruction in flight of the window's job that reads or writes them without an order sees
free bytes (R115). -/
def State.landBytes (s : State) (i a : Nat) (bs : List Byte) : State :=
  let j := s.fld (Reg.WINA i) 59 56
  let s := match (List.range 6).find? fun g => (s.face g).running && (s.face g).job == j with
    | some g => s.raceOld g { Entry.of .mover with writes := [(a, bs.length)] }
    | none => s
  s.store a bs

/-- A refusal is counted (R423). -/
def State.eflRefuse (s : State) (n : Nat) : State := s.countReg (Reg.EFL_REFUSED n) 1

/-- EFL_PIECE_RECEIVE: a frame of a put piece is served (R419, R423). The first frame is checked for the whole piece, of
`len` bytes; an accepted piece is written; after the last frame the ACKC goes out with the status. -/
def execEflPieceReceive (n : Fin 2) (len : Nat) (s : State) : Out :=
  match s.eflHead n 1 with
  | none => s.noEvent
  | some x =>
    let known := s.efl.accepted.find? fun p => p.port == n.val && p.src == x.src && p.tag == x.tag
    let status := match known with
      | some p => p.status
      | none => s.winCheck x 0 len
    let here : EflIncoming := { port := n, src := x.src, tag := x.tag, win := x.win, status := status }
    if x.last && !s.eflRoom n 1 then s.noEvent
    else
      let s := s.eflPop n
      let s := match known with
        | some _ => s
        | none =>
          let s := { s with efl := { s.efl with accepted := s.efl.accepted ++ [here] } }
          if status = 0 then s else s.eflRefuse n
      let s := if status = 0 then s.landBytes x.win (s.winBase x.win + x.offset) x.data else s
      if x.last then
        .next ({ s with efl := { s.efl with accepted := s.efl.accepted.filter fun p =>
          !(p.port == n.val && p.src == x.src && p.tag == x.tag) } }.eflSend n [s.eflFrame 4 x.src x.win x.gen x.tag status])
      else .next s

/-- INC: the target counts a completed put and acknowledges it (R420). -/
def execInc (n : Fin 2) (s : State) : Out :=
  match s.eflHead n 5 with
  | none => s.noEvent
  | some x =>
    if !s.eflRoom n 1 then s.noEvent
    else
      let status := s.winCheck x 0 0
      let s := s.eflPop n
      let b := Reg.WINB x.win
      let s := if status ≠ 0 then s.eflRefuse n
        else if s.flag b 59 then s.sendRouted (s.fld (Reg.WINA x.win) 59 56) (s.fld b 58 56) (s.fld b 55 52) 1 else s
      .next (s.eflSend n [s.eflFrame 4 x.src x.win x.gen x.tag status])

/-- GETREQ: the target reads a piece from its window and returns it in frames (R421). `bad`: the read met an uncorrectable
error, and the answer is MEM_ERROR. -/
def execGetreq (n : Fin 2) (bad : Bool) (s : State) : Out :=
  match s.eflHead n 2 with
  | none => s.noEvent
  | some x =>
    let len := 64 * x.plen
    let c := s.winCheck x 1 len
    let status := if c = 0 ∧ bad then 4 else c
    let fr := s.eflFrame 3 x.src x.win x.gen x.tag status
    let out := if status = 0 then framesOf fr x.offset (s.load (s.winBase x.win + x.offset) len) else [fr]
    if s.eflRoom n out.length then
      let s := s.eflPop n
      .next ((if c ≠ 0 then s.eflRefuse n else s).eflSend n out)
    else s.noEvent

/-! ## Opening and closing windows (R417, R423, R426) -/

/-- EFL_WERR. -/
def State.winErr (s : State) (i code : Nat) : State := (s.setFld Reg.EFL_WERR 13 8 i).setFld Reg.EFL_WERR 7 0 code

/-- The checks of an open, in the order of EFL_WERR's codes (R426). -/
def State.winOpenErr (s : State) (i : Nat) : Nat :=
  let a := s.winBase i
  let n := s.winSize i
  let j := s.fld (Reg.WINA i) 59 56
  let inBoard := boardBase ≤ a && a + n ≤ boardBase + 0x1000000
  if n = 0 ∨ !(inBoard || a + n ≤ hbmBytes) then 1
  else match s.job j with
    | none => 2
    | some jb =>
      if s.flag (Reg.WINB i) 59 && decide (jb.img.vfs.length ≤ s.fld (Reg.WINB i) 58 56) then 3
      else if (List.range 64).any fun k => k != i && s.flag (Reg.WINA k) 63 && s.fld (Reg.WINA k) 59 56 != j
          && spansMeet (a, n) (s.winBase k, s.winSize k) then 4
      else 0

/-- The fields of WINA that software sets. -/
def winaFields (v : Nat) : Nat := bits v 61 56 * 2 ^ 36 + bits v 47 12

/-- WINAi written: OPEN = 1 opens, OPEN = 0 closes; a field can change only while the window is closed (R417, R423,
R426). -/
def State.winaWrite (s : State) (i v : Nat) : State :=
  let r := Reg.WINA i
  let same := winaFields (s.rd r).toNat == winaFields v
  if s.flag r 63 then
    let s := if same then s else s.winErr i 5
    if bitOf v 63 then s else s.closeWindow i
  else if s.flag r 62 then (if bitOf v 63 || !same then s.winErr i 5 else s)
  else
    let s := (s.setFld r 61 56 (bits v 61 56)).setFld r 47 12 (bits v 47 12)
    if bitOf v 63 then
      match s.winOpenErr i with
      | 0 => (s.setFld r 55 48 (s.fld r 55 48 + 1)).setFlag r 63 true
      | c => s.winErr i c
    else s

/-- WINBi written. -/
def State.winbWrite (s : State) (i v : Nat) : State :=
  let b := Reg.WINB i
  let keep := fun (v : Nat) => bits v 63 52 * 2 ^ 28 + bits v 39 12
  if s.flag (Reg.WINA i) 63 || s.flag (Reg.WINA i) 62 then
    if keep (s.rd b).toNat = keep v then s else s.winErr i 5
  else (s.setFld b 63 52 (bits v 63 52)).setFld b 39 12 (bits v 39 12)

/-- EFL_WIN_OPEN: WINAi is written with OPEN = 1 (R417). -/
def execEflWinOpen (i : BitVec 6) (v : Word) (s : State) : Out := .next (s.winaWrite i.toNat (putBits v.toNat 63 63 1))

/-- EFL_WIN_CLOSE: WINAi is written with OPEN = 0, its other fields as they stand (R423). -/
def execEflWinClose (i : BitVec 6) (s : State) : Out :=
  .next (s.winaWrite i.toNat (putBits (s.rd (Reg.WINA i.toNat)).toNat 63 63 0))

/-- EFL_WIN_CLOSE_DONE: the last accepted piece is complete (R423). -/
def execEflWinCloseDone (i : BitVec 6) (s : State) : Out :=
  if s.flag (Reg.WINA i.toNat) 62 ∧ !s.eflOpenPieces i.toNat then .next (s.setFlag (Reg.WINA i.toNat) 62 false) else s.noEvent

end Sys2Proof.Machine
end

