-- ==== Sys2Proof/Machine/Field.lean ====
section
/-! DEFINITION. The Home field logic: frame builders and receive maps (R381 to R384), CAN (R385 to R390), 10BASE-T1S (R391,
R392), encoder ports (R393 to R396), PWM (R397 to R399), MOTION_PERMIT (R400 to R404), general field pins (R405, R406),
field-bank diagnostics (R407 to R409), and launches (R360). -/

namespace Sys2Proof.Machine

/-- One more in a count that holds at 2^32 - 1. -/
def State.count32 (s : State) (a : Nat) : State := s.satFld a 31 0

/-! ## CAN transmit buffers (R386 to R388) -/

/-- Controller `c`. -/
def State.can (s : State) (c : Nat) : CanSt := Map.get ⟨0, 0, false⟩ s.field.can c
/-- Replace it. -/
def State.setCan (s : State) (c : Nat) (x : CanSt) : State :=
  { s with field := { s.field with can := Map.put ⟨0, 0, false⟩ s.field.can c x } }

/-- Key of transmit buffer `b` of controller `c` (R390). -/
def canBuf (c b : Nat) : Nat := homeSpace + 0x80078000 + c * 0x3000 + b * 0x1000

/-- STATE of a transmit buffer: 0 IDLE, 1 PENDING, 2 ON_BUS, 3 DONE, 4 LOST_ARB, 5 ERROR, 6 ABORTED. -/
def State.txState (s : State) (c b : Nat) : Nat := s.fld (Reg.CAN_TXSTAT c b) 3 0
/-- Change it. -/
def State.setTx (s : State) (c b x : Nat) : State := s.setFld (Reg.CAN_TXSTAT c b) 3 0 x

/-- Launch time of a buffer's frame. -/
def State.canLt (s : State) (c b : Nat) : Nat := s.loadNat (canBuf c b + 12) 4

/-- Does buffer `b` stand at the head of its launch queue: each buffer by itself, or with BUFNO the lowest one that has not
completed (R387)? -/
def State.canHead (s : State) (c b : Nat) : Bool :=
  let waits := fun x => s.txState c x == 1 || s.txState c x == 2
  waits b && (!s.flag (Reg.CAN_CTRL c) 3 || (List.range b).all fun x => !waits x)

/-- A buffer that has come to the head since `old` meets its launch time there (R360). -/
def State.canHeads (old s : State) (c : Nat) : State :=
  s.each ((List.range 3).filter fun b => s.canHead c b && !old.canHead c b) fun s b =>
    s.setCan c { s.can c with late := putBits (s.can c).late b b (if s.launchLate (s.canLt c b) then 1 else 0) }

/-- A buffer completes with a state: CAN_TX is raised; a waiting abort is over. -/
def State.txDone (s : State) (c b x : Nat) : State :=
  ((State.canHeads s (s.setTx c b x) c).setCan c { (State.canHeads s (s.setTx c b x) c).can c with
    abort := putBits (s.can c).abort b b 0 }).raiseEv (139 + c)

/-- Byte `j` of builder record `i` (R381). -/
def State.bldByte (s : State) (i j : Nat) : Nat := s.fld (Reg.BLD_REC i (j / 4)) (8 * (j % 4) + 7) (8 * (j % 4))

/-- Is the buffer owned by an enabled builder? -/
def State.bldOwns (s : State) (c b : Nat) : Bool :=
  (List.range 32).any fun i => s.bldByte i 0 % 2 == 1 && s.bldByte i 1 % 16 == c && s.bldByte i 2 == b

/-- CAN_SEND: the buffers named become pending (R387). -/
def State.canSend (s : State) (c m : Nat) : State :=
  s.canHeads (s.each (List.range 3) fun s b =>
    if bitOf m b && s.txState c b != 1 && s.txState c b != 2 then s.setTx c b 1 else s) c

/-- CAN_SEND (R387). -/
def execCanSend (c : BitVec 2) (m : BitVec 3) (s : State) : Out := .next (s.canSend c.toNat m.toNat)

/-- An abort completes a pending buffer at once; a frame on the bus is waited for (R388). -/
def State.canAbort (s : State) (c m : Nat) : State :=
  s.each (List.range 3) fun s b =>
    if !bitOf m b then s
    else if s.txState c b = 1 then s.txDone c b 6
    else if s.txState c b = 2 then s.setCan c { s.can c with abort := putBits (s.can c).abort b b 1 } else s

/-- CAN_ABORT (R388). -/
def execCanAbort (c : BitVec 2) (m : BitVec 3) (s : State) : Out := .next (s.canAbort c.toNat m.toNat)

/-- RECOVER starts bus-off recovery (R389). -/
def State.canRecover (s : State) (c : Nat) : State :=
  if s.fld (Reg.CAN_STATUS c) 5 4 = 2 then s.setCan c { s.can c with recovering := true } else s

/-- CAN_RECOVER (R389). -/
def execCanRecover (c : BitVec 2) (s : State) : Out := .next (s.canRecover c.toNat)

/-- CAN_TXCMD written. -/
def State.txCmd (s : State) (c v : Nat) : State :=
  let s := (s.canAbort c (bits v 5 3)).canSend c (bits v 2 0)
  if bitOf v 6 then s.canRecover c else s

/-- A firmware write of bytes at offset `o` of a transmit buffer (R388, R390). -/
def State.txBufWrite (s : State) (c b o : Nat) (bs : List Byte) : State :=
  if s.bldOwns c b then s.setFlag (Reg.CAN_TXSTAT c b) 7 true
  else if s.txState c b = 1 ∨ s.txState c b = 2 then s.setFlag (Reg.CAN_TXSTAT c b) 6 true
  else s.store (canBuf c b + o) (bs.take (2064 - o))

/-- CAN_TXBUF_WRITE (R388). -/
def execCanTxbufWrite (c : BitVec 2) (b : Fin 3) (o : BitVec 12) (v : Half) (s : State) : Out :=
  .next (s.txBufWrite c.toNat b o.toNat (leBytes 4 v.toNat))

/-- What bus arbitration compares: the base identifier, then extended after base, the identifier's extension, remote
after data; lower wins. -/
def State.arbKey (s : State) (c b : Nat) : Nat :=
  let key := s.loadNat (canBuf c b) 4
  let fmt := s.loadNat (canBuf c b + 6) 1
  if fmt % 4 = 2 then bits key 10 0 * 2 ^ 20
  else if bitOf key 29 then bits key 28 18 * 2 ^ 20 + 2 ^ 19 + bits key 17 0 * 2 + (if bitOf fmt 3 then 1 else 0)
  else bits key 10 0 * 2 ^ 20 + (if bitOf fmt 3 then 1 else 0)

/-- Is the frame of a buffer due: its launch time has come, or was past when it came to the head (R360)? -/
def State.canDue (s : State) (c b : Nat) : Bool := bitOf (s.can c).late b || s.launchDue (s.canLt c b)

/-- MODE: 0 normal, 1 restricted operation, 2 loop-back. -/
def State.canMode (s : State) (c : Nat) : Nat := s.fld (Reg.CAN_CTRL c) 2 1

/-- The buffer whose frame enters arbitration next (R387). -/
def State.canNext (s : State) (c : Nat) : Option Nat :=
  let pend := (List.range 3).filter fun b => s.txState c b == 1
  if s.flag (Reg.CAN_CTRL c) 3 then
    match pend with
    | b :: _ => if s.canDue c b then some b else none
    | [] => none
  else (pend.filter fun b => s.canDue c b).foldl (fun (m : Option Nat) b => match m with
    | some a => if s.arbKey c b < s.arbKey c a then some b else some a
    | none => some b) none

/-- Release buffer `b` of controller `c` to the bus (R360, R387). A controller in restricted operation sends nothing (PRESUMED,
assumption 129); a retry keeps LATE as the frame's arrival at the head made it. -/
def State.canRelease (s : State) (c b : Nat) : Option State :=
  if s.flag (Reg.CAN_CTRL c) 0 && s.canMode c != 1 && s.fld (Reg.CAN_STATUS c) 5 4 != 2 && s.canNext c == some b
      && (List.range 3).all (fun x => s.txState c x != 2) then
    some ((s.setTx c b 2).setFlag (Reg.CAN_TXSTAT c b) 5 (bitOf (s.can c).late b))
  else none

/-- Error state by the transmit and receive counters, bus-off apart. -/
def State.canFstate (s : State) (c : Nat) : State :=
  let a := Reg.CAN_STATUS c
  if s.fld a 5 4 = 2 then s else s.setFld a 5 4 (if 128 ≤ s.fld a 31 24 ∨ 128 ≤ s.fld a 23 16 then 1 else 0)

/-- CAN_BUSOFF: the controller goes bus-off, or (`back`) its recovery ends: automatic, or started by RECOVER (R389). -/
def execCanBusoff (c : BitVec 2) (back : Bool) (s : State) : Out :=
  let c := c.toNat
  let a := Reg.CAN_STATUS c
  if back then
    if s.fld a 5 4 = 2 ∧ (s.flag (Reg.CAN_CTRL c) 4 ∨ (s.can c).recovering) then
      .next (((s.setFld a 5 4 0).setFld a 31 16 0).setCan c { s.can c with recovering := false })
    else s.noEvent
  else if s.flag (Reg.CAN_CTRL c) 0 ∧ s.fld a 5 4 ≠ 2 then
    let s := ((s.setFld a 5 4 2).setFld a 31 24 255).setFlag a 10 true
    .next (s.each (List.range 3) fun s b => if s.txState c b = 2 then s.setTx c b 1 else s)
  else s.noEvent

/-! ## Frame builders (R381 to R384) -/

/-- A builder or map count is made: the counter, and BLD_LAST. -/
def State.bldCount (s : State) (kind i : Nat) : State :=
  let a := if kind = 1 then Reg.BLD_REPLACED else if kind = 2 then Reg.BLD_SKIPPED else Reg.BLD_SHORT
  ((s.count32 a).setFld Reg.BLD_LAST 15 14 kind).setFld Reg.BLD_LAST 4 0 i

/-- Write bytes into a list at an offset, as far as it reaches. -/
def patch (l : List Byte) (o : Nat) (bs : List Byte) : List Byte := (l.take o ++ bs ++ l.drop (o + bs.length)).take l.length

/-- A Q31 word as an integer of `w` bytes (R382). -/
def q31ToInt (w n : Nat) : Nat :=
  if w = 2 then wrap 16 (clampInt (-32768) 32767 (roundRat .rne 0 ((signed 32 n : Rat) / 65536))) else n % 2 ^ 32

/-- The frame that builder `i` makes at the apply instant `t`: its header with the launch time, and its payload. -/
def State.bldFrame (s : State) (i t : Nat) : List Byte :=
  let hdr := homeSpace + (s.rd (Reg.BLD_REC i 2)).toNat % 2 ^ 32
  let len := s.loadNat (hdr + 4) 2
  let head := s.load hdr 12 ++ leBytes 4 (t + 100 * (s.bldByte i 4 + 256 * s.bldByte i 5))
  let body := s.load (hdr + 16) len
  let body := (List.range (s.bldByte i 6)).foldl (fun body k =>
    let w := s.bldByte i (4 * k + 13)
    patch body (s.bldByte i (4 * k + 14) + 256 * s.bldByte i (4 * k + 15))
      (leBytes w (q31ToInt w (s.rd (Reg.CE_OUTW (s.bldByte i (4 * k + 12)))).toNat))) body
  let o := s.bldByte i 7
  head ++ if o = 255 then body else patch body o [BitVec.ofNat 8 (Map.get 0 s.field.builds i + 1)]

/-- T1S port `n`. -/
def State.t1s (s : State) (n : Nat) : T1sSt := Map.get ⟨[], false, false, 0⟩ s.field.t1s n
/-- Replace it. -/
def State.setT1s (s : State) (n : Nat) (x : T1sSt) : State :=
  { s with field := { s.field with t1s := Map.put ⟨[], false, false, 0⟩ s.field.t1s n x } }

/-- Push a frame onto a T1S transmit queue, where a first one meets its launch time (R360); a push to a full queue is discarded and sets TXFULL (R392). -/
def State.t1sPush (s : State) (n : Nat) (x : T1sItem) : State :=
  let t := s.t1s n
  if 16 ≤ t.queue.length then s.setFlag (Reg.T1S_TXSTAT n) 7 true
  else (s.setT1s n { t with
    queue := t.queue ++ [x]
    late := if t.queue.isEmpty then s.launchLate x.lt else t.late }).setFld (Reg.T1S_TXSTAT n) 4 0 (t.queue.length + 1)

/-- One more build of builder `i`. -/
def State.bldMade (s : State) (i : Nat) : State :=
  { s with field := { s.field with builds := Map.put 0 s.field.builds i ((Map.get 0 s.field.builds i + 1) % 256) } }

/-- Does every field of builder record `i` lie in the range that R381 gives it? -/
def State.bldOk (s : State) (i : Nat) : Bool :=
  let tgt := s.bldByte i 1
  decide (tgt % 8 < if bitOf tgt 3 then 2 else 4) && decide (s.bldByte i 2 < 3)
    && decide (s.bldByte i 4 + 256 * s.bldByte i 5 ≤ 10000) && decide (1 ≤ s.bldByte i 6) && decide (s.bldByte i 6 ≤ 8)
    && (List.range (s.bldByte i 6)).all fun k => decide (s.bldByte i (4 * k + 12) < 128)
      && (s.bldByte i (4 * k + 13) == 2 || s.bldByte i (4 * k + 13) == 4)

/-- Builder `i` builds at the apply instant `t` (R382): a frame not yet in arbitration is replaced, one on the bus is
left alone. A record with a field out of range builds nothing. DESIGN CHOICE. -/
def State.build (s : State) (i t : Nat) : State :=
  let tgt := s.bldByte i 1
  let fr := s.bldFrame i t
  if !s.bldOk i then s
  else if bitOf tgt 3 then (s.bldMade i).t1sPush (tgt % 8) ⟨leNat (((fr.drop 12).take 4)), fr⟩
  else
    let c := tgt % 8
    let b := s.bldByte i 2
    if s.txState c b = 2 then (s.bldCount 2 i).raiseEv 134
    else
      let s := if s.txState c b = 1 then s.bldCount 1 i else s
      State.canHeads (s.setTx c b 0) (((s.bldMade i).store (canBuf c b) (fr.take 2064)).setTx c b 1) c

/-- Every enabled builder whose trigger is loop `n` (R382). -/
def State.buildAll (s : State) (n t : Nat) : State :=
  s.each ((List.range 32).filter fun i => s.bldByte i 0 % 2 == 1 && s.bldByte i 3 % 64 == n) fun s i => s.build i t

/-- BLD_CTRL.CLR (R384). -/
def State.bldClr (s : State) : State :=
  (((s.wr Reg.BLD_REPLACED 0).wr Reg.BLD_SKIPPED 0).wr Reg.BLD_SHORT 0).wr Reg.BLD_LAST 0

/-- BLD_CLR (R384). -/
def execBldClr (s : State) : Out := .next s.bldClr

/-! ## CAN receive (R389, R390) -/

/-- Payload bytes and slot stride of a receive queue by SLOT. -/
def slotPayload (k : Nat) : Nat := if k = 0 then 64 else if k = 1 then 256 else 2048

/-- Fields of receive map `m` in use: word, width, offset. -/
def State.mapFields (s : State) (m : Nat) : List (Nat × Nat × Nat) :=
  ((List.range 4).map fun k => (s.fld (Reg.BLD_MAP m k) 7 0, s.fld (Reg.BLD_MAP m k) 15 8, s.fld (Reg.BLD_MAP m k) 31 16)).filter
    fun x => x.2.1 == 2 || x.2.1 == 4

/-- Apply receive map `m` to a frame's payload: every field, or none of a short frame (R383). -/
def State.applyMap (s : State) (m : Nat) (bs : List Byte) : State :=
  let l := s.mapFields m
  if l.any fun x => decide (bs.length < x.2.2 + x.2.1) then s.bldCount 3 m
  else s.each l fun s x =>
    s.wr (Reg.CE_IN (x.1 % 128)) (BitVec.ofNat 64 (leNat ((bs.drop x.2.2).take x.2.1) * 2 ^ (32 - 8 * x.2.1) % 2 ^ 32))

/-- The first filter that accepts a frame. -/
def State.canFilter (s : State) (c key fmt : Nat) : Option Nat :=
  (List.range 32).find? fun k => s.flag (Reg.CAN_FCFG c k) 31 && decide (fmt < 3)
    && bitOf (s.fld (Reg.CAN_FCFG c k) 30 28) fmt
    && ((key ^^^ (s.rd (Reg.CAN_FMATCH c k)).toNat) &&& (s.rd (Reg.CAN_FMASK c k)).toNat) % 2 ^ 32 == 0

/-- Slots of a Home ring in use: HEAD − TAIL by signed 16-bit difference. -/
def State.slotsUsed (s : State) (head tail : Nat) : Int := signed 16 (s.fld head 15 0 + 65536 - s.fld tail 15 0)

/-- A stamp that Home firmware takes of an event at raw count `at0`: 0.1 to 1.5 us after it, otherwise free (R359). -/
def State.homeStamp (s : State) (at0 : Nat) : Nat × State :=
  let t := s.take 1
  (at0 + 100 + Config.freeCount t.1 % 1401, t.2)

/-- The header fields of a received frame as R386 lays them out: KEY, FMT and AF with their unused bits 0. -/
def canHeader (key : BitVec 32) (fmt : Byte) (af : BitVec 32) : Nat × Nat × Nat :=
  let k := fmt.toNat % 4
  (if k = 2 then key.toNat % 2 ^ 27 else if bitOf key.toNat 29 then key.toNat % 2 ^ 30 else key.toNat % 2 ^ 11,
    k + (if k ≠ 0 then fmt.toNat &&& 4 else 0) + (if k = 0 then fmt.toNat &&& 8 else 0), if k = 2 then af.toNat else 0)

/-- Is there a frame of this format with `n` payload bytes (R386)? -/
def canLenOk (k n : Nat) : Bool :=
  if k = 0 then decide (n ≤ 8) else if k = 1 then decide (n ≤ 64) else k == 2 && decide (1 ≤ n) && decide (n ≤ 2048)

/-- A received frame is filtered, stamped, mapped, stored in its queue, or counted and discarded (R359, R383, R389). `sof`: the raw
count at the sample point of its SOF bit. -/
def State.canReceive (s : State) (c : Nat) (h : Nat × Nat × Nat) (bs : List Byte) (sof : Nat) : State :=
  match s.canFilter c h.1 (h.2.1 % 4) with
  | none => s.count32 (Reg.CAN_NOMATCH c)
  | some k =>
    let cfg := Reg.CAN_FCFG c k
    let q := s.fld cfg 27 27
    let s := if s.flag cfg 26 then
        let t := s.homeStamp sof
        { t.2 with field := { t.2.field with canStamps := Map.put 0 t.2.field.canStamps (32 * c + k) t.1 } }
      else s
    let s := if s.flag cfg 25 then s.applyMap (s.fld cfg 24 20) bs else s
    let s := s.raiseEv (135 + c)
    let pay := slotPayload (s.fld (Reg.CAN_RXCFG c q) 1 0)
    let hd := Reg.CAN_RXHEAD c q
    if !s.flag (Reg.CAN_RXCFG c q) 31 || decide (64 ≤ s.slotsUsed hd (Reg.CAN_RXTAIL c q)) || decide (pay < bs.length) then
      s.count32 (Reg.CAN_RXDROP c)
    else
      let a := homeSpace + s.fld (Reg.CAN_RXBASE c q) 31 4 * 16 + (16 + pay) * (s.fld hd 15 0 % 64)
      (s.store a (leBytes 4 h.1 ++ leBytes 2 bs.length ++ leBytes 1 h.2.1 ++ leBytes 1 k ++ leBytes 4 h.2.2 ++ leBytes 4 0 ++ bs)).seqFld hd 15 0

/-- The receive error counter after a frame (ISO 11898-1: an error counts 1, or 8 where the receiver saw a dominant bit right after its
error flag; a good frame counts one down, and a count above 127 goes to one of 119 to 127, which one is a free value). Restricted
operation counts nothing. PRESUMED (assumption 129). -/
def State.recCount (s : State) (c err : Nat) (hard : Bool) : State :=
  let a := Reg.CAN_STATUS c
  let n := s.fld a 23 16
  if s.canMode c = 1 then s
  else if err ≠ 0 then (s.setFld a 23 16 (min 255 (n + if hard then 8 else 1))).canFstate c
  else if 127 < n then
    let t := s.take 1
    (t.2.setFld a 23 16 (119 + Config.freeCount t.1 % 9)).canFstate c
  else (s.setFld a 23 16 (n - 1)).canFstate c

/-- CAN_RX: a frame is received, or (`err`, a LEC of 1 to 6) meets an error (R385, R389). In loop-back the controller does not hear the
bus. -/
def execCanRx (c : BitVec 2) (fr : CanFrame) (err : BitVec 3) (hard : Bool) (sof : Word) (s : State) : Out :=
  let c := c.toNat
  if !s.flag (Reg.CAN_CTRL c) 0 || s.fld (Reg.CAN_STATUS c) 5 4 == 2 || s.canMode c == 2 || decide (s.raw < sof.toNat) then s.noEvent
  else if err = 7 then s.noEvent
  else if err ≠ 0 then .next ((s.recCount c err.toNat hard).setFld (Reg.CAN_STATUS c) 2 0 err.toNat)
  else if !canLenOk (fr.fmt.toNat % 4) fr.bs.length then s.noEvent
  else .next ((s.recCount c 0 false).canReceive c (canHeader fr.key fr.fmt fr.af) fr.bs sof.toNat)

/-- The frame in buffer `b` comes back to the controller that sent it, in loop-back (R385). -/
def State.canEcho (s : State) (c b sof : Nat) : State :=
  let a := canBuf c b
  s.canReceive c (canHeader (BitVec.ofNat 32 (s.loadNat a 4)) (BitVec.ofNat 8 (s.loadNat (a + 6) 1)) (BitVec.ofNat 32 (s.loadNat (a + 8) 4)))
    (s.load (a + 16) (s.loadNat (a + 4) 2)) sof

/-- CAN_TX: the attempt of the frame on the bus ends: 0 success, 1 arbitration lost, 2 error (with its LEC). A one-shot
buffer completes; an abort that waited completes a failed frame; any other failure is retried (R387, R388). In
loop-back the frame sent is received (R385); `sof`: the raw count at the sample point of its SOF bit. -/
def execCanTx (c : BitVec 2) (b : Fin 3) (r : CanAttempt) (sof : Word) (s : State) : Out :=
  let c := c.toNat
  let a := Reg.CAN_STATUS c
  if s.txState c b ≠ 2 ∨ r.res = 3 then s.noEvent
  else if r.res = 0 then
    let t := ((s.setFld a 31 24 (s.fld a 31 24 - 1)).canFstate c).txDone c b 3
    .next (if s.canMode c = 2 then t.canEcho c b sof.toNat else t)
  else
    let s := if r.res = 2 then ((s.setFld a 31 24 (min 255 (s.fld a 31 24 + 8))).setFld a 2 0 r.lec.toNat).canFstate c else s
    if bitOf (s.can c).abort b then .next (s.txDone c b 6)
    else if bitOf (s.fld (Reg.CAN_CTRL c) 7 5) b then .next (s.txDone c b (if r.res = 1 then 4 else 5))
    else .next (s.setTx c b 1)

/-- A release of slots: ignored where HEAD − TAIL would be negative or above 64 (R390). -/
def State.tailRelease (s : State) (head tail v : Nat) : State :=
  let d := signed 16 (s.fld head 15 0 + 65536 - v % 65536)
  if 0 ≤ d ∧ d ≤ 64 then s.setFld tail 15 0 v else s

/-- CAN_RXTAIL_WRITE (R390). -/
def execCanRxtailWrite (c : BitVec 2) (q : BitVec 1) (v : Half) (s : State) : Out :=
  .next (s.tailRelease (Reg.CAN_RXHEAD c.toNat q.toNat) (Reg.CAN_RXTAIL c.toNat q.toNat) v.toNat)

/-- CAN_RXCFG written: while EN is 1 only a write that clears it acts; EN needs the whole ring in Home memory (R390). -/
def State.rxCfgWrite (s : State) (c q v : Nat) : State :=
  let a := Reg.CAN_RXCFG c q
  if s.flag a 31 then (if bitOf v 31 then s else (s.setFld a 1 0 (bits v 1 0)).setFlag a 31 false)
  else
    let s := s.setFld a 1 0 (bits v 1 0)
    let n := 64 * (16 + slotPayload (bits v 1 0))
    s.setFlag a 31 (bitOf v 31 && decide (s.fld (Reg.CAN_RXBASE c q) 31 4 * 16 + n ≤ 0x100000))

/-! ## 10BASE-T1S (R391, R392) -/

/-- T1S_TXPUSH written: the frame at a Home address is queued (R392). -/
def State.txPush (s : State) (n v : Nat) : State :=
  let a := homeSpace + bits v 31 4 * 16
  s.t1sPush n ⟨s.loadNat (a + 12) 4, s.load a (16 + s.loadNat (a + 4) 2)⟩

/-- T1S_TXPUSH (R392). -/
def execT1sTxpush (n : Fin 2) (v : Half) (s : State) : Out := .next (s.txPush n v.toNat)

/-- The head frame is released at its launch time (R392). -/
def State.t1sRelease (s : State) (n : Nat) : Option State :=
  let t := s.t1s n
  match t.queue with
  | x :: _ =>
    if s.flag (Reg.T1S_CTRL n) 31 && !t.released && (t.late || s.launchDue x.lt) then
      let s := s.setT1s n { t with released := true }
      some (if t.late then s.satFld (Reg.T1S_TXSTAT n) 15 8 else s)
    else none
  | [] => none

/-- T1S_TX: the released frame is sent at a transmit opportunity (R391, R392). -/
def execT1sTx (n : Fin 2) (s : State) : Out :=
  let t := s.t1s n
  if s.flag (Reg.T1S_CTRL n) 31 ∧ t.released = true then
    .next (((s.setT1s n { t with
      queue := t.queue.tail
      late := match t.queue.tail with
        | x :: _ => s.launchLate x.lt
        | [] => false
      released := false }).setFld (Reg.T1S_TXSTAT n) 4 0 t.queue.tail.length).seqFld (Reg.T1S_TXSTAT n) 31 16)
  else s.noEvent

/-- Is a frame addressed to the station, to broadcast or to a group (R392)? -/
def State.t1sMine (s : State) (n : Nat) (bs : List Byte) : Bool :=
  (bs.getD 0 0).toNat % 2 == 1 ||
    leNat (bs.take 6) == s.fld (Reg.T1S_MAC0 n) 31 0 + s.fld (Reg.T1S_MAC1 n) 15 0 * 2 ^ 32

/-- T1S_RX: a frame is received; an accepted one is stored, a longer one or one that finds the ring full is dropped
(R391, R392). -/
def execT1sRx (n : Fin 2) (bs : List Byte) (bad : Bool) (s : State) : Out :=
  let t := s.t1s n
  let h := Reg.T1S_RXHEAD n
  if !s.flag (Reg.T1S_CTRL n) 31 then s.noEvent
  else if !s.t1sMine n bs then .next s
  else if 1520 < bs.length ∨ 64 ≤ s.slotsUsed h (Reg.T1S_RXTAIL n) then
    .next ((s.count32 (Reg.T1S_RXDROP n)).setT1s n { t with drops := t.drops + 1 })
  else
    let tagged := bs.getD 12 0 == 0x81 && bs.getD 13 0 == 0
    let a := homeSpace + s.fld (Reg.T1S_RXBASE n) 31 4 * 16 + 1536 * (s.fld h 15 0 % 64)
    .next (((s.store a (leBytes 2 bs.length ++ leBytes 1 ((if bad then 1 else 0) + if tagged then 2 else 0) ++ leBytes 1 0
      ++ leBytes 4 t.drops ++ leBytes 8 s.raw ++ bs)).seqFld h 15 0).setT1s n { t with drops := 0 })

/-- PLCA_STATUS: beacons, PLCA status and activity on the segment change; `coll`: a collision was seen (R392). -/
def execPlcaStatus (n : Fin 2) (link ok beacon coll : Bool) (s : State) : Out :=
  let a := Reg.T1S_STATUS n
  if s.flag (Reg.T1S_CTRL n) 31 then
    let s := ((s.setFlag a 0 link).setFlag a 1 ok).setFlag a 2 beacon
    .next (if coll then s.setFlag a 3 true else s)
  else s.noEvent

/-- T1S_CTRL written: while EN is 1 only a write that clears it acts (R392). -/
def State.t1sCtrl (s : State) (n v : Nat) : State :=
  let a := Reg.T1S_CTRL n
  if s.flag a 31 && bitOf v 31 then s
  else ((s.setFld a 31 30 (bits v 31 30)).setFld a 25 0 (bits v 25 0))

/-! ## Launches (R360) -/

/-- LAUNCH_RELEASE: a queued Ethernet, CAN or T1S frame is released at its launch time, or late. -/
def execLaunchRelease (i : LaunchItem) (s : State) : Out :=
  let r := match i with
    | .eth n q => s.ethRelease n.toNat q.toNat
    | .can c b => s.canRelease c.toNat b
    | .t1s n => s.t1sRelease n
  match r with
  | some t => .next t
  | none => s.noEvent

/-! ## Encoder ports (R393 to R396) -/

/-- Port `p`. -/
def State.enc (s : State) (p : Nat) : EncSt := Map.get EncSt.idle s.field.enc p
/-- Replace it. -/
def State.setEnc (s : State) (p : Nat) (x : EncSt) : State :=
  { s with field := { s.field with enc := Map.put EncSt.idle s.field.enc p x } }

/-- QUAD mode. -/
def State.encQuad (s : State) (p : Nat) : Bool := s.flag (Reg.ENC_CFG p) 30
/-- EN. -/
def State.encOn (s : State) (p : Nat) : Bool := s.flag (Reg.ENC_CFG p) 31

/-- A Gray-coded word of `n` bits as binary. -/
def grayToBin : Nat → Nat → Nat
  | 0, v => v
  | n + 1, v => grayToBin n (v ^^^ (v / 2 ^ (2 ^ n)))

/-- An SSI word as binary. -/
def State.ssiWord (s : State) (p w : Nat) : Nat :=
  let v := w % 2 ^ s.fld (Reg.ENC_CFG p) 27 22
  if s.flag (Reg.ENC_CFG p) 29 then grayToBin 6 v else v

/-- Capture port `p` at a tick at which a loop reads it (R394, R395). An SSI transfer that is not complete leaves the
previous value, and is counted. The velocity of the first capture has no previous position: it is a free value. -/
def State.encCapture (s : State) (p : Nat) : State :=
  let e := s.enc p
  if !s.encOn p then s
  else
    let quad := s.encQuad p
    let late := !quad && e.word.isNone
    let w := if quad then e.count.toNat else match e.word with
      | some w => s.ssiWord p w
      | none => e.last
    let st := s.fld (Reg.ENC_CFG p) 21 16
    let raw := if quad then w else w % 2 ^ st
    let pos := (if quad then w * 2 ^ s.fld (Reg.ENC_SCALE p) 12 8 else raw * 2 ^ (32 - st)) % 2 ^ 32
    let d := signed 32 (pos + 2 ^ 32 - e.pos) * 2 ^ s.fld (Reg.ENC_SCALE p) 3 0
    let vel := wrap 32 (clampInt (-(2 ^ 31)) (2 ^ 31 - 1) d)
    let t := s.take 1
    let s := if e.read then s else t.2
    let vel := if e.read then vel else (Config.freeWord t.1).toNat % 2 ^ 32
    let s := if late then s.satFld (Reg.ENC_STAT p) 31 16 else s
    let s := (s.wr (Reg.ENC_RAW p) (BitVec.ofNat 64 raw)).wr (Reg.ENC_MT p)
      (BitVec.ofNat 64 (if quad then 0 else w / 2 ^ st % 2 ^ 32))
    s.setEnc p { e with
      pos := pos
      vel := vel
      read := true
      busy := false
      word := none
      last := w }

/-- ENC_QUAD_EDGE: an A or B edge counts up or down (R393). -/
def execEncQuadEdge (p : BitVec 4) (up : Bool) (s : State) : Out :=
  let p := p.toNat
  if s.encOn p ∧ s.encQuad p then
    .next (s.setEnc p { s.enc p with count := if up then (s.enc p).count + 1 else (s.enc p).count - 1 })
  else s.noEvent

/-- Home firmware stamps an event of encoder port `p`, or (16) of the field bank (R359, R395). -/
def State.encStamp (s : State) (p : Nat) : State :=
  let t := s.homeStamp s.raw
  { t.2 with field := { t.2.field with encStamps := Map.put 0 t.2.field.encStamps p t.1 } }

/-- ENC_EVENT: an index edge, or an SSI framing error (R395). -/
def execEncEvent (p : BitVec 4) (index : Bool) (s : State) : Out :=
  let a := Reg.ENC_STAT p.toNat
  if !s.encOn p.toNat || s.encQuad p.toNat != index then s.noEvent
  else .next ((((if index then s.setFlag a 7 true else s.satFld a 15 8).encStamp p.toNat)).raiseEv 143)

/-- Is every field of an ENC_CFG word in range, in either mode (R396: "any field outside its range")? -/
def encOk (v : Nat) : Bool :=
  let n := bits v 27 22
  let st := bits v 21 16
  decide (8 ≤ n) && decide (n ≤ 40) && decide (8 ≤ st) && decide (st ≤ 32) && decide (st ≤ n)
    && decide (1 ≤ bits v 15 10) && decide (bits v 15 10 ≤ 24) && decide (7 ≤ bits v 9 0) && decide (bits v 9 0 ≤ 159)

/-- ENC_CFG written: while EN is 1 only a write that clears it acts; setting it is refused for a field out of range
(R396). -/
def State.encCfg (s : State) (p v : Nat) : State :=
  let a := Reg.ENC_CFG p
  if s.flag a 31 then
    if bitOf v 31 then s else ((s.wr a (BitVec.ofNat 64 (v % 2 ^ 32 &&& 0xEFFFFFFF))).setFlag (Reg.ENC_STAT p) 0 false)
  else
    let on := bitOf v 31 && encOk v
    let s := (s.wr a (BitVec.ofNat 64 (v % 2 ^ 32 &&& 0xEFFFFFFF))).setFlag a 31 on
    if on then ((s.setFlag (Reg.ENC_STAT p) 0 true).setEnc p { s.enc p with
      read := false
      busy := false
      word := none })
    else if bitOf v 31 then s.setFlag (Reg.ENC_STAT p) 6 true else s

/-- ENC_CFG_WRITE (R396). -/
def execEncCfgWrite (p : BitVec 4) (v : Half) (s : State) : Out := .next (s.encCfg p.toNat v.toNat)

/-! ## PWM (R397 to R399) -/

/-- PERIOD of a PAIR word as it acts. -/
def pwmPeriod (w : Nat) : Nat := max 16 (bits w 15 0)

/-- High time for an output (R397). -/
def highTime (out period : Nat) : Nat :=
  (roundRat .rne 0 ((max 0 (signed 32 out) : Int) * (period : Int) / (2 ^ 31 : Rat))).toNat

/-- PWM_PERIOD_START: pair `k` starts a period: its settings and the high times of its outputs come into force; with COMP
an output of the odd channel is recorded only (R397, R399). -/
def execPwmPeriodStart (k : Fin 12) (s : State) : Out :=
  let w := (s.rd (Reg.PWM_PAIR k)).toNat
  let t := pwmPeriod w
  let s := { s with field := { s.field with pair := Map.put 0 s.field.pair k w } }
  let one := fun (s : State) (n : Nat) =>
    s.setFld (Reg.PWM_CH n) 15 0 (min 65535 (highTime (Map.get 0 s.field.duty n) t))
  let s := one s (2 * k)
  .next (if bitOf w 30 then s else one s (2 * k + 1))

/-- Does channel `n` drive its duty, or is it at its SAFE level (R398)? -/
def State.pwmDrives (s : State) (n : Nat) : Bool :=
  s.flag (Reg.PWM_CH n) 31 && s.flag Reg.CE_CTRL 0 && s.flag Reg.PERMIT_STATUS 31

/-! ## MOTION_PERMIT (R400 to R404) -/

/-- A kick of Home pair `p`. -/
def State.permitKick (s : State) (p : Nat) : State :=
  { s with permit := if p = 0 then { s.permit with kick0 := s.raw } else { s.permit with kick1 := s.raw } }

/-- PERMIT_KICK (R404). -/
def execPermitKick (p : Fin 2) (s : State) : Out := .next (s.permitKick p)

/-- KICK_MS in ns, held in 1 to 100. -/
def State.kickNs (s : State) : Nat := 1000000 * max 1 (min 100 (s.fld Reg.PERMIT_CTRL 15 8))

/-- PERMIT_KICK_MISS: a window passes without a kick of pair `p` while the permit toggles (R401). -/
def execPermitKickMiss (p : Fin 2) (s : State) : Out :=
  if s.flag Reg.PERMIT_STATUS 31 ∧ (if p = 0 then s.permit.kick0 else s.permit.kick1) + s.kickNs ≤ s.raw then
    .next (s.permitStop 5)
  else s.noEvent

/-- May the permit be armed (R402, R471)? Not without K_PUF (R458). -/
def State.permitArmable (s : State) : Bool :=
  let c := s.fld Reg.PERMIT_STATUS 30 28
  s.flag Reg.SEC_LIFE 29 &&
  !s.flag Reg.PERMIT_STATUS 31 && (c == 1 || c == 2 || c == 6) && !s.permit.badRead && !s.flag Reg.SEC_DBGSTAT 25

/-- An arming key of pair `p`: 0x5A of pair 0, then 0xA5 of pair 1 within 1 ms; anything else is ignored (R402, R404). -/
def State.permitArm (s : State) (p v : Nat) : State :=
  if !s.permitArmable || s.permit.armedAt.isSome then s
  else if p = 0 ∧ v % 256 = 0x5A then { s with permit := { s.permit with keyAt := some s.raw } }
  else if p = 1 ∧ v % 256 = 0xA5 then
    match s.permit.keyAt with
    | some t => if s.raw ≤ t + 1000000 then { s with permit := { s.permit with
        keyAt := none
        armedAt := some s.raw } }.setFld Reg.PERMIT_STATUS 30 28 0
      else s
    | none => s
  else s

/-- PERMIT_ARM (R402). -/
def execPermitArm (p : Fin 2) (v : Half) (s : State) : Out := .next (s.permitArm p v.toNat)

/-- PERMIT_START: the first edge, 10 ms or more after the arming (R402). -/
def execPermitStart (s : State) : Out :=
  match s.permit.armedAt with
  | some t => if t + 10000000 ≤ s.raw then
      .next ({ s with permit := { s.permit with
        armedAt := none
        kick0 := s.raw
        kick1 := s.raw } }.setFld Reg.PERMIT_STATUS 31 28 8)
    else s.noEvent
  | none => s.noEvent

/-- PERMIT_STOP: a write of STOP (R404). -/
def execPermitStop (s : State) : Out := .next (s.permitStop 2)

/-- PERMIT_READBACK_SAMPLE: every 0.5 us the pins are read back; a mismatch stops the permit (R401). -/
def execPermitReadbackSample (good : Bool) (s : State) : Out :=
  let s := { s with permit := { s.permit with badRead := !good } }
  .next (if good then s else s.permitStop 6)

/-! ## General field pins (R405, R406) -/

/-- GFP_EDGE: the debounced level of pin `i` changes. -/
def execGfpEdge (i : BitVec 4) (level : Bool) (s : State) : Out :=
  let a := Reg.GFP_CFG i.toNat
  if s.flag a 28 = level then s.noEvent
  else
    let s := s.setFlag a 28 level
    let sel := s.fld a 27 26
    let s := if sel = 3 ∨ (sel = 1 ∧ level = true) ∨ (sel = 2 ∧ level = false) then
      (s.setFlag Reg.GFP_EDGES i.toNat true).raiseEv 151 else s
    .next (if s.flag a 25 then s.wr (Reg.CE_IN (s.fld a 24 18)) (if level then 0x7FFFFFFF else 0) else s)

/-! ## Field-bank diagnostics (R407 to R409) -/

/-- Is field-bank pin `i` a permit pin (R517)? -/
def isPermitPin (i : Nat) : Bool := 24 ≤ i && i ≤ 27

/-- Set a fault bit of pin `i`; FB_FAULT and ENC_EVENT are raised; a fault on a permit pin stops the permit (R395, R408,
R409). -/
def State.fbFault (s : State) (i k : Nat) : State :=
  let s := (((s.setFlag (Reg.FB_DIAG i) k true).raiseEv 144).encStamp 16).raiseEv 143
  if isPermitPin i then s.permitStop 6 else s

/-- FB_DIAG_SLOT: the inputs found open (4), shorted to a neighbour (3), or at link start reversed (5), by pin (R408). A
periodic slot runs only with DIAG_EN. -/
def execFbDiagSlot (linkStart : Bool) (found : List (Nat × BitVec 2)) (s : State) : Out :=
  if linkStart || s.flag Reg.FB_CTRL 0 then
    .next (s.each (found.filter fun x => decide (x.1 < 141)) fun s x =>
      if x.2 = 0 then s.fbFault x.1 4
      else if x.2 = 1 then s.fbFault x.1 3
      else if linkStart then s.fbFault x.1 5 else s)
  else s.noEvent

/-- FB_FAULT: output pin `i` is found shorted: 1 to GND, 2 to VFIELD, 3 to a neighbour. With OFF_ON_FAULT it goes to
high impedance (R408). -/
def execFbFault (i : Fin 141) (k : BitVec 2) (s : State) : Out :=
  if k = 0 then s.noEvent
  else
    let s := (s.setFlag (Reg.FB_DIAG i) 0 true).fbFault i k.toNat
    .next (if s.flag Reg.FB_CTRL 1 then
      { s with field := { s.field with offPins := putBits s.field.offPins i i 1 } }.setFlag (Reg.FB_DIAG i) 0 false else s)

/-- FB_FOLDBACK: the driver of pin `i` folds back, or returns to its limit; `limit`: the pin is at its current limit
then (R407, R409). -/
def execFbFoldback (i : Fin 141) (folded limit : Bool) (s : State) : Out :=
  .next ((s.setFlag (Reg.FB_DIAG i) 6 folded).setFlag (Reg.FB_DIAG i) 0 limit)

end Sys2Proof.Machine
end

