-- ==== Sys2Proof/Machine/Hbm.lean ====
section
/-! DEFINITION. The HBM controller, pace monitors, upper-level arbiters, the Home gate and timing perturbation (R17, R23,
R24, R78 to R80, R274, R276, R296 to R301). -/

namespace Sys2Proof.Machine

/-! ## HBM (R78, R80, R82) -/

/-- How an HBM access ends (R80). -/
inductive HbmEnd
  | ok | corrected | retried | uncorrectable | retryFailed
  deriving DecidableEq, Repr

/-- The end that a command's three bits name. -/
def hbmEndOf (r : BitVec 3) : HbmEnd :=
  if r = 1 then .corrected else if r = 2 then .retried else if r = 3 then .uncorrectable else if r = 4 then .retryFailed else .ok

/-- An uncorrectable HBM error at `a`: counted for the half that owns its chunk (R77), the chunk recorded, the fault HBM_UE
recorded (R80). -/
def State.hbmUe (s : State) (a : Nat) : State :=
  ((s.countReg (Reg.HBMC_UE (hbmHalf a)) 1).wr Reg.HBMC_ERRADDR (BitVec.ofNat 64 (2 ^ 63 + a % 2 ^ 35 / 256 * 256))).fault 0x03 none none false
    (a / 16 % 2 ^ 32)

/-- The requesting instruction receives an error completion: MEM_ERROR, imprecise (R80, R135). One that an exception of
its command has cancelled adds to the record (R138). -/
def State.memError (s : State) (f seq a : Nat) : State :=
  match (s.face f).window.find? fun e => e.seq == seq with
  | some e =>
    let t := s.takeExc f ⟨0x0E, a % 2 ^ 35⟩ false e.pc
    t.setFace f { t.face f with cancelled := (t.face f).cancelled.filter fun c => c.1 != seq }
  | none => match (s.face f).cancelled.find? fun c => c.1 == seq with
    | some c =>
      let t := s.recordExc f ⟨0x0E, a % 2 ^ 35⟩ false true c.2
      t.setFace f { t.face f with cancelled := (t.face f).cancelled.filter fun c => c.1 != seq }
    | none => s

/-- HBM_ACCESS_COMPLETE: an access at `a` ends; its half follows from the address (R77). An uncorrectable one gives the
requesting instruction, entry `seq` of a Face, an error completion (R80); where on-die ECC found it, the word stays bad until it
is written. -/
def execHbmAccessComplete (a : Nat) (r : BitVec 3) (face : Option (Fin 6)) (seq : Nat) (s : State) : Out :=
  let ue := fun (s : State) => match face with
    | some f => (s.hbmUe a).memError f seq a
    | none => s.hbmUe a
  .next (match hbmEndOf r with
    | .ok => s
    | .corrected => s.countReg (Reg.HBMC_CE (hbmHalf a)) 1
    | .retried => s.countReg Reg.HBMC_RETRY 1
    | .uncorrectable => ue (s.markBad (a / 16 * 16) 2)
    | .retryFailed => ue (s.countReg Reg.HBMC_RETRY 1))

/-- HBM_REFRESH: a bank is refreshed. It delays a colliding read and changes nothing else (R78). -/
def execHbmRefresh (s : State) : Out := .next s

/-- HBM_TEMP_REPORT: the stack reports its temperature in °C: above 85 the refresh rate doubles, above 95 HOT is set and
HBM_HOT raised (R78). -/
def execHbmTempReport (t : BitVec 8) (s : State) : Out :=
  let c := t.toInt
  let s := (s.setFlag Reg.HBMC_STATUS 30 (decide (85 < c))).setFlag Reg.HBMC_STATUS 31 (decide (95 < c))
  .next (if 95 < c then s.raiseEv 13 else s)

/-- HBM_TRAINED: half `h` has trained and serves traffic; the stack has left self-refresh (R82, R450). -/
def execHbmTrained (h : BitVec 1) (s : State) : Out :=
  .next ((s.setFlag Reg.HBMC_STATUS h.toNat true).setFlag Reg.HBMC_STATUS 29 false)

/-! ## Pace monitors (R23, R24) -/

/-- PACE_WINDOW: the monitor of domain `d` (Faces 0 to 5, common 6, Home 7) closes its 1 us window with `n` cycles. Two
low windows in a row raise PACE_LOW. A domain that is off or in reset has no window (R23). The windows of a Face count for its pace in
the major frame (R238). -/
def execPaceWindow (d : BitVec 3) (n : BitVec 14) (s : State) : Out :=
  let f := d.toNat
  let on := f == 7 || ((s.cstate == 2 || s.cstate == 3) && decide (s.fld Reg.SEC_PSTATE 31 29 < 3)
    && (f == 6 || (!(s.face f).gated && !(s.face f).resetting)))
  if !on then s.noEvent
  else
  let a := Reg.PACE_FACE f
  let was := s.flag a 30
  let low := decide (n.toNat < s.fld Reg.PACE_LOW 13 0)
  let s := s.wr a (BitVec.ofNat 64 (2 ^ 31 + (if low then 2 ^ 30 else 0) + n.toNat))
  let s := if f < 6 then { s with sched := { s.sched with
      paceSum := Map.put 0 s.sched.paceSum f (Map.get 0 s.sched.paceSum f + n.toNat)
      paceN := Map.put 0 s.sched.paceN f (Map.get 0 s.sched.paceN f + 1) } } else s
  .next (if low && was then s.raiseEv 12 else s)

/-! ## Arbiters (R274, R276, R278) -/

/-- ARB_STARVE: a request of class `c` at arbitration point `k` (a bit of ARB_STARVE) has waited `us` microseconds. At the lower-level
points, the squares, class 3 is not watched (R276). -/
def execArbStarve (k : BitVec 5) (q : ArbWait) (s : State) : Out :=
  let k := k.toNat
  if decide (k < 6) && q.cls == 3 then s.noEvent
  else if s.flag Reg.ARB_CTRL 0 && decide (k < 24) && decide (max 1 (s.fld Reg.ARB_CTRL 31 16) < q.us) then
    if s.flag Reg.ARB_STARVE k then .next s else .next ((s.setFlag Reg.ARB_STARVE k true).raiseEv 18)
  else s.noEvent

/-- ARB_REVOKE: a grant is revoked; the transfer restarts later, repeating bytes in time only (R274). -/
def execArbRevoke (s : State) : Out := .next (s.countReg Reg.ARB_REVOKE 1)

/-! ## The Home gate (R16, R17) -/

/-- GATE_READ: a Home-side access of `n` bytes through the gate: a read, or a write of `w`. Through it a Home core reads
and writes the Board (R16). -/
def execGateRead (a n : Nat) (w : Option (List (BitVec 8))) (s : State) : Out :=
  if s.gateDown then .next (s.answer .computeDown)
  else if !isBoard a || !isBoard (a + n - 1) || s.unscrubbed a n then .next (s.answer .busError)
  else match w with
    | none => .next (s.answer (.ok (s.load a n)))
    | some bs => .next ((s.store a (bs.take n)).answer (.ok []))

/-! ## Perturbation (R298 to R301) -/

/-- Are PERT writes allowed by the lifecycle state, the debug level and the power state (R476, R477)? -/
def State.pertAllowed (s : State) : Bool :=
  s.fld Reg.SEC_DBGSTAT 31 30 != 0 && s.fld Reg.SEC_LIFE 31 30 != 2 && decide (s.fld Reg.SEC_PSTATE 31 29 < 3)

/-- A channel that R300 names. -/
def pertChannel (c : Nat) : Bool :=
  let b := c / 256
  let k := c % 256
  if b < 6 then decide (k ≤ 0x3B)
  else if b = 6 then
    decide (k ≤ 0x28) || (decide (0x40 ≤ k) && decide (k < 0x80) &&
      (let x := (k - 0x40) / 4 % 4
       let y := (k - 0x40) / 16
       let d := k % 4
       !(d == 0 && x == 3) && !(d == 1 && x == 0) && !(d == 2 && y == 3) && !(d == 3 && y == 0)))
  else false

/-- ACTIVE follows the settings: EN is 1 and some setting is non-zero (R301). -/
def State.pertRefresh (s : State) : State :=
  let some_ := s.flag Reg.PERT_CTRL 1 || !s.pertDelay.isEmpty || s.rd Reg.PERT_BP != 0 || s.rd Reg.PERT_HBM != 0
    || s.rd Reg.PERT_LINK != 0
  s.setFlag Reg.PERT_STATUS 1 (s.flag Reg.PERT_CTRL 0 && some_)

/-- A refused PERT write (R298). -/
def State.pertDenied (s : State) : State := s.setFlag Reg.PERT_STATUS 0 true

/-- A write of a PERT register other than PERT_DELAY, at its key. -/
def State.pertWrite (s : State) (a v : Nat) : State :=
  if !s.pertAllowed then s.pertDenied
  else match regRow? a with
    | some r => (s.wr a (BitVec.ofNat 64 (r.written false (s.rd a).toNat v))).pertRefresh
    | none => s

/-- PERT_DELAY written: the selected channel, or with BCAST every channel of its block (R301). -/
def State.pertDelayWrite (s : State) (v : Nat) : State :=
  if !s.pertAllowed then s.pertDenied
  else
    let c := s.fld Reg.PERT_CHSEL 11 0
    let all := if s.flag Reg.PERT_CHSEL 12 then (List.range 256).map fun k => c / 256 * 256 + k else [c]
    { s with pertDelay := (all.filter pertChannel).foldl (fun m k => Map.put 0 m k (v % 64)) s.pertDelay }.pertRefresh

/-- PERT_WRITE: register `k` of the block, in units of 8 bytes. -/
def execPertWrite (k : BitVec 3) (v : Word) (s : State) : Out :=
  .next (if k = 3 then s.pertDelayWrite v.toNat else s.pertWrite (Reg.PERT_CTRL + 8 * k.toNat) v.toNat)

/-- PERT_DELAY_WRITE (R301). -/
def execPertDelayWrite (v : Word) (s : State) : Out := .next (s.pertDelayWrite v.toNat)

end Sys2Proof.Machine
end

