-- ==== Sys2Proof/Machine/Ce.lean ====
section
/-! DEFINITION. The control engine (R307 to R324) and the hold controller (R338 to R341). -/

namespace Sys2Proof.Machine

/-! ## Loop programs (R311 to R314, R323) -/

/-- The fields of a loop instruction (R311). -/
structure CeIns where
  op : Nat
  rd : Nat
  ra : Nat
  rb : Nat
  ci : Nat
  sel : Nat
  deriving DecidableEq, Repr

/-- Decode a program word. -/
def ceIns (w : Nat) : CeIns :=
  { op := bits w 31 27, rd := bits w 26 23, ra := bits w 22 19, rb := bits w 18 15, ci := bits w 14 10, sel := bits w 9 0 }

/-- Program word `i`. -/
def State.ceWord (s : State) (i : Nat) : CeIns := ceIns (s.rd (Reg.CE_PMEM i)).toNat

/-- The program at word `i`, up to its END, at most `fuel` instructions; none where no END follows. -/
def State.ceProgram (s : State) : Nat → Nat → Option (List CeIns)
  | 0, _ => none
  | k + 1, i =>
    if 8192 ≤ i then none
    else
      let w := s.ceWord i
      if w.op = 0x0E then some [w] else (s.ceProgram k (i + 1)).map fun l => w :: l

/-- Is SEL legal for its operation (R313, R323)? -/
def ceSelOk (w : CeIns) : Bool :=
  let kind := w.sel / 128
  let i := w.sel % 128
  match w.op with
  | 0x01 => (kind ≤ 1 && i < 16) || kind == 2 || (kind == 3 && i < 64)
  | 0x02 => w.sel / 256 == 0
  | 0x09 | 0x0B | 0x0C => w.sel / 16 == 0
  | 0x0D => (kind == 0 && i < 24) || kind == 1 || kind == 2
  | _ => w.sel == 0

/-- The OUT of a program. -/
def ceOut (l : List CeIns) : Option CeIns := l.find? fun w => w.op == 0x0D

/-- Loop `n`'s OUT target (its SEL) in the program that a CE_LOOP_PROG word names. -/
def State.ceTarget (s : State) (prog : Nat) : Nat :=
  match s.ceProgram 128 (bits prog 12 0) with
  | some l => match ceOut l with
    | some w => w.sel
    | none => 256
  | none => 256

/-- Do two loops agree in PERIOD, PHASE, OUTDLY and OUT target (R319)? `c`, `o`, `p` are the CFG, OUT and PROG words. -/
def State.ceAlike (s : State) (m c o p : Nat) : Bool :=
  bits (s.rd (Reg.CE_LOOP_CFG m)).toNat 27 4 == bits c 27 4 && s.fld (Reg.CE_LOOP_OUT m) 7 0 == bits o 7 0
    && s.ceTarget (Map.get 0 s.ce.prog m) == s.ceTarget p

/-- Is loop `n` enabled: EN is 1, or has been cleared and its next tick has not come (R323)? -/
def State.loopOn (s : State) (n : Nat) : Bool := s.flag (Reg.CE_LOOP_CFG n) 31 || bitOf s.ce.closing n

/-- The checks of an enable of loop `n` with CFG word `c`, in the order of R323: 0, or the code of CE_ERR. -/
def State.ceCheck (s : State) (n c : Nat) : Nat :=
  let o := (s.rd (Reg.CE_LOOP_OUT n)).toNat
  let p := (s.rd (Reg.CE_LOOP_PROG n)).toNat
  let g := bits o 31 26
  match s.ceProgram 128 (bits p 12 0) with
  | none => 1
  | some l =>
    if l.length < 2 ∨ (l.filter fun w => w.op == 0x0D).length ≠ 1 ∨ l.any (fun w => w.op == 0 || decide (0x10 < w.op)) then 1
    else if !l.all ceSelOk then 2
    else if 2047 < bits p 26 16 + 31 ∨ l.any (fun w => w.op == 0x0A && w.ci == 31) then 3
    else if bits c 27 16 < bits c 15 4 ∨ bits o 7 0 < 10 ∨ 240 < bits o 7 0 ∨ bits c 29 28 = 3 then 4
    else if g ≠ 63 ∧ (s.ceTarget p / 128 = 2 ∨ (List.range 64).any (fun m =>
        m != n && s.loopOn m && s.fld (Reg.CE_LOOP_OUT m) 31 26 == g && !s.ceAlike m c o p)) then 5
    else 0

/-- CE_ERR. -/
def State.ceErr (s : State) (code loop : Nat) : State := (s.setFld Reg.CE_ERR 13 8 loop).setFld Reg.CE_ERR 7 0 code

/-- The state words of loop `n` become 0 (R323). -/
def State.ceZero (s : State) (n : Nat) : State := s.each (List.range 16) fun s w => s.wr (Reg.CE_STATE n w) 0

/-- EN of loop `n` has been cleared, which takes effect at the loop's next tick; without ticks it does so at once (DESIGN CHOICE,
assumption 130). -/
def State.loopClosing (s : State) (n : Nat) (on : Bool) : State :=
  { s with ce := { s.ce with closing := putBits s.ce.closing n n (if on && s.flag Reg.CE_CTRL 0 then 1 else 0) } }

/-- CE_LOOPn_CFG written: an enable is checked and granted, or refused with a code (R323). The program and the coefficient
window are those of the enable. -/
def State.loopCfg (s : State) (n v : Nat) : State :=
  let a := Reg.CE_LOOP_CFG n
  let was := s.flag a 31
  let v' := BitVec.ofNat 64 (v % 2 ^ 32 / 16 * 16)
  if bitOf v 31 && !was then
    let e := s.ceCheck n v
    let s := s.wr a v'
    if e = 0 then
      ({ s with ce := { s.ce with
        prog := Map.put 0 s.ce.prog n (s.rd (Reg.CE_LOOP_PROG n)).toNat
        outReg := Map.put 0 s.ce.outReg n (s.rd (Reg.CE_LOOP_OUT n)).toNat
        eligible := putBits s.ce.eligible n n 1 } }.loopClosing n false).ceZero n
    else (s.setFlag a 31 false).ceErr e n
  else if was && !bitOf v 31 then (s.wr a v').loopClosing n true
  else s.wr a v'

/-- CE_LOOP_CFG_WRITE (R323). -/
def execCeLoopCfgWrite (n : BitVec 6) (v : Half) (s : State) : Out := .next (s.loopCfg n.toNat v.toNat)

/-- LOOP_HOLD: sets or clears LOOP_HOLD of loop `n` (R316, R317). -/
def execLoopHold (n : BitVec 6) (on : Bool) (s : State) : Out := .next (s.setFlag (Reg.CE_LOOP_CFG n.toNat) 30 on)

/-- A word-1 write of coefficient `i` by pair `p` stages its SHIFT; -32 is refused (R315). -/
def State.shiftWrite (s : State) (p i v : Nat) : State :=
  if v % 64 = 32 then s.setFld Reg.CE_ERR 7 0 7
  else { s with ce := { s.ce with staged := Map.put 0 s.ce.staged p (1 + i + 4096 * (v % 64)) } }

/-- CE_COEF_SHIFT_WRITE (R315). -/
def execCeCoefShiftWrite (p : Fin 2) (i : BitVec 11) (v : Half) (s : State) : Out := .next (s.shiftWrite p i.toNat v.toNat)

/-- A word-0 write applies VALUE, with the staged SHIFT if that names the same entry; the latch is consumed (R315). -/
def State.valueWrite (s : State) (p i v : Nat) : State :=
  let st := Map.get 0 s.ce.staged p
  let s := s.wr (Reg.CE_COEF_VALUE i) (BitVec.ofNat 64 (v % 2 ^ 32))
  let s := if st % 4096 = 1 + i then s.wr (Reg.CE_COEF_SHIFT i) (BitVec.ofNat 64 (st / 4096)) else s
  { s with ce := { s.ce with staged := Map.put 0 s.ce.staged p 0 } }

/-- CE_COEF_VALUE_WRITE (R315). -/
def execCeCoefValueWrite (p : Fin 2) (i : BitVec 11) (v : Half) (s : State) : Out := .next (s.valueWrite p i.toNat v.toNat)

/-- PENDING of CE_SPCOMMIT. -/
def State.spPending (s : State) : Bool := s.flag Reg.CE_SPCOMMIT 31

/-- GO requests a swap; while one is pending it is ignored with SP_BUSY (R321). -/
def State.spCommit (s : State) : State :=
  if s.spPending then s.setFld Reg.CE_ERR 7 0 8
  else { s with ce := { s.ce with goAt := s.raw } }.setFlag Reg.CE_SPCOMMIT 31 true

/-- CE_SPCOMMIT (R321). -/
def execCeSpcommit (v : Half) (s : State) : Out := if bitOf v.toNat 0 then .next s.spCommit else .next s

/-- A write of setpoint `k` of the write bank (R321). -/
def State.spWrite (s : State) (k v : Nat) : State :=
  if s.spPending then s.setFld Reg.CE_ERR 7 0 8 else s.wr (Reg.CE_SPW k) (BitVec.ofNat 64 (v % 2 ^ 32))

/-- CE_SPW_WRITE (R321). -/
def execCeSpwWrite (k : Byte) (v : Half) (s : State) : Out := .next (s.spWrite k.toNat v.toNat)

/-- Does loop `n` still need its program: it is enabled, or an execution of it waits or is in progress (R323)? -/
def State.loopBusy (s : State) (n : Nat) : Bool :=
  s.loopOn n || s.ce.queue.any (fun d => d.loop == n) || s.ce.run.any fun x => x.loop == n

/-- Does word `i` belong to the program of such a loop, and of which? -/
def State.progOwner (s : State) (i : Nat) : Option Nat :=
  (List.range 64).find? fun n =>
    let p := bits (Map.get 0 s.ce.prog n) 12 0
    s.loopBusy n && decide (p ≤ i) && (match s.ceProgram 128 p with
      | some l => decide (i < p + l.length)
      | none => false)

/-- A program word is written; of an enabled loop it is ignored, with PROG_BUSY (R323). -/
def State.progWrite (s : State) (i v : Nat) : State :=
  match s.progOwner i with
  | some n => s.ceErr 6 n
  | none => s.wr (Reg.CE_PMEM i) (BitVec.ofNat 64 (v % 2 ^ 32))

/-- CE_PROG_WRITE (R323). -/
def execCeProgWrite (i : BitVec 13) (v : Half) (s : State) : Out := .next (s.progWrite i.toNat v.toNat)

/-! ## The hold controller (R338, R339) -/

/-- A release request: refused unless a swap has occurred since the controller engaged (R339). -/
def State.holdRelease (s : State) : State :=
  if !s.holding then s
  else if s.hold.swapped then { s with hold := { s.hold with release := true } } else s.setFlag Reg.HOLD_STATUS 27 true

/-- HOLD_ENGAGE (R338). -/
def execHoldEngage (s : State) : Out := .next (s.holdCause 1)

/-- HOLD_STALE: no swap for STALE ms (R338). -/
def execHoldStale (s : State) : Out :=
  let ms := s.fld Reg.HOLD_CTRL 31 16
  if ms ≠ 0 ∧ s.hold.swapAt + 1000000 * ms ≤ s.raw then .next (s.holdCause 2) else s.noEvent

/-- HOLD_RELEASE (R339). -/
def execHoldRelease (s : State) : Out := .next s.holdRelease

/-- HOLD_CTRL written (R341). -/
def State.holdCtrl (s : State) (v : Nat) : State :=
  let s := (s.setFld Reg.HOLD_CTRL 31 16 (bits v 31 16)).setFld Reg.HOLD_CTRL 2 2 (bits v 2 2)
  let s := if bitOf v 1 then s.holdRelease else s
  if bitOf v 0 then s.holdCause 1 else s

/-- One step of a hold value toward its fallback (R338): at most RATE, stopping on TARGET. -/
def holdStep (h target rate : Nat) : Nat :=
  let a := signed 32 h
  let t := signed 32 target
  wrap 32 (if a < t then min t (a + rate) else max t (a - rate))

/-- The hold controller at a tick (R338, R339): engaging takes the hold values from the active bank, later ticks move
them, a release ends the engagement, but where an engage cause has come since the last tick. -/
def State.holdTick (s : State) : State :=
  let again := s.hold.again
  let s := { s with hold := { s.hold with again := false } }
  match s.hold.cause with
  | some c =>
    let vals := (List.range 256).foldl (fun m k => Map.put 0 m k (s.rd (Reg.CE_SPA k)).toNat) []
    let s := ((s.setFld Reg.HOLD_STATUS 31 28 (8 + c)).satFld Reg.HOLD_STATUS 15 0).raiseEv 130
    { s with hold := { s.hold with
      cause := none
      release := false
      swapped := false
      vals := vals } }
  | none =>
    if !s.holding then s
    else if s.hold.release && again then { s with hold := { s.hold with release := false } }
    else if s.hold.release then
      { s with hold := { s.hold with release := false } }.setFld Reg.HOLD_STATUS 31 28 0
    else
      let vals := (List.range 256).foldl (fun m k =>
        Map.put 0 m k (holdStep (Map.get 0 s.hold.vals k) (s.rd (Reg.HOLD_TGT k)).toNat (s.fld (Reg.HOLD_RATE k) 30 0))) []
      { s with hold := { s.hold with vals := vals } }

/-! ## Ticks (R307, R308, R321) -/

/-- CE_BASE. -/
def State.ceBase (s : State) : Nat := s.fld (Reg.CE_BASE 0) 31 0 + s.fld (Reg.CE_BASE 1) 31 0 * 2 ^ 32

/-- Raw count of tick `k`. -/
def State.tickAt (s : State) (k : Nat) : Nat := s.ceBase + 25000 * k

/-- A pending swap is made at a tick at least 1 us after its GO (R321). -/
def State.spSwap (s : State) (t : Nat) : State :=
  if s.spPending && decide (s.ce.goAt + 1000 ≤ t) then
    let s := s.each (List.range 256) fun s k => s.wr (Reg.CE_SPA k) (s.rd (Reg.CE_SPW k))
    let s := (s.setFlag Reg.CE_SPCOMMIT 31 false).seqFld Reg.CE_STATUS 31 16
    { s with hold := { s.hold with
      swapped := true
      swapAt := t } }
  else s

/-- Does loop `n` take part by RUN (R323)? -/
def State.runsNow (s : State) (n : Nat) : Bool :=
  let r := s.fld (Reg.CE_LOOP_CFG n) 29 28
  r == 0 || (r == 1 && !s.holding) || (r == 2 && s.holding)

/-- Enabled loops. -/
def State.loopsOn (s : State) : List Nat := (List.range 64).filter fun n => s.flag (Reg.CE_LOOP_CFG n) 31

/-- Is tick `k` one of loop `n` (R307)? -/
def State.ticksAt (s : State) (k n : Nat) : Bool :=
  (k + 4096 * 4096 - s.fld (Reg.CE_LOOP_CFG n) 15 4) % (s.fld (Reg.CE_LOOP_CFG n) 27 16 + 1)
    == 4096 * 4096 % (s.fld (Reg.CE_LOOP_CFG n) 27 16 + 1)

/-- Loops that execute at tick `k`, eligibility apart (R307). -/
def State.loopsAt (s : State) (k : Nat) : List Nat := s.loopsOn.filter (s.ticksAt k)

/-- The loops whose EN was cleared are off from their next tick on (R323). -/
def State.loopsClose (s : State) (k : Nat) : State :=
  s.each ((List.range 64).filter (s.ticksAt k)) fun s n => s.loopClosing n false

/-- OUTDLY and GROUP of loop `n` as they stood at its last tick. -/
def State.outDly (s : State) (n : Nat) : Nat := bits (Map.get 0 s.ce.outReg n) 7 0
def State.groupOf (s : State) (n : Nat) : Nat := bits (Map.get 0 s.ce.outReg n) 31 26

/-- Insert a loop by ascending OUTDLY, then index (R309). -/
def State.orderLoops (s : State) : List Nat → List Nat
  | [] => []
  | n :: l =>
    let r := s.orderLoops l
    r.takeWhile (fun m => s.outDly m < s.outDly n || (s.outDly m == s.outDly n && m < n)) ++
      n :: r.dropWhile (fun m => s.outDly m < s.outDly n || (s.outDly m == s.outDly n && m < n))

/-- Encoder ports that a loop reads. -/
def State.loopPorts (s : State) (n : Nat) : List Nat :=
  match s.ceProgram 128 (bits (Map.get 0 s.ce.prog n) 12 0) with
  | some l => l.filterMap fun w => if w.op = 1 ∧ w.sel / 128 ≤ 1 then some (w.sel % 128) else none
  | none => []

/-- Encoder ports that the loops executing at tick `k` read. -/
def State.portsAt (s : State) (k : Nat) : List Nat :=
  (List.range 16).filter fun p => (s.loopsAt k).any fun n => s.runsNow n && (s.loopPorts n).contains p

/-- What the loops of a tick will see (R308). -/
def State.ceCap (s : State) : CeCap :=
  let tab := fun (n : Nat) (f : Nat → Nat) => (List.range n).foldl (fun m k => Map.put 0 m k (f k)) []
  { ins := tab 128 fun k => (s.rd (Reg.CE_IN k)).toNat
    sps := if s.holding then s.hold.vals else tab 256 fun k => (s.rd (Reg.CE_SPA k)).toNat
    pos := tab 16 fun p => (s.enc p).pos
    vel := tab 16 fun p => (s.enc p).vel }

/-- Eligibility at a tick: a loop that becomes eligible after a tick at which it was not starts from zero state (R323). -/
def State.ceEligible (s : State) : State :=
  s.each s.loopsOn fun s n =>
    let now := s.runsNow n
    let s := if now && !bitOf s.ce.eligible n then s.ceZero n else s
    { s with ce := { s.ce with eligible := putBits s.ce.eligible n n (if now then 1 else 0) } }

/-- GROUP, TRACK and OUTDLY are taken as they stand at the tick, for the loops due. -/
def State.ceOutRegs (s : State) (due : List Nat) : State :=
  { s with ce := { s.ce with
    outReg := due.foldl (fun m n => Map.put 0 m n (s.rd (Reg.CE_LOOP_OUT n)).toNat) s.ce.outReg } }

/-- The executions and apply instants of the tick at raw count `t` (R308, R309, R318). -/
def State.ceSchedule (s : State) (t : Nat) (due : List Nat) : State :=
  let cap := s.ceCap
  let order := s.orderLoops due
  let groups := ((List.range 63).map fun g => due.filter fun n => s.groupOf n == g).filter fun l => !l.isEmpty
  let ap := groups.map (fun l => ({ due := t + 100 * s.outDly (l.headD 0), tick := t, group := true, loops := l } : CeApply))
    ++ (order.filter fun n => s.groupOf n == 63).map fun n =>
      ({ due := t + 100 * s.outDly n, tick := t, group := false, loops := [n] } : CeApply)
  { s with ce := { s.ce with
    queue := s.ce.queue ++ order.map fun n => { loop := n, tick := t, cap := cap }
    applies := s.ce.applies ++ ap } }

/-- CONTROL_TICK: the next tick falls (R307, R308): a pending swap, the hold controller, eligibility, the capture of
encoders, and the executions that are due. -/
def execControlTick (s : State) : Out :=
  let k := s.ce.next
  let t := s.tickAt k
  if s.flag Reg.CE_CTRL 0 ∧ t ≤ s.raw then
    let s := (((s.spSwap t).holdTick).ceEligible).loopsClose k
    let s := { s with ce := { s.ce with next := k + 1 } }
    let due := (s.loopsAt k).filter s.runsNow
    let s := s.each (s.portsAt k) State.encCapture
    .next (if due.isEmpty then s else (s.ceOutRegs due).ceSchedule t due)
  else s.noEvent

/-- CE_CTRL written: EN. The grid goes on from the first tick that is not past; with EN 0 nothing waits any more. -/
def State.ceCtrl (s : State) (v : Nat) : State :=
  let on := bitOf v 0
  let was := s.flag Reg.CE_CTRL 0
  let s := s.setFlag Reg.CE_CTRL 0 on
  if on && !was then
    { s with ce := { s.ce with next := if s.raw ≤ s.ceBase then 0 else (s.raw - s.ceBase + 24999) / 25000 } }
  else if !on then { s with ce := { s.ce with
    queue := []
    applies := []
    undo := []
    closing := 0 } }
  else s

/-! ## SSI transfers (R394) -/

/-- SSI_TRANSFER_START: the transfer of port `p` starts LEAD us before the next tick, at which a loop reads it. -/
def execSsiTransferStart (p : BitVec 4) (s : State) : Out :=
  let p := p.toNat
  let e := s.enc p
  if s.encOn p && !s.encQuad p && !e.busy && e.word.isNone && s.flag Reg.CE_CTRL 0 && (s.portsAt s.ce.next).contains p
      && decide (s.tickAt s.ce.next ≤ s.raw + 1000 * s.fld (Reg.ENC_CFG p) 15 10) && decide (s.raw < s.tickAt s.ce.next) then
    .next (s.setEnc p { e with busy := true })
  else s.noEvent

/-- SSI_TRANSFER_DONE: the transfer of port `p` completes with a word. -/
def execSsiTransferDone (p : BitVec 4) (w : Word) (s : State) : Out :=
  let e := s.enc p.toNat
  if e.busy then .next (s.setEnc p.toNat { e with
    busy := false
    word := some (w.toNat % 2 ^ 40) })
  else s.noEvent

/-! ## Executions (R309, R312, R316) -/

/-- Coefficient window of a loop as its working copy (R316). -/
def State.ceCopy (s : State) (n : Nat) : State :=
  if s.flag (Reg.CE_LOOP_CFG n) 30 then s
  else
    let b := bits (Map.get 0 s.ce.prog n) 26 16
    let put := fun (m : Map Nat) (i : Nat) =>
      Map.put 0 m (32 * n + i) (s.fld (Reg.CE_COEF_VALUE (b + i)) 31 0 + s.fld (Reg.CE_COEF_SHIFT (b + i)) 5 0 * 2 ^ 32)
    { s with ce := { s.ce with copies := (List.range 32).foldl put s.ce.copies } }

/-- LOOP_EXECUTE: the first due execution starts once none is in progress: its coefficients are copied, its working
registers hold 0 (R309, R316). -/
def execLoopExecute (s : State) : Out :=
  match s.ce.run, s.ce.queue with
  | none, d :: rest =>
    if s.flag Reg.CE_CTRL 0 then
      let s := s.ceCopy d.loop
      let x : CeExec :=
        { loop := d.loop, tick := d.tick, cap := d.cap, pc := bits (Map.get 0 s.ce.prog d.loop) 12 0, regs := [], acc := 0,
          words := ((List.range 16).foldl (fun m w => Map.put 0 m w (s.rd (Reg.CE_STATE d.loop w)).toNat) []),
          output := 0, sat := false, ended := false }
      .next { s with ce := { s.ce with
        queue := rest
        run := some x } }
    else s.noEvent
  | _, _ => s.noEvent

/-- The exact value of coefficient `i` of a loop's working copy, in units of 2^-62 (R314). -/
def State.ceCoef (s : State) (n i : Nat) : Int :=
  let c := Map.get 0 s.ce.copies (32 * n + i)
  signed 32 (c % 2 ^ 32) * 2 ^ (signed 6 (c / 2 ^ 32) + 31).toNat

/-- x / 2^k rounded to an integer by RNE. -/
def rneShift (x : Int) (k : Nat) : Int :=
  let q := x / 2 ^ k
  let r := x % 2 ^ k
  if 2 * r < 2 ^ k then q else if 2 ^ k < 2 * r then q + 1 else if q % 2 = 0 then q else q + 1

/-- q31 of an exact value given in units of 2^-(31 + k): the code, and whether it saturated (R312). -/
def q31 (k : Nat) (x : Int) : Nat × Bool :=
  let v := rneShift x k
  let c := clampInt (-(2 ^ 31)) (2 ^ 31 - 1) v
  (wrap 32 c, decide (c ≠ v))

/-- Working register `i`, as a signed number of units of 2^-31. -/
def CeExec.reg (x : CeExec) (i : Nat) : Int := signed 32 (Map.get 0 x.regs i)
/-- Write working register `i`, and SAT. -/
def CeExec.set (x : CeExec) (i : Nat) (v : Nat × Bool) : CeExec :=
  { x with
    regs := Map.put 0 x.regs i v.1
    sat := x.sat || v.2 }

/-- c × RA, in units of 2^-93. -/
def State.ceProd (s : State) (x : CeExec) (w : CeIns) : Int := s.ceCoef x.loop w.ci * x.reg w.ra

/-- The engine executes the next instruction of the execution in progress, which has operation `op`. -/
def State.ceStep (s : State) (op : Nat) (f : CeExec → CeIns → CeExec) : Out :=
  match s.ce.run with
  | some x =>
    let w := s.ceWord x.pc
    if !x.ended && w.op == op then .next { s with ce := { s.ce with run := some { f x w with pc := x.pc + 1 } } }
    else s.noEvent
  | none => s.noEvent

/-- CE_IN: the input that SEL selects (R313). -/
def execCeIn (s : State) : Out :=
  s.ceStep 0x01 fun x w =>
    let i := w.sel % 128
    let k := w.sel / 128
    x.set w.rd (if k = 0 then Map.get 0 x.cap.pos i else if k = 1 then Map.get 0 x.cap.vel i
      else if k = 2 then Map.get 0 x.cap.ins i else Map.get 0 s.ce.outs (i % 64), false)

/-- CE_SP: a setpoint, or its hold value, as it stood at the tick. -/
def execCeSp (s : State) : Out := s.ceStep 0x02 fun x w => x.set w.rd (Map.get 0 x.cap.sps (w.sel % 256), false)

/-- CE_ADD. -/
def execCeAdd (s : State) : Out := s.ceStep 0x03 fun x w => x.set w.rd (q31 0 (x.reg w.ra + x.reg w.rb))

/-- CE_SUB. -/
def execCeSub (s : State) : Out := s.ceStep 0x04 fun x w => x.set w.rd (q31 0 (x.reg w.ra - x.reg w.rb))

/-- CE_MUL: one rounding. -/
def execCeMul (s : State) : Out := s.ceStep 0x05 fun x w => x.set w.rd (q31 62 (s.ceProd x w))

/-- CE_MACZ: the accumulator is the exact product. -/
def execCeMacz (s : State) : Out := s.ceStep 0x06 fun x w => { x with acc := s.ceProd x w }

/-- CE_MAC: the exact product is added. -/
def execCeMac (s : State) : Out := s.ceStep 0x07 fun x w => { x with acc := x.acc + s.ceProd x w }

/-- CE_RND: the accumulator rounded to Q31. -/
def execCeRnd (s : State) : Out := s.ceStep 0x08 fun x w => x.set w.rd (q31 62 x.acc)

/-- CE_INT: integrates into a state word. -/
def execCeInt (s : State) : Out :=
  s.ceStep 0x09 fun x w =>
    let i := w.sel % 16
    let v := q31 62 (signed 32 (Map.get 0 x.words i) * 2 ^ 62 + s.ceProd x w)
    { x.set w.rd v with words := Map.put 0 x.words i v.1 }

/-- CE_LIM: limits RA between two coefficients; hi where lo is above it. -/
def execCeLim (s : State) : Out :=
  s.ceStep 0x0A fun x w =>
    let lo := q31 31 (s.ceCoef x.loop w.ci)
    let hi := q31 31 (s.ceCoef x.loop (w.ci + 1))
    x.set w.rd (wrap 32 (min (max (x.reg w.ra) (signed 32 lo.1)) (signed 32 hi.1)), lo.2 || hi.2)

/-- CE_LDS. -/
def execCeLds (s : State) : Out := s.ceStep 0x0B fun x w => x.set w.rd (Map.get 0 x.words (w.sel % 16), false)

/-- CE_STS. -/
def execCeSts (s : State) : Out :=
  s.ceStep 0x0C fun x w => { x with words := Map.put 0 x.words (w.sel % 16) (Map.get 0 x.regs w.ra) }

/-- CE_OUT: the loop's output; its target is known from the program (R313). -/
def execCeOut (s : State) : Out := s.ceStep 0x0D fun x w => { x with output := Map.get 0 x.regs w.ra }

/-- CE_END. -/
def execCeEnd (s : State) : Out := s.ceStep 0x0E fun x _ => { x with ended := true }

/-- CE_MIN: signed minimum. -/
def execCeMin (s : State) : Out := s.ceStep 0x0F fun x w => x.set w.rd (wrap 32 (min (x.reg w.ra) (x.reg w.rb)), false)

/-- CE_MAX: signed maximum. -/
def execCeMax (s : State) : Out := s.ceStep 0x10 fun x w => x.set w.rd (wrap 32 (max (x.reg w.ra) (x.reg w.rb)), false)

/-! ## Completion and apply (R318, R320, R322) -/

/-- Write the state words of a loop. -/
def State.ceWords (s : State) (n : Nat) (m : Map Nat) : State :=
  s.each (List.range 16) fun s w => s.wr (Reg.CE_STATE n w) (BitVec.ofNat 64 (Map.get 0 m w))

/-- LOOP_COMPLETE: an execution that has executed END completes. A late one is discarded and counted; one on time records
its output and writes its state words (R322). -/
def execLoopComplete (s : State) : Out :=
  match s.ce.run with
  | none => s.noEvent
  | some x =>
    if !x.ended then s.noEvent
    else
      let n := x.loop
      let a := Reg.CE_LSTAT n
      let s := { s with ce := { s.ce with run := none } }
      if x.tick + 100 * s.outDly n < s.raw + 200 then
        let s := (s.setFlag a 29 true).satFld a 15 0
        .next ((s.setFlag (Reg.CE_MISS (n / 32)) (n % 32) true).raiseEv 128)
      else
        let before := (List.range 16).foldl (fun m w => Map.put 0 m w (s.rd (Reg.CE_STATE n w)).toNat) []
        let s := ((s.setFlag a 29 false).setFlag a 30 x.sat).ceWords n x.words
        .next { s with ce := { s.ce with
          outs := Map.put 0 s.ce.outs n x.output
          undo := s.ce.undo ++ [{ loop := n, tick := x.tick, words := before }] } }

/-- Apply an output to an OUT target (R313). -/
def State.ceApply (s : State) (tgt v : Nat) : State :=
  let i := tgt % 128
  if tgt / 128 = 0 then { s with field := { s.field with duty := Map.put 0 s.field.duty i v } }
  else if tgt / 128 = 1 then s.wr (Reg.CE_OUTW i) (BitVec.ofNat 64 v)
  else s

/-- Output of loop `n`, signed. -/
def State.ceOutOf (s : State) (n : Nat) : Int := signed 32 (Map.get 0 s.ce.outs n)

/-- The member with the least output; the lowest index on a tie (R318). -/
def State.ceWinner (s : State) (l : List Nat) : Nat :=
  l.foldl (fun m n => if s.ceOutOf n < s.ceOutOf m ∨ (s.ceOutOf n = s.ceOutOf m ∧ n < m) then n else m) (l.headD 0)

/-- Was the execution of loop `n` at the tick at `t` on time? -/
def State.ceOnTime (s : State) (n t : Nat) : Option CeUndo := s.ce.undo.find? fun u => u.loop == n && u.tick == t

/-- A group is applied: its least output goes to the target, WON is set, the writes of losing members that track are
undone (R318, R320). -/
def State.ceApplyGroup (s : State) (p : CeApply) : State :=
  let win := s.ceWinner p.loops
  let g := s.groupOf win
  let s := s.ceApply (s.ceTarget (Map.get 0 s.ce.prog win)) (Map.get 0 s.ce.outs win)
  let s := s.each ((s.loopsOn ++ p.loops).filter fun n => s.groupOf n == g) fun s n => s.setFlag (Reg.CE_LSTAT n) 31 (n == win)
  s.each (p.loops.filter fun n => n != win && bitOf (Map.get 0 s.ce.outReg n) 25) fun s n =>
    match s.ceOnTime n p.tick with
    | some u => s.ceWords n u.words
    | none => s

/-- LOOP_APPLY: the earliest apply instant comes: the output of a loop that was on time, or a group's least, is applied;
the builders that its loops trigger build (R308, R318, R382). -/
def execLoopApply (s : State) : Out :=
  match s.ce.applies.foldl (fun (m : Option CeApply) a => match m with
    | some b => if a.due < b.due then some a else some b
    | none => some a) none with
  | none => s.noEvent
  | some p =>
    if p.due ≤ s.raw + 6 then
      let s := if p.group then s.ceApplyGroup p
        else match s.ceOnTime (p.loops.headD 0) p.tick with
          | some u => s.ceApply (s.ceTarget (Map.get 0 s.ce.prog u.loop)) (Map.get 0 s.ce.outs u.loop)
          | none => s
      let s := { s with ce := { s.ce with
        applies := s.ce.applies.filter fun a => a != p
        undo := s.ce.undo.filter fun u => !(u.tick == p.tick && p.loops.contains u.loop) } }
      .next (s.each p.loops fun s n => s.buildAll n p.due)
    else s.noEvent

end Sys2Proof.Machine
end

