-- ==== Sys2Proof/Machine/Solver.lean ====
section
/-! DEFINITION. The solver (R325 to R337). A solve is computed as a whole when it starts, from Home memory as it stands
then; its results appear when SOLV_DONE says that it has completed. -/

namespace Sys2Proof.Machine

/-- What the solver's operations leave behind: OVF, TINY, NEGPIV, pivots regularised. -/
structure SolvFlags where
  ovf : Bool
  tiny : Bool
  negpiv : Bool
  reg : Nat
  deriving DecidableEq, Repr

/-- A computation of the solver. -/
abbrev Solv := StateM SolvFlags

/-- Is the value finite? -/
def Num.isFinite (x : Num) : Bool := !x.isNan && !x.isInf

/-- A result: where it would exceed the largest finite value it is that value with the same sign, and OVF (R330). -/
def solvResult (finiteIn : Bool) (r : Num) : Solv Num :=
  if finiteIn && r.isInf then do
    modify fun f => { f with ovf := true }
    pure (fp32Val (if r.isNeg then 0xFF7FFFFF else 0x7F7FFFFF))
  else pure r

/-- Sum, by RNE. -/
def solvAdd (a b : Num) : Solv Num := solvResult (a.isFinite && b.isFinite) (add32 a b)
/-- Difference. -/
def solvSub (a b : Num) : Solv Num := solvAdd a b.neg
/-- Product. -/
def solvMul (a b : Num) : Solv Num := solvResult (a.isFinite && b.isFinite) (mul32 a b)
/-- a + b × c, with one rounding (R331). DEDUCED. -/
def solvMac (a b c : Num) : Solv Num :=
  solvResult (a.isFinite && b.isFinite && c.isFinite) (rne32 (a.add (b.mul c)))
/-- a − b × c, with one rounding. -/
def solvMsub (a b c : Num) : Solv Num := solvMac a b.neg c
/-- A function of R160: 3 RECIP, 5 SQRT, 11 SIN, 12 COS. -/
def solvFn (fn : Nat) (a : Num) : Solv Num := solvResult a.isFinite (vtr fn a)

/-- Element of a list of numbers. -/
def numAt (l : List Num) (i : Nat) : Num := l.getD i (.zero false)

/-! ## The descriptor (R333) -/

/-- The fields of a solve descriptor. -/
structure SolvDesc where
  kind : Nat
  flags : Nat
  n : Nat
  bw : Nat
  param : Nat
  nparam : Nat
  nmeas : Nat
  meas : Nat
  derive : Nat
  nderive : Nat
  term : Nat
  nterm : Nat
  work : Nat
  out : Nat
  map : Nat
  eps : Num
  lambda : Num
  rho : Num
  tol : Num
  iterMax : Nat
  status : Nat
  deadline : Nat
  deriving DecidableEq, Repr

/-- FP32 value at a Home address. -/
def State.homeF32 (s : State) (a : Nat) : Num := fp32Val (s.loadNat (homeSpace + a) 4)

/-- The descriptor at Home address `a`. -/
def State.solvDesc (s : State) (a : Nat) : SolvDesc :=
  let g := fun o n => s.loadNat (homeSpace + a + o) n
  { kind := g 0 1, flags := g 1 1, n := g 2 2, bw := g 4 1, param := g 8 4, nparam := g 12 2, nmeas := g 14 2, meas := g 16 4,
    derive := g 20 4, nderive := g 24 2, term := g 28 4, nterm := g 32 4, work := g 36 4, out := g 40 4, map := g 44 4,
    eps := s.homeF32 (a + 48), lambda := s.homeF32 (a + 52), rho := s.homeF32 (a + 56), tol := s.homeF32 (a + 60),
    iterMax := g 64 2, status := g 68 4, deadline := g 72 8 }

/-- Bytes of workspace. -/
def SolvDesc.workLen (d : SolvDesc) : Nat := if d.kind = 2 then 4 * d.n * (d.bw + 1) + 24 * d.n else 4 * d.n * d.n + 24 * d.n

/-- The regions it names, and the descriptor's own at `a`. -/
def SolvDesc.regions (d : SolvDesc) (a : Nat) : List (Nat × Nat) :=
  [(a, 128), (d.param, 4 * d.nparam), (d.meas, 4 * d.nmeas), (d.derive, 4 * d.nderive), (d.term, 8 * d.nterm),
    (d.work, d.workLen), (d.out, 4 * d.n), (d.map, 8 * d.n), (d.status, 16)]

/-- Do no two of the regions overlap? A region without bytes overlaps none. -/
def disjointRegions : List (Nat × Nat) → Bool
  | [] => true
  | r :: rest => rest.all (fun q => decide (r.2 = 0 ∨ q.2 = 0 ∨ r.1 + r.2 ≤ q.1 ∨ q.1 + q.2 ≤ r.1)) && disjointRegions rest

/-- Does an address of the descriptor lie where R333 lets it, with its region? -/
def solvRegionOk (r : Nat × Nat) : Bool := decide (r.1 % 16 = 0 ∧ r.1 < 0xC0000 ∧ r.1 + r.2 ≤ 0xC0000)

/-- Is a value finite and above 0? -/
def Num.positive (x : Num) : Bool := x.isFinite && decide (0 < x.rat)

/-- Does the descriptor at `a` keep every rule of R333? -/
def State.solvDescOk (s : State) (a : Nat) : Bool :=
  let d := s.solvDesc a
  let z := fun o n => s.loadNat (homeSpace + a + o) n == 0
  decide (d.kind ≤ 3 ∧ d.flags < 4 ∧ 1 ≤ d.n ∧ d.n ≤ (if d.kind = 2 then 512 else 64))
    && (if d.kind = 2 then decide (1 ≤ d.bw ∧ d.bw ≤ 32) else d.bw == 0)
    && z 5 3 && z 26 2 && z 66 2 && z 80 48
    && decide (1 ≤ d.nparam ∧ d.nparam ≤ 4096 ∧ 1 ≤ d.nmeas ∧ d.nmeas ≤ 1023 ∧ d.nderive ≤ 1024 ∧ 1 ≤ d.nterm ∧ d.nterm ≤ 16384)
    && d.eps.positive && d.lambda.positive && decide (2 * d.eps.rat ≤ d.lambda.rat)
    && (d.kind != 3 || (d.rho.positive && d.tol.positive && decide (1 ≤ d.iterMax ∧ d.iterMax ≤ 4096)))
    && (d.regions a).all solvRegionOk && disjointRegions (d.regions a)
    && (List.range d.n).all fun i => s.loadNat (homeSpace + d.map + 8 * i + 6) 2 == 0

/-! ## Matrix assembly (R327, R328) -/

/-- A measurement: index 1,023 is 1.0; one that is neither given nor derived has no stated value. -/
def measAt (m : List (Nat × Num)) (free i : Nat) : Num :=
  if i = 1023 then .fin 1
  else match m.find? (fun e => e.1 == i) with
    | some e => e.2
    | none => fp32Val ((Config.freeWord (free + i)).toNat % 2 ^ 32)

/-- A finite FP32 code out of any word: one with the exponent of Inf and NaN loses its top exponent bit. -/
def finiteCode (w : Nat) : Nat := if bits w 30 23 = 255 then putBits w 30 30 0 else w

/-- The square root of a measurement: of one below zero, which is no NaN, no value is stated (R330); a free finite one stands for it. -/
def solvSqrt (free : Nat) (x : Num) : Solv Num :=
  if x.isFinite && decide (x.rat < 0) then pure (fp32Val (finiteCode ((Config.freeWord free).toNat % 2 ^ 32))) else solvFn 5 x

/-- One derive entry, `k`-th of its list. A reserved OP gives no stated value. -/
def solvDerive (free : Nat) (m : List (Nat × Num)) (e : Nat × Nat) : Solv (List (Nat × Num)) := do
  let x := measAt m free (bits e.1 17 8)
  let v ← match bits e.1 31 28 with
    | 0 => pure x
    | 1 => pure x.neg
    | 2 => solvMul x x
    | 3 => solvFn 11 x
    | 4 => solvFn 12 x
    | 5 => solvFn 3 x
    | 6 => solvSqrt (free + 5120 + e.2) x
    | _ => pure (fp32Val ((Config.freeWord (free + 5120 + e.2)).toNat % 2 ^ 32))
  pure ((bits e.1 27 18, v) :: m)

/-- The targets of the term list, by index 512 × I + J for A. -/
structure SolvTargets where
  a : List (Nat × Num)
  b : List (Nat × Num)
  lo : List (Nat × Num)
  hi : List (Nat × Num)
  bad : Bool
  deriving DecidableEq, Repr

/-- Put a value under a key. -/
def putNum : List (Nat × Num) → Nat → Num → List (Nat × Num)
  | [], k, v => [(k, v)]
  | e :: l, k, v => if e.1 = k then (k, v) :: l else e :: putNum l k v

/-- The value under a key. -/
def getNum (l : List (Nat × Num)) (d : Num) (k : Nat) : Num :=
  match l.find? (fun e => e.1 == k) with
  | some e => e.2
  | none => d

/-- Add a term to a target that starts at +0. -/
def solvAddTo (l : List (Nat × Num)) (k : Nat) (t : Num) : Solv (List (Nat × Num)) := do
  let v ← solvAdd (getNum l (.zero false) k) t
  pure (putNum l k v)

/-- The first term replaces, later ones add (lo and hi). -/
def solvReplace (l : List (Nat × Num)) (k : Nat) (t : Num) : Solv (List (Nat × Num)) :=
  if l.any (fun e => e.1 == k) then solvAddTo l k t else pure (putNum l k t)

/-- One term entry. -/
def solvTerm (d : SolvDesc) (p : Nat → Num) (m : Nat → Num) (g : SolvTargets) (e : Nat) : Solv SolvTargets := do
  if g.bad then return g
  let i := bits e 61 52
  let j := bits e 51 42
  let hi := Nat.max i j
  let lo := Nat.min i j
  let outside := decide (d.n ≤ i) || (bits e 63 62 == 0 && (decide (d.n ≤ j) || (d.kind == 2 && decide (d.bw < hi - lo))))
  if outside then return { g with bad := true }
  let t1 ← solvMul (p (bits e 41 30)) (m (bits e 29 20))
  let t ← solvMul t1 (m (bits e 19 10))
  match bits e 63 62 with
  | 0 => return { g with a := ← solvAddTo g.a (512 * hi + lo) t }
  | 1 => return { g with b := ← solvAddTo g.b i t }
  | 2 => return { g with lo := ← solvReplace g.lo i t }
  | _ => return { g with hi := ← solvReplace g.hi i t }

/-! ## Factorisation (R329) -/

/-- A factorisation: L by rows (the unscaled columns for LDLT beside it), and the reciprocals that divide by the pivots. -/
structure SolvFactor where
  l : List (Nat × Num)
  c : List (Nat × Num)
  r : List Num
  deriving DecidableEq, Repr

/-- The pivot as it is used, with its flags (R329). -/
def solvPivot (d : SolvDesc) (x : Num) : Solv Num :=
  if |x.rat| < d.eps.rat then do
    modify fun f => { f with
      tiny := true
      reg := f.reg + 1 }
    solvAdd x d.lambda
  else if d.kind != 1 && decide (x.rat ≤ -d.eps.rat) then do
    modify fun f => { f with
      negpiv := true
      reg := f.reg + 1 }
    pure d.lambda
  else pure x

/-- First column that row `i` reaches. -/
def SolvDesc.first (d : SolvDesc) (i : Nat) : Nat := if d.kind = 2 then i - d.bw else 0

/-- Column `k`: the pivot less its prior updates in ascending index, then the column below it, scaled. DEDUCED: each update
is one fused multiply-subtract; a Cholesky column is scaled by the reciprocal of the pivot's root, an LDLT column by the
pivot's reciprocal (R331). -/
def solvColumn (d : SolvDesc) (a : List (Nat × Num)) (f : SolvFactor) (k : Nat) : Solv SolvFactor := do
  let z : Num := .zero false
  let ldlt := d.kind == 1
  let upd := fun (i : Nat) (x : Num) (p : Nat) =>
    solvMsub x (getNum (if ldlt then f.c else f.l) z (512 * i + p)) (getNum f.l z (512 * k + p))
  let cols := fun (i : Nat) => (List.range k).filter fun p => d.first i ≤ p
  let diag ← (cols k).foldlM (upd k) (getNum a z (512 * k + k))
  let piv ← solvPivot d diag
  let root ← if ldlt then pure piv else solvFn 5 piv
  let r ← solvFn 3 root
  let rows := (List.range d.n).filter fun i => k < i && decide (d.first i ≤ k)
  let step := fun (g : SolvFactor) (i : Nat) => do
    let c ← (cols i).foldlM (upd i) (getNum a z (512 * i + k))
    let l ← solvMul c r
    pure { g with
      l := (512 * i + k, l) :: g.l
      c := (512 * i + k, c) :: g.c }
  let g ← rows.foldlM step f
  pure { g with r := g.r ++ [r] }

/-- The factorisation of A. -/
def solvFactor (d : SolvDesc) (a : List (Nat × Num)) : Solv SolvFactor :=
  (List.range d.n).foldlM (solvColumn d a) { l := [], c := [], r := [] }

/-- The two triangular solves, sums in ascending index, each division as a product with the stored reciprocal. DEDUCED. -/
def solvSolve (d : SolvDesc) (f : SolvFactor) (b : List Num) : Solv (List Num) := do
  let z : Num := .zero false
  let ldlt := d.kind == 1
  let fwd := fun (y : List Num) (i : Nat) => do
    let v ← ((List.range i).filter fun j => d.first i ≤ j).foldlM
      (fun x j => solvMsub x (getNum f.l z (512 * i + j)) (numAt y j)) (numAt b i)
    let w ← if ldlt then pure v else solvMul v (numAt f.r i)
    pure (y ++ [w])
  let y ← (List.range d.n).foldlM fwd []
  let mid ← if ldlt then (List.range d.n).mapM (fun i => solvMul (numAt y i) (numAt f.r i)) else pure y
  let back := fun (x : List Num) (i : Nat) => do
    let v ← ((List.range d.n).filter fun j => i < j && decide (d.first j ≤ i)).foldlM
      (fun t j => solvMsub t (getNum f.l z (512 * j + i)) (numAt x (j - i - 1))) (numAt mid i)
    let w ← if ldlt then pure v else solvMul v (numAt f.r i)
    pure (w :: x)
  (List.range d.n).reverse.foldlM back []

/-! ## BQP (R326) -/

/-- A number held within its bounds. -/
def clampNum (x lo hi : Num) : Num := if x.lt lo then lo else if hi.lt x then hi else x

/-- Largest magnitude. -/
def maxAbs (l : List Num) : Num := l.foldl (fun m x => if m.lt x.abs then x.abs else m) (.zero false)

/-- The iterations left; answers the solution, the iterations run, and whether it converged. -/
def solvBqp (d : SolvDesc) (f : SolvFactor) (b lo hi : List Num) : Nat → Nat → List Num → List Num → Solv (List Num × Nat × Bool)
  | 0, it, z, _ => pure (z, it, false)
  | left + 1, it, z, u => do
    let ix := List.range d.n
    let rhs ← ix.mapM fun i => do
      let t ← solvSub (numAt z i) (numAt u i)
      solvMac (numAt b i) d.rho t
    let x ← solvSolve d f rhs
    let xu ← ix.mapM fun i => solvAdd (numAt x i) (numAt u i)
    let zn := ix.map fun i => clampNum (numAt xu i) (numAt lo i) (numAt hi i)
    let u' ← ix.mapM fun i => solvSub (numAt xu i) (numAt zn i)
    let dp ← ix.mapM fun i => solvSub (numAt x i) (numAt zn i)
    let dz ← ix.mapM fun i => solvSub (numAt zn i) (numAt z i)
    let rd ← solvMul d.rho (maxAbs dz)
    if !d.tol.lt (maxAbs dp) && !d.tol.lt rd then pure (zn, it + 1, true)
    else solvBqp d f b lo hi left (it + 1) zn u'

/-- What a solve finds: its code, iterations, solution (empty where it has none), and the derived measurements. -/
structure SolvFound where
  code : Nat
  iters : Nat
  xs : List Num
  meas : List (Nat × Num)
  deriving DecidableEq, Repr

/-- The solve of descriptor `d` on memory `s`. `free` numbers the values that the spec leaves unstated. -/
def State.solvRunAll (s : State) (d : SolvDesc) (free : Nat) : Solv SolvFound := do
  let m0 := (List.range d.nmeas).map fun i => (i, s.homeF32 (d.meas + 4 * i))
  let list := (List.range d.nderive).map fun k => (s.loadNat (homeSpace + d.derive + 4 * k) 4, k)
  let m ← list.foldlM (solvDerive free) m0
  let none := fun c => ({ code := c, iters := 0, xs := [], meas := m } : SolvFound)
  let known := (List.range 1023).filter fun i => m.any fun e => e.1 == i
  if !known.all (fun i => (measAt m free i).isFinite) then return none 3
  let p := fun i => if i < d.nparam then s.homeF32 (d.param + 4 * i) else fp32Val ((Config.freeWord (free + 1024 + i)).toNat % 2 ^ 32)
  let terms := (List.range d.nterm).map fun k => s.loadNat (homeSpace + d.term + 8 * k) 8
  let g ← terms.foldlM (solvTerm d p (measAt m free)) { a := [], b := [], lo := [], hi := [], bad := false }
  if g.bad then return none 5
  let b := (List.range d.n).map (getNum g.b (.zero false))
  let lo := (List.range d.n).map (getNum g.lo (fp32Val 0xFF7FFFFF))
  let hi := (List.range d.n).map (getNum g.hi (fp32Val 0x7F7FFFFF))
  let sound := (g.a.all fun e => e.2.isFinite) && (b ++ lo ++ hi).all Num.isFinite
    && (List.range d.n).all fun i => !(numAt hi i).lt (numAt lo i)
  if !sound then return none 3
  if d.kind = 3 then do
    let a ← (List.range d.n).foldlM (fun l i => solvAddTo l (512 * i + i) d.rho) g.a
    let f ← solvFactor d a
    let z := (List.range d.n).map fun i => clampNum (.zero false) (numAt lo i) (numAt hi i)
    let u := (List.range d.n).map fun _ => (.zero false : Num)
    let (x, it, conv) ← solvBqp d f b lo hi d.iterMax 0 z u
    return { code := if conv then 0 else 1, iters := it, xs := x, meas := m }
  else do
    let f ← solvFactor d g.a
    let x ← solvSolve d f b
    return { code := 0, iters := 0, xs := x, meas := m }

/-! ## Commands (R334 to R336) -/

/-- The 16-byte status (R335). -/
def solvStatus (code flags reg iters raw : Nat) : List Byte :=
  leBytes 1 code ++ leBytes 1 flags ++ leBytes 2 (min reg 65535) ++ leBytes 2 iters ++ leBytes 2 0 ++ leBytes 8 raw

/-- Bytes without a stated value, from key `k` upward. -/
def State.freeBytes (s : State) (k n : Nat) : State :=
  let (f, s) := s.take n
  s.store k ((List.range n).map fun i => Config.freeByte (f + i))

/-- Bytes of Home memory without a stated value. -/
def State.homeFree (s : State) (a n : Nat) : State := s.freeBytes (homeSpace + a) n

/-- A solve starts at descriptor `a`. -/
def State.solvStart (s : State) (a : Nat) : State :=
  let d := s.solvDesc a
  if decide (0xC0000 ≤ a) || !s.solvDescOk a then
    let s := if decide (a < 0xC0000) && solvRegionOk (d.status, 16) then
        s.store (homeSpace + d.status) (solvStatus 4 0 0 0 s.raw) else s
    (s.setFld Reg.SOLV_STATUS 15 0 0x400).raiseEv 129
  else
    let (free, s) := s.take 8192
    let (r, f) := (s.solvRunAll d free).run { ovf := false, tiny := false, negpiv := false, reg := 0 }
    let flags := (if f.tiny then 1 else 0) + (if f.negpiv then 2 else 0) + (if f.ovf then 4 else 0)
    let back := (r.meas.map Prod.fst).dedup.filter fun i => i < d.nmeas
    let s := s.each back fun s i => s.storeNat (homeSpace + d.meas + 4 * i) 4 (fp32Code (measAt r.meas free i))
    let s := s.homeFree d.work d.workLen
    let run : SolvRun :=
      { n := d.n, out := d.out, map := d.map, status := some d.status, deadline := d.deadline, auto := bitOf d.flags 0,
        strict := bitOf d.flags 1, code := r.code, flags := flags, reg := f.reg, iters := r.iters,
        xs := r.xs.map fp32Code, aborted := false }
    { s with solv := { s.solv with run := some run } }.setFlag Reg.SOLV_STATUS 31 true

/-- GO written: ignored with GOBUSY while BUSY is 1 (R336). -/
def State.solvGo (s : State) : State :=
  if s.flag Reg.SOLV_STATUS 31 then s.setFlag Reg.SOLV_STATUS 30 true
  else s.solvStart (s.fld Reg.SOLV_DESC 31 7 * 128)

/-- SOLV_GO (R333, R336). -/
def execSolvGo (s : State) : Out := .next s.solvGo

/-- ABORT written: the running solve is to end at its next boundary (R336). -/
def State.solvAbort (s : State) : State :=
  match s.solv.run with
  | some r => { s with solv := { s.solv with run := some { r with aborted := true } } }
  | none => s

/-- SOLV_ABORT (R336). -/
def execSolvAbort (s : State) : Out := .next s.solvAbort

/-- SOLV_CTRL as a register. -/
def State.solvCtrl (s : State) (v : Nat) : State :=
  let s := if bitOf v 1 then s.solvAbort else s
  if bitOf v 0 then s.solvGo else s

/-- The solve as it ends: an abort that meets a boundary leaves a part of its flags and counts, and no stated solution; a
finished solve past its deadline is LATE. -/
def State.solvEnds (s : State) (r : SolvRun) (missed : Bool) : SolvRun × State :=
  if r.aborted && !missed then
    let (f, s) := s.take 3
    let w := fun i => (Config.freeWord (f + i)).toNat
    ({ r with
      code := 6
      flags := r.flags &&& (w 0 % 8)
      reg := w 1 % (r.reg + 1)
      iters := w 2 % (r.iters + 1)
      xs := [] }, s)
  else if r.code ≤ 1 && r.deadline != 0 && decide (r.deadline < s.raw) then ({ r with code := 2 }, s)
  else (r, s)

/-- SOLV_DONE: the running solve completes (R334). `missed`: its abort came after the last boundary. -/
def execSolvDone (missed : Bool) (s : State) : Out :=
  match s.solv.run with
  | none => s.noEvent
  | some r0 =>
    let (r, s) := s.solvEnds r0 missed
    let s := if r.xs.isEmpty then s.homeFree r.out (4 * r.n)
      else s.store (homeSpace + r.out) (r.xs.flatMap (leBytes 4))
    let s := match r.status with
      | some a => s.store (homeSpace + a) (solvStatus r.code r.flags r.reg r.iters s.raw)
      | none => s
    let s := s.setFld Reg.SOLV_STATUS 15 0 (256 * r.code + r.flags)
    let late := s.fld Reg.SOLV_CNT 31 16
    let s := if r.code = 2 then s.setFld Reg.SOLV_CNT 31 16 (min 65535 (late + 1)) else s
    let s := (s.setFld Reg.SOLV_CNT 15 0 (min 65535 (s.fld Reg.SOLV_CNT 15 0 + r.reg))).raiseEv 129
    let commits := r.auto && decide (r.code ≤ 1) && !(r.strict && (bitOf r.flags 1 || bitOf r.flags 2))
    .next ({ s with solv :=
      { run := none
        commit := if commits then some (s.raw, r) else none } }.setFlag Reg.SOLV_STATUS 31 commits)

/-- The setpoint that map entry `i` gives: its index and Q31 code, and whether that saturated; none with EN 0. Q31
takes the exact product (R312, R334). -/
def State.solvSetpoint (s : State) (r : SolvRun) (i : Nat) : Option (Nat × Nat × Bool) :=
  let e := homeSpace + r.map + 8 * i
  if bitOf (s.loadNat (e + 5) 1) 0 then
    let scale := fp32Val (s.loadNat e 4)
    let x := fp32Val (r.xs.getD i 0)
    let q := convert 12 fQ31 .rne true 0 (scale.mul x)
    some (s.loadNat (e + 4) 1, q.code, q.sat)
  else none

/-- SOLV_COMMIT: the solver writes the mapped setpoints and GO once PENDING is 0; after 25 us it gives up (R334). -/
def execSolvCommit (s : State) : Out :=
  match s.solv.commit with
  | none => s.noEvent
  | some (since, r) =>
    let free := ({ s with solv := { s.solv with commit := none } }.setFlag Reg.SOLV_STATUS 31 false)
    if s.spPending then (if since + 25000 ≤ s.raw then .next free else s.noEvent)
    else
      let sps := (List.range r.n).filterMap (s.solvSetpoint r)
      let flags := r.flags + 16 + (if sps.any (fun e => e.2.2) then 8 else 0)
      let s := free.each sps fun s e => s.spWrite e.1 e.2.1
      let s := s.spCommit
      let s := match r.status with
        | some a => s.store (homeSpace + a + 1) (leBytes 1 flags)
        | none => s
      .next (s.setFld Reg.SOLV_STATUS 7 0 flags)

end Sys2Proof.Machine
end

