-- ==== Sys2Proof/Machine/Reset.lean ====
section
/-! DEFINITION. Resets (R101, R306, R449 to R451, R510 to R513): compute-side, Home, power-on, Face; what a restart reloads. -/

namespace Sys2Proof.Machine

/-! ## Lock list (R467) -/

/-- In Deployed every RWL field of a register in the lock list holds its listed value; `home` says which address space. -/
def State.applyLocks (s : State) (home : Bool) : State :=
  s.each (s.sec.locks.filter fun l => decide (homeSpace ≤ l.1) == home) fun s l =>
    match regRow? l.1 with
    | some r => s.wr l.1 (BitVec.ofNat 64 (((s.rd l.1).toNat &&& (2 ^ 64 - 1 - r.rwl)) ||| (l.2 &&& r.rwl)))
    | none => s

/-! ## Compute-side reset (R449, R510) -/

/-- Is the key that of a compute-side register which a compute-side reset returns to its reset value: every device-map
register but PWR_ENERGYd (R486)? -/
def resetsWithCompute (k : Nat) : Bool := decide (k < homeSpace) && !(decide (Reg.PWR_ENERGY 0 ≤ k) && decide (k < Reg.PWR_ENERGY 11))

/-- Memory after a compute-side reset: stores, Board, state banks and their flags zero; HBM only where it has lost its
contents. -/
def computeMem (lost : Bool) (m : List Host.Cell) : List Host.Cell :=
  let m := Map.clear (bankKey 0 0) (peerKey 0) m
  let m := Map.clear (storeBase 0) (storeBase 6) (Map.clear boardBase (boardBase + 0x1000000) m)
  if lost then Map.clear 0 0x600000000 m else m

/-- HBM regions of jobs that will not be reloaded, of ended jobs, and those whose scrub was under way: they stay to be
scrubbed (R101). -/
def State.hbmToScrub (s : State) : List (Nat × Nat × Nat) :=
  let gone := (List.range 16).filter fun j => (s.job j).isSome && !(s.kept.reload.any fun r => r.1 == j)
  let old := gone.flatMap fun j => match s.job j with
    | some b => b.regions.map fun (r : Nat × Nat) => (r.1, r.2, 16)
    | none => []
  ((s.place.scrub.map fun (r : Nat × Nat × Nat) => (r.1, r.2.1, 16)) ++ old).filter fun (r : Nat × Nat × Nat) => isHbm r.1

/-- LIFE 0 instances in HBM, of jobs that are to be reloaded, that hold or may hold the bytes of a command: those whose zeroing was
under way, and those of the commands that run. They are zeroed before a command reads them again (R74). -/
def State.leftInHbm (s : State) : List (Nat × Nat × Nat) :=
  let now := s.bufs.filterMap fun e =>
    let b := e.2
    let j := bits b.record.toNat 62 59
    let m := (List.range 6).foldl (fun m v => if s.vfRuns j v || bitOf b.zeroing v then m ||| 2 ^ v else m) 0
    if b.isValid && !b.life1 && b.tier == 2 && m != 0 && s.kept.reload.any (fun r => r.1 == j) then
      some (j, bits b.record.toNat 55 40, m) else none
  s.kept.zeroDue ++ now

/-- The compute side as its reset leaves it; `lost`: HBM has lost its contents; else it is in self-refresh (R449). The PCIe mailbox RAM's contents are not stated.
No compute-side unit is halted any more, and Trim and Doze end. DEDUCED. -/
def State.computeReset (s : State) (lost : Bool) : State :=
  let old := s
  let place := { PlaceSt.init (if lost then allHbm else s.place.unzeroed) with
    scrub := if lost then [] else s.hbmToScrub
    held := if lost then [] else s.place.held.filter fun r => isHbm r.1 }
  let s := { s with
    mem := computeMem lost s.mem
    bad := if lost then [] else s.bad.filter fun w => isHbm (8 * w) || decide (homeSpace ≤ 8 * w)
    regs := s.regs.filter fun e => !resetsWithCompute e.1
    faces := []
    jobs := []
    vfs := []
    routed := []
    inFlight := []
    net := []
    waiters := []
    bufs := []
    place := place
    sched := SchedSt.init
    kept := if lost then { s.kept with
        reload := []
        history := []
        jstep := []
        zeroDue := [] } else { s.kept with zeroDue := s.leftInHbm }
    raised := s.raised.filter fun k => decide (128 ≤ k) && decide (k < 256)
    pip := PipSt.init
    kv := []
    efl := EflSt.init
    safe := { s.safe with
      resetDue := false
      boardOpen := false
      jobFaults := []
      inj := none
      gate := []
      goldReleased := false
      goldUsed := []
      goldLog := [] }
    pertDelay := []
    edge := EdgeSt.init
    pwr := { s.pwr with
      soft := 0
      junction := []
      droop := false
      icc := false
      hbmPct := none
      coolAt := none
      toUlnal := none }
    sec := { s.sec with halts := s.sec.halts.filter fun e => decide (10 ≤ e.1) } }
  let s : State := (s.setFlag Reg.SEC_DBGSTAT 25 (!s.sec.halts.isEmpty)).setFlag Reg.HBMC_STATUS 29 (!lost)
  let s := if s.fld Reg.SEC_PSTATE 31 29 < 3 then s.setFld Reg.SEC_PSTATE 31 29 0 else s
  old.watchGate ((s.freeBytes 0x7F00181000 0x1000).applyLocks false)

/-- COMPUTE_RESET: HFLT asserts the reset that a device fault started. One more than RST_MAX in 10 s is not followed by a
restart (R449, R451). -/
def execComputeReset (s : State) : Out :=
  if s.safe.resetDue then
    let l := s.raw :: within10 s.raw s.safe.resets
    let s := s.computeReset false
    let s := { s with safe := { s.safe with resets := l } }.setFld Reg.HFLT_STATUS 19 16 (min 15 l.length)
    if max 1 (s.fld Reg.HFLT_CTRL 23 20) < l.length then
      .next (((s.setCstate 4).raiseEv 147).setFld Reg.CPH_STATUS 31 24 0x83)
    else .next (s.setCstate 1)
  else s.noEvent

/-! ## Restart (R450, R509) -/

/-- May compute-side reset be released: the supplies are good (R520), no D3 grant is under way or in force (R472), the state
is not Retain or Watch, and no fault waits for its reset? -/
def State.releasable (s : State) : Bool :=
  s.pwr.coreEn && s.pwr.pgCore && !s.sec.d3 && s.fld Reg.SEC_DBGSTAT 31 30 != 3 && decide (s.fld Reg.SEC_PSTATE 31 29 < 3)
    && !s.safe.resetDue

/-- Compute-side reset is released: CSTATE BOOT (R508). -/
def State.release (s : State) : State :=
  { s with safe := { s.safe with
    bootAt := s.raw
    boardOpen := false } }.setCstate 2 |>.setFld Reg.CPH_STATUS 31 24 0x12

/-- The Board has been zeroed: the gate opens, and STAGE0 goes from its Home copy to the Board (R17, R509). -/
def State.stage0In (s : State) : State :=
  let img := s.load (homeSpace + 0x50000) s.sec.stage0
  { s with safe := { s.safe with boardOpen := true } }.store boardBase img

/-- HBM regions of a job's plan. -/
def hbmRegions (img : JobImage) (pl : LoadPlan) : List (Nat × Nat × Nat) :=
  ((planRegions img pl).filter fun r => isHbm r.1).map fun r => (r.1, r.2, 16)

/-- The job stays unloaded; its HBM is scrubbed. -/
def State.dropReload (s : State) (j : Nat) (img : JobImage) (pl : LoadPlan) : State :=
  { s with
    kept := { s.kept with
      reload := s.kept.reload.filter fun r => r.1 != j
      jstep := Map.put 0 s.kept.jstep j 0
      zeroDue := s.kept.zeroDue.filter fun z => z.1 != j }
    place := { s.place with scrub := s.place.scrub ++ hbmRegions img pl } }

/-- Reload job `j` where its load succeeds: it keeps its seed, and its JSTEP as last saved (R449). A check that fails sets
PLACE_ERR as at any load (R85, R90). -/
def State.reloadJob (s : State) (j : Nat) (img : JobImage) (old pl : LoadPlan) : State :=
  let pl := { pl with
    seed := old.seed
    jstep := BitVec.ofNat 64 (Map.get 0 s.kept.jstep j) }
  if (s.job j).isSome then s
  else match s.loadErr img pl with
    | some e => (s.placeErr j e.2 e.1).dropReload j img old
    | none =>
      if s.loadRefused img pl || !s.planOk img pl || (hbmRegions img pl != hbmRegions img old) then s.dropReload j img old
      else s.loadJob j img pl true

/-- Ulnal checks the retained images and reloads the jobs, each with the plan given; a job with no plan, or whose image fails
its digest, is not reloaded from here. -/
def State.reloadAll (s : State) (plans : List (Nat × LoadPlan × Bool)) : State :=
  s.each s.kept.reload fun s r =>
    match plans.find? fun p => p.1 == r.1 with
    | some (_, pl, true) => s.reloadJob r.1 r.2.1 r.2.2 pl
    | _ => if (s.job r.1).isSome then s else s.dropReload r.1 r.2.1 r.2.2

/-- COMPUTE_RESTART: in RESET the reset is released; then STAGE0 goes in; then Ulnal reloads the jobs (R450, R509). -/
def execComputeRestart (plans : List (Nat × LoadPlan × Bool)) (s : State) : Out :=
  if s.cstate = 1 then (if s.releasable then .next s.release else s.noEvent)
  else if s.cstate = 2 then (if s.safe.boardOpen then .next (s.reloadAll plans) else .next s.stage0In)
  else s.noEvent

/-- JOB_FAULT_RESTART: a multi-chip job ends and reloads after EFLET_DOWN, its HBM retained (R101, R449). -/
def execJobFaultRestart (j : BitVec 4) (pl : LoadPlan) (s : State) : Out :=
  let j := j.toNat
  if s.safe.jobFaults.contains j then
    let s := { s with safe := { s.safe with jobFaults := s.safe.jobFaults.filter fun k => k != j } }
    match s.kept.reload.find? fun r => r.1 == j with
    | none => .next s
    | some (_, img, old) =>
      let kept := s.kept
      let left := s.leftInHbm
      let s := s.killJob j
      let zero := (s.jobRegions j).filter fun r => !isHbm r.1
      let s := ((((s.endJobTurns j).returnNet j).stopMoves j).disown j).each zero fun s r => s.zero r.1 r.2
      let s := s.freeJob j
      let s := { s with kept := { s.kept with
        reload := (j, img, old) :: s.kept.reload
        jstep := kept.jstep
        zeroDue := left.filter fun z => z.1 == j } }
      .next (s.reloadJob j img old pl)
  else s.noEvent

/-! ## Home reset and power-on (R306, R510, R511) -/

/-- HOME_RST_N: the whole device. The boot flash alone is kept; HBM has lost its contents; Home memory keeps its bytes, which no
rule gives (assumption 2). -/
def State.homeReset (s : State) : State :=
  { State.reset with
    pending := s.pending
    fresh := s.fresh
    mem := computeMem true s.mem
    flash := s.flash
    pwr := { PwrSt.init with vhomeOut := s.pwr.vhomeOut } }

/-- POWER_ON_RESET: as HOME_RST_N, and RWS fields; every memory starts as at power-on (R510). -/
def execPowerOnReset (s : State) : Out :=
  .next { State.reset with
    pending := s.pending
    fresh := s.fresh
    flash := s.flash }

/-- HOME_RST_N low for `ns`: below 100 ns ignored, from 1 us the device is reset; a design must never drive a length between,
and its effect is not stated (R511). -/
def execHomeRstN (ns : Nat) (s : State) : Out :=
  if ns < 100 then .next s
  else if 1000 ≤ ns then .next s.homeReset
  else .fault .forbiddenPulse

/-! ## Face resets and the Doubles (R510, R512, R513) -/

/-- FRST bit of Face `f`: ignored with FRDENY while it runs (R512). -/
def State.frst (s : State) (f : Nat) : State :=
  if (s.face f).running then s.setFlag Reg.SYS_STATUS 6 true
  else (s.setFace f { s.face f with resetting := true }).setFlag Reg.SYS_STATUS f true

/-- The FRST field written. -/
def State.frstMask (s : State) (m : Nat) : State := s.each ((List.range 6).filter (bitOf m)) State.frst

/-- FRST (R512). -/
def execFrst (m : BitVec 6) (s : State) : Out := .next (s.frstMask m.toNat)

/-- Keys of the FACE, QSAT, ATTN and REC blocks of Face `f`. -/
def faceBlockKey (f k : Nat) : Bool :=
  [0x7F00020000, 0x7F00050000, 0x7F00070000, 0x7F00080000].any fun b => decide (b + 0x1000 * f ≤ k) && decide (k < b + 0x1000 * (f + 1))

/-- FACE_RESET_DONE: the Face's blocks, store and banks are as after reset (R510). -/
def execFaceResetDone (f : Fin 6) (s : State) : Out :=
  let n := f.val
  let fs := s.face n
  if fs.resetting then
    let s := (s.zero (storeBase n) storeBytes).zero (bankKey n 0) 0x100000
    let s := s.zero (accFlagKey n 0 0 0) 0x1000000
    let s := { s with regs := s.regs.filter fun e => !faceBlockKey n e.1 }
    .next ((s.setFace n { FaceSt.idle with
      slot := fs.slot
      halted := fs.halted
      gated := fs.gated }).setFlag Reg.SYS_STATUS n false)
  else s.noEvent

/-- SYS_CTRL written: DLS of a Double only while it is held, DREL, and FRST (R513). -/
def State.sysCtrlWrite (s : State) (v : Nat) : State :=
  let held := fun d => !s.flag Reg.SYS_CTRL (12 + d)
  let t := s.each (List.range 4) fun t d => if held d then t.setFlag Reg.SYS_CTRL (16 + d) (bitOf v (16 + d)) else t
  (t.setFld Reg.SYS_CTRL 15 12 (bits v 15 12)).frstMask (bits v 5 0)

/-- SYS_CTRL_DOUBLE_WRITE (R513). -/
def execSysCtrlDoubleWrite (v : Word) (s : State) : Out := .next (s.sysCtrlWrite v.toNat)

end Sys2Proof.Machine
end

