-- ==== Sys2Proof/Machine/Security.lean ====
section
/-! DEFINITION. Security and debug (R458 to R472): attestation, mailbox services, lifecycle records, debug unlock, halts. -/

namespace Sys2Proof.Machine

/-! ## The mailbox buffers (R497, R498) -/

/-- Key of a port-engine buffer byte, by its SPACE 1 offset: these buffers are no Home memory. -/
def portBuf (off : Nat) : Nat := homeSpace + 0x100000000 + off
/-- Mailbox reply buffer. -/
def replyBuf : Nat := portBuf 0x10000
/-- Mailbox request buffer. -/
def reqBuf : Nat := portBuf 0x20000
/-- Debug challenge buffer (R485). -/
def chalBuf : Nat := homeSpace + 0x800F1000
/-- Debug response buffer. -/
def respBuf : Nat := homeSpace + 0x800F8000

/-- Boot stage (R508). -/
def State.stage (s : State) : Nat := s.fld Reg.CPH_STATUS 31 24

/-- Home firmware runs: past ROM, in no ROM error stage, its cores not halted (R471, R472, R508). -/
def State.homeRuns (s : State) : Bool :=
  let g := s.stage
  decide (0x10 ≤ g) && g != 0x80 && g != 0x81 && Map.get 0 s.sec.halts 10 == 0 && Map.get 0 s.sec.halts 11 == 0

/-- A posted request is not yet served. -/
def State.mailWaits (s : State) : Bool := s.fld Reg.CPH_MBOX 31 16 != s.fld Reg.CPH_MBOX 15 0

/-- The posted request's KIND and LEN. -/
def State.mailKind (s : State) : Nat := s.loadNat reqBuf 2
/-- LEN of the posted request. -/
def State.mailLen (s : State) : Nat := s.loadNat (reqBuf + 4) 4

/-- Home firmware writes a reply: the SEQ served, STATUS, LEN and payload (R498). -/
def State.mailReply (s : State) (status : Nat) (payload : List Byte) : State :=
  s.store replyBuf (leBytes 4 (s.fld Reg.CPH_MBOX 15 0) ++ leBytes 4 status ++ leBytes 8 payload.length ++ payload)

/-! ## Attestation (R463) -/

/-- DET_CLASS (R281). -/
def detClass : Nat := 1

/-- The 512-byte report. -/
def State.report (s : State) (nonce : List Byte) : List Byte :=
  let b := leBytes 4 0x3154414E ++ leBytes 1 s.life ++ leBytes 1 (s.fld Reg.SEC_DBGSTAT 31 30) ++ leBytes 2 0
    ++ leBytes 4 (s.rd Reg.SEC_BOOTCNT).toNat ++ leBytes 4 (s.rd Reg.SEC_RECVER).toNat ++ leBytes 4 s.epoch
    ++ leBytes 4 (s.rd Reg.SEC_FWSVN).toNat ++ deviceId s.epoch ++ (nonce ++ List.replicate 32 0).take 32
    ++ leBytes 64 s.sec.homeDigest.toNat ++ leBytes 64 s.sec.ulnDigest.toNat ++ leBytes 2 detClass
  b ++ List.replicate (512 - b.length) 0

/-- The report with its IK signature. -/
def State.attestation (s : State) (nonce : List Byte) : List Byte :=
  let r := s.report nonce
  r ++ ikSign s.epoch r

/-- ATTEST: for Ulnal with its nonce, or for the host from the mailbox (R463, R498). Without a live IK the request is refused. -/
def execAttest (nonce : Option (List Byte)) (s : State) : Out :=
  if !s.homeRuns then s.noEvent
  else match nonce with
    | some n => .next (s.answer (if s.sec.kPuf then .ok (s.attestation n) else .denied))
    | none =>
      if !s.mailWaits || s.mailKind != 1 then s.noEvent
      else if s.mailLen != 32 then .next (s.mailReply 2 [])
      else if !s.sec.kPuf then .next (s.mailReply 3 [])
      else .next (s.mailReply 0 (s.attestation (s.load (reqBuf + 8) 32)))

/-! ## Lifecycle records (R464 to R467) -/

/-- A field of a record's bytes. -/
def recField (r : LifeRec) (off n : Nat) : Nat := leNat ((r.bytes.drop off).take n)
/-- STATE. -/
def recState (r : LifeRec) : Nat := recField r 4 1

/-- Is the record laid out as R465 says? -/
def recSound (r : LifeRec) : Bool :=
  r.bytes.length == 256 && recField r 0 4 == 0x31434C4E && decide (recState r ≤ 3) && decide (recField r 5 1 ≤ 1)
    && (recState r != 0 || recField r 48 64 == 0) && recField r 120 136 == 0

/-- May the signer install a record of this state (R466)? -/
def signerAllowed (state signer : Nat) : Bool :=
  if state = 1 ∨ state = 0 then signer == 2 else if state = 2 then signer == 1 else signer == 1 || signer == 2

/-- Does the slot qualify at boot: signature, DEVICE_ID, and VERSION equal to counter 0 (R465)? -/
def State.slotQualifies (s : State) (r : LifeRec) : Bool :=
  recSound r && signerAllowed (recState r) r.signer && (r.bytes.drop 16).take 32 == deviceId (recField r 12 4) && recField r 8 4 == s.flash.version

/-- The record in force, if a slot qualifies. -/
def State.recordInForce (s : State) : Option LifeRec :=
  [0, 1].findSome? fun i => match Map.get none s.flash.slots i with
    | some r => if s.slotQualifies r then some r else none
    | none => none

/-- Is the transition one of R466? -/
def transitionOk (src dst : Nat) : Bool :=
  (src == 0 && dst == 1) || (src == 1 && dst == 2) || ((src == 1 || src == 2) && dst == 3) || (src == 3 && dst == 0)

/-- LIFECYCLE: the posted record is written into the other slot and verified, and then counter 0 rises; it takes effect at the
next HOME_RST_N (R465, R466, R498). `signer` is whose valid signature stands under it, `locks` its lock list. -/
def execLifecycle (signer : BitVec 2) (locks : List (Nat × Nat)) (s : State) : Out :=
  if !s.homeRuns || !s.mailWaits || s.mailKind != 3 then s.noEvent
  else if s.mailLen != 30048 then .next (s.mailReply 2 [])
  else
    let r : LifeRec := { bytes := s.load (reqBuf + 8) 256, signer := signer.toNat, locks := locks.take 64 }
    let epoch := if s.life = 3 then s.epoch + 1 else s.epoch
    let ok := recSound r && transitionOk s.life (recState r) && signerAllowed (recState r) r.signer && recField r 8 4 == s.flash.version + 1
      && recField r 12 4 == epoch % 2 ^ 32 && (r.bytes.drop 16).take 32 == deviceId (recField r 12 4) && s.flag Reg.SEC_LIFE 28
      && decide (locks.length ≤ 64)
    if ok then
      let i := 1 - s.flash.newest
      .next ({ s with flash := { s.flash with
        slots := Map.put none s.flash.slots i (some r)
        newest := i
        version := s.flash.version + 1 } }.mailReply 0 [])
    else .next (s.mailReply 3 [])

/-! ## Debug levels (R468 to R472, R476) -/

/-- Debug level in force. -/
def State.debugLevel (s : State) : Nat := s.fld Reg.SEC_DBGSTAT 31 30

/-- Can the level be granted in this lifecycle state (R476)? -/
def levelReachable (life lvl : Nat) : Bool :=
  match life with
  | 0 => true
  | 1 => decide (lvl ≤ 2)
  | 2 => decide (lvl ≤ 1)
  | _ => true

/-- Signers that R476 allows: 1 the owner, 2 the Olnor root. -/
def unlockSigner (life lvl who : Nat) : Bool :=
  if lvl = 0 then false
  else match life with
    | 0 => who == 2
    | 1 => who == 1 || who == 2
    | 2 => who == 1
    | _ => if lvl = 3 then who == 2 else who == 1 || who == 2

/-- Set RESULT. -/
def State.dbgResult (s : State) (r : Nat) : State := s.setFld Reg.SEC_DBGSTAT 7 0 r

/-- The 80-byte challenge for a level. -/
def State.challenge (s : State) (lvl : Nat) (free : Nat) : List Byte :=
  leBytes 4 0x3142444E ++ leBytes 1 lvl ++ leBytes 1 s.life ++ leBytes 2 0 ++ leBytes 4 (s.rd Reg.SEC_BOOTCNT).toNat
    ++ leBytes 4 (s.rd Reg.SEC_RECVER).toNat ++ deviceId s.epoch
    ++ (List.range 4).flatMap fun i => leBytes 8 (Config.entropy (free + i)).toNat

/-- CHAL written: a challenge for LEVEL, which replaces the previous one; a level that cannot be granted fails (R469, R476). -/
def State.chal (s : State) (lvl : Nat) : State :=
  if levelReachable s.life lvl then
    let (f, s) := s.take 4
    { s.store chalBuf (s.challenge lvl f) with sec := { s.sec with
      chal := some lvl
      stale := true } }
  else s.dbgResult 4

/-- CHAL (R469). -/
def execChal (lvl : BitVec 2) (s : State) : Out := .next ((s.setFld Reg.SEC_DBGCTRL 1 0 lvl.toNat).chal lvl.toNat)

/-- SUBMIT written: LOCKOUT, BUSY, or a verification starts (R470). -/
def State.submit (s : State) : State :=
  if s.flag Reg.SEC_DBGSTAT 28 then s.dbgResult 5
  else if s.flag Reg.SEC_DBGSTAT 29 then s.dbgResult 6
  else { s with sec := { s.sec with
    verifying := s.sec.chal
    stale := false } }.setFlag Reg.SEC_DBGSTAT 29 true

/-- SUBMIT (R469). -/
def execSubmit (s : State) : Out := .next s.submit

/-- A failed verification is counted; the third sets LOCKOUT (R470). -/
def State.verifyFailed (s : State) (r : Nat) : State :=
  let n := min 3 (s.fld Reg.SEC_DBGSTAT 27 26 + 1)
  let s := (s.dbgResult r).setFld Reg.SEC_DBGSTAT 27 26 n
  if n = 3 then s.setFlag Reg.SEC_DBGSTAT 28 true else s

/-- Units: 0 to 5 Faces, 6 to 9 Doubles, 10 and 11 Home pairs. Halt one: a Face issues nothing more. -/
def State.haltUnit (s : State) (u : Nat) : State :=
  if Map.get 0 s.sec.halts u != 0 then s
  else
    let s := { s with sec := { s.sec with halts := Map.put 0 s.sec.halts u (s.raw + 1) } }.setFlag Reg.SEC_DBGSTAT 25 true
    if u < 6 then s.setFace u { s.face u with halted := true } else s

/-- A grant of D3 first stops the permit, halts both Home pairs and resets the compute side (R472). -/
def State.d3Start (s : State) : State :=
  let s := ((s.permitStop 2).haltUnit 10).haltUnit 11
  let t := (s.computeReset false).setCstate 1
  { t with sec := { t.sec with d3 := true } }

/-- DEBUG_VERIFY_DONE: the verification ends. `r`: 0 no valid signature, 1 the owner's, 2 the Olnor root's, 3 one for a challenge
that has been replaced (R469). -/
def execDebugVerifyDone (r : BitVec 2) (s : State) : Out :=
  if !s.flag Reg.SEC_DBGSTAT 29 then s.noEvent
  else
    let lvl := s.sec.verifying
    let stale := s.sec.stale || r == 3
    let s := { s with sec := { s.sec with
      verifying := none
      stale := false } }.setFlag Reg.SEC_DBGSTAT 29 false
    match lvl with
    | none => .next (s.verifyFailed 2)
    | some l =>
      if stale then .next (s.verifyFailed 3)
      else if !unlockSigner s.life l r.toNat then .next (s.verifyFailed 2)
      else if s.debugLevel = 3 then .next s
      else if l = 3 then .next s.d3Start
      else .next ((s.setFld Reg.SEC_DBGSTAT 31 30 l).dbgResult 1)

/-- D3_GRANT_DONE: HBM, every on-chip SRAM and Home memory are zeroed and the keys are gone; the level is granted (R472). -/
def execD3GrantDone (s : State) : Out :=
  if s.sec.d3 then
    let s := { s with
      mem := Map.clear 0 (peerKey 0) s.mem
      place := { s.place with
        scrub := []
        held := []
        unzeroed := [] }
      sec := { s.sec with
        d3 := false
        kPuf := false } }
    .next ((s.setFld Reg.SEC_DBGSTAT 31 30 3).dbgResult 1)
  else s.noEvent

/-- Every debug hold is released, and no hold stands requested; R101 then scrubs the released regions. -/
def State.holdsOff (s : State) : State :=
  { s with
    place := { s.place with
      held := []
      scrub := s.place.scrub ++ s.place.held }
    sec := { s.sec with holdJob := none } }.setFlag Reg.SEC_DBGSTAT 24 false

/-- RELOCK written: back to D0, every debug hold released; ignored from D3 (R470, R472). -/
def State.relock (s : State) : State :=
  if s.debugLevel = 3 || s.sec.d3 then s else s.holdsOff.setFld Reg.SEC_DBGSTAT 31 30 0

/-- HOLD_EN and HOLD_JOB written: a debug hold is requested while D2 is in force in Blank or Returned, and ignored in any other
combination (R472); clearing HOLD_EN releases the holds (DESIGN CHOICE, assumption 131). -/
def State.holdRequest (s : State) (on : Bool) (j : Nat) : State :=
  if !on then s.holdsOff
  else if s.debugLevel = 2 ∧ (s.life = 0 ∨ s.life = 3) then { s with sec := { s.sec with holdJob := some j } }
  else s

/-- RELOCK (R470). -/
def execRelock (s : State) : Out := .next s.relock

/-- SEC_DBGCTRL written: the fields, then the debug hold, RELOCK, CHAL and SUBMIT. -/
def State.dbgCtrlWrite (s : State) (v : Nat) : State :=
  let s := (s.setFld Reg.SEC_DBGCTRL 28 24 (bits v 28 24)).setFld Reg.SEC_DBGCTRL 1 0 (bits v 1 0)
  let s := s.holdRequest (bitOf v 28) (bits v 27 24)
  let s := if bitOf v 29 then s.relock else s
  let s := if bitOf v 31 then s.chal (bits v 1 0) else s
  if bitOf v 30 then s.submit else s

/-- Is the unit within reach of D2 in this power state (R477)? -/
def State.unitInReach (s : State) (u : Nat) : Bool :=
  let p := s.fld Reg.SEC_PSTATE 31 29
  if 10 ≤ u then true else if 3 ≤ p then false else if u < 6 then !(s.face u).gated else true

/-- DEBUG_HALT: under D2 a unit within reach is halted, or the halt is refused while the permit toggles (R468, R471, R477). -/
def execDebugHalt (u : Fin 12) (s : State) : Out :=
  if s.debugLevel < 2 || !s.unitInReach u then .next (s.answer .denied)
  else if s.flag Reg.PERMIT_STATUS 31 then .next (s.dbgResult 7)
  else .next (s.haltUnit u)

/-- DEBUG_RESUME: the unit goes on where it stopped; the time halted counts for no limit, and after the last halt of a covered
Face the next golden run is due GPERIOD later (R471). -/
def execDebugResume (u : Fin 12) (s : State) : Out :=
  let n := u.val
  let since := Map.get 0 s.sec.halts n
  if s.debugLevel < 2 || !s.unitInReach n then .next (s.answer .denied)
  else if since = 0 || (s.debugLevel == 3 && decide (10 ≤ n)) then s.noEvent
  else
    let held := s.raw + 1 - since
    let covered := s.goldSuspended
    let s := { s with sec := { s.sec with halts := Map.put 0 s.sec.halts n 0 } }
    let s := s.setFlag Reg.SEC_DBGSTAT 25 (!s.sec.halts.isEmpty)
    let fs := s.face n
    let s := if n < 6 then s.setFace n { fs with
        halted := false
        firstIssue := fs.firstIssue.map fun t => t + held } else s
    .next (if covered && !s.goldSuspended then { s with safe := { s.safe with goldFrom := s.raw } } else s)

end Sys2Proof.Machine
end

