-- ==== Sys2Proof/Machine/Power.lean ====
section
/-! DEFINITION. Power (R20, R473 to R486, R518 to R522): envelopes, trims, the governor, hardware limits, power states, the
supplies. Voltages are in mV, power in mW. -/

namespace Sys2Proof.Machine

/-! ## Clamp reasons (R481) -/

/-- Reasons that hardware throttles give: TJ, DROOP, ICC. -/
def State.hardReasons (s : State) : Nat :=
  (if s.pwr.junction.isEmpty then 0 else 2) + (if s.pwr.droop then 4 else 0) + (if s.pwr.icc then 8 else 0)

/-- Lowest reason of a mask; 0 for none. -/
def lowestReason (m : Nat) : Nat := ((List.range 9).find? (bitOf m)).getD 0

/-- Bring CLAMPED, REASON and the clamp log up to date; PWR_CLAMP is raised when a reason begins to act. -/
def State.clampRefresh (s : State) : State :=
  let m := s.hardReasons ||| s.pwr.soft
  let fresh := m &&& (2 ^ 9 - 1 - s.pwr.acting)
  let s := { s with pwr := { s.pwr with acting := m } }
  let s := (s.setFlag Reg.PWR_STATUS 63 (m != 0)).setFld Reg.PWR_STATUS 62 56 (lowestReason m)
  let s := s.setFld Reg.PWR_CLAMPLOG 8 1 (s.fld Reg.PWR_CLAMPLOG 8 1 ||| m / 2)
  if fresh = 0 then s else s.raiseEv 19

/-- Set or clear soft reason `k`. -/
def State.softReason (s : State) (k : Nat) (on : Bool) : State :=
  let m := s.pwr.soft
  { s with pwr := { s.pwr with soft := if on then m ||| 2 ^ k else m &&& (2 ^ 9 - 1 - 2 ^ k) } }

/-! ## Trims (R20, R486) -/

/-- TRIM of Face `n` in units of 5 mV. -/
def State.trim (s : State) (n : Nat) : Int := signed 8 (s.fld (Reg.PWR_TRIM n) 7 0)
/-- Is the trim of Face `n` pinned? -/
def State.pinned (s : State) (n : Nat) : Bool := s.flag (Reg.PWR_TRIM n) 8
/-- VCORE target. -/
def State.vcore (s : State) : Nat := s.fld Reg.PWR_STATUS 47 32
/-- Set TRIM, clamped to −10 to +10. -/
def State.setTrim (s : State) (n : Nat) (t : Int) : State := s.setFld (Reg.PWR_TRIM n) 7 0 (wrap 8 (clampInt (-10) 10 t))
/-- Voltage of Face `n` before it is held in range. -/
def State.faceRaw (s : State) (n : Nat) : Int := s.vcore + 5 * s.trim n
/-- Voltage of Face `n`, held in 600 to 900 mV (R20). -/
def State.faceMv (s : State) (n : Nat) : Int := clampInt 600 900 (s.faceRaw n)
/-- A trim takes a Face outside the range: reason TRIM_RANGE. -/
def State.trimRange (s : State) : State :=
  s.softReason 7 ((List.range 6).any fun n => s.vcore != 0 && s.faceMv n != s.faceRaw n)

/-- PWR_TRIMn written. -/
def State.trimWrite (s : State) (n v : Nat) : State :=
  ((s.setFlag (Reg.PWR_TRIM n) 8 (bitOf v 8)).setTrim n (signed 8 (v % 256))).trimRange.clampRefresh

/-- PWR_TRIM_WRITE (R486). -/
def execPwrTrimWrite (n : Fin 6) (v : Word) (s : State) : Out := .next (s.trimWrite n v.toNat)

/-! ## The governor (R482, R483) -/

/-- The part's maximum junction temperature (R480). -/
def tjMax : Int := if Config.gradeC then 85 else 105
/-- The soft limit (R482). -/
def tjSoft : Int := tjMax - 10

/-- The envelope in mW (R479); ENV 3 acts as 0. -/
def State.envelopeMw (s : State) : Nat :=
  match s.fld Reg.PWR_CTRL 1 0 with
  | 1 => 100000
  | 2 => 150000
  | _ => 60000

/-- WCAP in mW. -/
def State.wcapMw (s : State) : Nat := 1000 * s.fld Reg.PWR_CAP 15 8

/-- The governor's step of VCORE under a power limit: −10, +5 or 0 mV. -/
def vStep (lim mw : Nat) (hot cool : Bool) : Int :=
  if decide (lim < mw) || hot then -10 else if decide (100 * mw < 92 * lim) && cool then 5 else 0

/-- HBMPCT follows HBMC_STATUS.HOT: 50 while it is 1, the previous value once it has been clear for 1 s (R482). -/
def State.hbmPct (s : State) : State :=
  let hot := s.flag Reg.HBMC_STATUS 31
  match s.pwr.hbmPct with
  | none => if hot then { s with pwr := { s.pwr with
      hbmPct := some (s.fld Reg.PWR_CAP 7 0)
      coolAt := none } }.setFld Reg.PWR_CAP 7 0 50 else s
  | some old =>
    if hot then { s with pwr := { s.pwr with coolAt := none } }.setFld Reg.PWR_CAP 7 0 50
    else match s.pwr.coolAt with
      | none => { s with pwr := { s.pwr with coolAt := some s.raw } }
      | some t => if t + 1000000000 ≤ s.raw then { s with pwr := { s.pwr with
          hbmPct := none
          coolAt := none } }.setFld Reg.PWR_CAP 7 0 old else s

/-- Faces that the governor would cool: at or above the soft limit. -/
def hotFaces (tj : List Int) : List Nat := (List.range 6).filter fun f => tjSoft ≤ tj.getD f 0

/-- Which way Face `f`'s pace lies from the median of the six: above, below, or within the middle pair. -/
def State.offMedian (s : State) (f : Nat) : Int :=
  let l := sortBy (fun (n : Nat) => (n : Rat)) ((List.range 6).map s.paceOf)
  if s.paceOf f < l.getD 2 0 then 1 else if l.getD 3 0 < s.paceOf f then -1 else 0

/-- The trims of one tick: an unpinned hot Face goes down a step; every unpinned Face then moves at most a step toward the
median pace; a pinned Face that would be trimmed gives TRIM_PIN. -/
def State.trimTick (s : State) (tj : List Int) : State :=
  let move := fun (s : State) (f : Nat) => (if (hotFaces tj).contains f then -1 else 0) + s.offMedian f
  let pin := (List.range 6).any fun f => s.pinned f && (decide ((hotFaces tj).contains f = true) || s.offMedian f != 0)
  let t := s.each (List.range 6) fun t f => if s.pinned f then t else t.setTrim f (t.trim f + move s f)
  t.softReason 8 pin

/-- GOVERNOR_TICK: once per ms. `mw` is the mean package power over the last 10 ms, `tj` the Faces' sensors, `common` the
hottest sensor of the common domain. Without thermal history VCORE is held at 700 mV until the governor has run 1 s (R483);
where it starts from with history is not stated. -/
def execGovernorTick (mw : Nat) (tj : List Int) (common : Int) (s : State) : Out :=
  if s.cstate != 3 || decide (s.raw < s.pwr.tickAt + 1000000) then s.noEvent
  else
    let s := { s with pwr := { s.pwr with
      tickAt := s.raw
      ticks := if s.pwr.history then s.pwr.ticks else s.pwr.ticks + 1
      history := s.pwr.history || decide (1000 ≤ s.pwr.ticks) } }
    let (f, s) := s.take 1
    let s := (s.hbmPct).trimTick tj
    let v0 : Int := if s.vcore != 0 then s.vcore
      else if s.pwr.history then 600 + 5 * ((Config.freeWord f).toNat % 61 : Nat) else 700
    let hot := decide (tjSoft ≤ common)
    let hottest := (List.range 6).foldl (fun m k => max m (tj.getD k 0)) common
    let cool := decide (hottest < tjSoft - 3) && s.pwr.history
    let lim := min s.envelopeMw s.wcapMw
    let step := vStep lim mw hot cool
    let v := if s.pwr.history then v0 + step else 700
    let vmin : Int := s.fld Reg.PWR_CAP 31 16
    let vmax : Int := s.fld Reg.PWR_CAP 47 32
    let v' := clampInt 600 900 (clampInt vmin vmax v)
    let s := ((s.softReason 4 (decide (vmax < v))).softReason 5 (decide (v < vmin))).softReason 6
      (decide (s.wcapMw < s.envelopeMw) && vStep s.envelopeMw mw hot cool != step)
    let s := (s.setFld Reg.PWR_STATUS 47 32 v'.toNat).setFld Reg.PWR_STATUS 31 24 (wrap 8 hottest)
    .next (s.setFlag Reg.PWR_STATUS 54 s.pwr.history).trimRange.clampRefresh

/-- Highest voltage that a compute domain needs (R521). -/
def State.topMv (s : State) : Int := (List.range 6).foldl (fun m n => max m (s.faceMv n)) (s.vcore : Int)

/-- PMBUS_VOUT_WRITE: a changed target is written to the regulator as VOUT_COMMAND, exponent −12; how a value that the format
does not hold is rounded is not stated (R521). -/
def execPmbusVoutWrite (s : State) : Out :=
  let mv := (min 900 s.topMv).toNat
  if s.vcore = 0 ∨ mv = s.pwr.voutMv then s.noEvent
  else
    let (f, s) := s.take 1
    let up := if mv * 4096 % 1000 = 0 then 0 else (Config.freeWord f).toNat % 2
    .next { s with pwr := { s.pwr with
      voutMv := mv
      vout := mv * 4096 / 1000 + up } }

/-! ## Hardware limits (R480) -/

/-- JUNCTION_THROTTLE: a sensor of domain `d` (6 the common domain) reaches Tj_max. -/
def execJunctionThrottle (d : Fin 7) (t : Int) (s : State) : Out :=
  if tjMax ≤ t then
    .next { s with pwr := { s.pwr with junction := Map.put 0 s.pwr.junction d (if tjMax + 5 ≤ t then 2 else 1) } }.clampRefresh
  else s.noEvent

/-- JUNCTION_TRIP: Tj_max + 10 °C. -/
def execJunctionTrip (d : Fin 7) (t : Int) (s : State) : Out :=
  if tjMax + 10 ≤ t ∧ d.val < 7 then .next (s.fault 0x0D none none false 2) else s.noEvent

/-- DROOP: VCORE below 0.57 V for 1 us. -/
def execDroop (s : State) : Out := .next { s with pwr := { s.pwr with droop := true } }.clampRefresh

/-- ICC: VCORE current above ICC_MAX for 2 us. -/
def execIcc (s : State) : Out := .next { s with pwr := { s.pwr with icc := true } }.clampRefresh

/-- THROTTLE_RELEASE: a release condition has held for its time: junction throttle of domain `d` (0), droop (1), current (2). -/
def execThrottleRelease (k : Fin 3) (d : Fin 7) (s : State) : Out :=
  let p := s.pwr
  .next { s with pwr := if k = 0 then { p with junction := Map.put 0 p.junction d 0 }
    else if k = 1 then { p with droop := false } else { p with icc := false } }.clampRefresh

/-- The accounting fields by which the energy of domain `d` is shared among the jobs: ENGINE_NS of a Face for that Face, BYTES for
the common domain and HBM; no other domain's energy is (R271). -/
def shareBy (d : Nat) : List Nat :=
  if d < 6 then [0x40 + 8 * d] else if d = 6 ∨ d = 8 then [0x70, 0x78, 0x80, 0x88] else []

/-- What job `j` has in those fields. -/
def State.shareOf (s : State) (d j : Nat) : Nat :=
  (shareBy d).foldl (fun m o => m + s.loadNat (devKey (0x7F80020000 + j * 0x400 + o)) 8) 0

/-- What it has gained in them since they were last used; a record that began anew has gained what it holds. -/
def State.shareGain (s : State) (d j : Nat) : Nat :=
  let was := Map.get 0 s.pwr.shareSnap (16 * d + j)
  s.shareOf d j - (if was ≤ s.shareOf d j then was else 0)

/-- The energy of domain `d`, `uj` more of it, goes to the jobs' ENERGY_UJ in proportion to what each has gained (R271): whole uJ,
the rest staying for the next fold, as does all of it while no job has gained anything (DESIGN CHOICE, assumption 132). Without
full accounting nothing is shared. -/
def State.shareEnergy (s : State) (d uj : Nat) : State :=
  let due := Map.get 0 s.pwr.shareDue d + uj
  let js := List.range 16
  let total := js.foldl (fun m j => m + s.shareGain d j) 0
  if shareBy d = [] then s
  else if !s.acctFull then { s with pwr := { s.pwr with shareDue := Map.put 0 s.pwr.shareDue d 0 } }
  else if total = 0 then { s with pwr := { s.pwr with shareDue := Map.put 0 s.pwr.shareDue d due } }
  else
    let part := fun j => due * s.shareGain d j / total
    let t := s.each js fun t j => if part j = 0 then t else t.account j 0x90 (part j)
    { t with pwr := { t.pwr with
      shareDue := Map.put 0 t.pwr.shareDue d (due - js.foldl (fun m j => m + part j) 0)
      shareSnap := js.foldl (fun m j => Map.put 0 m (16 * d + j) (s.shareOf d j)) t.pwr.shareSnap } }

/-- ENERGY_FOLD: energy of the 11 domains, in uJ, goes into the counters (R484) and to the jobs (R271). -/
def execEnergyFold (uj : List Nat) (s : State) : Out :=
  .next (s.each (List.range 11) fun s d =>
    (s.wr (Reg.PWR_ENERGY d) (s.rd (Reg.PWR_ENERGY d) + BitVec.ofNat 64 (uj.getD d 0))).shareEnergy d (uj.getD d 0))

/-! ## Supplies (R520 to R522) -/

/-- A SUPPLY fault. -/
def State.supplyFault (s : State) (detail : Nat) : State := s.fault 0x0D none none false detail

/-- SUPPLY: a condition of R522 has held for its time: 0 VCORE, 1 VSRAM, 2 an HBM rail, 3 PG_CORE low, 4 PG_CORE late, 5 VHOME out
of range, 6 VHOME or VIO18 far below (the power-on reset follows), 7 VFIELD low; 8 says that VHOME is back in its range, and names no
condition. While VHOME is out of range the Home window answers with bus errors (R18). -/
def execSupply (c : BitVec 4) (s : State) : Out :=
  match c.toNat with
  | 0 => .next (s.supplyFault 1)
  | 1 => .next (s.supplyFault 3)
  | 2 => .next (s.supplyFault 4)
  | 3 => if s.pwr.coreEn then .next ({ s with pwr := { s.pwr with pgCore := false } }.supplyFault 5) else s.noEvent
  | 4 => if s.pwr.coreEn && !s.pwr.pgCore && decide (s.pwr.coreEnAt + 10000000 ≤ s.raw) then .next (s.supplyFault 6) else s.noEvent
  | 5 => .next ({ s with pwr := { s.pwr with vhomeOut := true } }.permitStop 4)
  | 6 => execPowerOnReset s
  | 7 => .next ((s.permitStop 6).raiseEv 144)
  | 8 => .next { s with pwr := { s.pwr with vhomeOut := false } }
  | _ => s.noEvent

/-- PMB_ALERT: PMB_ALERT_N asserts (R521). -/
def execPmbAlert (s : State) : Out := .next (s.supplyFault 7)

/-- PG_CORE: the board reports the compute rails in range (R520). -/
def execPgCore (s : State) : Out :=
  if s.pwr.coreEn then .next { s with pwr := { s.pwr with pgCore := true } } else s.noEvent

/-- The device drives PWR_HBM_EN and then PWR_CORE_EN high (R520). -/
def State.supplyOn (s : State) : State :=
  if s.pwr.coreEn then s
  else { s with pwr := { s.pwr with
    hbmEn := true
    coreEn := true
    pgCore := false
    coreEnAt := s.raw } }

/-- The device drops PWR_CORE_EN, and for Watch PWR_HBM_EN after it. -/
def State.supplyOff (s : State) (watch : Bool) : State :=
  { s with pwr := { s.pwr with
    coreEn := false
    pgCore := false
    hbmEn := s.pwr.hbmEn && !watch } }

/-! ## Power states (R473 to R475) -/

/-- Present power state. -/
def State.pstate (s : State) : Nat := s.fld Reg.SEC_PSTATE 31 29

/-- The state is shown in both registers. -/
def State.setPstate (s : State) (p : Nat) : State := s.watchGate <| (s.setFld Reg.SEC_PSTATE 31 29 p).setFld Reg.PWR_STATUS 2 0 p

/-- Faces gated in power state `p`: in Trim those with no slot entry in the active table, in Doze all. -/
def State.gatedIn (s : State) (p : Nat) : List Nat :=
  (List.range 6).filter fun f => p == 2 || (p == 1 && !((List.range 64).any fun i => s.flag (Reg.SCHED_SLOT i) 63 && bitOf (s.slotFaces i) f))

/-- PWR_CTRL.STATE written: ignored with BUSY while Home firmware's transition is in progress; else no command starts on a
Face to be gated from now on (R474). -/
def State.pwrState (s : State) (v : Nat) : State :=
  if s.flag Reg.SEC_PSTATE 25 then s.setFlag Reg.PWR_STATUS 55 true
  else if 2 < v then s
  else
    let s := s.setFld Reg.PWR_CTRL 6 4 v
    let s := s.each (s.gatedIn v) fun s f => s.setFace f { s.face f with gated := true }
    { s with pwr := { s.pwr with toUlnal := some v } }

/-- PWR_STATE_WRITE (R474). -/
def execPwrStateWrite (v : BitVec 3) (s : State) : Out := .next (s.pwrState v.toNat)

/-- A Face is gated: its live banks outside RESV are saved; the others are zeroed when it wakes (R474, R477). -/
def State.gateFace (s : State) (f : Nat) : State :=
  let resv := fun b => match Map.get 0 (s.face f).owner b with
    | 0 => false
    | o => bitOf (s.fld (Reg.SCHED_PARTA (s.partOf ((o - 1) / 8))) 47 32) b
  s.each (List.range 16) fun s b => if resv b then s else s.bankSave f b

/-- A Home-side request: 3 and 4 enter Retain and Watch, 0 wakes, other values are ignored; refused while a debug hold is in
force or CSTATE is FAILED (R474, R475). -/
def State.pstateWrite (s : State) (v : Nat) : State :=
  if v != 0 && v != 3 && v != 4 then s
  else
    let refuse := fun (s : State) (r : Nat) => (s.setFlag Reg.SEC_PSTATE 24 true).setFld Reg.SEC_PSTATE 7 0 r
    if s.flag Reg.SEC_PSTATE 25 || (v == 0 && s.pstate < 3) || v == s.pstate then s
    else if v != 0 && (s.flag Reg.SEC_DBGSTAT 24) then refuse s 1
    else if s.cstate = 4 then refuse s 2
    else
      let s := (s.setFld Reg.SEC_PSTATE 28 25 (2 * v + 1)).setFld Reg.SEC_PSTATE 7 0 0
      let s := { s with pwr := { s.pwr with toHome := some v } }
      if v = 0 then s.supplyOn else s

/-- SEC_PSTATE_WRITE of TARGET (R474). -/
def execSecPstateWrite (v : BitVec 3) (s : State) : Out := .next (s.pstateWrite v.toNat)

/-- SEC_PSTATE as a register. -/
def State.secPstateReg (s : State) (v : Nat) : State :=
  (if bitOf v 24 then s.setFlag Reg.SEC_PSTATE 24 false else s).pstateWrite (bits v 28 26)

/-- A Home-side transition completes: into Retain or Watch once no command runs, the compute side off; out of them with the
supplies good, on the restart path from Retain, from ULNAL_VERIFY from Watch. -/
def State.homeTransition (s : State) (t : Nat) : State :=
  let done := fun (s : State) => ({ s with pwr := { s.pwr with toHome := none } }.setPstate t).setFlag Reg.SEC_PSTATE 25 false
  if t = 0 then
    let was := s.pstate
    if !s.pwr.pgCore then s
    else if was = 4 then (done s).setFld Reg.CPH_STATUS 31 24 0x11
    else ((done s).setCstate 1).setFld Reg.CPH_STATUS 31 24 0x12
  else if (List.range 6).any fun f => (s.face f).running then s
  else
    let s := (s.computeReset (t == 4)).supplyOff (t == 4)
    let s := if t = 4 then { s with pwr := { s.pwr with
        history := false
        ticks := 0 } } else s
    (done (s.setCstate 0)).setFld Reg.CPH_STATUS 31 24 0x10

/-- A transition asked by Ulnal completes once no Face to be gated runs. -/
def State.ulnalTransition (s : State) (t : Nat) : State :=
  let off := s.gatedIn t
  if off.any fun f => (s.face f).running then s
  else
    let sleep := off.filter fun f => (s.face f).gated
    let wake := (List.range 6).filter fun f => (s.face f).gated && !off.contains f
    let s := (s.each sleep State.gateFace).each wake State.wakeFace
    { s with pwr := { s.pwr with toUlnal := none } }.setPstate t

/-- POWER_TRANSITION_DONE: the transition under way completes, Home firmware's first (R474). -/
def execPowerTransitionDone (s : State) : Out :=
  match s.pwr.toHome, s.pwr.toUlnal with
  | some t, _ => .next (s.homeTransition t)
  | none, some t => .next (s.ulnalTransition t)
  | none, none => s.noEvent

/-- POWER: the posted request asks for a power state; the reply is SEC_PSTATE after it (R498). -/
def execPower (s : State) : Out :=
  if !s.homeRuns || !s.mailWaits || s.mailKind != 2 then s.noEvent
  else if s.mailLen != 1 then .next (s.mailReply 2 [])
  else
    let v := s.loadNat (reqBuf + 8) 1
    let t := if v = 0 ∨ v = 3 ∨ v = 4 then (s.setFlag Reg.SEC_PSTATE 24 false).pstateWrite v else s
    let refused := !(v == 0 || v == 3 || v == 4) || t.flag Reg.SEC_PSTATE 24
    let t := if s.flag Reg.SEC_PSTATE 24 then t.setFlag Reg.SEC_PSTATE 24 true else t
    .next (t.mailReply (if refused then 3 else 0) (leBytes 4 (t.rd Reg.SEC_PSTATE).toNat))

end Sys2Proof.Machine
end

