-- ==== Sys2Proof/Machine/Access.lean ====
section
/-! DEFINITION. Registers (R10): what a write of each does, and what a read of it shows. -/

namespace Sys2Proof.Machine

/-! ## Event sources as registers (R502, R505) -/

/-- EVT_SRCk written: HC and HOST are ignored for sources 128 to 255, GRANT for 0 to 255 (R505). -/
def State.evtWrite (s : State) (k v : Nat) : State :=
  let a := Reg.EVT_SRC k
  let home := decide (128 ≤ k) && decide (k < 256)
  let s := s.setFlag a 63 (bitOf v 63)
  let s := if home then s else s.setFld a 62 61 (bits v 62 61)
  let s := s.setFld a 60 49 (bits v 60 49)
  (if 256 ≤ k then s.setFlag a 48 (bitOf v 48) else s).setFld a 47 44 (bits v 47 44)

/-- A software source is raised; any other value is ignored (R505). -/
def State.raiseSw (s : State) (v : Nat) : State := if 256 ≤ v % 512 then s.raiseEv (v % 512) else s

/-- EVTP_RAISE: Ulnal raises a software source. -/
def execEvtpRaise (v : Word) (s : State) : Out := .next (s.raiseSw v.toNat)

/-- EVH_RAISE written: ignored while the gate reports COMPUTE_DOWN (R503). -/
def State.evhRaise (s : State) (v : Nat) : State := if s.gateDown then s else s.raiseSw v

/-- EVH_RAISE. -/
def execEvhRaise (v : Half) (s : State) : Out := .next (s.evhRaise v.toNat)

/-! ## Host windows (R501) -/

/-- Base and size of host window `w`. -/
def State.hostWin (s : State) (w : Nat) : Nat × Nat := (s.fld (Reg.CPB_WINA w) 47 12 * 4096, s.fld (Reg.CPB_WINB w) 39 12 * 4096)

/-- CPB_WINAw written: EN stays 0 unless the region lies wholly in the Board or wholly in mapped HBM. -/
def State.cpbA (s : State) (w v : Nat) : State :=
  let a := Reg.CPB_WINA w
  let s := (s.setFlag a 62 (bitOf v 62)).setFld a 47 12 (bits v 47 12)
  s.setFlag a 63 (bitOf v 63 && regionOk (s.hostWin w).1 (s.hostWin w).2)

/-- CPB_WINBw written: an open window stays open only if its new region is one (DEDUCED). -/
def State.cpbB (s : State) (w v : Nat) : State :=
  let s := s.setFld (Reg.CPB_WINB w) 39 12 (bits v 39 12)
  s.setFlag (Reg.CPB_WINA w) 63 (s.flag (Reg.CPB_WINA w) 63 && regionOk (s.hostWin w).1 (s.hostWin w).2)

/-- CPB_WIN_WRITE: register A or B of a window. -/
def execCpbWinWrite (w : BitVec 3) (b : Bool) (v : Word) (s : State) : Out :=
  .next (if b then s.cpbB w.toNat v.toNat else s.cpbA w.toNat v.toNat)

/-! ## Boot completion (R462, R513) -/

/-- SYS_BOOT.UP written: in BOOT, CSTATE becomes UP, unless a fault of the same step resets the compute side; images with ADVANCE
raise the firmware counter. -/
def State.bootUp (s : State) : State :=
  if s.cstate = 2 ∧ !s.safe.resetDue then
    let svn := s.sec.raises.foldl max s.flash.svn
    let s := { s with
      flash := { s.flash with svn := svn }
      sec := { s.sec with raises := [] }
      safe := { s.safe with kickAt := s.raw } }
    ((s.setCstate 3).wr Reg.SEC_FWSVN (BitVec.ofNat 64 svn)).setFld Reg.CPH_STATUS 31 24 0x20
  else s

/-- SYS_BOOT_UP (R513). -/
def execSysBootUp (s : State) : Out := .next s.bootUp

/-! ## The mailbox and host requests (R498, R499) -/

/-- The host posts SEQ; a new value raises CP_MBOX. -/
def State.mboxPost (s : State) (v : Nat) : State :=
  let was := s.fld Reg.CPH_MBOX 15 0
  let s := s.setFld Reg.CPH_MBOX 15 0 v
  if was = v % 65536 then s else s.raiseEv 149

/-- CP_MBOX. -/
def execCpMbox (seq : BitVec 16) (s : State) : Out := .next (s.mboxPost seq.toNat)

/-- Home firmware writes ACKSEQ; CP_REPLY is raised. -/
def State.mboxAck (s : State) (v : Nat) : State := (s.setFld Reg.CPH_MBOX 31 16 v).raiseEv 150

/-- CP_REPLY: an owner-defined reply, if any, then ACKSEQ. -/
def execCpReply (ack : BitVec 16) (reply : Option (Byte × List Byte)) (s : State) : Out :=
  let s := match reply with
    | some (st, bs) => s.mailReply st.toNat (bs.take 65520)
    | none => s
  .next (s.mboxAck ack.toNat)

/-- CRST: with CRST_EN the request is recorded as HOME_REQ with DETAIL 1. -/
def State.crst (s : State) : State := if s.flag Reg.CPH_CFG 0 then s.fault 0x0F none none false 1 else s

/-- CRST (R499). -/
def execCrst (s : State) : Out := .next s.crst

/-- PSTOP (R499). -/
def execPstop (s : State) : Out := .next (s.permitStop 2)

/-- CPH_CTRL as a register. -/
def State.cphCtrl (s : State) (v : Nat) : State :=
  let s := if bitOf v 0 then s.permitStop 2 else s
  if bitOf v 1 then s.crst else s

/-! ## Writes -/

/-- The one register of its kind. -/
def one (r a : Nat) (t : State) : Option State := if a = r then some t else none

/-- Register `i` of `n`, `stride` apart. -/
def many (base stride n a : Nat) (f : Nat → State) : Option State :=
  if base ≤ a ∧ a < base + stride * n ∧ (a - base) % stride = 0 then some (f ((a - base) / stride)) else none

/-- Register (i, j) of n by m. -/
def many2 (base s1 n s2 m a : Nat) (f : Nat → Nat → State) : Option State :=
  let i := (a - base) / s1
  let r := (a - base) % s1
  if base ≤ a ∧ i < n ∧ r < s2 * m ∧ r % s2 = 0 then some (f i (r / s2)) else none

/-- The state that a meaning answers. -/
def Out.state (o : Out) (s : State) : State :=
  match o with
  | .next t => t
  | _ => s

/-- A write by the access code of each field; RWL fields hold in Deployed (R10, R467). -/
def State.plainWrite (s : State) (a v : Nat) : State :=
  match regRow? a with
  | some r => s.wr a (BitVec.ofNat 64 (r.written (s.life == 2) (s.rd a).toNat v))
  | none => s

/-- A write that is ignored while `busy`. -/
def State.unless (s : State) (busy : Bool) (a v : Nat) : State := if busy then s else s.plainWrite a v

/-- The buffer table entry that PLACE_BSEL selects. -/
def State.bsel (s : State) : Nat := s.fld Reg.PLACE_BSEL 11 0

/-- Change the selected entry. -/
def State.modBuf (s : State) (f : BufEnt → BufEnt) : State := s.setBuf s.bsel (f (s.buf s.bsel))

/-- A log ring that has moved holds nothing yet: its first entries overwrite none (R293, R302). -/
def State.newRing (s : State) (j : Nat) : State := { s with kept := { s.kept with logFill := Map.put 0 s.kept.logFill j 0 } }

/-- Writes of device-map registers that do more than R10 says. Writes reach the SAFE block from the core of Double 0. -/
def State.devWrite (s : State) (a v : Nat) : Option State :=
  let w := BitVec.ofNat 64 v
  let ls := s.flag Reg.SYS_CTRL 16
  ([many (Reg.QSAT_CTRL 0) 0x1000 6 a fun f =>
      let t := s.plainWrite a v
      if bitOf v 0 then t.qsatSnap f else t,
    one Reg.PLACE_COMMIT a (if bitOf v 0 then s.placeGo else s),
    one Reg.PLACE_BREC a (s.brecWrite v),
    one Reg.PLACE_BSIZE a (s.modBuf fun b => { b with size := BitVec.ofNat 64 (bits v 47 0) }),
    one Reg.PLACE_BBACK a (s.modBuf fun b => { b with back := BitVec.ofNat 64 (v &&& 0x9800FFFFFFFFF000) }),
    one Reg.PLACE_SBIND a (s.modBuf fun b => { b with sbind := BitVec.ofNat 64 (v &&& 0xC000FFFFFFFFFFC0) }),
    many (Reg.SYNC_SEM 0) 8 256 a fun m => (execSyncSemWrite (BitVec.ofNat 8 m) w s).state s,
    one Reg.SYNC_RVAL a ((execSyncRvalWrite w s).state s),
    many (Reg.ATTN_CTRL 0) 0x1000 6 a fun f => if bitOf v 0 then (execAttnClr (Fin.ofNat 6 f) s).state s else s,
    many (Reg.REC_CTRL 0) 0x1000 6 a fun f => if bitOf v 0 then (execRecClr (Fin.ofNat 6 f) s).state s else s,
    many (Reg.PIP_QPUSH 0) 8 8 a fun p => (execPipQpush (BitVec.ofNat 3 p) w s).state s,
    one Reg.PIP_QFLUSH a ((execPipQflush w s).state s)] ++
   [one Reg.SCHED_CTRL a (s.schedCtrlWrite v),
    one Reg.SCHED_COMMIT a (if bitOf v 0 then s.schedGo else s),
    one Reg.SCHED_BASE a (s.unless (s.flag Reg.SCHED_CTRL 0) a v),
    many (Reg.SCHED_PARTA 0) 8 8 a fun p => s.partAWrite p v,
    many (Reg.SCHED_PARTB 0) 8 8 a fun p => s.partBWrite p v,
    many (Reg.SCHED_JOB 0) 8 16 a fun j => s.jobWrite j w,
    one Reg.SCHED_QBASE a (s.qbaseWrite w),
    one Reg.SCHED_QTAIL a (s.tailWrite w),
    many (Reg.DET_STEP 0) 0x40 16 a fun j => s.stepWrite j v,
    many (Reg.DET_JSTEP 0) 0x40 16 a fun j => s.jstepWrite j w,
    many (Reg.DET_LOGBASE 0) 0x40 16 a fun j => (s.plainWrite a v).newRing j,
    one Reg.PERT_DELAY a (s.pertDelayWrite v),
    many Reg.PERT_CTRL 8 7 a fun _ => s.pertWrite a v] ++
   [one Reg.SAFE_KICK a (s.kick v),
    one Reg.SAFE_INJ a (s.injWrite v ls),
    one Reg.GOLD_CTRL a (s.goldWrite v ls),
    many2 (Reg.CSI_RBASE 0 0) 0x1000 12 0x10 4 a fun p f => s.unless (s.flag (Reg.CSI_STREAM p f) 15) a v,
    many2 (Reg.CSI_RCTL 0 0) 0x1000 12 0x10 4 a fun p f => s.rctlWrite p f v,
    many2 (Reg.ETH_TXBASE 0 0) 0x1000 4 0x10 8 a fun n q => s.unless (s.flag (Reg.ETH_TXCTL n q) 63) a v,
    many2 (Reg.ETH_RXBASE 0 0) 0x1000 4 0x10 8 a fun n q => s.unless (s.flag (Reg.ETH_RXCTL n q) 63) a v,
    many2 (Reg.ETH_TXCTL 0 0) 0x1000 4 0x10 8 a fun n q => s.txRingWrite n q v,
    many2 (Reg.ETH_CBS 0 0) 0x1000 4 8 4 a fun n q => s.cbsWrite n (q + 4) v,
    many2 (Reg.ETH_RXCTL 0 0) 0x1000 4 0x10 8 a fun _ _ => s.ringWrite a v,
    many (Reg.ETH_GCLCTL 0) 0x1000 4 a fun n => (s.plainWrite a v).gclPending n,
    many2 (Reg.ETH_GCL 0 0) 0x1000 4 8 256 a fun n _ => (s.plainWrite a v).gclPending n,
    one Reg.EFL_TOPO a (s.eflTopoWrite v),
    many (Reg.WINA 0) 0x10 64 a fun i => s.winaWrite i v,
    many (Reg.WINB 0) 0x10 64 a fun i => s.winbWrite i v,
    many (Reg.EFL_CTRL 0) 0x1000 2 a fun n => s.eflCtrlWrite n v] ++
   [one Reg.PWR_CTRL a ((if s.life = 2 then s else s.setFld Reg.PWR_CTRL 1 0 (bits v 1 0)).pwrState (bits v 6 4)),
    many (Reg.PWR_TRIM 0) 8 6 a fun n => s.trimWrite n v,
    many (Reg.EVT_SRC 0) 8 512 a fun k => s.evtWrite k v,
    one Reg.EVTP_RAISE a (s.raiseSw v),
    many (Reg.CPB_WINA 0) 0x10 8 a fun k => s.cpbA k v,
    many (Reg.CPB_WINB 0) 0x10 8 a fun k => s.cpbB k v,
    one Reg.PCIE_BAR0WIN a (s.barWrite v),
    one Reg.PCIE_MSIX a (s.msix v),
    one Reg.SYS_CTRL a (s.sysCtrlWrite v),
    one Reg.SYS_BOOT a (if bitOf v 0 then s.bootUp else s)]).findSome? id

/-- Writes of Home registers, by Home pair `p`, that do more than R10 says. -/
def State.homeWrite (s : State) (p a v : Nat) : Option State :=
  ([one Reg.CE_CTRL a (s.ceCtrl v),
    one Reg.CE_SPCOMMIT a (if bitOf v 0 then s.spCommit else s),
    many (Reg.CE_BASE 0) 4 2 a fun _ => s.unless (s.flag Reg.CE_CTRL 0) a v,
    many (Reg.CE_LOOP_CFG 0) 0x10 64 a fun n => s.loopCfg n v,
    many (Reg.CE_SPW 0) 4 256 a fun k => s.spWrite k v,
    many (Reg.CE_COEF_VALUE 0) 8 2048 a fun i => s.valueWrite p i v,
    many (Reg.CE_COEF_SHIFT 0) 8 2048 a fun i => s.shiftWrite p i v,
    many (Reg.CE_PMEM 0) 4 8192 a fun i => s.progWrite i v,
    one Reg.EVH_RAISE a (s.evhRaise v),
    one Reg.CPH_CTRL a (s.cphCtrl v),
    one Reg.CPH_MBOX a (s.mboxAck (bits v 31 16)),
    one Reg.SOLV_CTRL a (s.solvCtrl v),
    one Reg.HOLD_CTRL a (s.holdCtrl v)] ++
   [one Reg.TIME_RATELO a (s.rateWrite p v),
    one Reg.TIME_RATEHI a (s.rateHiWrite p v),
    one Reg.PPS_CTRL a (s.ppsCtrlWrite v),
    one Reg.TIME_STEPLO a (s.stepTimeWrite v),
    one Reg.TIME_STEPHI a { s with time := { s.time with stepH := v % 2 ^ 32 } },
    one Reg.TIME_STEPFR a { s with time := { s.time with stepF := v % 2 ^ 16 } },
    many2 (Reg.CAN_BIT 0 0) 0x1000 4 4 3 a fun c _ => s.unless (s.flag (Reg.CAN_CTRL c) 0) a v,
    many (Reg.CAN_TXCMD 0) 0x1000 4 a fun c => s.txCmd c v,
    many2 (Reg.CAN_RXCFG 0 0) 0x1000 4 0x10 2 a fun c q => s.rxCfgWrite c q v,
    many2 (Reg.CAN_RXTAIL 0 0) 0x1000 4 0x10 2 a fun c q => s.tailRelease (Reg.CAN_RXHEAD c q) (Reg.CAN_RXTAIL c q) v,
    one Reg.BLD_CTRL a (if bitOf v 0 then s.bldClr else s),
    many (Reg.T1S_CTRL 0) 0x1000 2 a fun n => s.t1sCtrl n v,
    many (Reg.T1S_TXPUSH 0) 0x1000 2 a fun n => s.txPush n v,
    many (Reg.T1S_RXTAIL 0) 0x1000 2 a fun n => s.tailRelease (Reg.T1S_RXHEAD n) (Reg.T1S_RXTAIL n) v] ++
   [many (Reg.ENC_CFG 0) 0x40 16 a fun n => s.encCfg n v,
    many (Reg.ENC_SCALE 0) 0x40 16 a fun n => s.unless (s.flag (Reg.ENC_CFG n) 31) a v,
    one Reg.PERMIT_CTRL a (let t := s.plainWrite a v
      if bitOf v 0 then t.permitStop 2 else t),
    one Reg.PERMIT_STATUS a (s.permitArm p v),
    many (Reg.PERMIT_KICK 0) 4 2 a fun k => if k = p then s.permitKick p else s,
    one Reg.HFLT_CTRL a (s.hfltWrite v),
    one Reg.SEC_DBGCTRL a (s.dbgCtrlWrite v),
    one Reg.SEC_PSTATE a (s.secPstateReg v)]).findSome? id

/-- A write of the register at key `a`; an address that names none does nothing. -/
def State.regWrite (s : State) (p a v : Nat) : State :=
  ((if a < homeSpace then s.devWrite a v else s.homeWrite p a v)).getD (s.plainWrite a v)

/-! ## Reads -/

/-- ORDER of SYS_ID (R513). -/
def orderCode : Nat := Config.orderingCode.val

/-- FACE_STATUS: RUNNING, JOB, VFACE, WINDOW, MOVERS and CMDS. -/
def State.faceStatus (s : State) (f : Nat) : Nat :=
  let x := s.face f
  let movers := (x.window.filter fun e => e.unit == .mover && e.started).length
  (if x.running then 2 ^ 63 + x.job * 2 ^ 59 + x.vf * 2 ^ 56 else 0) + x.window.length * 2 ^ 39 + movers * 2 ^ 32 + s.fld (Reg.FACE_STATUS f) 31 0

/-- FACE_EVOVF0 and 1: OVF of local counters `b` to `b` + 63 of the running command; from ev(112) on the routed ones. Without a
command there is none. -/
def State.evOverflow (s : State) (f b : Nat) : Nat :=
  let x := s.face f
  if !x.running then 0
  else ((List.range 64).filter fun k => Ctr.ovf (if 112 ≤ b + k then s.routedCtr x.job x.vf (b + k - 112) else Map.get 0 x.ev (b + k))).foldl
    (fun m k => m + 2 ^ k) 0

/-- The value a read shows where the stored word is not all of it. -/
def State.liveRead (s : State) (a : Nat) : Option Nat :=
  let n := (s.rd a).toNat
  let at1 := fun (r : Nat) (v : Nat) => if a = r then some v else none
  let idx := fun (base stride k : Nat) (f : Nat → Nat) =>
    if base ≤ a ∧ a < base + stride * k ∧ (a - base) % stride = 0 then some (f ((a - base) / stride)) else none
  let sel := s.buf s.bsel
  let cnt := s.buf (s.fld Reg.PLACE_CNT_SEL 11 0)
  let q := s.vf s.qsel.1 s.qsel.2
  let r := s.rselIdx
  let t := stampOf (s.timeOf s.raw)
  ([at1 Reg.SYS_ID (putBits n 39 32 orderCode),
    at1 Reg.PLACE_CNT_READS cnt.reads.toNat,
    at1 Reg.PLACE_CNT_WRITES cnt.writes.toNat,
    at1 Reg.PLACE_BREC sel.record.toNat,
    at1 Reg.PLACE_BSIZE sel.size.toNat,
    at1 Reg.PLACE_BBACK sel.back.toNat,
    at1 Reg.PLACE_BBIND sel.bind.toNat,
    at1 Reg.PLACE_SBIND sel.sbind.toNat,
    at1 Reg.SYNC_NET (s.netOf (s.fld Reg.SYNC_NETSEL 11 8) (s.fld Reg.SYNC_NETSEL 7 0) % 2 ^ 16),
    at1 Reg.SYNC_RVAL (if r.2.1 < 6 then (s.routedCtr r.1 r.2.1 r.2.2).toNat else 0),
    at1 Reg.SCHED_QBASE q.qbase.toNat,
    at1 Reg.SCHED_QHEAD q.head.toNat,
    at1 Reg.SCHED_QTAIL q.tail.toNat,
    idx (Reg.PIP_QLEVEL 0) 8 8 (fun p => (Map.get [] s.pip.queues p).length),
    idx (Reg.SCHED_JOB 0) 8 16 (fun j => putBits n 57 55 (s.jobState j))] ++
   [at1 Reg.PERT_DELAY (Map.get 0 s.pertDelay (s.fld Reg.PERT_CHSEL 11 0)),
    at1 Reg.TIMEM_RAW s.raw,
    at1 Reg.TIMEM_NOW0 (t % 2 ^ 64),
    at1 Reg.TIMEM_NOW1 (Map.get 0 s.time.memNow1 bridgeReq),
    at1 Reg.TIMEM_RA s.time.ra,
    at1 Reg.TIMEM_TA0 (s.time.memTa % 2 ^ 64),
    at1 Reg.TIMEM_TA1 (s.time.memTa / 2 ^ 64 % 2 ^ 32),
    at1 Reg.TIMEM_RHO (wrap 64 s.time.memRho),
    at1 Reg.TIMEM_STATUS ((if s.flag Reg.TIME_STATUS 31 then 2 ^ 63 else 0) + s.ppsState * 2 ^ 61 + s.time.memPseq),
    idx (Reg.FACE_STATUS 0) 0x1000 6 (fun f => s.faceStatus f),
    idx (Reg.FACE_EVOVF0 0) 0x1000 6 (fun f => s.evOverflow f 0),
    idx (Reg.FACE_EVOVF1 0) 0x1000 6 (fun f => s.evOverflow f 64),
    at1 Reg.CE_STATUS (putBits n 0 0 (if s.flag Reg.CE_CTRL 0 && decide (s.ceBase ≤ s.raw) then 1 else 0)),
    at1 Reg.SAFE_STATUS (putBits n 63 58 (s.fld Reg.HFLT_QUAR 5 0)),
    at1 Reg.GOLD_STATUS (putBits n 63 58 (s.cover.foldl (fun m f => m + 2 ^ f) 0)),
    idx (Reg.EVT_SRC 0) 8 512 (fun k => if 128 ≤ k ∧ k < 256 then putBits n 62 62 1 else n),
    at1 Reg.CPH_STATUS (putBits n 23 21 s.cstate),
    at1 Reg.HFLT_STATUS (putBits n 19 16 (min 15 (within10 s.raw s.safe.resets).length)),
    idx (Reg.HFLT_FACE 0) 4 6 (fun f => min 3 (within10 s.raw (Map.get [] s.safe.times f)).length)] ++
   [at1 Reg.TIME_RAWLO (s.raw % 2 ^ 32),
    at1 Reg.TIME_RAWHI (Map.get 0 s.time.rawHi 0),
    at1 Reg.TIME_NOW0 (t % 2 ^ 32),
    at1 Reg.TIME_NOW1 (Map.get 0 s.time.now1 0),
    at1 Reg.TIME_NOW2 (Map.get 0 s.time.now2 0),
    at1 Reg.TIME_RATELO (wrap 32 s.time.rho),
    at1 Reg.TIME_RATEHI (Map.get 0 s.time.rhoH 0),
    at1 Reg.PPS_CAPHI s.time.capHi]).findSome? id

/-- What a read of the register at key `a` shows: WO bits read 0 (R10). -/
def State.regRead (s : State) (a : Nat) : Nat :=
  match s.liveRead a with
  | some v => v
  | none => match regRow? a with
    | some r => (s.rd a).toNat &&& (2 ^ 64 - 1 - (r.wo &&& (2 ^ 64 - 1 - (r.rw ||| r.w1c ||| r.rws ||| r.rwl))))
    | none => 0

/-! ## Delivery of events (R502, R503) -/

/-- Set pending bit of source `k` in a block of registers of `w` bits from `base`. -/
def State.pend (s : State) (base w k : Nat) : State := s.setFlag (base + k / w * (w / 8)) (k % w) true

/-- The subscribers of EVT_SRCk: control cores, Home cores and host for a source of the compute side, and the bound routed
counter; an increment for a job or vFace that is not there is discarded. -/
def State.deliverEvt (s : State) (k : Nat) : State :=
  let a := Reg.EVT_SRC k
  let home := decide (128 ≤ k) && decide (k < 256)
  let s := if s.flag a 63 then s.pend (Reg.EVTP_PEND 0) 64 k else s
  let s := if !home && s.flag a 62 then s.pend (Reg.EVH_PEND 0) 32 k else s
  let s := if !home && s.flag a 61 then s.pend (Reg.CPH_PEND 0) 32 k else s
  if s.flag a 60 && decide (s.fld a 55 53 < s.vfCountOf (s.fld a 59 56)) then s.sendRouted (s.fld a 59 56) (s.fld a 55 53) (s.fld a 52 49) 1 else s

/-- EVENT_DELIVER: the oldest raised source reaches its subscribers. A Home-domain source always reaches the Home cores, the host by
its EVH_HOST bit, the compute side while CSTATE is UP; any other goes by EVT_SRCk, which is at reset while the compute side is in
reset. -/
def execEventDeliver (s : State) : Out :=
  match s.raised with
  | [] => s.noEvent
  | k :: rest =>
    let s := { s with raised := rest }
    if 128 ≤ k ∧ k < 256 then
      let s := s.pend (Reg.EVH_PEND 0) 32 k
      let s := if s.flag (Reg.EVH_HOST ((k - 128) / 32)) (k % 32) then s.pend (Reg.CPH_PEND 0) 32 k else s
      .next (if s.cstate = 3 then s.deliverEvt k else s)
    else .next (s.deliverEvt k)

/-! ## Boot (R458, R461 to R467, R508, R509) -/

/-- Set the boot stage. -/
def State.setStage (s : State) (g : Nat) : State := s.setFld Reg.CPH_STATUS 31 24 g

/-- Does an image pass (R461)? Without K_PUF only the Olnor signature counts, as in Blank (R458). -/
def State.imageOk (s : State) (i : ImageHdr) : Bool :=
  i.rootOk && i.olnorOk && (!s.flag Reg.SEC_LIFE 26 || i.ownerOk) && i.bodyOk && decide (s.flash.svn ≤ i.svn.toNat)

/-- The slot that is used: A, or B if A fails. -/
def State.pickImage (s : State) (a b : Option ImageHdr) (tried : Nat) : Option (Nat × ImageHdr) :=
  let ok := fun (i : Nat) (x : Option ImageHdr) => match x with
    | some h => if s.imageOk h && !bitOf tried i then some (i, h) else none
    | none => none
  match ok 0 a with
  | some r => some r
  | none => ok 1 b

/-- The security versions that an image raises the counter to (R462). -/
def raisesOf (i : ImageHdr) : List Nat := if i.advance then [i.svn.toNat] else []

/-- ROM chooses the lifecycle record (R464 to R467). Without counters, without a qualifying record, or without K_PUF the device acts
as Blank. At the first boot in Returned everything is zeroed. -/
def State.bootRecord (s : State) : State :=
  let usable := s.flag Reg.SEC_LIFE 28 && s.flag Reg.SEC_LIFE 29
  let r := if usable then s.recordInForce else none
  let life := match r with
    | some x => recState x
    | none => 0
  let s := (s.setFld Reg.SEC_LIFE 31 30 life).setFlag Reg.SEC_LIFE 27 s.recordInForce.isNone
  let s := match r with
    | some x => { (s.setFlag Reg.SEC_LIFE 26 (recField x 5 1 % 2 == 1)).wr Reg.SEC_EPOCH (BitVec.ofNat 64 (recField x 12 4)) with
        sec := { s.sec with locks := if life = 2 then x.locks else [] } }
    | none => s
  let s := if life = 3 ∧ s.flash.life ≠ 3 then { s with
      mem := Map.clear 0 (peerKey 0) s.mem
      place := { s.place with unzeroed := [] } } else s
  let s := { s with flash := { s.flash with life := life } }
  (s.applyLocks false).applyLocks true

/-- The end of one boot stage. -/
def State.bootStage (s : State) (r : BootRes) : Option State :=
  match s.stage, r with
  | 0x01, .next => some (s.setStage 0x02)
  | 0x02, .puf ok => some ({ s.setFlag Reg.SEC_LIFE 29 ok with sec := { s.sec with kPuf := ok } }.setStage 0x03)
  | 0x03, .flash usable counters =>
    if usable then
      let n := (s.flash.boots + 1) % 2 ^ 32
      let t := s.setFlag Reg.SEC_LIFE 28 counters
      let t := if counters then
          (({ t with flash := { t.flash with boots := n } }.wr Reg.SEC_BOOTCNT (BitVec.ofNat 64 n)).wr Reg.SEC_RECVER
            (BitVec.ofNat 64 s.flash.version)).wr Reg.SEC_FWSVN (BitVec.ofNat 64 s.flash.svn) else t
      some (t.setStage 0x04)
    else some (s.setStage 0x80)
  | 0x04, .record => some (s.bootRecord.setStage 0x05)
  | 0x05, .images a b => match s.pickImage a b 0 with
    | some (i, h) => some (({ s with sec := { s.sec with
        homeDigest := h.digest
        raises := raisesOf h } }.setFlag Reg.CPH_STATUS 20 (i == 1)).supplyOn.setStage 0x10)
    | none => some (s.setStage 0x81)
  | 0x10, .next => some (s.setStage 0x11)
  | 0x11, .images a b => match s.pickImage a b s.sec.ulnTried with
    | some (i, h) =>
      let bs := h.stage0.take 0x30000
      some (({ s.store (homeSpace + 0x50000) bs with sec := { s.sec with
        ulnDigest := h.digest
        raises := s.sec.raises ++ raisesOf h
        stage0 := bs.length } }.setFlag Reg.CPH_STATUS 19 (i == 1)).setStage 0x12)
    | none => some (s.setStage 0x82)
  | _, _ => none

/-- BOOT_STAGE_DONE: the present stage ends as `r` says. -/
def execBootStageDone (r : BootRes) (s : State) : Out :=
  match s.bootStage r with
  | some t => .next t
  | none => s.noEvent

/-- COMPUTE_BOOT: compute-side reset is released; then, the Board zeroed, STAGE0 goes in (R509). -/
def execComputeBoot (s : State) : Out :=
  if s.stage = 0x12 ∧ s.cstate ≤ 1 ∧ s.releasable then .next s.release
  else if s.stage = 0x12 ∧ s.cstate = 2 ∧ !s.safe.boardOpen then .next s.stage0In
  else s.noEvent

/-- MAIN_DIGEST_VERDICT: the verdict goes into the boot mailbox, the last 4 KiB of the Board, in a form that is not stated. On a
mismatch the compute side is reset and the other slot is tried (R509). -/
def execMainDigestVerdict (pass : Bool) (s : State) : Out :=
  if s.stage = 0x12 ∧ s.cstate = 2 ∧ s.safe.boardOpen then
    let s := s.freeBytes (boardBase + 0xFFF000) 0x1000
    if pass then .next s
    else
      let tried := s.sec.ulnTried ||| 2 ^ s.fld Reg.CPH_STATUS 19 19
      let t := (s.computeReset false).setCstate 1
      .next ({ t with sec := { t.sec with ulnTried := tried } }.setStage (if tried = 3 then 0x82 else 0x11))
  else s.noEvent

end Sys2Proof.Machine
end

