-- ==== Sys2Proof/Machine/Bus.lean ====
section
/-! DEFINITION. Accesses that control cores, Home cores and a debug session make to registers and memories: the two address maps (R16,
R18, R68, R101, R380, R533), and what a debug session reaches (R468, R472, R476, R477). -/

namespace Sys2Proof.Machine

/-! ## Reads that do more than show a value -/

/-- The Ethernet stamp register at `a`: its port, is it of the transmit FIFO, is it the second of its pair (R378)? -/
def stampReg (a : Nat) : Option (Nat × Bool × Bool) :=
  let n := (a - Reg.ETH_TSRX0 0) / 0x1000
  let o := (a - Reg.ETH_TSRX0 0) % 0x1000
  if Reg.ETH_TSRX0 0 ≤ a ∧ n < 4 ∧ o % 8 = 0 ∧ o < 0x20 then some (n, decide (0x10 ≤ o), o / 8 % 2 == 1) else none

/-- The register of the device map at `a` as requester `q` reads it: NOW0 and RA latch what belongs to them, NOW1 shows the
requester's own latch (R348), the stamp FIFOs are read in pairs (R378). -/
def State.devRead (s : State) (q a : Nat) : State × Nat :=
  if a = Reg.TIMEM_NOW0 then (s.memNowRead q, s.regRead a)
  else if a = Reg.TIMEM_NOW1 then (s, Map.get 0 s.time.memNow1 q)
  else if a = Reg.TIMEM_RA then (s.memRaRead, s.regRead a)
  else match stampReg a with
    | some (n, tx, second) => if second then s.tsRead1 n tx else s.tsRead0 n tx
    | none => (s, s.regRead a)

/-- The register of the Home map at key `a` as Home pair `p` reads it: each pair has its latches and its staged RHO_H (R346, R348,
R365). -/
def State.homeRead (s : State) (p a : Nat) : State × Nat :=
  if a = Reg.TIME_RAWLO then (s.rawRead p, s.regRead a)
  else if a = Reg.TIME_RAWHI then (s, Map.get 0 s.time.rawHi p)
  else if a = Reg.TIME_NOW0 then (s.nowRead p, s.regRead a)
  else if a = Reg.TIME_NOW1 then (s, Map.get 0 s.time.now1 p)
  else if a = Reg.TIME_NOW2 then (s, Map.get 0 s.time.now2 p)
  else if a = Reg.TIME_RATEHI then (s, Map.get 0 s.time.rhoH p)
  else if a = Reg.PPS_CAPLO then (s.capRead, s.regRead a)
  else (s, s.regRead a)

/-- Bytes of the register at key `a`; 8 where there is none. -/
def regWidth (a : Nat) : Nat :=
  match regRow? a with
  | some r => r.width
  | none => 8

/-- Bytes of an access: a register's own width, 8 for a word of memory. -/
def accLen (x : AccOp) (a : Nat) : Nat :=
  match x with
  | .write _ => regWidth a
  | .read => regWidth a
  | .store bs => bs.length
  | .load n => n

/-- Is it a write? -/
def accWrites : AccOp → Bool
  | .write _ => true
  | .store _ => true
  | _ => false

/-- The access to memory from key `k`. -/
def State.memAccess (s : State) (k : Nat) (x : AccOp) : State :=
  match x with
  | .write v => s.store k (leBytes 8 v.toNat)
  | .read => s.answer (.ok (s.load k 8))
  | .store bs => s.store k bs
  | .load n => s.answer (.ok (s.load k n))

/-! ## The device map -/

/-- An access by requester `q` to the device map: to a register, or to memory; one that is not served completes with a bus error
(R68, R101). `held`: a debug session may read what is held for it (R101). -/
def State.devBus (s : State) (q a : Nat) (x : AccOp) (held : Bool) : State :=
  let n := accLen x a
  if isRegPage a && decide (a % 4096 + n ≤ 4096) then
    match x with
    | .write v => s.regWrite 0 a v.toNat
    | .store bs => s.regWrite 0 a (leNat bs)
    | _ => (s.devRead q a).1.answer (.ok (leBytes n (s.devRead q a).2))
  else if !s.accessOk a n || s.awaitsScrub a n || (s.isHeld a n && !(held && !accWrites x)) then s.answer .busError
  else s.memAccess (devKey a) x

/-! ## The Home map (R533) -/

/-- Home memory, the Board view, the register blocks from CE to CAN, and those from BLD to GFP. -/
def homeRanges : List (Nat × Nat) := [(0, 0x100000), (0x40000000, 0x1000000), (0x80010000, 0x74000), (0x80090000, 0x90000)]

/-- Does the Home map hold every byte of the access? -/
def homeMapped (a n : Nat) : Bool := homeRanges.any fun r => r.1 ≤ a && a + n ≤ r.1 + r.2

/-- The CAN transmit buffer that Home address `a` lies in: controller, buffer, offset (R390). -/
def canBufAt (a : Nat) : Option (Nat × Nat × Nat) :=
  if 0x80078000 ≤ a ∧ a < 0x80084000 then
    some ((a - 0x80078000) / 0x3000, (a - 0x80078000) % 0x3000 / 0x1000, (a - 0x80078000) % 0x1000)
  else none

/-- A write of bytes in a Home register block. -/
def State.homeStore (s : State) (p a : Nat) (bs : List Byte) : State :=
  match canBufAt a with
  | some (c, b, o) => s.txBufWrite c b o bs
  | none => s.regWrite p (homeSpace + a) (leNat bs)

/-- Is the key in the debug response buffer (R485)? -/
def inResp (k : Nat) : Bool := respBuf ≤ k && k < respBuf + 0x8000

/-- A read of `n` bytes in a Home register block: of a register, or of a buffer; the debug response buffer is write-only. -/
def State.homeLoad (s : State) (p a n : Nat) : State :=
  let k := homeSpace + a
  if (regRow? k).isSome then (s.homeRead p k).1.answer (.ok (leBytes n (s.homeRead p k).2))
  else if inResp k then s.answer (.ok (List.replicate n 0))
  else s.answer (.ok (s.load k n))

/-- An access by Home pair `p` to the Home map: Home memory, the Board through the gate with its status (R17), a register block; at
any other address a bus error. -/
def State.homeBus (s : State) (p a : Nat) (x : AccOp) : State :=
  let n := accLen x (homeSpace + a)
  if !homeMapped a n then s.answer .busError
  else if a < 0x100000 then s.memAccess (homeSpace + a) x
  else if a < 0x41000000 then
    let b := boardBase + (a - 0x40000000)
    if s.gateDown then s.answer .computeDown
    else if !s.served b n then s.answer .busError
    else s.memAccess b x
  else match x with
    | .write v => s.homeStore p a (leBytes n v.toNat)
    | .store bs => s.homeStore p a bs
    | _ => s.homeLoad p a n

/-! ## Debug (R468, R476, R477) -/

/-- The Face that a device address belongs to: its store, or its page of a block that each Face has. -/
def faceAt (a : Nat) : Option Nat :=
  if isStore a then some ((a - 0x4100000000) / 0x1000000)
  else if a < 0x7F00020000 ∨ 0x7F00086000 ≤ a then none
  else
    let blk := a / 0x10000 % 0x10
    if (blk = 2 ∨ blk = 5 ∨ blk = 7 ∨ blk = 8) ∧ a % 0x10000 / 0x1000 < 6 then some (a % 0x10000 / 0x1000) else none

/-- Is the Home address one of the debug registers or buffers, which JTAG reaches at every level (R485)? -/
def dbgWindow (a : Nat) : Bool :=
  let k := homeSpace + a
  k == Reg.SEC_DBGCTRL || k == Reg.SEC_DBGSTAT || (chalBuf ≤ k && k < chalBuf + 80) || inResp k

/-- Is what is named a control register, of either map? -/
def placeIsReg : Place → Bool
  | .dev a => isRegPage a.toNat
  | .home a => decide (0x80000000 ≤ a.toNat)
  | _ => false

/-- Does the power state leave it within reach (R477)? -/
def State.placeInReach (s : State) (pl : Place) : Bool :=
  match pl with
  | .dev a => match faceAt a.toNat with
    | some f => s.unitInReach f
    | none => decide (s.fld Reg.SEC_PSTATE 31 29 < 3)
  | .home _ => true
  | .file f _ _ => s.unitInReach f
  | .bank f _ _ => s.unitInReach f

/-- May a debug session make the access: D1 reads control registers and Face files; D2 reads and writes files and memories (R468)? -/
def State.debugMay (s : State) (pl : Place) (x : AccOp) : Bool :=
  let window := match pl with
    | .home a => dbgWindow a.toNat
    | _ => false
  let file := match pl with
    | .file _ _ _ => true
    | _ => false
  s.placeInReach pl && (window
    || (placeIsReg pl && !accWrites x && decide (1 ≤ s.debugLevel))
    || (file && !accWrites x && decide (1 ≤ s.debugLevel))
    || (!placeIsReg pl && decide (2 ≤ s.debugLevel)))

/-- Register `i` of a file of Face `f`, in bytes: 32 of g, 64 of d, 16 of s, 128 counters. -/
def State.fileRead (s : State) (f : Nat) (k : Fin 4) (i : Nat) : List Byte :=
  let fs := s.face f
  if k = 0 then leBytes 8 (fs.gReg (i % 32)).toNat
  else if k = 1 then leBytes 32 (fs.dReg (i % 64)).toNat
  else if k = 2 then leBytes 16 (fs.sReg (i % 16)).toNat
  else leBytes 8 (s.evCtr f i).toNat

/-- Write it; a counter holds a count of 48 bits and OVF. -/
def State.fileWrite (s : State) (f : Nat) (k : Fin 4) (i v : Nat) : State :=
  let fs := s.face f
  let c := BitVec.ofNat 64 (v &&& 0x8000FFFFFFFFFFFF)
  if k = 0 then s.setFace f (fs.setG (i % 32) (BitVec.ofNat 64 v))
  else if k = 1 then s.setFace f (fs.setD (i % 64) (BitVec.ofNat 256 v))
  else if k = 2 then s.setFace f (fs.setS (i % 16) (BitVec.ofNat 128 v))
  else if i < 112 then s.setFace f { fs with ev := Map.put 0 fs.ev i c }
  else s.setRouted fs.job fs.vf (i - 112) c

/-- A permitted access by debug. -/
def State.debugBus (s : State) (pl : Place) (x : AccOp) : State :=
  match pl with
  | .dev a => s.devBus debugReq a.toNat x true
  | .home a =>
    if inResp (homeSpace + a.toNat) && accWrites x then s.memAccess (homeSpace + a.toNat) x else s.homeBus 2 a.toNat x
  | .file f k i => match x with
    | .write v => s.fileWrite f k i.toNat v.toNat
    | .store bs => s.fileWrite f k i.toNat (leNat bs)
    | _ => s.answer (.ok (s.fileRead f k i.toNat))
  | .bank f b off => if off.toNat + accLen x 0 ≤ 0x10000 then s.memAccess (bankKey f b.toNat + off.toNat) x else s.answer .busError

/-- REGISTER_WRITE: an access to a register with no row of its own (R10), or to a memory: by a control core to the device map, by a Home
core to the Home map, by a debug session to what its level and the power state leave it. What names no address of the agent's map is no
access. -/
def execRegisterWrite (who : Agent) (pl : Place) (x : AccOp) (s : State) : Out :=
  match who, pl with
  | .core n, .dev a => .next (s.devBus n a.toNat x false)
  | .home p, .home a => .next (s.homeBus p a.toNat x)
  | .debug, pl => .next (if s.debugMay pl x then s.debugBus pl x else s.answer .denied)
  | _, _ => s.noEvent

end Sys2Proof.Machine
end

