-- ==== Sys2Proof/Machine/Kv.lean ====
section
/-! DEFINITION. The KV service: prefix sharing of key-value pages (R191 to R195). -/

namespace Sys2Proof.Machine

/-- Set `k` of job `j`. -/
def State.kvSet (s : State) (j k : Nat) : KvSet := Map.get KvSet.empty s.kv (16 * j + k)
/-- Replace it. -/
def State.setKv (s : State) (j k : Nat) (x : KvSet) : State := { s with kv := Map.put KvSet.empty s.kv (16 * j + k) x }

/-- Declaration of the set, where the job has it. -/
def State.kvRec (s : State) (j k : Nat) : Option PoolRec :=
  match s.job j with
  | some jb => jb.img.pools[k]?
  | none => none

/-- The tokens of page `k`, counted from 0. -/
def pageToks (toks : List Nat) (k : Nat) : List Nat := (toks.drop (256 * k)).take 256

/-- The prefix hash of the page after one with hash `h` (R191). -/
def kvHash (h : Nat) (toks : List Nat) : Nat := crc64Ecma (leBytes 8 h ++ toks.flatMap fun t => leBytes 4 t)

/-- A lookup (R192): the nodes of equal hash in turn; one that fails the compare counts a collision. -/
def kvLookup (nodes : List KvNode) (parent h : Nat) (toks : List Nat) : Option KvNode × Nat :=
  let same := nodes.filter fun n => n.hash == h
  let hit := fun (n : KvNode) => n.parent == parent && n.toks == toks
  (same.find? hit, (same.takeWhile fun n => !hit n).length)

/-- The nodes that a new sequence shares, from the root down, and the collisions counted (R193). -/
def kvShared (nodes : List KvNode) (toks : List Nat) : Nat → Nat → Nat → Nat → List KvNode × Nat
  | 0, _, _, _ => ([], 0)
  | fuel + 1, k, parent, h =>
    if toks.length < 256 * (k + 1) then ([], 0)
    else
      let p := pageToks toks k
      let h' := kvHash h p
      match kvLookup nodes parent h' p with
      | (some n, c) =>
        let r := kvShared nodes toks fuel (k + 1) n.id h'
        (n :: r.1, c + r.2)
      | (none, c) => ([], c)

/-- Pages that nobody holds. -/
def KvSet.free (x : KvSet) (pages : Nat) : List Nat :=
  (List.range pages).filter fun p => !(x.nodes.any fun n => n.page == p) && !(x.seqs.any fun q => q.pages.contains (some p))

/-- The node reclaimed next: REFS 0, no child, least recently used (R195); `keep` are the nodes being shared now. -/
def KvSet.victim (x : KvSet) (keep : List Nat) : Option KvNode :=
  let c := x.nodes.filter fun n => n.refs == 0 && !(x.nodes.any fun m => m.parent == n.id) && !keep.contains n.id
  c.foldl (fun b n => match b with
    | some m => if n.used < m.used then some n else b
    | none => some n) none

/-- Reclaim nodes until `n` pages are free, or no node can be reclaimed. -/
def KvSet.reclaim (x : KvSet) (pages n : Nat) (keep : List Nat) : Nat → KvSet
  | 0 => x
  | fuel + 1 =>
    if n ≤ (x.free pages).length then x
    else match x.victim keep with
      | some v => KvSet.reclaim { x with nodes := x.nodes.filter fun m => m.id != v.id } pages n keep fuel
      | none => x

/-- Page-table word: RO and PAGE (R186). -/
def kvWord (ro : Bool) (p : Option Nat) : Nat :=
  match p with
  | some n => n + if ro then 2 ^ 31 else 0
  | none => kvAbsent

/-- Write an entry of the page table and of the service's copy. -/
def State.kvPut (s : State) (j k slot i w : Nat) : State :=
  match s.kvRec j k with
  | some p =>
    let x := s.kvSet j k
    (s.storeNat (s.kvKey j p slot i) 4 w).setKv j k { x with copy := Map.put kvAbsent x.copy (slot * p.perSeq + i) w }
  | none => s

/-- KV_ADMIT: a sequence is admitted to a slot between commands of the job (R193): it shares the pages its prefix
matches; `pages` are the pages Ulnal allocates for what follows, the rest of the row is absent. Without pages enough it
fails with KV_FULL and changes no table (R195). -/
def execKvAdmit (j : BitVec 4) (k : Nat) (slot : Nat) (toks : List Nat) (pages : List Nat) (s : State) : Out :=
  let j := j.toNat
  match s.kvRec j k with
  | none => s.noEvent
  | some p =>
    let x := s.kvSet j k
    if s.jobRuns j || p.slots ≤ slot || x.seqs.any (fun q => q.slot == slot) then s.noEvent
    else
      let sh := if p.shareable then kvShared x.nodes toks p.perSeq 0 0 0 else ([], 0)
      let s := s.account j 0x30 sh.2
      let keep := sh.1.map (·.id)
      let x' := x.reclaim p.pages pages.length keep x.nodes.length
      if (x'.free p.pages).length < pages.length then .next (s.answer .denied)
      else if !(pages.all (x'.free p.pages).contains) || (dupId pages).isSome || p.perSeq < sh.1.length + pages.length then s.noEvent
      else
        let n := sh.1.length
        let rest := (pages.map some) ++ List.replicate (p.perSeq - n - pages.length) none
        let x' : KvSet := { x' with
          nodes := x'.nodes.map fun (m : KvNode) => if keep.contains m.id then { m with
            refs := m.refs + 1
            used := x'.clock } else m
          clock := x'.clock + 1
          seqs := x'.seqs ++ [⟨slot, toks, keep ++ List.replicate (p.perSeq - n) 0, (sh.1.map fun m => some m.page) ++ rest⟩] }
        let x' := { x' with written := x'.written.filter fun e => !pages.contains (e.1 % 2 ^ 24) }
        let s := s.setKv j k x'
        let words := (sh.1.map fun m => kvWord true (some m.page)) ++ rest.map (kvWord false)
        .next ((s.each words.zipIdx fun s w => s.kvPut j k slot w.2 w.1).answer (.ok (leBytes 8 (256 * n))))

/-- Does every entry of a service-managed table hold what the service wrote (R194)? -/
def State.kvIntact (s : State) (j k : Nat) (p : PoolRec) : Bool :=
  (List.range p.slots).all fun slot => (List.range p.perSeq).all fun i =>
    s.loadNat (s.kvKey j p slot i) 4 == Map.get kvAbsent (s.kvSet j k).copy (slot * p.perSeq + i)

/-- The node at depth `i` of a sequence: its own, or the one that equals its private page. -/
def KvSet.chain (x : KvSet) (q : KvSeq) : Nat → Nat × Nat
  | 0 => (0, 0)
  | i + 1 =>
    let up := KvSet.chain x q i
    let p := pageToks q.toks i
    let h := kvHash up.2 p
    match (kvLookup x.nodes up.1 h p).1 with
    | some n => (n.id, h)
    | none => (0, h)

/-- Have all 256 tokens of page `page` been written, in each of the `n` pools (R194)? -/
def KvSet.filled (x : KvSet) (n page : Nat) : Bool :=
  (List.range n).all fun q => Map.get 0 x.written (2 ^ 24 * q + page) == 2 ^ 256 - 1

/-- Is page `i` of the sequence in `slot` filled? -/
def State.kvFull (s : State) (j k : Nat) (p : PoolRec) (slot i : Nat) : Bool :=
  match (s.kvSet j k).seqs.find? fun q => q.slot == slot with
  | none => false
  | some q => match q.pages[i]? with
    | some (some page) => (s.kvSet j k).filled p.pools.length page
    | _ => false

/-- Insert the filled page `i` of the sequence in `slot` (R194): a node, unless a matching one exists. Under a page that stays
private its parent is a number that no lookup gives (R195). -/
def State.kvInsert (s : State) (j k : Nat) (p : PoolRec) (slot i : Nat) : State :=
  let x := s.kvSet j k
  match x.seqs.find? fun q => q.slot == slot with
  | none => s
  | some q =>
    let toks := pageToks q.toks i
    match q.pages[i]? with
    | some (some page) =>
      let up := x.chain q i
      let h := kvHash up.2 toks
      let look := kvLookup x.nodes up.1 h toks
      if toks.length < 256 || q.nodes.getD i 0 != 0 || !s.kvFull j k p slot i then s
      else
      let s := s.account j 0x30 look.2
      if look.1.isSome then s
      else
        let lone := i != 0 && up.1 == 0
        let id := if lone then x.next + 1 else x.next
        let node : KvNode := ⟨id, if lone then x.next else up.1, h, page, toks, 1, x.clock⟩
        let q' := { q with nodes := q.nodes.set i id }
        (s.setKv j k { x with
          nodes := x.nodes ++ [node]
          next := id + 1
          clock := x.clock + 1
          seqs := x.seqs.map fun y => if y.slot == slot then q' else y }).kvPut j k slot i (kvWord true (some page))
    | _ => s

/-- The pages of every sequence of the job, from the first down: set, slot, page index. -/
def State.kvPages (s : State) (j : Nat) (pools : List PoolRec) : List (Nat × Nat × Nat) :=
  pools.zipIdx.flatMap fun p => (s.kvSet j p.2).seqs.flatMap fun q =>
    (List.range (q.toks.length / 256)).map fun i => (p.2, q.slot, i)

/-- KV_INSERT_PAGES: after a command of the job has ended (R194): a page table that the job has written ends it with a
program error; else every page that the command filled is inserted, those that `order` names (set, slot, page) first: of two
equal pages the first filled is inserted (R195). -/
def execKvInsertPages (j : BitVec 4) (order : List (Nat × Nat × Nat)) (s : State) : Out :=
  let j := j.toNat
  match s.job j with
  | none => s.noEvent
  | some jb =>
    if s.jobRuns j then s.noEvent
    else if !(jb.img.pools.zipIdx.all fun p => s.kvIntact j p.2 p.1) then .next (s.killJob j)
    else
      .next (s.each (order ++ s.kvPages j jb.img.pools) fun s x => match s.kvRec j x.1 with
        | some p => if p.shareable then s.kvInsert j x.1 p x.2.1 x.2.2 else s
        | none => s)

/-- KV_SEQUENCE_END: REFS of its shared nodes drop, its private pages are free, its row is absent (R195). -/
def execKvSequenceEnd (j : BitVec 4) (k slot : Nat) (s : State) : Out :=
  let j := j.toNat
  let x := s.kvSet j k
  match x.seqs.find? fun q => q.slot == slot with
  | none => s.noEvent
  | some q =>
    if s.jobRuns j then s.noEvent
    else
      let s := s.setKv j k { x with
        seqs := x.seqs.filter fun y => y.slot != slot
        nodes := x.nodes.map fun m => if q.nodes.contains m.id then { m with refs := m.refs - 1 } else m }
      .next (s.each (List.range q.pages.length) fun s i => s.kvPut j k slot i kvAbsent)

end Sys2Proof.Machine
end

