-- ==== Sys2Proof/Machine/Port.lean ====
section
/-! DEFINITION. The command port (R487 to R501): requests as the bytes of one transaction, responses as the bytes that follow the
WAIT bytes, marker first. -/

namespace Sys2Proof.Machine

/-! ## CRC-32C (R491) -/

/-- One bit of the reflected CRC-32C. -/
def crc32cBit (c : Nat) : Nat := if c % 2 = 1 then c / 2 ^^^ 0x82F63B78 else c / 2

/-- One byte. -/
def crc32cByte (c : Nat) (b : Byte) : Nat := (List.range 8).foldl (fun c _ => crc32cBit c) (c ^^^ b.toNat)

/-- CRC-32C of a byte string. -/
def crc32c (bs : List Byte) : Nat := bs.foldl crc32cByte 0xFFFFFFFF ^^^ 0xFFFFFFFF

/-! ## Requests (R490) -/

/-- A request: header fields, write data, its CRC, and whether that holds. -/
structure CpReq where
  op : Nat
  tag : Nat
  space : Nat
  flags : Nat
  len : Nat
  rsv : Nat
  addr : Nat
  data : List Byte
  crc : Nat
  crcOk : Bool
  deriving DecidableEq, Repr

/-- The request in the bytes of a transaction; none where CP_CS_N rose before its CRC (R493). A WRITE ends after LEN bytes of
data; where LEN is no length a WRITE can have, the bytes up to the last four are its data. -/
def cpParse (bs : List Byte) : Option CpReq :=
  let f := fun o n => leNat ((bs.drop o).take n)
  let op := f 0 1
  let len := f 4 2
  let lenOk := decide (4 ≤ len) && decide (len ≤ 256) && len % 4 == 0
  let n := if op = 2 then (if lenOk then 16 + len else bs.length - 4) else 16
  if bs.length < 20 ∨ bs.length < n + 4 then none
  else
    let crc := leNat ((bs.drop n).take 4)
    some { op := op, tag := f 1 1, space := f 2 1, flags := f 3 1, len := len, rsv := f 6 2, addr := f 8 8,
           data := (bs.take n).drop 16, crc := crc, crcOk := crc == crc32c (bs.take n) }

/-- Does the request keep R490? -/
def CpReq.sound (r : CpReq) : Bool :=
  decide (1 ≤ r.op ∧ r.op ≤ 3) && decide (r.space ≤ 1) && decide (r.flags ≤ 1) && r.rsv == 0
    && (if r.op = 3 then r.len == 0
      else decide (4 ≤ r.len ∧ r.len ≤ 256) && r.len % 4 == 0 && r.addr % 4 == 0 && decide (r.addr % 4096 + r.len ≤ 4096)
        && decide (r.addr < if r.space = 1 then 2 ^ 18 else 2 ^ 48))

/-! ## Responses (R492) -/

/-- A host source is pending: CP_INT_N is asserted (R499). -/
def State.hostPending (s : State) : List Nat :=
  (List.range 512).filter fun k => s.flag (Reg.CPH_PEND (k / 32)) (k % 32)

/-- The response header. -/
def State.cpHeader (s : State) (status tag len : Nat) (replay : Bool) : List Byte :=
  let flags := (if s.hostPending.isEmpty then 0 else 1) + (if replay then 2 else 0) + (if s.flag Reg.PERMIT_STATUS 31 then 4 else 0)
  leBytes 1 status ++ leBytes 1 tag ++ leBytes 2 len ++ leBytes 1 s.cstate ++ leBytes 1 s.stage ++ leBytes 1 flags
    ++ leBytes 1 (s.life + 4 * s.debugLevel)

/-- Header and data as they cross the port: the marker before them, their CRC after. -/
def cpPacket (resp : List Byte) : Resp := .packet ([0xA5, 0x5A] ++ resp ++ leBytes 4 (crc32c resp))

/-- Was the request carried out (R494)? The codes that say 'nothing done', and NOT_READY, are answers to requests that were
not. DEDUCED. -/
def carriedOut (status : Nat) : Bool := !(status == 1 || status == 2 || status == 3 || status == 6)

/-- Answer a request with a status and data; the engine keeps it if it was carried out. -/
def State.cpAnswer (s : State) (r : CpReq) (status : Nat) (data : List Byte) : State :=
  let resp := s.cpHeader status r.tag data.length false ++ data
  let s := if carriedOut status then { s with cpLast := some { tag := r.tag, crc := r.crc, resp := resp } } else s
  s.answer (cpPacket resp)

/-- A stored response sent again, with REPLAY set. -/
def replayed (resp : List Byte) : List Byte := listSet resp 6 (resp.getD 6 0 ||| 2)

/-! ## Home space (R497, R499) -/

/-- What a Home-space word is: its key, may the host read it, may it write it. -/
structure CpWord where
  key : Nat
  isReg : Bool
  read : Bool
  write : Bool
  deriving DecidableEq, Repr

/-- The word at a SPACE 1 offset. -/
def cpWord (o : Nat) : Option CpWord :=
  let reg := fun k w => some { key := k, isReg := true, read := true, write := w : CpWord }
  if o < 0x100 then
    let k := homeSpace + 0x80030000 + o
    let w := k == Reg.CPH_CTRL || k == Reg.CPH_MBOX || decide (0x40 ≤ o ∧ o < 0x80)
    if (regRow? k).isSome then reg k w else none
  else if o = 0x2000 then reg Reg.SEC_DBGCTRL true
  else if o = 0x2004 then reg Reg.SEC_DBGSTAT false
  else if o = 0x2008 then reg Reg.SEC_LIFE false
  else if o = 0x2010 then reg Reg.HFLT_STATUS false
  else if o = 0x2014 then reg Reg.HFLT_QUAR false
  else if o = 0x2018 then reg Reg.PERMIT_STATUS false
  else if 0x3000 ≤ o ∧ o < 0x3050 then some { key := chalBuf + (o - 0x3000), isReg := false, read := true, write := false }
  else if 0x8000 ≤ o ∧ o < 0x10000 then some { key := respBuf + (o - 0x8000), isReg := false, read := false, write := true }
  else if 0x10000 ≤ o ∧ o < 0x20000 then some { key := portBuf o, isReg := false, read := true, write := false }
  else if 0x20000 ≤ o ∧ o < 0x28000 then some { key := portBuf o, isReg := false, read := true, write := true }
  else none

/-- The words of an access; none where one of them is no location. -/
def cpWords (r : CpReq) : Option (List CpWord) := ((List.range (r.len / 4)).map fun i => cpWord (r.addr + 4 * i)).mapM id

/-- The word that the host reads; a write-only location reads 0 (R10). -/
def State.cpWordRead (s : State) (w : CpWord) : Nat :=
  if !w.read then 0 else if w.isReg then s.regRead w.key % 2 ^ 32 else s.loadNat w.key 4

/-- A host write of one word: of CPH_MBOX only SEQ, of CPH_PENDk by ones. -/
def State.cpWordWrite (s : State) (w : CpWord) (v : Nat) : State :=
  if !w.isReg then s.storeNat w.key 4 v
  else if w.key = Reg.CPH_CTRL then s.cphCtrl v
  else if w.key = Reg.CPH_MBOX then s.mboxPost (v % 65536)
  else if w.key = Reg.SEC_DBGCTRL then s.dbgCtrlWrite v
  else s.plainWrite w.key v

/-! ## Device space (R500) -/

/-- Does a span lie in the block of registers from `b`, `n` bytes long? -/
def spanIn (a n b k : Nat) : Bool := decide (b ≤ a) && decide (a + n ≤ b + k)

/-- Does an enabled window hold the span, writable if `wr`? -/
def State.inHostWin (s : State) (a n : Nat) (wr : Bool) : Bool :=
  (List.range 8).any fun w => s.flag (Reg.CPB_WINA w) 63 && (!wr || s.flag (Reg.CPB_WINA w) 62)
    && spanIn a n (s.hostWin w).1 (s.hostWin w).2

/-- May the host make the access? -/
def State.hostMay (s : State) (r : CpReq) : Bool :=
  if r.op = 1 then spanIn r.addr r.len Reg.SYS_ID 8 || spanIn r.addr r.len Reg.TIMEM_RAW 0x40 || s.inHostWin r.addr r.len false
  else spanIn r.addr r.len Reg.CPB_DOORBELL 8 || s.inHostWin r.addr r.len true

/-- The half word at `a` of a register as the host's bridge reads it; NOW0 and RA latch (R348). -/
def State.bridgeRead (s : State) (a : Nat) : Nat × State :=
  let k := a - a % 8
  let s := if a = Reg.TIMEM_NOW0 then s.memNowRead bridgeReq else if a = Reg.TIMEM_RA then s.memRaRead else s
  (s.regRead k / 2 ^ (8 * (a % 8)) % 2 ^ 32, s)

/-- Read `n` half words from `a` upward. -/
def State.bridgeReads (s : State) (a : Nat) : Nat → List Byte × State
  | 0 => ([], s)
  | n + 1 =>
    let (v, s) := s.bridgeRead a
    let (l, s) := s.bridgeReads (a + 4) n
    (leBytes 4 v ++ l, s)

/-- The host rings CPB_DOORBELL: VALUE, and CP_DOORBELL is raised (R501). -/
def State.hostRing (s : State) (v : Nat) : State := (s.setFld Reg.CPB_DOORBELL 31 0 v).raiseEv 21

/-- CP_DOORBELL: the host writes CPB_DOORBELL while the device space answers. -/
def execCpDoorbell (v : Half) (s : State) : Out := if s.cstate = 3 ∧ !s.gateDown then .next (s.hostRing v.toNat) else s.noEvent

/-- The effect of a permitted device-space write. -/
def State.hostWrite (s : State) (r : CpReq) : State :=
  if isRegPage r.addr then (if r.addr = Reg.CPB_DOORBELL then s.hostRing (leNat (r.data.take 4)) else s)
  else s.store r.addr r.data

/-- The status of a device-space access before it is made: 0 if it can be made. -/
def State.deviceStatus (s : State) (r : CpReq) : Nat :=
  if s.cstate ≠ 3 ∨ s.gateDown then 4
  else if !s.hostMay r then 3
  else if s.unscrubbed r.addr r.len then 5 else 0

/-- Device-space access. `ue`: the data read has an uncorrectable error. -/
def State.deviceAccess (s : State) (r : CpReq) (ue : Bool) : State :=
  let st := s.deviceStatus r
  if st ≠ 0 then s.cpAnswer r st []
  else if r.op = 2 then (s.hostWrite r).cpAnswer r 0 []
  else if ue then s.cpAnswer r 8 []
  else if isRegPage r.addr then
    let (bs, s) := s.bridgeReads r.addr (r.len / 4)
    s.cpAnswer r 0 bs
  else s.cpAnswer r 0 (s.load r.addr r.len)

/-- Home-space access: outside every location BUS_ERROR, a write of a read-only one DENIED. -/
def State.homeAccess (s : State) (r : CpReq) : State :=
  match cpWords r with
  | none => s.cpAnswer r 5 []
  | some ws =>
    if r.op = 2 then
      if ws.all (·.write) then
        (s.each ws.zipIdx fun s w => s.cpWordWrite w.1 (leNat ((r.data.drop (4 * w.2)).take 4))).cpAnswer r 0 []
      else s.cpAnswer r 3 []
    else s.cpAnswer r 0 (ws.flatMap fun w => leBytes 4 (s.cpWordRead w))

/-! ## Transactions (R489, R494 to R496) -/

/-- Is the port enabled (R488, R508)? -/
def State.portOn (s : State) : Bool := s.stage != 0x01 && s.stage != 0

/-- ROM alone serves the port: its stages and error stages (R495). -/
def State.romStage (s : State) : Bool := decide (s.stage < 0x10) || s.stage == 0x80 || s.stage == 0x81

/-- The 32 bytes of STATUS (R496). -/
def State.cpStatusBytes (s : State) : List Byte :=
  let p := s.hostPending
  leBytes 2 0x4E36 ++ leBytes 1 0xB0 ++ leBytes 1 s.stage ++ leBytes 1 s.cstate ++ leBytes 1 s.life ++ leBytes 1 s.debugLevel
    ++ leBytes 1 ((if s.flag Reg.PERMIT_STATUS 31 then 128 else 0) + s.fld Reg.PERMIT_STATUS 30 28)
    ++ leBytes 4 (s.rd Reg.SEC_BOOTCNT).toNat ++ leBytes 4 (s.rd Reg.HFLT_LOGSEQ).toNat ++ leBytes 8 s.raw
    ++ leBytes 4 (p.headD 0xFFFFFFFF) ++ leBytes 4 p.length

/-- One transaction whose opcode is among `ops`: CRC, form, replay, then `act` for what the request asks. Without an enabled port or
without a whole request nothing happens, and a silent bus answers nothing. -/
def State.transact (s : State) (bs : List Byte) (mine : Nat → Bool) (act : CpReq → State) : Out :=
  if !s.portOn then .next (s.answer .none)
  else match cpParse bs with
    | none => .next (s.answer .none)
    | some r =>
      if !mine r.op then s.noEvent
      else if !r.crcOk then .next ((s.satFld Reg.CPH_CNT 31 16).cpAnswer r 1 [])
      else if !r.sound then .next (s.cpAnswer r 2 [])
      else match s.cpLast with
        | some l => if r.flags = 1 ∧ l.tag = r.tag ∧ l.crc = r.crc then .next (s.answer (cpPacket (replayed l.resp))) else .next (act r)
        | none => .next (act r)

/-- A READ or WRITE. -/
def State.cpAccess (s : State) (ue : Bool) (r : CpReq) : State :=
  if s.romStage then s.cpAnswer r 6 [] else if r.space = 1 then s.homeAccess r else s.deviceAccess r ue

/-- CP_READ: a READ, or a request whose opcode is reserved. -/
def execCpRead (bs : List Byte) (ue : Bool) (s : State) : Out := s.transact bs (fun op => op != 2 && op != 3) (s.cpAccess ue)

/-- CP_WRITE (R490, R494). -/
def execCpWrite (bs : List Byte) (s : State) : Out := s.transact bs (· == 2) (s.cpAccess false)

/-- CP_STATUS (R496). -/
def execCpStatus (bs : List Byte) (s : State) : Out := s.transact bs (· == 3) fun r => s.cpAnswer r 0 s.cpStatusBytes

/-- CP_TIMEOUT: a device-space access is not complete in 40 us; it is answered TIMEOUT and counted, and goes on: a write may still
land (R493). -/
def execCpTimeout (bs : List Byte) (lands : Bool) (s : State) : Out :=
  s.transact bs (fun op => op == 1 || op == 2) fun r =>
    if s.romStage || r.space != 0 || s.deviceStatus r != 0 then s.cpAccess false r
    else
      let s := if lands && r.op == 2 then s.hostWrite r else s
      (s.satFld Reg.CPH_CNT 15 0).cpAnswer r 7 []

end Sys2Proof.Machine
end

