-- ==== Sys2Proof/Machine/Recur.lean ====
section
/-! DEFINITION. The recurrences RSTEP and RCHUNK (R200 to R222, R226). -/

namespace Sys2Proof.Machine

/-! ## Fields and layout (R203, R207) -/

/-- KIND: 0 DLR, 1 EMA, 2 IIR2. -/
def recKind (o : FmtT) : Nat := bits o.fn.toNat 1 0
/-- PREC: 0 FP32, 1 BF16, 2 CMP. -/
def recPrec (o : FmtT) : Nat := bits o.fn.toNat 3 2
/-- PROJ. -/
def recProj (o : FmtT) : Bool := bitOf o.fn.toNat 4
/-- GATE. -/
def recGate (o : FmtT) : Bool := bitOf o.fn.toNat 5
/-- RESET. -/
def recReset (o : FmtT) : Bool := bitOf o.fn.toNat 6

/-- Largest number of channels (R203). -/
def recMaxC (kind prec : Nat) : Nat :=
  if kind = 2 then (if prec = 1 then 128 else 64) else if prec = 2 then 80 else 128

/-- The state of one channel: h and carry k, or w1 and w2. -/
structure ChanSt where
  a : Num
  b : Num
  k : Int
  deriving DecidableEq, Repr

/-- Read a state value of a part of a bank of Face `f`; a word of no defined value is free (R209). -/
def recVal (s : State) (f : Nat) (p : Nat × Nat) : Num := numOf (if p.2 = 2 then fBF16 else fFP32) (s.bankNat f p.1 p.2)

/-- The state of a channel in the banks. -/
def State.chan (s : State) (f first kind prec n c : Nat) : ChanSt :=
  match recParts f first kind prec n c with
  | [x, y] =>
    if kind = 2 then ⟨recVal s f x, recVal s f y, 0⟩ else ⟨recVal s f x, .zero false, signed 16 (s.bankNat f y.1 2)⟩
  | x :: _ => ⟨recVal s f x, .zero false, 0⟩
  | [] => ⟨.zero false, .zero false, 0⟩

/-- Round a state value to PREC, by RNE (R201). -/
def recRnd (prec : Nat) (x : Num) : Num :=
  if prec = 1 then numOf fBF16 (narrowTo fBF16 .rne false 0 x).code else rne32 x

/-- Code of a state value in a part. -/
def recCode (w : Nat) (x : Num) : Nat := if w = 2 then (narrowTo fBF16 .rne false 0 x).code else fp32Code x

/-- The stores that put a channel's state into the banks. -/
def chanStores (f first kind prec n c : Nat) (st : ChanSt) : List Fx :=
  match recParts f first kind prec n c with
  | [x, y] =>
    [.store x.1 (leBytes x.2 (recCode x.2 st.a)),
      .store y.1 (leBytes y.2 (if kind = 2 then recCode y.2 st.b else wrap 16 st.k))]
  | x :: _ => [.store x.1 (leBytes x.2 (recCode x.2 st.a))]
  | [] => []

/-! ## One token (R200, R210, R220) -/

/-- ulp of FP32 at |h|; ulp(0) = 2^-149 (R220). -/
def ulp32 (h : Num) : Rat :=
  match h with
  | .fin q => pow2 (max (ilog2 q) (-126) - 23)
  | _ => pow2 (-149)

/-- Coefficients of one channel: rows of DB. -/
abbrev Coefs := List Num

/-- One token of one channel: the new state and the output y. `a` is the gate or row 0, `v` the input. -/
def recToken (kind prec : Nat) (co : Coefs) (reset : Bool) (a v : Num) (st : ChanSt) : ChanSt × Num :=
  let r := fun i => co.getD i (.zero false)
  if kind = 2 then
    let w1 := if reset then r 5 else st.a
    let w2 := if reset then r 6 else st.b
    let y := rne32 (((r 0).mul v).add w1)
    let n1 := recRnd prec (Num.sum [(r 1).mul v, ((r 3).mul y).neg, w2])
    let n2 := recRnd prec (((r 2).mul v).sub ((r 4).mul y))
    (⟨n1, n2, 0⟩, y)
  else
    let u := if kind = 1 then rne32 (a.mul v) else v
    let a := if kind = 1 then rne32 ((Num.fin 1).sub a) else a
    let h := if reset then r 1 else st.a
    let k : Int := if reset then 0 else st.k
    if prec = 2 then
      let hh := h.add (Num.ofRat ((k : Rat) * ulp32 h * pow2 (-15)))
      let x := (a.mul hh).add u
      let h' := rne32 x
      let k' : Int := match h' with
        | .nan => 0
        | .inf _ => 0
        | _ => clampInt (-32768) 32767 (roundRat .rne 0 ((x.rat - h'.rat) / (ulp32 h' * pow2 (-15))))
      (⟨h', .zero false, k'⟩, h')
    else
      let h' := recRnd prec ((a.mul h).add u)
      (⟨h', .zero false, 0⟩, h')

/-- Does a coefficient count in REC_NEARINT (R222)? -/
def nearInt (kind prec : Nat) (a : Num) : Bool :=
  kind != 2 && prec != 2 && (match (if kind = 1 then rne32 ((Num.fin 1).sub a) else a) with
    | .inf _ => true
    | .fin q => decide (1 - pow2 (-20) ≤ abs q)
    | _ => false)

/-- Is a new state not finite (R226)? -/
def chanNonFin (st : ChanSt) : Bool := st.a.isNan || st.a.isInf || st.b.isNan || st.b.isInf

/-! ## A chunk (R212 to R214) -/

/-- One position of the scan. -/
structure ScanEl where
  a : Num
  u : Num
  f : Bool
  deriving DecidableEq, Repr

/-- One level of the scan with distance d, all positions from the values of the level before. -/
def scanLevel (prec d : Nat) (l : List ScanEl) : List ScanEl :=
  l.zipIdx.map fun p =>
    if p.2 < d || p.1.f then p.1
    else match l[p.2 - d]? with
      | some q => ⟨rne32 (p.1.a.mul q.a), recRnd prec ((p.1.a.mul q.u).add p.1.u), q.f⟩
      | none => p.1

/-- Levels d = 1, 2, 4 and on while d is below L; 8 levels serve 256 tokens. -/
def scanAll (prec : Nat) : Nat → Nat → List ScanEl → List ScanEl
  | 0, _, l => l
  | n + 1, d, l => if d < l.length then scanAll prec n (2 * d) (scanLevel prec d l) else l

/-- One token's input: coefficient, value, reset mark. -/
structure RecTok where
  a : Num
  v : Num
  reset : Bool
  deriving DecidableEq, Repr

/-- DLR and EMA in FP32 or BF16 by the segmented scan (R212, R213). -/
def recScan (kind prec : Nat) (hInit : Num) (h0 : Num) (l : List RecTok) : List Num :=
  let els := l.map fun t =>
    let u := if kind = 1 then rne32 (t.a.mul t.v) else t.v
    let a := if kind = 1 then rne32 ((Num.fin 1).sub t.a) else t.a
    if t.reset then ScanEl.mk a (recRnd prec ((a.mul hInit).add u)) true else ScanEl.mk a u false
  (scanAll prec 8 1 els).map fun e => if e.f then e.u else recRnd prec ((e.a.mul h0).add e.u)

/-- Tokens in order, as RSTEPs would take them (R214). -/
def recSeq (kind prec : Nat) (co : Coefs) : List RecTok → ChanSt → List (ChanSt × Num)
  | [], _ => []
  | t :: ts, st =>
    let r := recToken kind prec co t.reset t.a t.v st
    r :: recSeq kind prec co ts r.1

/-- One channel of one stream over its tokens: state and output after each. -/
def recChannel (chunk : Bool) (kind prec : Nat) (co : Coefs) (l : List RecTok) (st : ChanSt) : List (ChanSt × Num) :=
  if chunk && kind != 2 && prec != 2 then
    (recScan kind prec (co.getD 1 (.zero false)) st.a l).map fun h => (⟨h, .zero false, 0⟩, h)
  else recSeq kind prec co l st

/-- Which outputs a counted event enters, for tokens given as (event, reset mark): its own token's and the later ones', up to
a mark (R52, R63, R213). -/
def carryHits : Bool → List (Bool × Bool) → List Bool
  | _, [] => []
  | c, (e, m) :: l =>
    let hit := (c && !m) || e
    hit :: carryHits hit l

/-! ## The instruction -/

/-- The banks are all live in the vFace's own mask, or all scratch (R208), and no other partition reserves one (R251). -/
def recBanksOk (s : State) (f first nb : Nat) : Bool :=
  let fs := s.face f
  let own := match s.job fs.job with
    | some jb => jb.live fs.vf
    | none => 0
  let all := s.liveMask f fs.job fs.vf
  let bs := (List.range nb).map (first + ·)
  decide (first + nb ≤ 16) && banksAllowed s f first nb && (bs.all (fun b => bitOf own b) || bs.all fun b => !bitOf all b)

/-- Formats of an input that is not projected, a gate or an output (R206). -/
def recPlainFmt (fmt : Nat) : Bool := dstFmtOk fmt

/-- Checks of RSTEP and RCHUNK (R208). -/
def recChk (s : State) (f : Nat) (o : FmtT) (chunk : Bool) : Chk :=
  let kind := recKind o
  let prec := recPrec o
  let da := o.da.toNat
  let db := o.db.toNat
  let x := s.desc f da
  let w := s.desc f (db + 1)
  let d := s.desc f o.dd.toNat
  let s12 := s.scale f 12
  let s13 := s.scale f 13
  let n := d.e2
  let c := d.e0
  Chk.all [
    .need (fixedScales o && rmodeOk o && !bitOf o.fn.toNat 7 && kind != 3 && prec != 3 && decide (o.dc.toNat < 16)
      && !(kind == 2 && (prec == 2 || recGate o)) && (!recReset o || decide (da + 1 ≤ 63))
      && (!recProj o || decide (db + 1 ≤ 63)) && (!recGate o || decide (db + 2 ≤ 63))),
    checkDesc s f o.dd.toNat 0 fun d => dstOk d && d.rank == 3 && recPlainFmt d.fmt && decide (d.e0 ≤ recMaxC kind prec),
    checkDesc s f da 1 fun x => x.rank == 3 && (recProj o || recPlainFmt x.fmt)
      && (if chunk then decide (x.e1 ≤ 256) else x.e1 == 1),
    (if recReset o then checkDesc s f (da + 1) 1 fun m => m.rank == 2 && m.fmt == fUINT8 && m.e1 == n && m.e0 == x.e1
      else .pass),
    checkDesc s f db 2 fun b => b.layout == 0 && b.rank == 2 && b.fmt == fFP32 && b.e0 == c
      && b.e1 == (if kind = 2 then 7 else 2),
    (if recProj o then
      Chk.all [checkDesc s f (db + 1) 2 fun w => w.rank == 2 && w.e1 == c && w.e0 == x.e0 && decide (w.e0 ≤ 512),
        .need (macPairOk x.fmt w.fmt (s12.mode == mMX) && ((s12.mode == mMX) == (s13.mode == mMX))
          && (isCbFmt w.fmt == (s13.mode == mCODEBOOK))),
        checkScale s f 2 s13 [mUNIT, mUNIFORM, mROW, mMX, mCODEBOOK] (scaleNeed w.e1 w.e0) 0,
        cbOk s f s13 w.fmt w.e1, checkPagedScale s f w s13]
      else .need (x.e0 == c && s12.mode != mMX)),
    checkScale s f 1 s12 [mUNIT, mUNIFORM, mROW, mMX] (scaleNeed x.rows x.e0) 0,
    checkPagedScale s f x s12,
    (if recGate o then (checkDesc s f (db + 2) 2 fun g => g.rank == 3 && [fFP32, fBF16, fFP16].contains g.fmt
      && g.e2 == n && g.e1 == x.e1 && g.e0 == c).and (checkScale s f 2 (s.scale f 14) [mUNIT, mUNIFORM] (fun _ => 0) 0)
      else .pass),
    checkScale s f 0 (s.scale f 15) dstModes (scaleNeed d.rows d.e0) d.fmt,
    dstScaleOk s f 15,
    .need (d.e2 == x.e2 && d.e1 == x.e1 && recBanksOk s f o.dc.toNat (recBanks kind prec n))]

/-- Every row of an input that is not projected, or of a gate, widened exactly with its scale; INT32 and Q31 round to FP32 by RNE
(R210). -/
def State.recRows (s : State) (f : Nat) (t : TRef) (sc : Scale) : List (List (Num × Bool)) :=
  (s.macRows f t sc).map fun r => r.map fun x => (if t.d.fmt = fINT32 ∨ t.d.fmt = fQ31 then rne32 x.1 else x.1, x.2)

/-- Input values v_t of every row n × L + t, by channel, with counted scale events (R206, R210). The projection
accumulates in FP32 (R151, R153). -/
def recInputs (s : State) (f : Nat) (o : FmtT) : List (List (Num × Bool)) :=
  let tx := s.tref f o.da.toNat
  let s12 := s.scale f 12
  let s13 := s.scale f 13
  if recProj o then
    let tw := s.tref f (o.db.toNat + 1)
    if isCbFmt tw.d.fmt then
      let cb := s.productBook f s13
      let per := ((cbShape tw.d.fmt).map (·.2.1)).getD 1
      let ws := tw.rowsOf s
      (s.macRows f tx s12).map fun r => ws.zipIdx.map fun w =>
        (macCodebook per tx.d.e0 (.zero false) (cb.getD (if cb.length = 1 then 0 else w.2 / 128) []) (r.map (·.1)) w.1,
          r.any (·.2))
    else
      let ws := s.macRows f tw s13
      let mx := s12.mode == mMX
      (s.macRows f tx s12).map fun r => ws.map fun w =>
        let v := macFloat mx (.zero false) (r.map (·.1)) (w.map (·.1))
        (v.1, v.2 || r.any (·.2) || w.any (·.2))
  else s.recRows f tx s12

/-- The tiles that a recurrence uses, those of its banks, and those of which a projection fails its residue check (R431). -/
def recMac (s : State) (f : Nat) (o : FmtT) : Nat × Nat :=
  let first := o.dc.toNat
  let nb := recBanks (recKind o) (recPrec o) (s.desc f o.dd.toNat).e2
  let tiles := (List.range 4).foldl (fun m t => if (List.range nb).any fun i => (first + i) % 4 == t then m ||| 2 ^ t else m) 0
  if recProj o then
    let tx := s.tref f o.da.toNat
    let tw := s.tref f (o.db.toNat + 1)
    let s12 := s.scale f 12
    let s13 := s.scale f 13
    let xs := (s.macRows f tx s12).map fun r => r.map (·.1)
    let bad := if isCbFmt tw.d.fmt then
        let cb := s.productBook f s13
        let per := ((cbShape tw.d.fmt).map (·.2.1)).getD 1
        xs.any fun x => (tw.rowsOf s).zipIdx.any fun w =>
          lookupBad (.zero false) (mmEntries per tx.d.e0 (cb.getD (if cb.length = 1 then 0 else w.2 / 128) []) x w.1)
      else xs.any fun x => (s.macRows f tw s13).any fun w => columnBad x (w.map (·.1))
    (tiles, if bad then tiles else 0)
  else (0, 0)

/-- Banks that RSTEP or RCHUNK uses, as spans. -/
def recSpans (s : State) (f : Nat) (o : FmtT) : List (Nat × Nat) :=
  [(bankKey f o.dc.toNat, 65536 * recBanks (recKind o) (recPrec o) (s.desc f o.dd.toNat).e2)]

/-- An accumulator with scratch banks of the instruction becomes FP32; its words outside the layout hold no defined
value until it is started afresh (R209). -/
def State.mixAccs (s : State) (f : Nat) (o : FmtT) : State :=
  let fs := s.face f
  let d := s.desc f o.dd.toNat
  let first := o.dc.toNat
  let nb := recBanks (recKind o) (recPrec o) d.e2
  if bitOf (s.liveMask f fs.job fs.vf) first then s
  else
    let ks := (List.range 4).filter fun k => first / 4 ≤ k && k ≤ (first + nb - 1) / 4
    s.setFace f { fs with
      accInt := ks.foldl (fun m k => putBits m k k 0) fs.accInt
      accMixed := ks.foldl (fun m k => putBits m k k 1) fs.accMixed
      recLay := fs.recLay ++ [⟨first, recKind o, recPrec o, d.e2, d.e0⟩] }

/-- The tokens of channel `c` of stream `n`, each with whether its scales are a counted event. `inp` and `gate` are the rows of the
input and the gate, `co` those of DB, `marks` the reset marks. -/
def recToks (o : FmtT) (d : Desc) (inp gate : List (List (Num × Bool))) (co marks : List (List Nat)) (n c : Nat) :
    List (RecTok × Bool) :=
  (List.range d.e1).map fun t =>
    let x := (inp.getD (n * d.e1 + t) []).getD c (.zero false, false)
    let g := (gate.getD (n * d.e1 + t) []).getD c (.zero false, false)
    ({ a := if recGate o then g.1 else fp32Val ((co.getD 0 []).getD c 0)
       v := x.1
       reset := recReset o && (marks.getD n []).getD t 0 != 0 }, x.2 || g.2)

/-- What RSTEP and RCHUNK do (R210, R212). -/
def recOut (chunk : Bool) (v : State) (f : Nat) (o : FmtT) : TOut :=
  let kind := recKind o
  let prec := recPrec o
  let first := o.dc.toNat
  let d := v.desc f o.dd.toNat
  let co := (v.tref f o.db.toNat).rowsOf v
  let marks := if recReset o then (v.tref f (o.da.toNat + 1)).rowsOf v else []
  let inp := recInputs v f o
  let gate := if recGate o then v.recRows f (v.tref f (o.db.toNat + 2)) (v.scale f 14) else []
  let toks := fun n c => recToks o d inp gate co marks n c
  let runs := (List.range d.e2).map fun n => (List.range d.e0).map fun c =>
    recChannel chunk kind prec (co.map fun r => fp32Val (r.getD c 0)) ((toks n c).map (·.1)) (v.chan f first kind prec n c)
  let hits := fun (n c : Nat) => carryHits false ((toks n c).map fun t => (t.2, t.1.reset))
  let outs := runs.zipIdx.map fun p => p.1.zipIdx.map fun q => (q.1.map (·.2)).zip (hits p.2 q.2)
  let ys := outs.flatMap fun r => (List.range d.e1).map fun t => r.map fun l => (l.getD t (.zero false, false) : Num × Bool)
  let st := runs.zipIdx.flatMap fun p => p.1.zipIdx.flatMap fun q => match q.1.getLast? with
    | some r => chanStores f first kind prec p.2 q.2 r.1
    | none => []
  let near := (runs.zipIdx.map fun p => (p.1.zipIdx.map fun q =>
    ((toks p.2 q.2).filter fun t => nearInt kind prec t.1.a).length).sum).sum
  let bad := (runs.map fun r => (r.map fun q => (q.filter fun x => chanNonFin x.1).length).sum).sum
  let resets := if recReset o then (marks.map fun r => (r.filter (· != 0)).length).sum else 0
  let cnt := [(Reg.REC_NEARINT f, near), (Reg.REC_NONFIN f, bad), (Reg.REC_RESETS f, resets)].filterMap fun p =>
    if p.2 = 0 then none else some (Fx.count p.1 p.2)
  let dst := v.tref f o.dd.toNat
  let r := v.narrowRows f (v.narrowCtx f o) fFP32 dst (v.scale f 15) ys
  ⟨some dst, numbered r.1, st ++ cnt, r.2.1, r.2.2, recMac v f o⟩

/-- RSTEP and RCHUNK enter the tile queue behind the imports ahead of them (R225). -/
def recIssue (chunk : Bool) (ins : Instr) (f : Fin 6) (h : Hdr) (o : FmtT) (s : State) : Out :=
  let da := o.da.toNat
  let db := o.db.toNat
  let d := s.desc f o.dd.toNat
  issueTensor s f h
    { ins := ins, unit := .tile, dd := o.dd.toNat, isN := isSrh o, order := .afterImports, scratch := []
      uses := [(da, false)] ++ (if recReset o then [(da + 1, false)] else []) ++ [(db, false)]
        ++ (if recProj o then [(db + 1, false)] else []) ++ (if recGate o then [(db + 2, false)] else [])
        ++ s.srcScales f ([12] ++ (if recProj o then [13] else []) ++ (if recGate o then [14] else []))
        ++ [(o.dd.toNat, true)] ++ s.dstScale f 15 }
    (recChk s f o chunk)
    (fun s => (s.tref f da).spans s ++ (if recReset o then (s.tref f (da + 1)).spans s else []) ++ (s.tref f db).spans s
      ++ (if recProj o then (s.tref f (db + 1)).spans s ++ s.scaleSpans f (s.scale f 13) else [])
      ++ (if recGate o then (s.tref f (db + 2)).spans s else []) ++ s.scaleSpans f (s.scale f 12)
      ++ s.scaleSpans f (s.scale f 15) ++ recSpans s f o)
    (fun s => (if isSrh o then d.count else 0) + s.bankFree f) (fun v => recOut chunk v f o)
    (fun t => t.mixAccs f o)

/-- RSTEP: advances every stream by one token (R210). -/
def execRstep (f : Fin 6) (h : Hdr) (o : FmtT) (s : State) : Out := recIssue false (.rstep f h o) f h o s

/-- RCHUNK: advances every stream by a chunk of 1 to 256 tokens (R212 to R214). -/
def execRchunk (f : Fin 6) (h : Hdr) (o : FmtT) (s : State) : Out := recIssue true (.rchunk f h o) f h o s

end Sys2Proof.Machine
end

