-- ==== Sys2Proof/Machine/Units.lean ====
section
/-! DEFINITION. The units of a Face move on: a queued instruction starts, and computes from what it then finds; an instruction's
work becomes visible (R75, R112, R132, R143, R170, R225, R431, R433). -/

namespace Sys2Proof.Machine

/-! ## Starting (R143, R144) -/

/-- What a queued instruction computes from the state in which it starts; `geo` are the words of a CONV's geometry record. -/
def computeOf (i : Instr) (v : State) (geo : List Int) : Option TOut :=
  match i with
  | .mm f _ o => some (mmOut v f o)
  | .ptb f _ o => some (ptbOut v f o)
  | .ptl f _ o => some (ptlOut v f o)
  | .accout f _ o => some (accoutOut v f o)
  | .accin f _ o => some (accinOut v f o)
  | .accz f _ o => some (acczOut f o)
  | .vew f _ o => some (vecOut v f o vewSrc)
  | .vtr f _ o => some (vecOut v f o vtrSrc)
  | .vred f _ o => some (vecOut v f o vredSrc)
  | .vnorm f _ o => some (vecOut v f o vnormSrc)
  | .vsmx f _ o => some (vecOut v f o vsmxSrc)
  | .qnt f _ o => some (vecOut v f o qntSrc)
  | .vrnd f _ o => some (vrndOut v f o)
  | .trp f _ o => some (trpOut v f o)
  | .gath f _ o => some (gathOut v f o)
  | .scat f _ o => some (scatOut v f o)
  | .gfa f _ o => some (gfaOut v f o)
  | .racc f _ o => some (raccOut v f o)
  | .sexp f _ o => some (sexpOut v f o)
  | .simp f _ o => some (simpOut v f o)
  | .dgrd f _ o => some (dgrdOut v f o)
  | .attn f _ o => some (attnOut v f o)
  | .attnb f _ o => some (attnbOut v f o)
  | .kvput f _ o => some (kvputOut v f o)
  | .conv f _ o => some (convOut v f o geo)
  | .rstep f _ o => some (recOut false v f o)
  | .rchunk f _ o => some (recOut true v f o)
  | _ => none

/-- May an entry of the tile queue start, as its order says: SEXP and SIMP with nothing ahead of them in the tile queue (R170, R225),
RSTEP and RCHUNK with no SEXP or SIMP ahead of them? -/
def orderMet (fs : FaceSt) (e : Entry) : Bool :=
  let ahead := fs.window.filter fun x => x.unit == .tile && decide (x.seq < e.seq)
  match e.order with
  | .loose => true
  | .afterAll => ahead.isEmpty
  | .afterImports => !(ahead.any fun x => x.order == .afterAll)

/-- The state as a queued instruction sees it when it starts: the registers it issued with, and free bytes where an instruction in
flight writes what it reads without an order (R115). -/
def State.startView (s : State) (f : Nat) (r : Redo) : State :=
  let v := s.freeSpans r.raced
  v.setFace f { v.face f with d := r.d, s := r.s, stream := r.stream, accInt := r.accInt, accMixed := r.accMixed, recLay := r.recLay }

/-- A queued instruction starts: what it reads it reads now, and its writes fold into the digest slots it issued under. Bytes that a
race has made unpredictable stay so. -/
def State.startEntry (s : State) (f : Nat) (e : Entry) : State :=
  let put := fun (s : State) (x : Entry) => s.setFace f { s.face f with
    window := (s.face f).window.map fun y => if y.seq == e.seq then x else y }
  match e.redo with
  | none => put s { e with started := true }
  | some r =>
    let v := s.startView f r
    match computeOf r.ins v r.geo with
    | none => put s { e with started := true, redo := none }
    | some t =>
      let fx := v.fxOf f r.dd t
      let n := v.fresh + r.free
      let s' := { s with fresh := n + e.lost.foldl (fun (a : Nat) (x : Nat × Nat) => a + x.2) 0 }
      put (s'.foldOut f r.dd t r.folds) { e with
        started := true
        redo := none
        fx := if e.lost.isEmpty then fx else fx.map (Fx.freed e.lost n)
        writes := fxSpans fx
        macUsed := t.mac.1
        macBad := t.mac.2 }

/-- UNIT_START_QUEUED: a unit starts its next queued instruction in issue order (R143). The tile group may start one
while the one ahead is still draining (R144); the others start when they are idle. -/
def execUnitStartQueued (f : Fin 6) (u : BitVec 2) (s : State) : Out :=
  let unit : FUnit := if u = 0 then .tile else if u = 1 then .vector else .digest
  let fs := s.face f
  let busy := (fs.window.filter fun e => e.unit == unit && e.started).length
  match fs.window.find? fun e => e.unit == unit && !e.started with
  | some e =>
    if busy < (if unit == .tile then 2 else 1) && orderMet fs e then .next (s.startEntry f e) else s.noEvent
  | none => s.noEvent

/-! ## Completing (R112) -/

/-- The residue check of an instruction's passes (R431): a mismatch, or an injected error on a tile the instruction uses (R454), is
the fault RESIDUE of the Face. -/
def State.residueCheck (s : State) (f : Nat) (e : Entry) : State :=
  if e.macBad != 0 || (e.macUsed != 0 && s.injects 0 (some f)) then s.detect 0 0x01 (some f) none 0 else s

/-- The first uncorrectable word among what an entry reads. -/
def State.badRead (s : State) (e : Entry) : Option Nat := e.reads.findSome? fun x => s.firstBad x.1 x.2

/-- INSTRUCTION_COMPLETE: an instruction's work becomes visible; it leaves the window and signals (R112). An uncorrectable word among
what it read is MEM_ERROR (R433). A write to another vFace's instance lands in the store of the Face on which that vFace now runs
its command; while it runs none, the write is discarded and raises STORE_ACCESS (R75, R132). The record of STORE_ACCESS has DESC and
OPND 0: the spec does not say that a descriptor is concerned (DESIGN CHOICE, assumption 116). -/
def execInstructionComplete (f : Fin 6) (seq : Nat) (s : State) : Out :=
  let fs := s.face f
  match fs.window.find? fun e => e.seq == seq with
  | none => s.noEvent
  | some e =>
    if !e.ready || s.xferOpen f seq then s.noEvent
    else match s.badRead e with
      | some k => .next (s.takeExc f (memExc k) false e.pc)
      | none => match s.landing f e with
        | some fx => .next ((s.finish f { e with fx := fx }).residueCheck f e)
        | none => .next ((s.leaveWindow f seq).takeExc f ⟨0x0A, 0⟩ false e.pc)

end Sys2Proof.Machine
end

