-- ==== Sys2Proof/Machine/Dispatch.lean ====
section
/-! DEFINITION. The dispatcher: each command calls its meaning. -/

namespace Sys2Proof.Machine

/-- The effect of a command on everything but the queue. -/
def exec (i : Instr) (s : State) : Host.Outcome State Fault Refusal :=
  match i with
  | .add f h o => Sys2Proof.Machine.execAdd f h o s
  | .sub f h o => Sys2Proof.Machine.execSub f h o s
  | .and f h o => Sys2Proof.Machine.execAnd f h o s
  | .or f h o => Sys2Proof.Machine.execOr f h o s
  | .xor f h o => Sys2Proof.Machine.execXor f h o s
  | .sll f h o => Sys2Proof.Machine.execSll f h o s
  | .srl f h o => Sys2Proof.Machine.execSrl f h o s
  | .sra f h o => Sys2Proof.Machine.execSra f h o s
  | .mul f h o => Sys2Proof.Machine.execMul f h o s
  | .mulhu f h o => Sys2Proof.Machine.execMulhu f h o s
  | .min f h o => Sys2Proof.Machine.execMin f h o s
  | .max f h o => Sys2Proof.Machine.execMax f h o s
  | .slt f h o => Sys2Proof.Machine.execSlt f h o s
  | .sltu f h o => Sys2Proof.Machine.execSltu f h o s
  | .divu f h o => Sys2Proof.Machine.execDivu f h o s
  | .li f h o => Sys2Proof.Machine.execLi f h o s
  | .lih f h o => Sys2Proof.Machine.execLih f h o s
  | .rdst f h o => Sys2Proof.Machine.execRdst f h o s
  | .wrst f h o => Sys2Proof.Machine.execWrst f h o s
  | .ldg f h o => Sys2Proof.Machine.execLdg f h o s
  | .stg f h o => Sys2Proof.Machine.execStg f h o s
  | .ldd f h o => Sys2Proof.Machine.execLdd f h o s
  | .dsetf f h o => Sys2Proof.Machine.execDsetf f h o s
  | .dadd f h o => Sys2Proof.Machine.execDadd f h o s
  | .dcpy f h o => Sys2Proof.Machine.execDcpy f h o s
  | .lds f h o => Sys2Proof.Machine.execLds f h o s
  | .ssetf f h o => Sys2Proof.Machine.execSsetf f h o s
  | .mm f h o => Sys2Proof.Machine.execMm f h o s
  | .ptb f h o => Sys2Proof.Machine.execPtb f h o s
  | .ptl f h o => Sys2Proof.Machine.execPtl f h o s
  | .accout f h o => Sys2Proof.Machine.execAccout f h o s
  | .accin f h o => Sys2Proof.Machine.execAccin f h o s
  | .accz f h o => Sys2Proof.Machine.execAccz f h o s
  | .vew f h o => Sys2Proof.Machine.execVew f h o s
  | .vtr f h o => Sys2Proof.Machine.execVtr f h o s
  | .vred f h o => Sys2Proof.Machine.execVred f h o s
  | .vnorm f h o => Sys2Proof.Machine.execVnorm f h o s
  | .vsmx f h o => Sys2Proof.Machine.execVsmx f h o s
  | .qnt f h o => Sys2Proof.Machine.execQnt f h o s
  | .vrnd f h o => Sys2Proof.Machine.execVrnd f h o s
  | .trp f h o => Sys2Proof.Machine.execTrp f h o s
  | .gath f h o => Sys2Proof.Machine.execGath f h o s
  | .scat f h o => Sys2Proof.Machine.execScat f h o s
  | .gfa f h o => Sys2Proof.Machine.execGfa f h o s
  | .racc f h o => Sys2Proof.Machine.execRacc f h o s
  | .sexp f h o => Sys2Proof.Machine.execSexp f h o s
  | .simp f h o => Sys2Proof.Machine.execSimp f h o s
  | .dgarm f h o => Sys2Proof.Machine.execDgarm f h o s
  | .dgout f h o => Sys2Proof.Machine.execDgout f h o s
  | .dgrd f h o => Sys2Proof.Machine.execDgrd f h o s
  | .conv f h o => Sys2Proof.Machine.execConv f h o s
  | .attn f h o => Sys2Proof.Machine.execAttn f h o s
  | .attnb f h o => Sys2Proof.Machine.execAttnb f h o s
  | .kvput f h o => Sys2Proof.Machine.execKvput f h o s
  | .rstep f h o => Sys2Proof.Machine.execRstep f h o s
  | .rchunk f h o => Sys2Proof.Machine.execRchunk f h o s
  | .mov f h o => Sys2Proof.Machine.execMov f h o s
  | .movz f h o => Sys2Proof.Machine.execMovz f h o s
  | .waitEv f h o => Sys2Proof.Machine.execWaitEv f h o s
  | .evadd f h o => Sys2Proof.Machine.execEvadd f h o s
  | .evsend f h o => Sys2Proof.Machine.execEvsend f h o s
  | .sacq f h o => Sys2Proof.Machine.execSacq f h o s
  | .srel f h o => Sys2Proof.Machine.execSrel f h o s
  | .fence f h o => Sys2Proof.Machine.execFence f h o s
  | .raiseSrc f h o => Sys2Proof.Machine.execRaiseSrc f h o s
  | .nop f h o => Sys2Proof.Machine.execNop f h o s
  | .br f h o => Sys2Proof.Machine.execBr f h o s
  | .beq f h o => Sys2Proof.Machine.execBeq f h o s
  | .bne f h o => Sys2Proof.Machine.execBne f h o s
  | .blt f h o => Sys2Proof.Machine.execBlt f h o s
  | .bge f h o => Sys2Proof.Machine.execBge f h o s
  | .bltu f h o => Sys2Proof.Machine.execBltu f h o s
  | .bgeu f h o => Sys2Proof.Machine.execBgeu f h o s
  | .jal f h o => Sys2Proof.Machine.execJal f h o s
  | .jr f h o => Sys2Proof.Machine.execJr f h o s
  | .endCmd f h o => Sys2Proof.Machine.execEndCmd f h o s
  | .trap f h o => Sys2Proof.Machine.execTrap f h o s
  | .unitStartQueued f u => Sys2Proof.Machine.execUnitStartQueued f u s
  | .instructionComplete f seq => Sys2Proof.Machine.execInstructionComplete f seq s
  | .semAcquireGrant m => Sys2Proof.Machine.execSemAcquireGrant m s
  | .routedCounterIncrement => Sys2Proof.Machine.execRoutedCounterIncrement s
  | .cmdLimit f => Sys2Proof.Machine.execCmdLimit f s
  | .commandEnd f => Sys2Proof.Machine.execCommandEnd f s
  | .syncSemWrite m v => Sys2Proof.Machine.execSyncSemWrite m v s
  | .syncRvalWrite v => Sys2Proof.Machine.execSyncRvalWrite v s
  | .qsatSnap f => Sys2Proof.Machine.execQsatSnap f s
  | .attnClr f => Sys2Proof.Machine.execAttnClr f s
  | .recClr f => Sys2Proof.Machine.execRecClr f s
  | .illOpc f h => Sys2Proof.Machine.execIllOpc f h s
  | .pipQpush p v => Sys2Proof.Machine.execPipQpush p v s
  | .pipRecordStart => Sys2Proof.Machine.execPipRecordStart s
  | .pipRecordDone memErr => Sys2Proof.Machine.execPipRecordDone memErr s
  | .pipTimeout => Sys2Proof.Machine.execPipTimeout s
  | .pipQflush v => Sys2Proof.Machine.execPipQflush v s
  | .ulnalExceptionResponse f => Sys2Proof.Machine.execUlnalExceptionResponse f s
  | .jobUnload j => Sys2Proof.Machine.execJobUnload j s
  | .jobKill j => Sys2Proof.Machine.execJobKill j s
  | .scrubStart t => Sys2Proof.Machine.execScrubStart t s
  | .scrubDone => Sys2Proof.Machine.execScrubDone s
  | .commandReady j v => Sys2Proof.Machine.execCommandReady j v s
  | .commandStart f => Sys2Proof.Machine.execCommandStart f s
  | .schedPartWrite p b v => Sys2Proof.Machine.execSchedPartWrite p b v s
  | .schedCommit v => Sys2Proof.Machine.execSchedCommit v s
  | .schedQtailWrite v => Sys2Proof.Machine.execSchedQtailWrite v s
  | .schedQbaseWrite v => Sys2Proof.Machine.execSchedQbaseWrite v s
  | .schedJobWrite j v => Sys2Proof.Machine.execSchedJobWrite j v s
  | .slotStart ix => Sys2Proof.Machine.execSlotStart ix s
  | .slotEnd ix => Sys2Proof.Machine.execSlotEnd ix s
  | .turnExpire f => Sys2Proof.Machine.execTurnExpire f s
  | .bankSwapDone f => Sys2Proof.Machine.execBankSwapDone f s
  | .semBlock m => Sys2Proof.Machine.execSemBlock m s
  | .turnDonate m => Sys2Proof.Machine.execTurnDonate m s
  | .stepAdvanceRequest j v => Sys2Proof.Machine.execStepAdvanceRequest j v s
  | .stepAdvanceApply j => Sys2Proof.Machine.execStepAdvanceApply j s
  | .detJstepWrite j v => Sys2Proof.Machine.execDetJstepWrite j v s
  | .jobLoad j img pl => Sys2Proof.Machine.execJobLoad j img pl s
  | .life0HbmZeroDone e v => Sys2Proof.Machine.execLife0HbmZeroDone e v s
  | .placeBrecWrite v => Sys2Proof.Machine.execPlaceBrecWrite v s
  | .placeCommit v => Sys2Proof.Machine.execPlaceCommit v s
  | .placementPlan p hot maps addrs ex => Sys2Proof.Machine.execPlacementPlan p hot maps addrs ex s
  | .bufferMoveStart e => Sys2Proof.Machine.execBufferMoveStart e s
  | .bufferMoveDone e => Sys2Proof.Machine.execBufferMoveDone e s
  | .majorFrameBoundary => Sys2Proof.Machine.execMajorFrameBoundary s
  | .faultRecord src face job detail => Sys2Proof.Machine.execFaultRecord src face job detail s
  | .patrolRead a res alloc last => Sys2Proof.Machine.execPatrolRead a res alloc last s
  | .meshCrc second => Sys2Proof.Machine.execMeshCrc second s
  | .stall home ch us => Sys2Proof.Machine.execStall home ch us s
  | .lockstepMismatch who => Sys2Proof.Machine.execLockstepMismatch who s
  | .line => Sys2Proof.Machine.execLine s
  | .coreHb => Sys2Proof.Machine.execCoreHb s
  | .safeKick v => Sys2Proof.Machine.execSafeKick v s
  | .bootTimeout => Sys2Proof.Machine.execBootTimeout s
  | .hfltRetry => Sys2Proof.Machine.execHfltRetry s
  | .homeReq => Sys2Proof.Machine.execHomeReq s
  | .statusGateWrite f seq => Sys2Proof.Machine.execStatusGateWrite f seq s
  | .statusGateComplete => Sys2Proof.Machine.execStatusGateComplete s
  | .safeInj v lockstep => Sys2Proof.Machine.execSafeInj v lockstep s
  | .injectionMissed => Sys2Proof.Machine.execInjectionMissed s
  | .goldenRelease => Sys2Proof.Machine.execGoldenRelease s
  | .goldenStart => Sys2Proof.Machine.execGoldenStart s
  | .goldenCompare ref n refOk => Sys2Proof.Machine.execGoldenCompare ref n refOk s
  | .goldLate => Sys2Proof.Machine.execGoldLate s
  | .goldCtrlWrite v lockstep => Sys2Proof.Machine.execGoldCtrlWrite v lockstep s
  | .hbmAccessComplete a r face seq => Sys2Proof.Machine.execHbmAccessComplete a r face seq s
  | .hbmRefresh => Sys2Proof.Machine.execHbmRefresh s
  | .hbmTempReport t => Sys2Proof.Machine.execHbmTempReport t s
  | .hbmTrained h => Sys2Proof.Machine.execHbmTrained h s
  | .paceWindow d n => Sys2Proof.Machine.execPaceWindow d n s
  | .arbStarve k q => Sys2Proof.Machine.execArbStarve k q s
  | .arbRevoke => Sys2Proof.Machine.execArbRevoke s
  | .gateRead a n w => Sys2Proof.Machine.execGateRead a n w s
  | .pertWrite k v => Sys2Proof.Machine.execPertWrite k v s
  | .pertDelayWrite v => Sys2Proof.Machine.execPertDelayWrite v s
  | .kvAdmit j k slot toks pages => Sys2Proof.Machine.execKvAdmit j k slot toks pages s
  | .kvInsertPages j filled => Sys2Proof.Machine.execKvInsertPages j filled s
  | .kvSequenceEnd j k slot => Sys2Proof.Machine.execKvSequenceEnd j k slot s
  | .eflTrain n dev ndev topo => Sys2Proof.Machine.execEflTrain n dev ndev topo s
  | .eflFrameRx n ix => Sys2Proof.Machine.execEflFrameRx n ix s
  | .eflRetrain n => Sys2Proof.Machine.execEflRetrain n s
  | .eflLaneFail n half => Sys2Proof.Machine.execEflLaneFail n half s
  | .eflDown n => Sys2Proof.Machine.execEflDown n s
  | .eflPutPiece f seq win gen => Sys2Proof.Machine.execEflPutPiece f seq win gen s
  | .eflPieceReceive n len => Sys2Proof.Machine.execEflPieceReceive n len s
  | .ackc n => Sys2Proof.Machine.execAckc n s
  | .inc n => Sys2Proof.Machine.execInc n s
  | .getreq n bad => Sys2Proof.Machine.execGetreq n bad s
  | .getrsp n => Sys2Proof.Machine.execGetrsp n s
  | .eflWinOpen ix v => Sys2Proof.Machine.execEflWinOpen ix v s
  | .eflWinClose ix => Sys2Proof.Machine.execEflWinClose ix s
  | .eflWinCloseDone ix => Sys2Proof.Machine.execEflWinCloseDone ix s
  | .eflCtrlWrite n v => Sys2Proof.Machine.execEflCtrlWrite n v s
  | .timeRateWrite p v => Sys2Proof.Machine.execTimeRateWrite p v s
  | .timeStepWrite v => Sys2Proof.Machine.execTimeStepWrite v s
  | .timeRawRead p => Sys2Proof.Machine.execTimeRawRead p s
  | .timeNowRead p => Sys2Proof.Machine.execTimeNowRead p s
  | .timemNowRead q => Sys2Proof.Machine.execTimemNowRead q s
  | .timemRaRead => Sys2Proof.Machine.execTimemRaRead s
  | .timeMailboxRequest => Sys2Proof.Machine.execTimeMailboxRequest s
  | .ppsEdge rising pulse => Sys2Proof.Machine.execPpsEdge rising pulse s
  | .ppsLost => Sys2Proof.Machine.execPpsLost s
  | .tcxoFail => Sys2Proof.Machine.execTcxoFail s
  | .csiFrameStart p vc fnum => Sys2Proof.Machine.execCsiFrameStart p vc fnum s
  | .csiLine p vc dt bs lost crcBad fixed => Sys2Proof.Machine.execCsiLine p vc dt bs lost crcBad fixed s
  | .csiFrameEnd p vc => Sys2Proof.Machine.execCsiFrameEnd p vc s
  | .csiFrameTimeout p f => Sys2Proof.Machine.execCsiFrameTimeout p f s
  | .csiSyncLost p rest => Sys2Proof.Machine.execCsiSyncLost p rest s
  | .csiStamp p f ts src room => Sys2Proof.Machine.execCsiStamp p f ts src room s
  | .csiRctlWrite p f v => Sys2Proof.Machine.execCsiRctlWrite p f v s
  | .csiLaneSync p => Sys2Proof.Machine.execCsiLaneSync p s
  | .ethTxRelease n q => Sys2Proof.Machine.execEthTxRelease n q s
  | .ethTxDone n q r => Sys2Proof.Machine.execEthTxDone n q r s
  | .ethRxFrame n bs bad full sfd => Sys2Proof.Machine.execEthRxFrame n bs bad full sfd s
  | .ethTsRead0 n tx => Sys2Proof.Machine.execEthTsRead0 n tx s
  | .ethTsRead1 n tx => Sys2Proof.Machine.execEthTsRead1 n tx s
  | .ethGclCycle n => Sys2Proof.Machine.execEthGclCycle n s
  | .ethLink n up => Sys2Proof.Machine.execEthLink n up s
  | .pcieLinkUp rate width => Sys2Proof.Machine.execPcieLinkUp rate width s
  | .pcieDown n => Sys2Proof.Machine.execPcieDown n s
  | .pcieDoorbell d => Sys2Proof.Machine.execPcieDoorbell d s
  | .pcieMsix v => Sys2Proof.Machine.execPcieMsix v s
  | .pcieBar0winWrite v => Sys2Proof.Machine.execPcieBar0winWrite v s
  | .pcieHostRequest bar2 off n data => Sys2Proof.Machine.execPcieHostRequest bar2 off n data s
  | .canSend c m => Sys2Proof.Machine.execCanSend c m s
  | .canAbort c m => Sys2Proof.Machine.execCanAbort c m s
  | .canRecover c => Sys2Proof.Machine.execCanRecover c s
  | .canTxbufWrite c b o v => Sys2Proof.Machine.execCanTxbufWrite c b o v s
  | .canTx c b r sof => Sys2Proof.Machine.execCanTx c b r sof s
  | .canBusoff c back => Sys2Proof.Machine.execCanBusoff c back s
  | .bldClr => Sys2Proof.Machine.execBldClr s
  | .canRx c fr err hard sof => Sys2Proof.Machine.execCanRx c fr err hard sof s
  | .canRxtailWrite c q v => Sys2Proof.Machine.execCanRxtailWrite c q v s
  | .t1sTxpush n v => Sys2Proof.Machine.execT1sTxpush n v s
  | .t1sTx n => Sys2Proof.Machine.execT1sTx n s
  | .t1sRx n bs bad => Sys2Proof.Machine.execT1sRx n bs bad s
  | .plcaStatus n link ok beacon coll => Sys2Proof.Machine.execPlcaStatus n link ok beacon coll s
  | .launchRelease ix => Sys2Proof.Machine.execLaunchRelease ix s
  | .encQuadEdge p up => Sys2Proof.Machine.execEncQuadEdge p up s
  | .encEvent p index => Sys2Proof.Machine.execEncEvent p index s
  | .encCfgWrite p v => Sys2Proof.Machine.execEncCfgWrite p v s
  | .pwmPeriodStart k => Sys2Proof.Machine.execPwmPeriodStart k s
  | .permitKick p => Sys2Proof.Machine.execPermitKick p s
  | .permitKickMiss p => Sys2Proof.Machine.execPermitKickMiss p s
  | .permitArm p v => Sys2Proof.Machine.execPermitArm p v s
  | .permitStart => Sys2Proof.Machine.execPermitStart s
  | .permitStop => Sys2Proof.Machine.execPermitStop s
  | .permitReadbackSample good => Sys2Proof.Machine.execPermitReadbackSample good s
  | .gfpEdge ix level => Sys2Proof.Machine.execGfpEdge ix level s
  | .fbDiagSlot linkStart found => Sys2Proof.Machine.execFbDiagSlot linkStart found s
  | .fbFault ix k => Sys2Proof.Machine.execFbFault ix k s
  | .fbFoldback ix folded limit => Sys2Proof.Machine.execFbFoldback ix folded limit s
  | .controlTick => Sys2Proof.Machine.execControlTick s
  | .loopExecute => Sys2Proof.Machine.execLoopExecute s
  | .ceIn => Sys2Proof.Machine.execCeIn s
  | .ceSp => Sys2Proof.Machine.execCeSp s
  | .ceAdd => Sys2Proof.Machine.execCeAdd s
  | .ceSub => Sys2Proof.Machine.execCeSub s
  | .ceMul => Sys2Proof.Machine.execCeMul s
  | .ceMacz => Sys2Proof.Machine.execCeMacz s
  | .ceMac => Sys2Proof.Machine.execCeMac s
  | .ceRnd => Sys2Proof.Machine.execCeRnd s
  | .ceInt => Sys2Proof.Machine.execCeInt s
  | .ceLim => Sys2Proof.Machine.execCeLim s
  | .ceLds => Sys2Proof.Machine.execCeLds s
  | .ceSts => Sys2Proof.Machine.execCeSts s
  | .ceOut => Sys2Proof.Machine.execCeOut s
  | .ceEnd => Sys2Proof.Machine.execCeEnd s
  | .ceMin => Sys2Proof.Machine.execCeMin s
  | .ceMax => Sys2Proof.Machine.execCeMax s
  | .loopComplete => Sys2Proof.Machine.execLoopComplete s
  | .loopApply => Sys2Proof.Machine.execLoopApply s
  | .ceLoopCfgWrite n v => Sys2Proof.Machine.execCeLoopCfgWrite n v s
  | .loopHold n on => Sys2Proof.Machine.execLoopHold n on s
  | .ceCoefShiftWrite p ix v => Sys2Proof.Machine.execCeCoefShiftWrite p ix v s
  | .ceCoefValueWrite p ix v => Sys2Proof.Machine.execCeCoefValueWrite p ix v s
  | .ceSpcommit v => Sys2Proof.Machine.execCeSpcommit v s
  | .ceSpwWrite k v => Sys2Proof.Machine.execCeSpwWrite k v s
  | .ceProgWrite ix v => Sys2Proof.Machine.execCeProgWrite ix v s
  | .holdEngage => Sys2Proof.Machine.execHoldEngage s
  | .holdStale => Sys2Proof.Machine.execHoldStale s
  | .holdRelease => Sys2Proof.Machine.execHoldRelease s
  | .ssiTransferStart p => Sys2Proof.Machine.execSsiTransferStart p s
  | .ssiTransferDone p w => Sys2Proof.Machine.execSsiTransferDone p w s
  | .solvGo => Sys2Proof.Machine.execSolvGo s
  | .solvAbort => Sys2Proof.Machine.execSolvAbort s
  | .solvDone missed => Sys2Proof.Machine.execSolvDone missed s
  | .solvCommit => Sys2Proof.Machine.execSolvCommit s
  | .computeReset => Sys2Proof.Machine.execComputeReset s
  | .computeRestart plans => Sys2Proof.Machine.execComputeRestart plans s
  | .jobFaultRestart j pl => Sys2Proof.Machine.execJobFaultRestart j pl s
  | .keccakOp op => Sys2Proof.Machine.execKeccakOp op s
  | .attest nonce => Sys2Proof.Machine.execAttest nonce s
  | .power => Sys2Proof.Machine.execPower s
  | .lifecycle signer locks => Sys2Proof.Machine.execLifecycle signer locks s
  | .chal lvl => Sys2Proof.Machine.execChal lvl s
  | .submit => Sys2Proof.Machine.execSubmit s
  | .debugVerifyDone r => Sys2Proof.Machine.execDebugVerifyDone r s
  | .d3GrantDone => Sys2Proof.Machine.execD3GrantDone s
  | .relock => Sys2Proof.Machine.execRelock s
  | .debugHalt u => Sys2Proof.Machine.execDebugHalt u s
  | .debugResume u => Sys2Proof.Machine.execDebugResume u s
  | .pwrStateWrite v => Sys2Proof.Machine.execPwrStateWrite v s
  | .secPstateWrite v => Sys2Proof.Machine.execSecPstateWrite v s
  | .powerTransitionDone => Sys2Proof.Machine.execPowerTransitionDone s
  | .governorTick mw tj common => Sys2Proof.Machine.execGovernorTick mw tj common s
  | .pmbusVoutWrite => Sys2Proof.Machine.execPmbusVoutWrite s
  | .pwrTrimWrite n v => Sys2Proof.Machine.execPwrTrimWrite n v s
  | .junctionThrottle d t => Sys2Proof.Machine.execJunctionThrottle d t s
  | .junctionTrip d t => Sys2Proof.Machine.execJunctionTrip d t s
  | .droop => Sys2Proof.Machine.execDroop s
  | .icc => Sys2Proof.Machine.execIcc s
  | .throttleRelease k d => Sys2Proof.Machine.execThrottleRelease k d s
  | .energyFold uj => Sys2Proof.Machine.execEnergyFold uj s
  | .supply c => Sys2Proof.Machine.execSupply c s
  | .pmbAlert => Sys2Proof.Machine.execPmbAlert s
  | .pgCore => Sys2Proof.Machine.execPgCore s
  | .cpRead bs ue => Sys2Proof.Machine.execCpRead bs ue s
  | .cpWrite bs => Sys2Proof.Machine.execCpWrite bs s
  | .cpStatus bs => Sys2Proof.Machine.execCpStatus bs s
  | .cpTimeout bs lands => Sys2Proof.Machine.execCpTimeout bs lands s
  | .cpMbox seq => Sys2Proof.Machine.execCpMbox seq s
  | .cpReply ack reply => Sys2Proof.Machine.execCpReply ack reply s
  | .crst => Sys2Proof.Machine.execCrst s
  | .pstop => Sys2Proof.Machine.execPstop s
  | .cpDoorbell v => Sys2Proof.Machine.execCpDoorbell v s
  | .cpbWinWrite w b v => Sys2Proof.Machine.execCpbWinWrite w b v s
  | .evtpRaise v => Sys2Proof.Machine.execEvtpRaise v s
  | .evhRaise v => Sys2Proof.Machine.execEvhRaise v s
  | .eventDeliver => Sys2Proof.Machine.execEventDeliver s
  | .powerOnReset => Sys2Proof.Machine.execPowerOnReset s
  | .homeRstN ns => Sys2Proof.Machine.execHomeRstN ns s
  | .bootStageDone r => Sys2Proof.Machine.execBootStageDone r s
  | .computeBoot => Sys2Proof.Machine.execComputeBoot s
  | .mainDigestVerdict pass => Sys2Proof.Machine.execMainDigestVerdict pass s
  | .sysBootUp => Sys2Proof.Machine.execSysBootUp s
  | .frst m => Sys2Proof.Machine.execFrst m s
  | .faceResetDone f => Sys2Proof.Machine.execFaceResetDone f s
  | .sysCtrlDoubleWrite v => Sys2Proof.Machine.execSysCtrlDoubleWrite v s
  | .registerWrite who p x => Sys2Proof.Machine.execRegisterWrite who p x s

end Sys2Proof.Machine
end

