-- ==== Sys2Proof/WellFormed.lean ====
section
/-! DEFINITION. What a sender can send: the operand ranges that the operand types do not already give. A command that fails
its check is no command of the block. -/

namespace Sys2Proof

/-- A load plan that answers its image: one Face for each vFace, one backing space, binding and table entry for each buffer
record, indices in their ranges (R83, R84, R98). -/
def planWf (img : JobImage) (pl : LoadPlan) : Bool :=
  decide (pl.faces.length = img.vfs.length) && pl.faces.all (fun f => decide (f < 6))
    && decide (pl.backs.length = img.bufs.length) && decide (pl.binds.length = img.bufs.length)
    && decide (pl.entries.length = img.bufs.length) && pl.entries.all (fun e => decide (e < 4096))
    && decide (pl.part < 8) && decide (pl.prio < 4)

/-- A firmware image whose STAGE0 fits the Board (R507). -/
def imageWf (i : ImageHdr) : Bool := decide (i.stage0.length ≤ 0x1000000)

/-- The check of each command. -/
def Instr.wf (i : Instr) : Bool :=
  match i with
  | .add _ _ _ => true
  | .sub _ _ _ => true
  | .and _ _ _ => true
  | .or _ _ _ => true
  | .xor _ _ _ => true
  | .sll _ _ _ => true
  | .srl _ _ _ => true
  | .sra _ _ _ => true
  | .mul _ _ _ => true
  | .mulhu _ _ _ => true
  | .min _ _ _ => true
  | .max _ _ _ => true
  | .slt _ _ _ => true
  | .sltu _ _ _ => true
  | .divu _ _ _ => true
  | .li _ _ _ => true
  | .lih _ _ _ => true
  | .rdst _ _ _ => true
  | .wrst _ _ _ => true
  | .ldg _ _ _ => true
  | .stg _ _ _ => true
  | .ldd _ _ _ => true
  | .dsetf _ _ _ => true
  | .dadd _ _ _ => true
  | .dcpy _ _ _ => true
  | .lds _ _ _ => true
  | .ssetf _ _ _ => true
  | .mm _ _ _ => true
  | .ptb _ _ _ => true
  | .ptl _ _ _ => true
  | .accout _ _ _ => true
  | .accin _ _ _ => true
  | .accz _ _ _ => true
  | .vew _ _ _ => true
  | .vtr _ _ _ => true
  | .vred _ _ _ => true
  | .vnorm _ _ _ => true
  | .vsmx _ _ _ => true
  | .qnt _ _ _ => true
  | .vrnd _ _ _ => true
  | .trp _ _ _ => true
  | .gath _ _ _ => true
  | .scat _ _ _ => true
  | .gfa _ _ _ => true
  | .racc _ _ _ => true
  | .sexp _ _ _ => true
  | .simp _ _ _ => true
  | .dgarm _ _ _ => true
  | .dgout _ _ _ => true
  | .dgrd _ _ _ => true
  | .conv _ _ _ => true
  | .attn _ _ _ => true
  | .attnb _ _ _ => true
  | .kvput _ _ _ => true
  | .rstep _ _ _ => true
  | .rchunk _ _ _ => true
  | .mov _ _ _ => true
  | .movz _ _ _ => true
  | .waitEv _ _ _ => true
  | .evadd _ _ _ => true
  | .evsend _ _ _ => true
  | .sacq _ _ _ => true
  | .srel _ _ _ => true
  | .fence _ _ _ => true
  | .raiseSrc _ _ _ => true
  | .nop _ _ _ => true
  | .br _ _ _ => true
  | .beq _ _ _ => true
  | .bne _ _ _ => true
  | .blt _ _ _ => true
  | .bge _ _ _ => true
  | .bltu _ _ _ => true
  | .bgeu _ _ _ => true
  | .jal _ _ _ => true
  | .jr _ _ _ => true
  | .endCmd _ _ _ => true
  | .trap _ _ _ => true
  | .unitStartQueued _ u => decide (u.toNat < 3)
  | .instructionComplete _ _ => true
  | .semAcquireGrant _ => true
  | .routedCounterIncrement => true
  | .cmdLimit _ => true
  | .commandEnd _ => true
  | .syncSemWrite _ _ => true
  | .syncRvalWrite _ => true
  | .qsatSnap _ => true
  | .attnClr _ => true
  | .recClr _ => true
  | .illOpc _ _ => true
  | .pipQpush _ _ => true
  | .pipRecordStart => true
  | .pipRecordDone _ => true
  | .pipTimeout => true
  | .pipQflush _ => true
  | .ulnalExceptionResponse _ => true
  | .jobUnload _ => true
  | .jobKill _ => true
  | .scrubStart t => match t with
    | .job _ => true
    | .region a n => decide (a + n ≤ 2 ^ 48)
  | .scrubDone => true
  | .commandReady _ _ => true
  | .commandStart _ => true
  | .schedPartWrite _ _ _ => true
  | .schedCommit _ => true
  | .schedQtailWrite _ => true
  | .schedQbaseWrite _ => true
  | .schedJobWrite _ _ => true
  | .slotStart _ => true
  | .slotEnd _ => true
  | .turnExpire _ => true
  | .bankSwapDone _ => true
  | .semBlock _ => true
  | .turnDonate _ => true
  | .stepAdvanceRequest _ _ => true
  | .stepAdvanceApply _ => true
  | .detJstepWrite _ _ => true
  | .jobLoad _ img pl => planWf img pl
  | .life0HbmZeroDone _ _ => true
  | .placeBrecWrite _ => true
  | .placeCommit _ => true
  | .placementPlan _ _ maps addrs ex => maps.all (fun m => decide (m.1 < 16) && decide (m.2.length ≤ 6)) && addrs.all (fun a => decide (a.1 < 4096)) && ex.all fun e => decide (e.1 < 16)
  | .bufferMoveStart _ => true
  | .bufferMoveDone _ => true
  | .majorFrameBoundary => true
  | .faultRecord _ _ _ _ => true
  | .patrolRead a res _ _ => decide (a < 2 ^ 49) && decide (res.toNat < 3)
  | .meshCrc _ => true
  | .stall _ _ _ => true
  | .lockstepMismatch _ => true
  | .line => true
  | .coreHb => true
  | .safeKick _ => true
  | .bootTimeout => true
  | .hfltRetry => true
  | .homeReq => true
  | .statusGateWrite _ _ => true
  | .statusGateComplete => true
  | .safeInj _ _ => true
  | .injectionMissed => true
  | .goldenRelease => true
  | .goldenStart => true
  | .goldenCompare _ _ _ => true
  | .goldLate => true
  | .goldCtrlWrite _ _ => true
  | .hbmAccessComplete a r _ _ => decide (a < 2 ^ 35) && decide (r.toNat < 5)
  | .hbmRefresh => true
  | .hbmTempReport _ => true
  | .hbmTrained _ => true
  | .paceWindow _ _ => true
  | .arbStarve _ _ => true
  | .arbRevoke => true
  | .gateRead a n w => decide (a + n ≤ 2 ^ 48) && (match w with
    | some bs => decide (bs.length = n)
    | none => true)
  | .pertWrite _ _ => true
  | .pertDelayWrite _ => true
  | .kvAdmit _ _ _ _ pages => pages.all fun p => decide (p < 2 ^ 24)
  | .kvInsertPages _ filled => filled.all fun p => decide (p.2.2 < 2 ^ 24)
  | .kvSequenceEnd _ _ _ => true
  | .eflTrain _ _ _ _ => true
  | .eflFrameRx _ i => match i with
    | .frame x => decide (x.typ < 16) && decide (x.src < 4) && decide (x.dst < 4) && decide (x.data.length ≤ 4096)
    | _ => true
  | .eflRetrain _ => true
  | .eflLaneFail _ _ => true
  | .eflDown _ => true
  | .eflPutPiece _ _ _ _ => true
  | .eflPieceReceive _ _ => true
  | .ackc _ => true
  | .inc _ => true
  | .getreq _ _ => true
  | .getrsp _ => true
  | .eflWinOpen _ _ => true
  | .eflWinClose _ => true
  | .eflWinCloseDone _ => true
  | .eflCtrlWrite _ _ => true
  | .timeRateWrite _ _ => true
  | .timeStepWrite _ => true
  | .timeRawRead _ => true
  | .timeNowRead _ => true
  | .timemNowRead _ => true
  | .timemRaRead => true
  | .timeMailboxRequest => true
  | .ppsEdge _ _ => true
  | .ppsLost => true
  | .tcxoFail => true
  | .csiFrameStart _ _ _ => true
  | .csiLine _ _ _ _ _ _ _ => true
  | .csiFrameEnd _ _ => true
  | .csiFrameTimeout _ _ => true
  | .csiSyncLost _ _ => true
  | .csiStamp _ _ _ _ _ => true
  | .csiRctlWrite _ _ _ => true
  | .csiLaneSync _ => true
  | .ethTxRelease _ _ => true
  | .ethTxDone _ _ _ => true
  | .ethRxFrame _ _ _ _ _ => true
  | .ethTsRead0 _ _ => true
  | .ethTsRead1 _ _ => true
  | .ethGclCycle _ => true
  | .ethLink _ _ => true
  | .pcieLinkUp _ _ => true
  | .pcieDown _ => true
  | .pcieDoorbell _ => true
  | .pcieMsix _ => true
  | .pcieBar0winWrite _ => true
  | .pcieHostRequest _ _ _ _ => true
  | .canSend _ _ => true
  | .canAbort _ _ => true
  | .canRecover _ => true
  | .canTxbufWrite _ _ _ _ => true
  | .canTx _ _ r _ => decide (r.res.toNat < 3)
  | .canBusoff _ _ => true
  | .bldClr => true
  | .canRx _ _ _ _ _ => true
  | .canRxtailWrite _ _ _ => true
  | .t1sTxpush _ _ => true
  | .t1sTx _ => true
  | .t1sRx _ _ _ => true
  | .plcaStatus _ _ _ _ _ => true
  | .launchRelease _ => true
  | .encQuadEdge _ _ => true
  | .encEvent _ _ => true
  | .encCfgWrite _ _ => true
  | .pwmPeriodStart _ => true
  | .permitKick _ => true
  | .permitKickMiss _ => true
  | .permitArm _ _ => true
  | .permitStart => true
  | .permitStop => true
  | .permitReadbackSample _ => true
  | .gfpEdge _ _ => true
  | .fbDiagSlot _ found => found.all fun p => decide (p.1 < 141)
  | .fbFault _ k => decide (k.toNat ≠ 0)
  | .fbFoldback _ _ _ => true
  | .controlTick => true
  | .loopExecute => true
  | .ceIn => true
  | .ceSp => true
  | .ceAdd => true
  | .ceSub => true
  | .ceMul => true
  | .ceMacz => true
  | .ceMac => true
  | .ceRnd => true
  | .ceInt => true
  | .ceLim => true
  | .ceLds => true
  | .ceSts => true
  | .ceOut => true
  | .ceEnd => true
  | .ceMin => true
  | .ceMax => true
  | .loopComplete => true
  | .loopApply => true
  | .ceLoopCfgWrite _ _ => true
  | .loopHold _ _ => true
  | .ceCoefShiftWrite _ _ _ => true
  | .ceCoefValueWrite _ _ _ => true
  | .ceSpcommit _ => true
  | .ceSpwWrite _ _ => true
  | .ceProgWrite _ _ => true
  | .holdEngage => true
  | .holdStale => true
  | .holdRelease => true
  | .ssiTransferStart _ => true
  | .ssiTransferDone _ _ => true
  | .solvGo => true
  | .solvAbort => true
  | .solvDone _ => true
  | .solvCommit => true
  | .computeReset => true
  | .computeRestart plans => plans.all fun p => decide (p.1 < 16)
  | .jobFaultRestart _ _ => true
  | .keccakOp _ => true
  | .attest nonce => match nonce with
    | some n => decide (n.length = 32)
    | none => true
  | .power => true
  | .lifecycle signer _ => decide (signer.toNat < 3)
  | .chal lvl => decide (1 ≤ lvl.toNat)
  | .submit => true
  | .debugVerifyDone _ => true
  | .d3GrantDone => true
  | .relock => true
  | .debugHalt _ => true
  | .debugResume _ => true
  | .pwrStateWrite _ => true
  | .secPstateWrite _ => true
  | .powerTransitionDone => true
  | .governorTick _ tj _ => decide (tj.length = 6)
  | .pmbusVoutWrite => true
  | .pwrTrimWrite _ _ => true
  | .junctionThrottle _ _ => true
  | .junctionTrip _ _ => true
  | .droop => true
  | .icc => true
  | .throttleRelease _ _ => true
  | .energyFold uj => decide (uj.length = 11)
  | .supply c => decide (c.toNat < 9)
  | .pmbAlert => true
  | .pgCore => true
  | .cpRead _ _ => true
  | .cpWrite _ => true
  | .cpStatus _ => true
  | .cpTimeout _ _ => true
  | .cpMbox _ => true
  | .cpReply _ _ => true
  | .crst => true
  | .pstop => true
  | .cpDoorbell _ => true
  | .cpbWinWrite _ _ _ => true
  | .evtpRaise _ => true
  | .evhRaise _ => true
  | .eventDeliver => true
  | .powerOnReset => true
  | .homeRstN _ => true
  | .bootStageDone r => match r with
    | .images a b => a.all imageWf && b.all imageWf
    | _ => true
  | .computeBoot => true
  | .mainDigestVerdict _ => true
  | .sysBootUp => true
  | .frst _ => true
  | .faceResetDone _ => true
  | .sysCtrlDoubleWrite _ => true
  | .registerWrite _ _ _ => true

end Sys2Proof
end

