-- ==== Sys2Proof/Safety.lean ====
section
/-! DEFINITION. What counts as a safe run, and the terms in which the statements speak of the state before and after a
command. -/

namespace Sys2Proof.Machine

/-- The memory is in canonical form: keys strictly rising, no byte equal to what an unlisted one reads as. -/
def State.memWf (s : State) : Bool := Map.wf 0 s.mem

/-- `k` steps from `s` stop nowhere. -/
def runsSafely (k : Nat) (s : State) : Prop := ∃ t, Host.Core.run core k s = .next t

/-- Command `c` completes at `s`, and what it leaves satisfies `P`. -/
def completes (c : Instr) (s : State) (P : State → Prop) : Prop := ∃ t, exec c s = .next t ∧ P t

/-! ## What is left as it was -/

/-- Every byte of every memory. -/
def sameMem (s t : State) : Prop := ∀ k, t.loadByte k = s.loadByte k

/-- Every byte outside a list of spans (start, length). -/
def sameMemBut (l : List (Nat × Nat)) (s t : State) : Prop :=
  ∀ k, (∀ x ∈ l, ¬ (x.1 ≤ k ∧ k < x.1 + x.2)) → t.loadByte k = s.loadByte k

/-- Every register outside a list of keys. -/
def sameRegsBut (l : List Nat) (s t : State) : Prop := ∀ a, a ∉ l → t.rd a = s.rd a

/-- Every Face but `f`. -/
def sameFacesBut (f : Nat) (s t : State) : Prop := ∀ g, g ≠ f → t.face g = s.face g

/-- The memory, the registers and the other Faces: what an instruction that works in its own Face leaves alone. -/
def outsideKept (f : Nat) (s t : State) : Prop := sameMem s t ∧ sameRegsBut [] s t ∧ sameFacesBut f s t

/-! ## Instructions of a Face -/

/-- The registers of the command on Face `f`, but for one g register, one d register and one s register (32, 64 and 16 name
none). -/
def regsKeptBut (f : Nat) (g d sc : Nat) (s t : State) : Prop :=
  (∀ n, n ≠ g → (t.face f).gReg n = (s.face f).gReg n) ∧ (∀ n, n ≠ d → (t.face f).dReg n = (s.face f).dReg n)
    ∧ ∀ n, n ≠ sc → (t.face f).sReg n = (s.face f).sReg n

/-- The counters of the command on Face `f` after an instruction with header `h`: its own signal is counted, no other. -/
def signalled (f : Nat) (h : Hdr) (s t : State) : Prop :=
  ∀ n, t.evCtr f n = if sigOf h = some n then Ctr.add (s.evCtr f n) 1 else s.evCtr f n

/-- An instruction has completed as it issued: the next one follows, nothing entered the window, its signal is counted. -/
def retired (f : Nat) (h : Hdr) (s t : State) : Prop :=
  (t.face f).pc = (s.face f).pc + 1 ∧ (t.face f).window = (s.face f).window ∧ (t.face f).running = true
    ∧ signalled f h s t

/-- An instruction has entered the window of Face `f` as an entry of unit `u` that satisfies `P`; what stood there stands
before it. -/
def entered (f : Nat) (h : Hdr) (u : FUnit) (P : Entry → Prop) (s t : State) : Prop :=
  (t.face f).pc = (s.face f).pc + 1 ∧ ∃ w e, (t.face f).window = w ++ [e] ∧ w.map (·.seq) = (s.face f).window.map (·.seq)
    ∧ e.seq = (s.face f).seq ∧ e.pc = (s.face f).pc ∧ e.unit = u ∧ e.sig = sigOf h ∧ P e

/-- No instruction of the command's job is in flight on any Face: nothing races (R115). -/
def quiet (s : State) (f : Nat) : Prop := s.jobEntries f = []

/-! ## The control engine's instructions -/

/-- A value held in the range of Q31, in units of 2^-31. -/
def q31Range (x : Int) : Int := max (-(2 ^ 31)) (min (2 ^ 31 - 1) x)

/-- The loop instructions that write register RD with a Q31 value computed from registers, coefficients (exact, in units of 2^-62,
R314) and the accumulator: opcode, the exact value of the result in units of 2^-31 and whether a rounding or range clamp changed it
(R312). -/
def loopRows : List (Instr × Nat × (State → CeExec → CeIns → Int × Bool)) :=
  let fit := fun (x : Int) => (q31Range x, decide (q31Range x ≠ x))
  let prod := fun (s : State) (x : CeExec) (w : CeIns) => s.ceCoef x.loop w.ci * x.reg w.ra
  [(.ceAdd, 0x03, fun _ x w => fit (x.reg w.ra + x.reg w.rb)), (.ceSub, 0x04, fun _ x w => fit (x.reg w.ra - x.reg w.rb)),
   (.ceMul, 0x05, fun s x w => fit (rneShift (prod s x w) 62)), (.ceRnd, 0x08, fun _ x _ => fit (rneShift x.acc 62)),
   (.ceLim, 0x0A, fun s x w =>
     let lo := fit (rneShift (s.ceCoef x.loop w.ci) 31)
     let hi := fit (rneShift (s.ceCoef x.loop (w.ci + 1)) 31)
     (min (max (x.reg w.ra) lo.1) hi.1, lo.2 || hi.2)),
   (.ceMin, 0x0F, fun _ x w => (min (x.reg w.ra) (x.reg w.rb), false)),
   (.ceMax, 0x10, fun _ x w => (max (x.reg w.ra) (x.reg w.rb), false))]

/-- A loop instruction of the execution `x` has executed: the execution goes on as `y`, and nothing outside it has changed. -/
def loopWent (x y : CeExec) (s t : State) : Prop :=
  t.ce.run = some y ∧ y.pc = x.pc + 1 ∧ y.loop = x.loop ∧ y.tick = x.tick ∧ y.cap = x.cap ∧
  t = { s with ce := { s.ce with run := t.ce.run } }

/-! ## The rows of the instruction families, as the spec's tables give them -/

/-- The fifteen two-source scalar instructions, and what R129 says each computes. -/
def scalarRows : List ((Fin 6 → Hdr → FmtA → Instr) × (Word → Word → Word)) :=
  [(.add, fun a b => BitVec.ofNat 64 (a.toNat + b.toNat)), (.sub, fun a b => BitVec.ofInt 64 (a.toInt - b.toInt)),
   (.and, fun a b => a &&& b), (.or, fun a b => a ||| b), (.xor, fun a b => a ^^^ b),
   (.sll, fun a b => BitVec.ofNat 64 (a.toNat * 2 ^ (b.toNat % 64))),
   (.srl, fun a b => BitVec.ofNat 64 (a.toNat / 2 ^ (b.toNat % 64))),
   (.sra, fun a b => BitVec.ofInt 64 (a.toInt / 2 ^ (b.toNat % 64))),
   (.mul, fun a b => BitVec.ofNat 64 (a.toNat * b.toNat)), (.mulhu, fun a b => BitVec.ofNat 64 (a.toNat * b.toNat / 2 ^ 64)),
   (.min, fun a b => BitVec.ofInt 64 (min a.toInt b.toInt)), (.max, fun a b => BitVec.ofInt 64 (max a.toInt b.toInt)),
   (.slt, fun a b => if a.toInt < b.toInt then 1 else 0), (.sltu, fun a b => if a.toNat < b.toNat then 1 else 0),
   (.divu, fun a b => if b.toNat = 0 then BitVec.allOnes 64 else BitVec.ofNat 64 (a.toNat / b.toNat))]

/-- R127 for format A: with I = 1, RB is 0; with I = 0, IMM is 0. -/
def reservedA (o : FmtA) : Prop := if o.i = 1 then o.rb = 0 else o.imm = 0

/-- The second operand of format A: sign-extended IMM, or g[RB] (R127). -/
def secondOperand (fs : FaceSt) (o : FmtA) : Word := if o.i = 1 then o.imm.signExtend 64 else fs.gReg o.rb.toNat

/-- The conditional branches, and the condition of each (R134). -/
def branchRows : List ((Fin 6 → Hdr → FmtC → Instr) × (Word → Word → Bool)) :=
  [(.beq, fun a b => decide (a = b)), (.bne, fun a b => decide (a ≠ b)), (.blt, fun a b => decide (a.toInt < b.toInt)),
   (.bge, fun a b => decide (b.toInt ≤ a.toInt)), (.bltu, fun a b => decide (a.toNat < b.toNat)),
   (.bgeu, fun a b => decide (b.toNat ≤ a.toNat))]

/-- The tensor instructions, but for CONV and DGARM: the unit each runs on (R143), its checks, and whether its issue is
non-deterministic (R283). -/
def tensorRows : List ((Fin 6 → Hdr → FmtT → Instr) × FUnit × (State → Nat → FmtT → Chk) × (FmtT → Bool)) :=
  [(.mm, .tile, mmChk, fun _ => false), (.ptb, .vector, ptbChk, fun _ => false), (.ptl, .tile, ptlChk, fun _ => false),
   (.accout, .vector, accoutChk, isSrh), (.accin, .vector, accinChk, fun _ => false), (.accz, .tile, acczChk, fun _ => false),
   (.vew, .vector, vewChk, isSrh), (.vtr, .vector, fun s f o => unaryChk s f o (decide (o.fn.toNat ≤ 12)), isSrh),
   (.vred, .vector, vredChk, isSrh), (.vnorm, .vector, vnormChk, isSrh),
   (.vsmx, .vector, fun s f o => unaryChk s f o (o.fn == 0), isSrh), (.qnt, .vector, qntChk, isSrh),
   (.vrnd, .vector, vrndChk, isSrh), (.trp, .vector, trpChk, fun _ => false),
   (.gath, .vector, fun s f o => indexChk s f o true false, fun _ => false),
   (.scat, .vector, fun s f o => indexChk s f o false false, fun _ => false),
   (.gfa, .vector, fun s f o => indexChk s f o true true, fun _ => true), (.racc, .vector, raccChk, fun _ => true),
   (.sexp, .tile, sexpChk, fun _ => false), (.simp, .tile, simpChk, fun _ => false),
   (.dgout, .digest, dgoutChk, fun _ => false), (.dgrd, .vector, dgrdChk, fun _ => false),
   (.attn, .tile, attnChk, isSrh), (.attnb, .tile, attnbChk, isSrh), (.kvput, .vector, kvputChk, isSrh),
   (.rstep, .tile, fun s f o => recChk s f o false, isSrh), (.rchunk, .tile, fun s f o => recChk s f o true, isSrh)]

/-- The opcodes that R128 and R173 assign. -/
def assignedOpcodes : List Nat :=
  (List.range 0x100).filter fun n => (1 ≤ n && n ≤ 0x13) || (0x18 ≤ n && n ≤ 0x1F) ||
    (0x40 ≤ n && n ≤ 0x69 && !([0x43, 0x47, 0x4F, 0x55, 0x56, 0x57, 0x5A, 0x5B, 0x5F, 0x61, 0x62, 0x63, 0x67].contains n)) ||
    n == 0x80 || n == 0x81 || (0xA0 ≤ n && n ≤ 0xA6) || (0xC0 ≤ n && n ≤ 0xCB)

/-- What an exception leaves on Face `f` whose record was free (R136, R138): the record with the code, precision and PC, no
instruction in flight, no command, the event raised. -/
def excTaken (f : Nat) (code : Nat) (precise : Bool) (pc : Nat) (s t : State) : Prop :=
  t.flag (Reg.FACE_EXC f) 63 = true ∧ t.flag (Reg.FACE_EXC f) 61 = precise ∧ t.fld (Reg.FACE_EXC f) 55 48 = code
    ∧ t.fld (Reg.FACE_EXC f) 31 0 = pc ∧ (t.face f).window = [] ∧ (t.face f).running = false ∧ t.raised = s.raised ++ [f]

/-- A tensor or move instruction has issued and not completed: memory and the g and s registers are as before. -/
def nothingYet (f : Nat) (s t : State) : Prop :=
  sameMem s t ∧ (∀ n, (t.face f).gReg n = (s.face f).gReg n) ∧ ∀ n, (t.face f).sReg n = (s.face f).sReg n

/-- Memory in canonical form, the indices of semaphores with waiters and of the jobs of Faces in range, and a staged slot table no
longer than 64 entries: what every step keeps. -/
def State.sound (s : State) : Prop :=
  s.memWf = true ∧ (∀ e ∈ s.waiters, e.1 < 256) ∧ (∀ f, (s.face f).job < 16) ∧ s.sched.staged.length ≤ 64

/-! ## Faults -/

/-- HFLT has recorded a fault of source `src` (R449, R457): one more log entry, with the source in its word 2, and event 146. -/
def faultLogged (src : Nat) (s t : State) : Prop :=
  t.fld Reg.HFLT_LOGSEQ 31 0 = (s.fld Reg.HFLT_LOGSEQ 31 0 + 1) % 2 ^ 32 ∧
  t.fld (Reg.HFLT_LOG (s.fld Reg.HFLT_LOGSEQ 31 0 % 16) 2) 7 0 = src ∧ 146 ∈ t.raised

/-- A device fault has been recorded: it is the last one, and a compute-side reset is due unless CSTATE is RESET or FAILED (R449). -/
def deviceFault (src : Nat) (s t : State) : Prop :=
  faultLogged src s t ∧ t.fld Reg.HFLT_STATUS 7 0 = src ∧ (s.cstate ≠ 1 → s.cstate ≠ 4 → t.safe.resetDue = true)

/-- A Home fault has been recorded: the permit does not toggle, and HOME_SRC holds the first one (R402, R457). -/
def homeFault (src : Nat) (s t : State) : Prop :=
  faultLogged src s t ∧ t.flag Reg.PERMIT_STATUS 31 = false ∧
  t.fld Reg.HFLT_STATUS 15 8 = if s.fld Reg.HFLT_STATUS 15 8 = 0 then src else s.fld Reg.HFLT_STATUS 15 8

/-! ## Answers to the host -/

/-- Home firmware has written a mailbox reply: SEQ, STATUS, LEN, and `n` bytes of payload (R498). -/
def mailReplied (status n : Nat) (s t : State) : Prop :=
  t.loadNat replyBuf 4 = s.fld Reg.CPH_MBOX 15 0 ∧ t.loadNat (replyBuf + 4) 4 = status ∧ t.loadNat (replyBuf + 8) 8 = n ∧
  sameMemBut [(replyBuf, 16 + n)] s t

/-- The command port has answered: marker, header with STATUS, TAG and LEN, data, CRC (R491, R492). -/
def portAnswered (status tag : Nat) (data : List Byte) (t : State) : Prop :=
  ∃ resp, t.out = .packet ([0xA5, 0x5A] ++ resp ++ leBytes 4 (crc32c resp)) ∧ resp.length = 8 + data.length ∧
    leNat (resp.take 1) = status ∧ leNat ((resp.drop 1).take 1) = tag ∧ leNat ((resp.drop 2).take 2) = data.length ∧ resp.drop 8 = data

/-- The compute side as a reset leaves it (R449, R510): no job, no command, no store, Board or bank content; the boot flash is kept. -/
def computeOff (s t : State) : Prop :=
  t.faces = [] ∧ t.jobs = [] ∧ t.vfs = [] ∧ t.bufs = [] ∧ t.routed = [] ∧ t.waiters = [] ∧ t.safe.resetDue = false ∧
  t.safe.boardOpen = false ∧ t.flash = s.flash ∧ (∀ k, boardBase ≤ k → k < boardBase + 0x1000000 → t.loadByte k = 0) ∧
  (∀ k, storeBase 0 ≤ k → k < storeBase 6 → t.loadByte k = 0) ∧ ∀ k, bankKey 0 0 ≤ k → k < bankKey 6 0 → t.loadByte k = 0

/-! ## Issue and completion together -/

/-- Instruction `i` issues on Face `f`, and the completion of it that follows leaves a state that satisfies `P`. -/
def issuesAndCompletes (i : Instr) (f : Fin 6) (s : State) (P : State → Prop) : Prop :=
  ∃ t, exec i s = .next t ∧ completes (.instructionComplete f (s.face f).seq) t P

end Sys2Proof.Machine
end

