-- ==== Sys2Proof/Certificates/Slice0/Obligations.lean ====
section
/-! DEFINITION. The statements for the provers. Each one's docstring says what it states and which rules it follows. -/

open Sys2Proof Sys2Proof.Machine

/-! ## The queue and the outcomes -/

/-- A step takes the command at the front of the queue and runs it with the rest waiting. -/
def Obligations.StepRunsFrontCommand : Prop :=
  ∀ (c : Instr) (rest : List Instr) (s : State),
    step { s with pending := c :: rest } = exec c { s with pending := rest }
/-- On an empty queue the raw timebase counts one nanosecond and nothing else changes: the model's choice (assumption 1). -/
def Obligations.EmptyQueueCountsRawTime : Prop :=
  ∀ s : State, s.pending = [] → step s = .next { s with raw := s.raw + 1 }
/-- No command stops the block but a HOME_RST_N pulse of at least 100 ns and less than 1 us, the lengths that R511 forbids: every
other command, on every state and with every operand, answers a next state. -/
def Obligations.OnlyForbiddenResetPulseStops : Prop :=
  ∀ (c : Instr) (s : State), (∃ t, exec c s = .next t) ∨ ∃ ns, c = .homeRstN ns ∧ 100 ≤ ns ∧ ns < 1000
/-- HOME_RST_N: a pulse shorter than 100 ns is ignored; a low time of at least 1 us resets the device; a length between the two,
which no design may drive, stops with the fault of that name (R511). -/
def Obligations.HomeResetPulses : Prop :=
  ∀ (ns : Nat) (s : State),
    (ns < 100 → exec (.homeRstN ns) s = .next s) ∧
    (1000 ≤ ns → completes (.homeRstN ns) s fun t => t.regs = State.reset.regs ∧ t.faces = State.reset.faces ∧
      t.jobs = State.reset.jobs ∧ t.vfs = State.reset.vfs ∧ t.bufs = State.reset.bufs ∧ t.sched = State.reset.sched ∧
      t.ce = State.reset.ce ∧ t.time = State.reset.time ∧ t.efl = State.reset.efl ∧ t.permit = State.reset.permit ∧
      t.safe = State.reset.safe ∧ t.raw = State.reset.raw ∧ t.cpLast = State.reset.cpLast) ∧
    (100 ≤ ns → ns < 1000 → exec (.homeRstN ns) s = .fault .forbiddenPulse)
/-- Every step keeps memory in canonical form and every job and semaphore index in its range. -/
def Obligations.StepKeepsStateSound : Prop :=
  ∀ s t : State, s.sound → step s = .next t → t.sound
/-- The state after reset is sound. -/
def Obligations.ResetIsSound : Prop := State.reset.sound
/-! ## Encoding (R125 to R128, R173) -/

/-- Every instruction with an assigned opcode, every operand at every value: decoding its word gives it back. A word whose opcode is
assigned is the word of the instruction it decodes to, so no bit is dropped; a word with a reserved opcode decodes to the reserved
opcode's row, whatever its other bits. It rests on the model's own readings in assumption 8. -/
def Obligations.DecodeAndEncodeAgree : Prop :=
  (∀ (i : Instr) (f : Fin 6) (w : BitVec 128), instrFace i = some f → encodeInstr i = some w → decodeInstr f w = i) ∧
  (∀ (f : Fin 6) (w : BitVec 128),
    ((w.extractLsb' 120 8).toNat ∈ assignedOpcodes → encodeInstr (decodeInstr f w) = some w) ∧
    ((w.extractLsb' 120 8).toNat ∉ assignedOpcodes → ∃ h, decodeInstr f w = .illOpc f h))

/-- Words written out from R125 to R128: the worked example's move, and one word of each other format. -/
def Obligations.WordsFromTheEncodingTables : Prop :=
  decodeInstr 2 0x8087072C000000000000284FD0000000#128 = .mov 2 ⟨true, 7, 0x072C, 0, 0, 0⟩ ⟨10, 4, 7, 7, 1, 0⟩ ∧
  decodeInstr 0 0x01000000000000000000190A00000000#128 = .add 0 ⟨false, 0, 0, 0, 0, 0⟩ ⟨3, 4, 5, 0, 0⟩ ∧
  decodeInstr 0 0x18000000000000000000261100000018#128 = .ldg 0 ⟨false, 0, 0, 0, 0, 0⟩ ⟨9, 33, 2, 0, 24⟩ ∧
  decodeInstr 5 0x40FF0001000200030004001083056001#128 = .mm 5 ⟨true, 127, 1, 2, 3, 4⟩ ⟨0, 1, 2, 3, 0, 5, 6, 0, 0, 1⟩ ∧
  decodeInstr 0 0xA2000000000000000000E60080000009#128 = .evsend 0 ⟨false, 0, 0, 0, 0, 0⟩ ⟨115, 0, 2, 0, 0, 0, 9⟩ ∧
  decodeInstr 1 0xC8000000000000000000F800FFFFFFFE#128 = .jal 1 ⟨false, 0, 0, 0, 0, 0⟩ ⟨31, 0, 0, 0xFFFFFFFE⟩ ∧
  decodeInstr 1 0 = .illOpc 1 ⟨false, 0, 0, 0, 0, 0⟩
/-! ## Issue (R111, R134 to R138) -/

/-- A Face that runs no command, whose END has issued, or that is halted for debug, holds every instruction: nothing changes. A PC
at or beyond the end of the code section raises FETCH_ERROR, whatever instruction is there. A reserved opcode raises ILL_OPC at
issue; TRAP raises TRAP with its code in DETAIL; a two-source scalar instruction with a reserved field that is not 0 raises
ILL_OPERAND. Each is precise and ends the command. It rests on the model's own readings in assumptions 5, 6. -/
def Obligations.HeldFetchAndReservedInstructions : Prop :=
  (∀ (i : Instr) (f : Fin 6) (s : State), instrFace i = some f →
    (s.face f).running = false ∨ (s.face f).ending = true ∨ (s.face f).halted = true → exec i s = .next s) ∧
  (∀ (i : Instr) (f : Fin 6) (s : State), instrFace i = some f → s.sound → (s.face f).running = true →
    (s.face f).ending = false → (s.face f).halted = false → s.codeLen f ≤ (s.face f).pc → s.flag (Reg.FACE_EXC f) 63 = false →
    completes i s fun t => excTaken f 0x0C true ((s.face f).pc % 2 ^ 32) s t) ∧
  (∀ (f : Fin 6) (h : Hdr) (s : State), s.sound → canIssue s f h = true → s.flag (Reg.FACE_EXC f) 63 = false →
    completes (.illOpc f h) s (fun t => excTaken f 0x01 true ((s.face f).pc % 2 ^ 32) s t) ∧
    (∀ off : BitVec 32, off.toNat < 65536 → completes (.trap f h ⟨0, 0, 0, off⟩) s fun t =>
      excTaken f 0x0B true ((s.face f).pc % 2 ^ 32) s t ∧ t.fld (Reg.FACE_EXCINFO f) 47 0 = off.toNat) ∧
    ∀ p ∈ scalarRows, ∀ o : FmtA, ¬ reservedA o → completes (p.1 f h o) s fun t =>
      excTaken f 0x02 true ((s.face f).pc % 2 ^ 32) s t)

/-- The wait set of every instruction (R117): a threshold above 2^48 - 1 raises WAIT_RANGE at issue; an entry is satisfied when its
counter's COUNT is at least its threshold or its OVF is set; an instruction whose set is not satisfied is held, and WAIT with a
satisfied one goes on. -/
def Obligations.WaitSetsHoldOrRaise : Prop :=
  ∀ (i : Instr) (f : Fin 6) (w : BitVec 128) (s : State), instrFace i = some f → encodeInstr i = some w → s.sound →
    (s.face f).running = true → (s.face f).ending = false → (s.face f).halted = false → (s.face f).pc < s.codeLen f →
    let fs := s.face f
    let set := hdrWaits (hdrOf w)
    let met := fun (e : BitVec 16) => waitThr fs e ≤ Ctr.count (s.evCtr f (waitEvOf e)) ∨ Ctr.ovf (s.evCtr f (waitEvOf e)) = true
    ((∃ e ∈ set, 2 ^ 48 - 1 < waitThr fs e) → s.flag (Reg.FACE_EXC f) 63 = false → completes i s fun t =>
      excTaken f 0x06 true (fs.pc % 2 ^ 32) s t) ∧
    ((∀ e ∈ set, waitThr fs e ≤ 2 ^ 48 - 1) → (∃ e ∈ set, ¬ met e) → exec i s = .next s) ∧
    ((∀ e ∈ set, waitThr fs e ≤ 2 ^ 48 - 1) → (∀ e ∈ set, met e) → fs.window.length < 256 →
      completes (.waitEv f (hdrOf w) ⟨0, 0, 0, 0, 0, 0, 0⟩) s fun t => retired f (hdrOf w) s t ∧ outsideKept f s t)

/-! ## Scalar and descriptor instructions (R109, R129, R130) -/

/-- The fifteen two-source scalar instructions: g[RD] is what R129 says (g0 stays 0), every other register of the command, the
memory, the hardware registers and the other Faces are as before, and only the instruction's own signal is counted. -/
def Obligations.ScalarInstructionResults : Prop :=
  ∀ p ∈ scalarRows, ∀ (f : Fin 6) (h : Hdr) (o : FmtA) (s : State), canIssue s f h = true → reservedA o →
    completes (p.1 f h o) s fun t =>
      (t.face f).gReg o.rd.toNat =
        (if o.rd = 0 then 0 else p.2 ((s.face f).gReg o.ra.toNat) (secondOperand (s.face f) o)) ∧
      regsKeptBut f o.rd.toNat 64 16 s t ∧ retired f h s t ∧ outsideKept f s t
/-- LI, LIH, RDST and WRST: immediates, and the front-end values that R109 names; with I = 0 and an IMM that is not 0 they raise
ILL_OPERAND (R127). DSETF, DADD, DCPY and SSETF: the named field of a descriptor or scale register, and no other bit or register. -/
def Obligations.ImmediateFrontEndAndDescriptorValues : Prop :=
  (∀ (f : Fin 6) (h : Hdr) (rd : BitVec 5) (i : BitVec 1) (imm : BitVec 32) (s : State), canIssue s f h = true →
    (i = 1 ∨ imm = 0 → completes (.li f h ⟨rd, 0, 0, i, imm⟩) s (fun t =>
      (t.face f).gReg rd.toNat = (if rd = 0 then 0 else imm.signExtend 64) ∧
      regsKeptBut f rd.toNat 64 16 s t ∧ retired f h s t ∧ outsideKept f s t) ∧
    completes (.lih f h ⟨rd, 0, 0, i, imm⟩) s (fun t =>
      ((t.face f).gReg rd.toNat).toNat = (if rd = 0 then 0 else
        imm.toNat * 2 ^ 32 + ((s.face f).gReg rd.toNat).toNat % 2 ^ 32) ∧
      regsKeptBut f rd.toNat 64 16 s t ∧ retired f h s t ∧ outsideKept f s t)) ∧
    (∀ n < 5, i = 1 ∨ n = 0 → completes (.rdst f h ⟨rd, 0, 0, i, BitVec.ofNat 32 n⟩) s fun t =>
      (t.face f).gReg rd.toNat = (if rd = 0 then 0 else
        [BitVec.ofNat 64 (s.face f).vf, BitVec.ofNat 64 (s.nvf f), BitVec.ofNat 64 (s.face f).cmdno,
          BitVec.ofNat 64 (((s.beginIssue f).face f).jstep.getD 0), BitVec.ofNat 64 ((s.face f).stream % 2 ^ 32)].getD n 0) ∧
      regsKeptBut f rd.toNat 64 16 s t ∧ retired f h s t ∧ outsideKept f s t) ∧
    completes (.wrst f h ⟨0, rd, 0, 1, 4⟩) s (fun t =>
      (t.face f).stream = ((s.face f).gReg rd.toNat).toNat % 2 ^ 32 ∧
      regsKeptBut f 32 64 16 s t ∧ retired f h s t ∧ outsideKept f s t) ∧
    (i = 0 → imm ≠ 0 → s.sound → s.flag (Reg.FACE_EXC f) 63 = false →
      ∀ c ∈ [Instr.li f h ⟨rd, 0, 0, i, imm⟩, .lih f h ⟨rd, 0, 0, i, imm⟩, .rdst f h ⟨rd, 0, 0, i, imm⟩, .wrst f h ⟨0, rd, 0, i, imm⟩],
      completes c s fun t => excTaken f 0x02 true ((s.face f).pc % 2 ^ 32) s t)) ∧
  (∀ (f : Fin 6) (h : Hdr) (x y : BitVec 6) (ra fl : BitVec 5) (s : State), canIssue s f h = true →
    (∀ hi lo, descField fl.toNat = some (hi, lo) → completes (.dsetf f h ⟨x, 0, ra, fl, 0⟩) s fun t =>
      (t.face f).dReg x.toNat = BitVec.ofNat 256 (putBits ((s.face f).dReg x.toNat).toNat hi lo
        ((s.face f).gReg ra.toNat).toNat) ∧
      regsKeptBut f 32 x.toNat 16 s t ∧ retired f h s t ∧ outsideKept f s t) ∧
    (∀ hi lo, descField fl.toNat = some (hi, lo) → 4 ≤ fl.toNat → fl.toNat ≤ 8 →
      completes (.dadd f h ⟨x, 0, ra, fl, 0⟩) s fun t =>
      (t.face f).dReg x.toNat = BitVec.ofNat 256 (putBits ((s.face f).dReg x.toNat).toNat hi lo
        (bits ((s.face f).dReg x.toNat).toNat hi lo + ((s.face f).gReg ra.toNat).toNat)) ∧
      regsKeptBut f 32 x.toNat 16 s t ∧ retired f h s t ∧ outsideKept f s t) ∧
    completes (.dcpy f h ⟨x, y, 0, 0, 0⟩) s (fun t =>
      (t.face f).dReg x.toNat = (s.face f).dReg y.toNat ∧
      regsKeptBut f 32 x.toNat 16 s t ∧ retired f h s t ∧ outsideKept f s t) ∧
    ∀ hi lo, scaleField fl.toNat = some (hi, lo) → x.toNat < 16 → completes (.ssetf f h ⟨x, 0, ra, fl, 0⟩) s fun t =>
      (t.face f).sReg x.toNat = BitVec.ofNat 128 (putBits ((s.face f).sReg x.toNat).toNat hi lo
        ((s.face f).gReg ra.toNat).toNat) ∧
      regsKeptBut f 32 64 x.toNat s t ∧ retired f h s t ∧ outsideKept f s t)
/-- LDG, LDD and LDS with nothing of the job in flight, where no uncorrectable word is read: the register holds the little-endian bytes at OFFSET + g[RA] + IMM of
descriptor Y's buffer (reserved bits of a descriptor or scale register read 0, TIER is discarded); memory is as before. LDG of an uncorrectable word takes
MEM_ERROR, which is imprecise (R80, R433). STG enters
the window; where the buffer holds no publication slot and nothing races, what it will store on completion is the 8 bytes of g[X] at
OFFSET + g[RA] + IMM of descriptor Y's buffer. Nothing is stored before. It rests on the model's own readings in assumptions 9, 10.
-/
def Obligations.ScalarMemoryInstructions : Prop :=
  (∀ (f : Fin 6) (h : Hdr) (x y : BitVec 6) (ra : BitVec 5) (imm : BitVec 26) (s : State),
    let o : FmtD := ⟨x, y, ra, 0, imm⟩
    canIssue s f h = true → quiet s f → (s.face f).window = [] →
    (x.toNat < 32 → accessChk s f o 8 1 = .pass → s.firstBad (accessKey s f o) 8 = none → completes (.ldg f h o) s fun t =>
      ((t.face f).gReg x.toNat).toNat = (if x = 0 then 0 else s.loadNat (accessKey s f o) 8) ∧
      regsKeptBut f x.toNat y.toNat 16 s t ∧ retired f h s t ∧ outsideKept f s t) ∧
    (accessChk s f o 32 1 = .pass → s.firstBad (accessKey s f o) 32 = none → completes (.ldd f h o) s fun t =>
      (t.face f).dReg x.toNat = cleanDesc (s.loadNat (accessKey s f o) 32) ∧
      (∀ n, n ≠ x.toNat → n ≠ y.toNat → (t.face f).dReg n = (s.face f).dReg n) ∧
      (∀ n, (t.face f).gReg n = (s.face f).gReg n) ∧ (∀ n, (t.face f).sReg n = (s.face f).sReg n) ∧
      retired f h s t ∧ outsideKept f s t) ∧
    (x.toNat < 16 → accessChk s f o 16 1 = .pass → s.firstBad (accessKey s f o) 16 = none → completes (.lds f h o) s fun t =>
      (t.face f).sReg x.toNat = cleanScale (s.loadNat (accessKey s f o) 16) ∧
      regsKeptBut f 32 y.toNat x.toNat s t ∧ retired f h s t ∧ outsideKept f s t) ∧
    (∀ k, x.toNat < 32 → accessChk s f o 8 1 = .pass → s.firstBad (accessKey s f o) 8 = some k → s.sound →
      s.flag (Reg.FACE_EXC f) 63 = false → completes (.ldg f h o) s fun t =>
      excTaken f 0x0E false ((s.face f).pc % 2 ^ 32) s t)) ∧
  (∀ (f : Fin 6) (h : Hdr) (o : FmtD) (s : State), canIssue s f h = true → quiet s f → o.x.toNat < 32 → o.field = 0 →
    accessChk s f o 8 0 = .pass → s.statusWords (s.face f).job = [] →
    completes (.stg f h o) s fun t =>
      entered f h .store (fun e => e.fx = [.store (accessKey s f o) (leBytes 8 ((s.face f).gReg o.x.toNat).toNat)] ∧
        e.started = true ∧ e.isStg = true) s t ∧
      regsKeptBut f 32 o.y.toNat 16 s t ∧ outsideKept f s t)

/-! ## Control (R103, R134) -/

/-- NOP goes on; BR and a branch whose condition holds go to PC + OFF, one whose condition fails goes on; JAL links and goes to PC +
OFF; JR goes to g[RA] + OFF: wherever the target lies in the code section. -/
def Obligations.ControlTransfers : Prop :=
  ∀ (f : Fin 6) (h : Hdr) (ra rb : BitVec 5) (off : BitVec 32) (s : State), canIssue s f h = true →
    let rel : Word := BitVec.ofNat 64 (s.face f).pc + off.signExtend 64
    let ind : Word := (s.face f).gReg ra.toNat + off.signExtend 64
    let at' := fun (g : Nat) (pc : Nat) (t : State) => (t.face f).pc = pc ∧ regsKeptBut f g 64 16 s t ∧
      signalled f h s t ∧ outsideKept f s t ∧ (t.face f).window = (s.face f).window ∧ (t.face f).running = true
    completes (.nop f h ⟨0, 0, 0, 0⟩) s (at' 32 ((s.face f).pc + 1)) ∧
    (rel.toNat < s.codeLen f → completes (.br f h ⟨0, 0, 0, off⟩) s (at' 32 rel.toNat)) ∧
    (∀ p ∈ branchRows, p.2 ((s.face f).gReg ra.toNat) ((s.face f).gReg rb.toNat) = true → rel.toNat < s.codeLen f →
      completes (p.1 f h ⟨ra, rb, 0, off⟩) s (at' 32 rel.toNat)) ∧
    (∀ p ∈ branchRows, p.2 ((s.face f).gReg ra.toNat) ((s.face f).gReg rb.toNat) = false →
      completes (p.1 f h ⟨ra, rb, 0, off⟩) s (at' 32 ((s.face f).pc + 1))) ∧
    (rel.toNat < s.codeLen f → completes (.jal f h ⟨ra, 0, 0, off⟩) s fun t => at' ra.toNat rel.toNat t ∧
      (t.face f).gReg ra.toNat = (if ra = 0 then 0 else BitVec.ofNat 64 ((s.face f).pc + 1))) ∧
    (ind.toNat < s.codeLen f → completes (.jr f h ⟨ra, 0, 0, off⟩) s (at' 32 ind.toNat))
/-- END stops issue and drains; once the window is empty the command ends: the Face is idle, the store of the Face and its scratch
banks read zero, a scratch bank that holds another vFace's live state holds it again (R205), and the vFace's count of ended commands is one more (R73, R103, R148). CMD_LIMIT: a command that has run longer
than its limit since its first issue takes the imprecise CMD_LIMIT exception. It rests on the model's own readings in assumption 33.
-/
def Obligations.CommandsEndOrReachTheirLimit : Prop :=
  (∀ (f : Fin 6) (s : State), s.sound →
    (∀ h : Hdr, canIssue s f h = true → completes (.endCmd f h ⟨0, 0, 0, 0⟩) s fun t =>
      (t.face f).ending = true ∧ (t.face f).endSig = sigOf h ∧ (t.face f).pc = (s.face f).pc ∧ outsideKept f s t) ∧
    ((s.face f).running = true → (s.face f).ending = true → (s.face f).window = [] →
      completes (.commandEnd f) s fun t =>
        (t.face f).running = false ∧
        (∀ k, storeBase f ≤ k → k < storeBase f + storeBytes → t.loadByte k = 0) ∧
        (∀ b < 16, bitOf (s.liveMask f (s.face f).job (s.face f).vf) b = false →
          ∀ i < 0x10000, (b ∉ s.guests f (s.face f).job (s.face f).vf → t.loadByte (bankKey f b + i) = 0) ∧
            (b ∈ s.guests f (s.face f).job (s.face f).vf → (∀ e ∈ s.bufs, e.2.tier = 1 ∨ e.2.tier = 2 →
              e.2.base f (s.face f).vf + e.2.sizeB ≤ homeSpace) → t.loadByte (bankKey f b + i) = s.loadByte (asideKey f b + i))) ∧
        (t.vf (s.face f).job (s.face f).vf).ended = (s.vf (s.face f).job (s.face f).vf).ended + 1)) ∧
  (∀ (f : Fin 6) (s : State) (t0 : Nat), s.sound → (s.face f).running = true → (s.face f).halted = false →
    (s.face f).firstIssue = some t0 → s.cmdLimitNs f < s.raw - t0 → s.flag (Reg.FACE_EXC f) 63 = false →
    completes (.cmdLimit f) s fun t => excTaken f 0x0D false ((s.face f).pc % 2 ^ 32) s t)

/-! ## Synchronisation (R117 to R124, R133) -/

/-- WAIT, EVADD, EVSEND, SACQ, SREL, FENCE and RAISE at issue. EVADD counts N in a counter; EVSEND, SREL and RAISE enter the window
with the effect they will have; SACQ enters it and its semaphore's queue; FENCE waits for earlier writes of its tiers. It rests on
the model's own readings in assumption 9. -/
def Obligations.SyncInstructionsIssue : Prop :=
  ∀ (f : Fin 6) (h : Hdr) (s : State), canIssue s f h = true →
    completes (.waitEv f h ⟨0, 0, 0, 0, 0, 0, 0⟩) s (fun t => regsKeptBut f 32 64 16 s t ∧ retired f h s t ∧ outsideKept f s t) ∧
    (∀ (ev : BitVec 7) (n : BitVec 16), completes (.evadd f h ⟨ev, 0, 0, 0, 0, 0, n⟩) s fun t =>
      (∀ k, t.evCtr f k = (let c := if k = ev.toNat then Ctr.add (s.evCtr f k) n.toNat else s.evCtr f k
        if sigOf h = some k then Ctr.add c 1 else c)) ∧
      (t.face f).pc = (s.face f).pc + 1 ∧ regsKeptBut f 32 64 16 s t ∧ outsideKept f s t) ∧
    (∀ (ev : BitVec 7) (v : BitVec 3) (n : BitVec 16) (w : Nat), 112 ≤ ev.toNat → vfNamed s f v.toNat = some w →
      completes (.evsend f h ⟨ev, 0, v, 0, 0, 0, n⟩) s fun t =>
      entered f h .sync (fun e => e.fx = [.routed (s.face f).job w (ev.toNat - 112) n.toNat]) s t ∧ outsideKept f s t) ∧
    (∀ (m : BitVec 8) (n : BitVec 16), semAllowed s (s.face f).job m.toNat = true →
      completes (.sacq f h ⟨0, m, 0, 0, 0, 0, n⟩) s (fun t =>
        entered f h .sync (fun e => e.acq = some (m.toNat, n.toNat)) s t ∧
        (t.semWaiters m.toNat).length = (s.semWaiters m.toNat).length + 1 ∧ t.semCount m.toNat = s.semCount m.toNat ∧
        sameMem s t) ∧
      completes (.srel f h ⟨0, m, 0, 0, 0, 0, n⟩) s (fun t =>
        entered f h .sync (fun e => e.fx = [.release (s.face f).job m.toNat n.toNat]) s t ∧ outsideKept f s t)) ∧
    (∀ tm : BitVec 4, (∀ e ∈ (s.face f).window, e.tiers &&& tm.toNat = 0) →
      completes (.fence f h ⟨0, 0, 0, tm, 0, 0, 0⟩) s fun t =>
        regsKeptBut f 32 64 16 s t ∧ retired f h s t ∧ outsideKept f s t) ∧
    (∀ k : BitVec 9, srcGranted s (s.face f).job k.toNat = true →
      completes (.raiseSrc f h ⟨0, 0, 0, 0, k, 0, 0⟩) s fun t =>
        entered f h .sync (fun e => e.fx = [.raise k.toNat]) s t ∧ outsideKept f s t)
/-- A semaphore grants the request at the head of its queue when the count suffices: the amount is taken, NET counts it, the waiter
leaves; a SACQ leaves the window with its signal, a command record's acquire makes its command ready. The oldest routed increment in
flight reaches its counter, which saturates (R116, R119). Ulnal's writes of the Sync unit: a semaphore's EN, PART and COUNT; the
routed counter that SYNC_RSEL selects. It rests on the model's own readings in assumption 9. -/
def Obligations.SemaphoresAndRoutedCounters : Prop :=
  (∀ (m : BitVec 8) (r : SemReq) (rest : List SemReq) (s : State), s.semWaiters m.toNat = r :: rest →
    s.flag (Reg.SYNC_SEM m.toNat) 63 = true → r.n ≤ s.semCount m.toNat → r.job < 16 →
    (r.face = none → completes (.semAcquireGrant m) s fun t =>
      t.semCount m.toNat = s.semCount m.toNat - r.n ∧ t.netOf r.job m.toNat = min 65535 (s.netOf r.job m.toNat + r.n) ∧
      t.semWaiters m.toNat = rest ∧ (t.vf r.job r.vf).stage = 3 ∧ sameMem s t) ∧
    (∀ f e, r.face = some (f, e.seq) → ((s.face f).window.find? fun x => x.seq == e.seq) = some e → e.fx = [] →
      s.acctFull = false → completes (.semAcquireGrant m) s fun t =>
      t.semCount m.toNat = s.semCount m.toNat - r.n ∧ t.netOf r.job m.toNat = min 65535 (s.netOf r.job m.toNat + r.n) ∧
      t.semWaiters m.toNat = rest ∧ (t.face f).window = (s.face f).window.filter (fun x => x.seq != e.seq) ∧ sameMem s t ∧
      ∀ n, t.evCtr f n = if e.sig = some n then Ctr.add (s.evCtr f n) 1 else s.evCtr f n)) ∧
  (∀ (r : RoutedInc) (rest : List RoutedInc) (jb : JobSt) (s : State), s.inFlight = r :: rest → s.job r.job = some jb →
    r.vf < jb.img.vfs.length → completes .routedCounterIncrement s fun t =>
      t.inFlight = rest ∧ Ctr.count (t.routedCtr r.job r.vf r.idx) = min (Ctr.count (s.routedCtr r.job r.vf r.idx) + r.n) (2 ^ 48 - 1) ∧
      (∀ j v i, routedIdx j v i ≠ routedIdx r.job r.vf r.idx → t.routedCtr j v i = s.routedCtr j v i) ∧
      sameMem s t ∧ sameRegsBut [] s t ∧ t.faces = s.faces) ∧
  (∀ (v : Word) (s : State),
    (∀ m : BitVec 8, completes (.syncSemWrite m v) s fun t =>
      t.fld (Reg.SYNC_SEM m.toNat) 63 63 = bits v.toNat 63 63 ∧ t.fld (Reg.SYNC_SEM m.toNat) 50 48 = bits v.toNat 50 48 ∧
      t.fld (Reg.SYNC_SEM m.toNat) 15 0 = bits v.toNat 15 0 ∧
      t.fld (Reg.SYNC_SEM m.toNat) 62 58 = s.fld (Reg.SYNC_SEM m.toNat) 62 58 ∧
      sameRegsBut [Reg.SYNC_SEM m.toNat] s t ∧ t.mem = s.mem ∧ t.faces = s.faces ∧ t.waiters = s.waiters) ∧
    (s.fld Reg.SYNC_RSEL 6 4 < 6 → completes (.syncRvalWrite v) s fun t =>
      Ctr.count (t.routedCtr (s.fld Reg.SYNC_RSEL 10 7) (s.fld Reg.SYNC_RSEL 6 4) (s.fld Reg.SYNC_RSEL 3 0)) = bits v.toNat 47 0 ∧
      t.inFlight = s.inFlight ∧ sameRegsBut [] s t ∧ t.mem = s.mem ∧ t.faces = s.faces))
/-- SREL (R122): on a semaphore that is disabled or of another partition it raises SEM_DENIED precisely and COUNT is unchanged;
otherwise it issues, adds n to COUNT and completes; where the sum would exceed 65,535, COUNT is left unchanged and it raises
SEM_RANGE, which is imprecise. -/
def Obligations.SrelAddsOrRaises : Prop :=
  ∀ (f : Fin 6) (h : Hdr) (m : BitVec 8) (n : BitVec 16) (s : State), s.sound →
    (canIssue s f h = true → semAllowed s (s.face f).job m.toNat = false → s.flag (Reg.FACE_EXC f) 63 = false →
      completes (.srel f h ⟨0, m, 0, 0, 0, 0, n⟩) s fun t =>
        excTaken f 0x07 true ((s.face f).pc % 2 ^ 32) s t ∧ t.semCount m.toNat = s.semCount m.toNat) ∧
    (canIssue s f h = true → semAllowed s (s.face f).job m.toNat = true → completes (.srel f h ⟨0, m, 0, 0, 0, 0, n⟩) s fun t =>
      entered f h .sync (fun e => e.fx = [.release (s.face f).job m.toNat n.toNat] ∧ e.started = true) s t ∧
      t.semCount m.toNat = s.semCount m.toNat) ∧
    ∀ e : Entry, ((s.face f).window.find? fun x => x.seq == e.seq) = some e → e.started = true → e.acq = none → e.remote = none →
      e.macBad = 0 → e.macUsed = 0 → s.badRead e = none → s.xferOf f e.seq = none → e.fx = [.release (s.face f).job m.toNat n.toNat] →
      (s.semCount m.toNat + n.toNat ≤ 65535 → completes (.instructionComplete f e.seq) s fun t =>
        t.semCount m.toNat = s.semCount m.toNat + n.toNat ∧
        (t.face f).window = (s.face f).window.filter (fun x => x.seq != e.seq)) ∧
      (65535 < s.semCount m.toNat + n.toNat → s.flag (Reg.FACE_EXC f) 63 = false → completes (.instructionComplete f e.seq) s fun t =>
        t.semCount m.toNat = s.semCount m.toNat ∧ excTaken f 0x08 false (e.pc % 2 ^ 32) s t)

/-! ## Tensor and move instructions -/

/-- Every tensor instruction that passes its checks enters the window of its unit in order of issue, with the PC and the signal of
the instruction (R113, R143); MOV and MOVZ enter the mover's. Nothing is written to memory and no g or s register changes before it
completes. A non-deterministic form needs NDET and sets NTAINT (R284). It rests on the model's own readings in assumptions 9, 104.
-/
def Obligations.TensorInstructionsEnterTheWindow : Prop :=
  ∀ (f : Fin 6) (h : Hdr) (s : State), canIssue s f h = true →
    (∀ p ∈ tensorRows, ∀ o : FmtT, p.2.2.1 s f o = .pass → unitFree (s.face f) p.2.1 = true →
      (p.2.2.2 o = true → s.flag (Reg.DET_JCTRL (s.face f).job) 0 = true) →
      completes (p.1 f h o) s fun t => entered f h p.2.1 (fun _ => True) s t ∧ nothingYet f s t ∧
        (p.2.2.2 o = true → t.flag (Reg.DET_JCTRL (s.face f).job) 1 = true)) ∧
    (∀ o : FmtT, quiet s f → convChk s f o (s.geoAt f o.dc.toNat) = .pass → unitFree (s.face f) .tile = true →
      (isSrh o = true → s.flag (Reg.DET_JCTRL (s.face f).job) 0 = true) →
      completes (.conv f h o) s fun t => entered f h .tile (fun _ => True) s t ∧ nothingYet f s t) ∧
    ∀ o : FmtM, unitFree (s.face f) .mover = true →
      (movChk s f o = .pass → completes (.mov f h o) s fun t => entered f h .mover (fun _ => True) s t ∧ nothingYet f s t) ∧
      (movzChk s f o = .pass → completes (.movz f h o) s fun t => entered f h .mover (fun _ => True) s t ∧ nothingYet f s t)
/-- DGARM enters the digest unit's queue and arms its digest slot on the descriptor of DA as it stands, TIER apart, with nothing
folded yet (R171). A unit that is idle starts the oldest instruction queued for it, and no other (R143): what that one writes is
computed from the state in which it starts and the registers it issued with. It rests on the model's own readings in assumption 104.
-/
def Obligations.DigestSlotsAndUnitQueues : Prop :=
  (∀ (f : Fin 6) (h : Hdr) (o : FmtT) (s : State), canIssue s f h = true → dgarmChk s f o = .pass →
    unitFree (s.face f) .digest = true → completes (.dgarm f h o) s fun t =>
      entered f h .digest (fun e => e.fx = []) s t ∧
      Map.get DigSlot.off (t.face f).digs o.dc.toNat =
        { armed := true, desc := noTier ((s.face f).dReg o.da.toNat), codes := [], folded := 0 } ∧
      (∀ k, k ≠ o.dc.toNat → Map.get DigSlot.off (t.face f).digs k = Map.get DigSlot.off (s.face f).digs k) ∧
      regsKeptBut f 32 64 16 s t ∧ outsideKept f s t) ∧
  (∀ (f : Fin 6) (u : BitVec 2) (s : State) (e : Entry),
    let unit : FUnit := if u = 0 then .tile else if u = 1 then .vector else .digest
    ((s.face f).window.find? fun x => x.unit == unit && !x.started) = some e →
    (∀ x ∈ (s.face f).window, x.unit = unit → x.started = false) → orderMet (s.face f) e = true →
    completes (.unitStartQueued f u) s fun t =>
      (∃ y : Entry, (t.face f).window = (s.face f).window.map (fun x => if x.seq == e.seq then y else x) ∧ y.started = true ∧
        y.redo = none ∧ y.seq = e.seq ∧ y.pc = e.pc ∧ y.unit = e.unit ∧ y.sig = e.sig ∧ (e.redo = none → y.fx = e.fx) ∧
        ∀ r o, e.redo = some r → e.lost = [] → computeOf r.ins (s.startView f r) r.geo = some o →
          y.fx = (s.startView f r).fxOf f r.dd o) ∧
      (t.face f).pc = (s.face f).pc ∧ regsKeptBut f 32 64 16 s t ∧ outsideKept f s t)

/-- Completion of a started instruction of the Face itself (R112, R118): it leaves the window and its signal is counted; a store
becomes visible at its address and nowhere else; an EVSEND's increment sets out; an SREL adds to its semaphore; a RAISE raises its
source. Where an uncorrectable word is among what it read, it takes MEM_ERROR instead (R433). It rests on the model's own readings
in assumption 9. -/
def Obligations.CompletionMakesEffectsVisible : Prop :=
  ∀ (f : Fin 6) (e : Entry) (s : State), ((s.face f).window.find? fun x => x.seq == e.seq) = some e → e.started = true →
    e.acq = none → e.remote = none → e.macBad = 0 → e.macUsed = 0 → s.xferOf f e.seq = none → s.acctFull = false →
    (∀ k, s.badRead e = some k → s.sound → s.flag (Reg.FACE_EXC f) 63 = false → (∀ x ∈ e.fx, x.isWrite = true) →
      completes (.instructionComplete f e.seq) s fun t => excTaken f 0x0E false (e.pc % 2 ^ 32) s t) ∧
    (s.badRead e = none →
    let gone := fun t : State => (t.face f).window = (s.face f).window.filter (fun x => x.seq != e.seq) ∧
      ∀ n, t.evCtr f n = if e.sig = some n then Ctr.add (s.evCtr f n) 1 else s.evCtr f n
    (∀ a bs, e.fx = [.store a bs] → completes (.instructionComplete f e.seq) s fun t =>
      gone t ∧ t.load a bs.length = bs ∧ sameMemBut [(a, bs.length)] s t ∧ sameRegsBut [] s t ∧ sameFacesBut f s t) ∧
    (∀ j v i n, e.fx = [.routed j v i n] → completes (.instructionComplete f e.seq) s fun t =>
      gone t ∧ t.inFlight = s.inFlight ++ [⟨j, v, i, n⟩] ∧ outsideKept f s t) ∧
    (∀ j m n, e.fx = [.release j m n] → m < 256 → s.semCount m + n ≤ 65535 → completes (.instructionComplete f e.seq) s fun t =>
      gone t ∧ t.semCount m = s.semCount m + n ∧ t.netOf j m = s.netOf j m - n ∧ sameMem s t ∧
      sameRegsBut [Reg.SYNC_SEM m] s t) ∧
    ∀ k, e.fx = [.raise k] → completes (.instructionComplete f e.seq) s fun t =>
      gone t ∧ t.raised = s.raised ++ [k] ∧ outsideKept f s t)
/-- QSAT_SNAP copies the 64 saturation counters of a Face to their snapshots and zeroes them; ATTN_CLR and REC_CLR zero their
counters. No other register changes (R66, R199, R226). -/
def Obligations.CounterSnapshotsAndClears : Prop :=
  ∀ (f : Fin 6) (s : State),
    completes (.qsatSnap f) s (fun t =>
      (∀ d < 64, t.rd (Reg.QSAT_SNAP f d) = s.rd (Reg.QSAT_CNT f d) ∧ t.rd (Reg.QSAT_CNT f d) = 0) ∧
      (∀ a, (∀ d < 64, a ≠ Reg.QSAT_SNAP f d ∧ a ≠ Reg.QSAT_CNT f d) → t.rd a = s.rd a) ∧ t.mem = s.mem ∧ t.faces = s.faces) ∧
    completes (.attnClr f) s (fun t =>
      (∀ a ∈ [Reg.ATTN_EMPTY f, Reg.ATTN_NANROW f, Reg.ATTN_PAGEMISS f, Reg.ATTN_LENCLIP f, Reg.ATTN_KVDROP f], t.rd a = 0) ∧
      sameRegsBut [Reg.ATTN_EMPTY f, Reg.ATTN_NANROW f, Reg.ATTN_PAGEMISS f, Reg.ATTN_LENCLIP f, Reg.ATTN_KVDROP f] s t ∧
      t.mem = s.mem ∧ t.faces = s.faces) ∧
    completes (.recClr f) s fun t =>
      (∀ a ∈ [Reg.REC_NEARINT f, Reg.REC_NONFIN f, Reg.REC_RESETS f, Reg.REC_SIMPFAIL f], t.rd a = 0) ∧
      sameRegsBut [Reg.REC_NEARINT f, Reg.REC_NONFIN f, Reg.REC_RESETS f, Reg.REC_SIMPFAIL f] s t ∧ t.mem = s.mem ∧
      t.faces = s.faces
/-! ## Jobs: load, end, exceptions, scrub (R85, R99 to R101, R123, R137) -/

/-- JOB_LOAD at a free index: an image that fails a check of R85 leaves no job, PLACE_ERR holds the check's code, and the answer is
a refusal; one that passes them all, with a plan that Ulnal may choose, is loaded as its image and plan say. It rests on the model's
own readings in assumptions 36, 37. -/
def Obligations.JobLoadChecksThenLoads : Prop :=
  ∀ (j : BitVec 4) (img : JobImage) (pl : LoadPlan) (s : State), s.job j.toNat = none →
    (∀ code id, s.loadErr img pl = some (code, id) → completes (.jobLoad j img pl) s fun t =>
      t.out = .denied ∧ t.job j.toNat = none ∧ t.rd Reg.PLACE_ERR = BitVec.ofNat 64 (j.toNat * 2 ^ 60 + id * 2 ^ 32 + code) ∧
      t.mem = s.mem ∧ t.bufs = s.bufs) ∧
    (s.loadErr img pl = none → s.loadRefused img pl = false → s.planOk img pl = true → completes (.jobLoad j img pl) s fun t =>
      t.out = .ok [] ∧ ∃ jb, t.job j.toNat = some jb ∧ jb.img = img ∧ jb.codeBase = pl.codeBase ∧ jb.ending = false ∧
        jb.started = false ∧ (∀ v < img.vfs.length, (t.vf j.toNat v).head = 0 ∧ (t.vf j.toNat v).tail = 0))
/-- JOB_UNLOAD of a live job and JOB_KILL of a loaded one: it is ending, none of its requests waits for a semaphore, and no queue of it
is enabled. A job unloaded runs on, but a SACQ of it that waits leaves its window (R123); a killed one runs no command any more (R99,
R123, R277). ULNAL_EXCEPTION_RESPONSE: on a program exception the job ends on every
Face; on a hardware exception nothing else happens. SCRUB_START hands the regions of an ended job, or an HBM region
not zeroed since its stack was without power, to the scrub engine, once no command runs on a Face of theirs; SCRUB_DONE zeroes the region at the front and nothing else (R99,
R101, R475). It rests on the model's own readings in assumptions 39, 106. -/
def Obligations.JobsEndAndAreScrubbed : Prop :=
  (∀ (j : BitVec 4) (s : State), s.sound → s.jobLive j.toNat = true →
    completes (.jobUnload j) s fun t => t.jobEnding j.toNat = true ∧
      (∀ m, ∀ r ∈ t.semWaiters m, r.job ≠ j.toNat) ∧ (∀ v < 6, (t.vf j.toNat v).en = false) ∧
      ∀ f, t.face f = { s.face f with window := (s.face f).window.filter fun e =>
        !((s.waiters.flatMap fun w => w.2).any fun r => r.job == j.toNat && r.face == some (f, e.seq)) }) ∧
  (∀ (j : BitVec 4) (s : State), s.sound → (s.job j.toNat).isSome = true →
    completes (.jobKill j) s fun t => t.jobEnding j.toNat = true ∧ t.jobRuns j.toNat = false ∧
      (∀ m, ∀ r ∈ t.semWaiters m, r.job ≠ j.toNat) ∧ ∀ v < 6, (t.vf j.toNat v).en = false) ∧
  (∀ (f : Fin 6) (j : Nat) (hw : Bool) (rest : List (Nat × Bool)) (s : State), s.sound → (s.face f).excJobs = (j, hw) :: rest →
    (s.job j).isSome = true → j < 16 →
    (hw = false → completes (.ulnalExceptionResponse f) s fun t =>
      t.jobEnding j = true ∧ t.jobRuns j = false) ∧
    (hw = true → completes (.ulnalExceptionResponse f) s fun t =>
      t.faces = Map.put FaceSt.idle s.faces f { s.face f with excJobs := rest } ∧ t.jobs = s.jobs ∧ t.mem = s.mem)) ∧
  (∀ s : State,
    (∀ a n, (∃ r ∈ s.place.unzeroed, r.1 ≤ a ∧ a + n ≤ r.1 + r.2) → completes (.scrubStart (.region a n)) s fun t =>
      t.place.scrub = s.place.scrub ++ [(a, n, 16)] ∧ t.mem = s.mem ∧ t.faces = s.faces) ∧
    (∀ j : BitVec 4, s.jobEnding j.toNat = true → s.jobRuns j.toNat = false → s.pipRuns j.toNat = false →
      (∀ r ∈ s.place.scrub, r.2.2 ≠ j.toNat) → (∀ r ∈ s.place.held, r.2.2 ≠ j.toNat) → s.holdWanted j.toNat = false →
      s.regionsBusy (s.jobRegions j.toNat) = false → (∀ i ∈ s.windowsOf j.toNat, s.flag (Reg.WINA i) 62 = false) → s.jobRegions j.toNat ≠ [] →
      completes (.scrubStart (.job j)) s fun t =>
        t.place.scrub = s.place.scrub ++ (s.jobRegions j.toNat).map (fun r => (r.1, r.2, j.toNat)) ∧
        t.jobEnding j.toNat = true ∧ sameMemBut [(devKey (0x7F80020000 + j.toNat * 0x400), 0x400)] s t) ∧
    (∀ a n j rest, s.place.scrub = (a, n, j) :: rest → completes .scrubDone s fun t =>
      (∀ k, t.loadByte k = if a ≤ k ∧ k < a + n then 0 else s.loadByte k) ∧ t.place.scrub = rest))

/-! ## Queues, slots, turns (R252 to R267, R277) -/

/-- COMMAND_READY: the head command of a live queue that names no semaphore becomes ready once its start wait holds; one that names
a semaphore of its partition joins that semaphore's queue (R255). -/
def Obligations.HeadCommandBecomesReady : Prop :=
  ∀ (j : BitVec 4) (v : BitVec 3) (s : State),
    let q := s.vf j.toNat v.toNat
    let r := s.headRec j.toNat v.toNat
    s.jobLive j.toNat = true → v.toNat < s.vfCountOf j.toNat → q.holds = true → q.stage = 0 → s.stepHeld j.toNat v.toNat = false →
    (r.waitEn = true → r.waitVal ≤ Ctr.count (s.routedCtr j.toNat v.toNat r.waitEv) ∨
      Ctr.ovf (s.routedCtr j.toNat v.toNat r.waitEv) = true) →
    (r.semEn = false → completes (.commandReady j v) s fun t =>
      (t.vf j.toNat v.toNat).stage = 3 ∧ (t.vf j.toNat v.toNat).readyAt = s.raw ∧ (t.vf j.toNat v.toNat).head = q.head ∧ (t.vf j.toNat v.toNat).tail = q.tail ∧
      t.regs = s.regs ∧ t.mem = s.mem ∧ t.faces = s.faces) ∧
    (r.semEn = true → semAllowed s j.toNat r.sem = true → completes (.commandReady j v) s fun t =>
      (t.vf j.toNat v.toNat).stage = 2 ∧ t.semCount r.sem = s.semCount r.sem ∧
      (∃ x, t.semWaiters r.sem = s.semWaiters r.sem ++ [x] ∧ x.job = j.toNat ∧ x.face = none ∧ x.n = r.semN) ∧
      t.mem = s.mem ∧ t.faces = s.faces)
/-- COMMAND_START of the command that a Face chooses (R102): g1 to g4 hold the record's arguments, every other g register, every
descriptor, scale register and local counter is 0 with OVF clear, STREAM is 0, the PC is the record's entry, and the routed counters
are as they were. HEAD advances and is published, and the vFace's command number counts (R109, R253). -/
def Obligations.CommandStartsAsItsRecordSays : Prop :=
  ∀ (f : Fin 6) (i j v : Nat) (s : State),
    let r := s.headRec j v
    let q := s.vf j v
    s.choose f = some (i, j, v) → s.startSet j v = ([v], none) → s.startOk f i j v = true →
    completes (.commandStart f) s fun t =>
      (t.face f).running = true ∧ (t.face f).job = j ∧ (t.face f).vf = v ∧ (t.face f).pc = r.entry ∧
      (∀ n, (t.face f).gReg n = if 1 ≤ n ∧ n ≤ 4 then BitVec.ofNat 64 (r.args.getD (n - 1) 0) else 0) ∧
      (∀ n, (t.face f).dReg n = 0 ∧ (t.face f).sReg n = 0) ∧ (∀ n < 112, t.evCtr f n = 0) ∧ (t.face f).stream = 0 ∧
      t.routed = s.routed ∧ (t.face f).window = [] ∧ (t.face f).cmdno = q.cmdno ∧
      (t.vf j v).head = q.head + 1 ∧ (t.vf j v).cmdno = q.cmdno + 1 ∧ (t.vf j v).stage = 0 ∧
      t.loadNat q.base 4 = (q.head + 1).toNat
/-- Slots: at its START an entry's Faces pass to it; at its end they belong to no entry, a command still running there is an overrun
with its flag and event 17, and a Face of another entry keeps it (R258 to R262). MAJOR_FRAME_BOUNDARY while scheduling is enabled
and the boundary has come: every slot is over, the frame counter counts, and the next boundary is one frame later (R258, R262). It
rests on the model's own readings in assumption 41. -/
def Obligations.SlotsAndFrames : Prop :=
  (∀ (i : BitVec 6) (s : State),
    (s.flag Reg.SCHED_CTRL 0 = true → s.flag (Reg.SCHED_SLOT i.toNat) 63 = true →
      s.slotStartAt i.toNat ≤ s.raw → s.raw < s.slotEndAt i.toNat → completes (.slotStart i) s fun t =>
        ∀ f < 6, (t.face f).slot = if bitOf (s.slotFaces i.toNat) f then some i.toNat else (s.face f).slot) ∧
    (s.slotEndAt i.toNat ≤ s.raw → completes (.slotEnd i) s fun t =>
      (∀ f < 6, (t.face f).slot = if (s.face f).slot = some i.toNat then none else (s.face f).slot) ∧
      (∀ f < 6, (t.face f).running = (s.face f).running) ∧
      ((∃ f < 6, (s.face f).slot = some i.toNat ∧ (s.face f).running = true) →
        t.flag Reg.SCHED_STATUS 1 = true ∧ 17 ∈ t.raised))) ∧
  (∀ s : State, s.sound → s.flag Reg.SCHED_CTRL 0 = true → s.sched.nextBoundary ≤ s.raw → completes .majorFrameBoundary s fun t =>
    (∀ f < 6, (t.face f).slot = none) ∧ t.sched.frameAt = s.sched.nextBoundary ∧
    t.sched.nextBoundary = s.sched.nextBoundary + t.frameNs ∧
    t.fld Reg.SCHED_STATUS 63 32 = (s.fld Reg.SCHED_STATUS 63 32 + 1) % 2 ^ 32)
/-- TURN_EXPIRE between commands: the turn that has no time left, or whose job has no ready command there, ends, and no command, slot or other Face is touched (R263).
BANK_SWAP_DONE: the banks that the next command of an idle Face could touch, and that hold another's live image, are saved; its own
live banks are on the Face, unless the image to be restored fails its CRC (R205, R265). SEM_BLOCK is raised once for a request that has waited more than 2 us for a holder that
does not run, as event 14; TURN_DONATE then gives the holder a borrowed turn on the Faces where it has a ready command, for the
fifth time in a row raises DONATE_LIMIT (15) instead, and a cycle of holders raises SEM_CYCLE (16) and ends the job whose wait
closed it (R266, R267). It rests on the model's own readings in assumptions 46 to 48. -/
def Obligations.TurnsBanksAndDonation : Prop :=
  (∀ (f : Fin 6) (i j : Nat) (s : State), (s.face f).slot = some i → (s.turn f (s.slotPart i)).job = some j →
    (s.face f).running = false → (s.turn f (s.slotPart i)).left = 0 ∨ s.jobReadyOn f j = false → s.exchanging j = false →
    completes (.turnExpire f) s fun t =>
      (t.turn f (s.slotPart i)).job = none ∧ Map.get 0 (t.turn f (s.slotPart i)).last (s.prioOf j) = j + 1 ∧ t.faces = s.faces ∧ t.vfs = s.vfs ∧
      (∀ d < 64, t.rd (Reg.QSAT_CNT f d) = 0)) ∧
  (∀ (f : Fin 6) (i j v : Nat) (s : State), s.choose f = some (i, j, v) → (s.face f).running = false → j < 16 → v < 8 →
    s.banksIn f j v ≠ [] ∨ s.banksOut f j v ≠ [] → s.acctFull = false →
    let s1 := s.each (s.banksOut f j v) fun s b => s.bankSave f b
    (∀ b ∈ s.banksIn f j v, (s1.bankHolder j v b).isSome = true ∨ bitOf (s1.vf j v).inSave b = false) ∨ s1.saveGood j v = true →
    completes (.bankSwapDone f) s fun t =>
      (∀ b ∈ s.banksIn f j v, Map.get 0 (t.face f).owner b = ownerMark j v) ∧
      (∀ b ∈ s.banksOut f j v, b ∉ s.banksIn f j v → Map.get 0 (t.face f).owner b = 0) ∧ t.regs = s.regs) ∧
  (∀ (m : BitVec 8) (s : State),
    (∀ r, s.blockedWaiter m.toNat = some r → completes (.semBlock m) s fun t =>
      t.raised = s.raised ++ [14] ∧ (t.semWaiters m.toNat).length = (s.semWaiters m.toNat).length ∧ t.regs = s.regs ∧
      t.mem = s.mem ∧ t.faces = s.faces) ∧
    (∀ h r d, s.holderOf m.toNat = some h →
      ((s.semWaiters m.toNat).find? fun r => r.blocked && decide (r.donated < 5)) = some r → s.donee 4 [r.job, h] h = .inl d →
      (s.job d).isSome = true → s.jobRuns d = false → (∀ f < 6, s.borrows f d = false) → (∃ f < 6, s.jobReadyOn f d = true) →
      (r.donated < 4 → completes (.turnDonate m) s fun t =>
        (∀ f < 6, t.borrows f d = s.jobReadyOn f d) ∧ t.raised = s.raised ∧ t.faces = s.faces ∧ t.mem = s.mem) ∧
      (r.donated = 4 → completes (.turnDonate m) s fun t =>
        t.raised = s.raised ++ [15] ∧ t.jobs = s.jobs ∧ t.faces = s.faces ∧ t.mem = s.mem)) ∧
    (∀ h r k, s.holderOf m.toNat = some h →
      ((s.semWaiters m.toNat).find? fun r => r.blocked && decide (r.donated < 5)) = some r → s.donee 4 [r.job, h] h = .inr k →
      exec (.turnDonate m) s = .next ((s.raiseEv 16).killJob k)))

/-- The scheduler's registers. While a partition has a loaded job, a write that would change a protected field changes none and reports
0x05, and TURN and MAXCLS apply all the same; otherwise the fields take the written values, CMD_BOUND held in 10 to 200, and EN is set
only where the checks of R249 pass, else their code is reported (R249, R250). GO makes a valid shadow table active at once while EN is
0, stages it while EN is 1, and reports the first failing check (R260). TAIL outside HEAD to HEAD + size is ignored with QUEUE_RANGE;
inside, where no record pushed is rejected, it is written, and published while the queue is in use (R253). QBASE changes only while
EN is 0, or when EN is cleared, and EN is refused with K outside 4 to 12 (R277). PRIO always changes, PART only while the job index is
free (R257). It rests on the model's own readings in assumptions 42, 43. -/
def Obligations.SchedulerRegisterWrites : Prop :=
  ∀ (v : Word) (s : State),
    (∀ p : BitVec 3, s.partLoaded p.toNat = false →
      completes (.schedPartWrite p true v) s (fun t =>
        t.fld (Reg.SCHED_PARTB p.toNat) 15 8 = max 10 (min 200 (bits v.toNat 15 8)) ∧
        t.fld (Reg.SCHED_PARTB p.toNat) 31 16 = bits v.toNat 31 16 ∧ t.fld (Reg.SCHED_PARTB p.toNat) 47 32 = bits v.toNat 47 32 ∧
        t.fld (Reg.SCHED_PARTB p.toNat) 7 6 = bits v.toNat 7 6 ∧ sameRegsBut [Reg.SCHED_PARTB p.toNat] s t ∧ t.mem = s.mem) ∧
      (bitOf v.toNat 63 = false → completes (.schedPartWrite p false v) s fun t =>
        t.rd (Reg.SCHED_PARTA p.toNat) = v &&& 0x7FFFFFFF0000FFFF ∧ sameRegsBut [Reg.SCHED_PARTA p.toNat] s t ∧ t.mem = s.mem) ∧
      let s1 := s.wr (Reg.SCHED_PARTA p.toNat) (v &&& 0x7FFFFFFF0000FFFF)
      (bitOf v.toNat 63 = true → s1.partErr p.toNat = none → completes (.schedPartWrite p false v) s fun t =>
        t.rd (Reg.SCHED_PARTA p.toNat) = v &&& 0xFFFFFFFF0000FFFF ∧ sameRegsBut [Reg.SCHED_PARTA p.toNat] s t ∧ t.mem = s.mem) ∧
      ∀ e < 256, bitOf v.toNat 63 = true → s1.partErr p.toNat = some e → completes (.schedPartWrite p false v) s fun t =>
        t.rd (Reg.SCHED_PARTA p.toNat) = v &&& 0x7FFFFFFF0000FFFF ∧ t.fld Reg.SCHED_ERR 15 0 = p.toNat * 256 + e ∧
        sameRegsBut [Reg.SCHED_PARTA p.toNat, Reg.SCHED_ERR] s t ∧ t.mem = s.mem) ∧
    (∀ p : BitVec 3, s.partLoaded p.toNat = true →
      let same := v &&& 0xFFFFFFFF0000FFFF = s.rd (Reg.SCHED_PARTA p.toNat) &&& 0xFFFFFFFF0000FFFF
      let sameB := bits v.toNat 47 32 = s.fld (Reg.SCHED_PARTB p.toNat) 47 32 ∧
        max 10 (min 200 (bits v.toNat 15 8)) = s.fld (Reg.SCHED_PARTB p.toNat) 15 8
      (same → exec (.schedPartWrite p false v) s = .next s) ∧
      (¬ same → completes (.schedPartWrite p false v) s fun t =>
        t.fld Reg.SCHED_ERR 15 0 = p.toNat * 256 + 5 ∧ sameRegsBut [Reg.SCHED_ERR] s t ∧ t.mem = s.mem) ∧
      completes (.schedPartWrite p true v) s fun t =>
        t.fld (Reg.SCHED_PARTB p.toNat) 31 16 = bits v.toNat 31 16 ∧ t.fld (Reg.SCHED_PARTB p.toNat) 7 6 = bits v.toNat 7 6 ∧
        t.fld (Reg.SCHED_PARTB p.toNat) 47 32 = s.fld (Reg.SCHED_PARTB p.toNat) 47 32 ∧
        t.fld (Reg.SCHED_PARTB p.toNat) 15 8 = s.fld (Reg.SCHED_PARTB p.toNat) 15 8 ∧
        (sameB → t.rd Reg.SCHED_ERR = s.rd Reg.SCHED_ERR) ∧ (¬ sameB → t.fld Reg.SCHED_ERR 15 0 = p.toNat * 256 + 5) ∧
        sameRegsBut [Reg.SCHED_PARTB p.toNat, Reg.SCHED_ERR] s t ∧ t.mem = s.mem) ∧
    (bitOf v.toNat 0 = false → exec (.schedCommit v) s = .next s) ∧
    (bitOf v.toNat 0 = true → s.tableErr = none → s.flag Reg.SCHED_CTRL 0 = true → completes (.schedCommit v) s fun t =>
      t.sched.staged = ((List.range 64).map fun i => s.rd (Reg.SCHED_SSLOT i)) ∧
      t.sched.stagedFrame = s.fld Reg.SCHED_SFRAME 16 0 ∧ t.sched.stagedAt = s.raw ∧ t.flag Reg.SCHED_STATUS 0 = true ∧
      sameRegsBut [Reg.SCHED_STATUS] s t) ∧
    (bitOf v.toNat 0 = true → s.tableErr = none → s.flag Reg.SCHED_CTRL 0 = false → completes (.schedCommit v) s fun t =>
      (∀ i < 64, t.rd (Reg.SCHED_SLOT i) = s.rd (Reg.SCHED_SSLOT i)) ∧
      t.fld Reg.SCHED_FRAME 16 0 = s.fld Reg.SCHED_SFRAME 16 0 ∧ ((∀ f < 6, (s.face f).gated = false) → t.mem = s.mem)) ∧
    (∀ e, bitOf v.toNat 0 = true → s.tableErr = some e → e.1 < 64 → e.2 < 256 → completes (.schedCommit v) s fun t =>
      t.fld Reg.SCHED_ERR 15 0 = e.1 * 256 + e.2 ∧ sameRegsBut [Reg.SCHED_ERR] s t ∧ t.mem = s.mem) ∧
    (let q := s.vf s.qsel.1 s.qsel.2
     s.qsel.2 < 6 →
      (((v.setWidth 32 - q.head).toInt < 0 ∨ (q.size : Int) < (v.setWidth 32 - q.head).toInt) →
        completes (.schedQtailWrite v) s fun t => t.vfs = s.vfs ∧ t.fld Reg.SCHED_ERR 7 0 = 0x0A ∧ t.mem = s.mem) ∧
      (q.en = false → 0 ≤ (v.setWidth 32 - q.head).toInt → (v.setWidth 32 - q.head).toInt ≤ q.size →
        s.pushRejected (v.setWidth 32) = false →
        completes (.schedQtailWrite v) s fun t => (t.vf s.qsel.1 s.qsel.2).tail = v.setWidth 32 ∧ t.mem = s.mem ∧ t.regs = s.regs) ∧
      (q.en = true → 0 ≤ (v.setWidth 32 - q.head).toInt → (v.setWidth 32 - q.head).toInt ≤ q.size →
        s.pushRejected (v.setWidth 32) = false → completes (.schedQtailWrite v) s fun t =>
          (t.vf s.qsel.1 s.qsel.2).tail = v.setWidth 32 ∧ t.loadNat q.base 4 = q.head.toNat ∧
          t.loadNat (q.base + 4) 4 = (v.setWidth 32 : BitVec 32).toNat ∧ sameMemBut [(q.base, 8)] s t ∧ t.regs = s.regs) ∧
      (0 ≤ (v.setWidth 32 - q.head).toInt → (v.setWidth 32 - q.head).toInt ≤ q.size → s.pushRejected (v.setWidth 32) = true →
        completes (.schedQtailWrite v) s fun t => t.out = .denied ∧ t.vfs = s.vfs ∧ t.mem = s.mem ∧ t.regs = s.regs) ∧
      (q.en = false ∨ bitOf v.toNat 63 = false → completes (.schedQbaseWrite v) s fun t =>
        (t.vf s.qsel.1 s.qsel.2).qbase = (if 4 ≤ bits v.toNat 3 0 ∧ bits v.toNat 3 0 ≤ 12 then v &&& 0x8000FFFFFFFFFFCF else
          v &&& 0x0000FFFFFFFFFFCF) ∧ t.mem = s.mem ∧ t.regs = s.regs) ∧
      (q.en = true → bitOf v.toNat 63 = true → exec (.schedQbaseWrite v) s = .next s)) ∧
    (∀ j : BitVec 4, completes (.schedJobWrite j v) s fun t =>
      t.fld (Reg.SCHED_JOB j.toNat) 59 58 = bits v.toNat 59 58 ∧
      t.fld (Reg.SCHED_JOB j.toNat) 62 60 = (if s.flag (Reg.SCHED_JOB j.toNat) 63 then s.fld (Reg.SCHED_JOB j.toNat) 62 60 else
        bits v.toNat 62 60) ∧ sameRegsBut [Reg.SCHED_JOB j.toNat] s t ∧ t.mem = s.mem)

/-- Step advances: ADV captures the TAILs of the job's queues and sets BUSY; once every command before them has ended, JSTEP counts
one and BUSY clears. JSTEP can be written until the job's first command starts (R286, R302). -/
def Obligations.StepAdvances : Prop :=
  ∀ (j : BitVec 4) (v : Word) (jb : JobSt) (s : State), s.job j.toNat = some jb →
    (bitOf v.toNat 0 = true → s.flag (Reg.DET_STEP j.toNat) 1 = false → s.rd (Reg.DET_JSTEP j.toNat) ≠ BitVec.allOnes 64 →
      completes (.stepAdvanceRequest j v) s fun t => t.flag (Reg.DET_STEP j.toNat) 1 = true ∧
        (∃ jb', t.job j.toNat = some jb' ∧ jb'.captured = (List.range 6).map fun i => (s.vf j.toNat i).tail) ∧
        t.mem = s.mem ∧ t.faces = s.faces) ∧
    (s.flag (Reg.DET_STEP j.toNat) 1 = true → (∀ t ∈ jb.captured.zipIdx, (t.1 - (s.vf j.toNat t.2).ended).toInt ≤ 0) →
      completes (.stepAdvanceApply j) s fun t => t.rd (Reg.DET_JSTEP j.toNat) = s.rd (Reg.DET_JSTEP j.toNat) + 1 ∧
        t.flag (Reg.DET_STEP j.toNat) 1 = false ∧ t.mem = s.mem ∧ t.faces = s.faces) ∧
    (jb.started = false → completes (.detJstepWrite j v) s fun t =>
      t.rd (Reg.DET_JSTEP j.toNat) = v ∧ sameRegsBut [Reg.DET_JSTEP j.toNat] s t ∧ t.mem = s.mem) ∧
    (jb.started = true → exec (.detJstepWrite j v) s = .next s)
/-! ## Placement (R74, R92 to R98) -/

/-- LIFE0_HBM_ZERO_DONE zeroes the vFace's instance and no other byte of the device; PLACE_BREC is kept while a running command
refers to the entry, and a reserved strength sets BAD_RECORD; GO commits, or reports COMMIT_BUSY while a plan is pending (R74, R96,
R98). A plan that Ulnal may make goes to the shadow tables alone: no binding in force, no Face and no byte changes (R92, R95). A
move: at its start the entry is marked as moving and PLACE_STATUS shows it; at its end the binding in force is the planned one, and
the bytes of a job-life buffer between memories are those it held (R95, R97). It rests on the model's own readings in assumptions
33, 36, 39, 40. -/
def Obligations.PlacementPlansAndMoves : Prop :=
  (∀ (s : State) (v : Word),
    (∀ (e : BitVec 12) (w : BitVec 3), bitOf (s.buf e.toNat).zeroing w.toNat = true →
      completes (.life0HbmZeroDone e w) s fun t => bitOf (t.buf e.toNat).zeroing w.toNat = false ∧ t.regs = s.regs ∧
        t.faces = s.faces ∧ ∀ k < 2 ^ 48, t.loadByte k =
          if (s.buf e.toNat).base 0 w.toNat ≤ k ∧ k < (s.buf e.toNat).base 0 w.toNat + (s.buf e.toNat).sizeB then 0 else s.loadByte k) ∧
    (s.bufInUse (s.fld Reg.PLACE_BSEL 11 0) = true → exec (.placeBrecWrite v) s = .next s) ∧
    (s.bufInUse (s.fld Reg.PLACE_BSEL 11 0) = false → bits v.toNat 37 36 ≠ 3 → completes (.placeBrecWrite v) s fun t =>
      (t.buf (s.fld Reg.PLACE_BSEL 11 0)).record = v &&& 0xF8FFFFF8FF000000 ∧ t.regs = s.regs ∧ t.mem = s.mem) ∧
    (s.bufInUse (s.fld Reg.PLACE_BSEL 11 0) = false → bits v.toNat 37 36 = 3 → completes (.placeBrecWrite v) s fun t =>
      (t.buf (s.fld Reg.PLACE_BSEL 11 0)).isValid = false ∧ t.fld Reg.PLACE_ERR 7 0 = 0x09 ∧ t.mem = s.mem) ∧
    (bitOf v.toNat 0 = true → s.flag Reg.PLACE_STATUS 0 = false → completes (.placeCommit v) s fun t =>
      t.place.committed = true ∧ t.place.goAt = s.raw ∧ t.regs = s.regs ∧ t.mem = s.mem ∧ t.bufs = s.bufs) ∧
    (bitOf v.toNat 0 = true → s.flag Reg.PLACE_STATUS 0 = true → completes (.placeCommit v) s fun t =>
      t.place = s.place ∧ t.fld Reg.PLACE_ERR 7 0 = 0x08 ∧ sameRegsBut [Reg.PLACE_ERR] s t ∧ t.mem = s.mem)) ∧
  (∀ (p : BitVec 3) (hot : BitVec 6) (maps : List (Nat × List Nat)) (addrs : List (Nat × Nat)) (ex : List (Nat × Nat × List Nat))
    (s : State),
    let addr := fun e => ((addrs.find? fun a => a.1 == e).map (·.2)).getD 0
    let face := fun j v => (((maps.find? fun m => m.1 == j).map (·.2)).getD []).getD v (s.boundTo j v)
    s.mapsOk p.toNat hot.toNat maps face = true → (maps.map (·.1)).Nodup →
    (∀ t ∈ s.planTiers p.toNat, s.bindOk t.1 t.2 (addr t.1) = true) → s.bindsApart (s.planTiers p.toNat) addr = true →
    (∀ x ∈ ex, s.exchangeOk face x.1 x.2.1 x.2.2 = true) →
    completes (.placementPlan p hot maps addrs ex) s fun t =>
      (∀ m ∈ maps, t.rd (Reg.PLACE_SVMAP m.1) = BitVec.ofNat 64 (vmapOf m.2)) ∧
      (∀ e, (t.buf e).bind = (s.buf e).bind ∧ (t.buf e).record = (s.buf e).record) ∧
      t.place.exPlan = ex.map (fun x => 256 * x.1 + x.2.1) ∧ t.mem = s.mem ∧ t.faces = s.faces) ∧
  (∀ (e : BitVec 12) (s : State) (b : Word), s.sound →
    (((s.place.moves.find? fun m => m.1 == e.toNat) = some (e.toNat, b)) → s.bufInUse e.toNat = false →
      completes (.bufferMoveStart e) s fun t => (e.toNat, b, s.raw) ∈ t.place.moving ∧
        bitOf (t.buf e.toNat).bind.toNat 61 = true ∧ t.flag Reg.PLACE_STATUS 1 = true ∧ t.mem = s.mem ∧ t.faces = s.faces) ∧
    (∀ t0, ((s.place.moving.find? fun m => m.1 == e.toNat) = some (e.toNat, b, t0)) → (s.buf e.toNat).life1 = true →
      (s.buf e.toNat).isValid = true → bits (s.buf e.toNat).record.toNat 62 59 < 16 → 2 ≤ bits b.toNat 63 62 → bits b.toNat 63 62 < 3 →
      completes (.bufferMoveDone e) s fun t =>
        (t.buf e.toNat).tier = bits b.toNat 63 62 ∧ bits (t.buf e.toNat).bind.toNat 47 6 = bits b.toNat 47 6 ∧
        (∀ i < (s.buf e.toNat).sizeB, (s.buf e.toNat).sizeB ≤ 2 ^ 40 → bits b.toNat 47 6 * 64 + (s.buf e.toNat).sizeB ≤ 2 ^ 47 →
          t.loadByte ((t.buf e.toNat).base 0 0 + i) = s.loadByte ((s.buf e.toNat).base 0 0 + i)) ∧ t.faces = s.faces))

/-! ## The Pip engine (R245 to R247) -/

/-- PIP_QPUSH of a record that can be read and whose event its job holds: it joins its partition's queue, or sets QFULL where 16 stand
there; another is refused. PIP_QFLUSH with GO 0 does nothing; with GO 1 no record of the job is queued any more and its running one
is abandoned. The Pip engine starts the oldest record of the next queue in round robin and shows its partition and job; one that it
cannot read only counts as failed. A record that is done leaves the engine idle, with its status and its event: code 0 with its whole
output and its saturated elements counted; 1 for a field out of order, 2 for an address that is not served, 3 for a memory error, 4
when it runs longer than TIMEOUT, each counted as failed and with no byte written outside its output and status. A flushed one ends
without status or event (R245 to R247). It rests on the model's own readings in assumptions 29, 31, 32. -/
def Obligations.PipEngineRunsItsQueues : Prop :=
  (∀ (p : BitVec 3) (v : Word) (s : State),
    let a := bits v.toNat 47 6 * 64
    (s.served a 64 = false ∨ pipGranted s (pipRecOf (s.load (devKey a) 64)) = false → completes (.pipQpush p v) s fun t =>
      t.out = .denied ∧ t.pip = s.pip ∧ t.regs = s.regs ∧ t.mem = s.mem) ∧
    (s.served a 64 = true → pipGranted s (pipRecOf (s.load (devKey a) 64)) = true →
      ((s.pipQueue p.toNat).length < 16 → completes (.pipQpush p v) s fun t =>
        t.out = .ok [] ∧ t.pipQueue p.toNat = s.pipQueue p.toNat ++ [a] ∧ (∀ k, k ≠ p.toNat → t.pipQueue k = s.pipQueue k) ∧
        t.fld (Reg.PIP_QLEVEL p.toNat) 4 0 = (s.pipQueue p.toNat).length + 1 ∧ t.pip.running = s.pip.running ∧ t.mem = s.mem) ∧
      (16 ≤ (s.pipQueue p.toNat).length → completes (.pipQpush p v) s fun t =>
        t.out = .ok [] ∧ t.pip = s.pip ∧ t.flag Reg.PIP_STATUS p.toNat = true ∧ sameRegsBut [Reg.PIP_STATUS] s t ∧ t.mem = s.mem)) ∧
    (bitOf v.toNat 4 = false → exec (.pipQflush v) s = .next s) ∧
    (bitOf v.toNat 4 = true → completes (.pipQflush v) s fun t => t.mem = s.mem ∧ t.faces = s.faces ∧
      (∀ k < 8, t.pipQueue k = (s.pipQueue k).filter fun a => (pipRecOf (s.load (devKey a) 64)).job % 16 != bits v.toNat 3 0) ∧
      ∀ run, s.pip.running = some run → t.pip.running = some { run with flushed := run.flushed || run.job == bits v.toNat 3 0 })) ∧
  (∀ (s : State) (p a : Nat) (rest : List Nat), s.pip.running = none → s.flag Reg.PIP_CTRL 0 = true → s.pipNext = some p →
    s.pipQueue p = a :: rest →
    (s.served a 64 = true → completes .pipRecordStart s fun t => t.pipQueue p = rest ∧ t.flag Reg.PIP_STATUS 63 = true ∧
      (∃ run, t.pip.running = some run ∧ run.image = s.load (devKey a) 64 ∧ run.part = p ∧
        run.job = (pipRecOf (s.load (devKey a) 64)).job % 16 ∧ run.start = s.raw ∧ run.flushed = false) ∧
      t.fld Reg.PIP_STATUS 58 56 = p % 8 ∧ t.fld Reg.PIP_STATUS 62 59 = (pipRecOf (s.load (devKey a) 64)).job % 16 ∧
      t.mem = s.mem ∧ t.faces = s.faces) ∧
    (s.served a 64 = false → completes .pipRecordStart s fun t => t.pipQueue p = rest ∧ t.pip.running = none ∧
      t.rd Reg.PIP_FAIL = Ctr.add (s.rd Reg.PIP_FAIL) 1 ∧ t.raised = s.raised ∧ t.mem = s.mem ∧ t.faces = s.faces)) ∧
  (∀ (s : State) (run : PipRun), s.pip.running = some run →
    let r := pipRecOf run.image
    let p := s.pipParam r.param
    let o := pipOutput s r p
    let spans := [(devKey r.dst, o.bytes.length), (devKey r.status, 16)]
    let ended := fun (c : Nat) (t : State) =>
      t.pip.running = none ∧ t.raised = s.raised ++ [r.event] ∧ t.flag Reg.PIP_STATUS 63 = false ∧ sameMemBut spans s t ∧
      (s.served r.status 16 = true →
        t.load (devKey r.status) 16 = leBytes 4 r.frame ++ leBytes 1 c ++ leBytes 3 0 ++ leBytes 8 s.raw) ∧
      t.rd Reg.PIP_DONE = Ctr.add (s.rd Reg.PIP_DONE) (if c = 0 then 1 else 0) ∧
      t.rd Reg.PIP_FAIL = Ctr.add (s.rd Reg.PIP_FAIL) (if c = 0 then 0 else 1)
    let abandoned := fun (t : State) =>
      t.pip.running = none ∧ t.raised = s.raised ∧ t.rd Reg.PIP_DONE = s.rd Reg.PIP_DONE ∧ t.rd Reg.PIP_FAIL = s.rd Reg.PIP_FAIL ∧
      t.flag Reg.PIP_STATUS 63 = false ∧ sameMemBut [(devKey r.dst, o.bytes.length)] s t
    (run.flushed = false →
      (s.pipStop r p = none → r.mapped s p o.bytes.length = true → completes (.pipRecordDone false) s fun t =>
        ended 0 t ∧ t.rd Reg.PIP_SAT = Ctr.add (s.rd Reg.PIP_SAT) (o.flagged + o.rows.foldl (fun n x => n + x.counted) 0) ∧
        ∀ i < o.bytes.length, (∀ k < 16, devKey r.status + k ≠ devKey r.dst + i) → t.loadByte (devKey r.dst + i) = o.bytes.getD i 0) ∧
      (∀ m c, s.pipStop r p = some c ∨ (s.pipStop r p = none ∧ m = true ∧ c = 3) ∨
          (s.pipStop r p = none ∧ m = false ∧ r.mapped s p o.bytes.length = false ∧ c = 2) →
        completes (.pipRecordDone m) s (ended c)) ∧
      (run.start + 1000 * s.fld Reg.PIP_CTRL 31 16 < s.raw → completes .pipTimeout s (ended 4))) ∧
    (run.flushed = true → (∀ m, completes (.pipRecordDone m) s abandoned) ∧
      (run.start + 1000 * s.fld Reg.PIP_CTRL 31 16 < s.raw → completes .pipTimeout s abandoned)))

/-! ## Faults and their mechanisms (R428 to R457) -/

/-- Each fault mechanism records its own source: FAULT_RECORD the source named, and nothing where the code is reserved; a second CRC failure of a mesh piece 0x04; a stalled
compute channel 0x05, a Home one 0x23; a Double's mismatch 0x06, a Home pair's 0x20, the control engine's 0x21; stopped fault lines
0x08; a missed heartbeat 0x07; a boot beyond 100 ms 0x0E; Home firmware's request 0x0F. No injection is in progress. A fault that names a Face counts, and the third one within 10 s quarantines
it; a fault that the injection in progress awaits is logged, sets DETECTED and does nothing else (R452, R454). It rests on the
model's own readings in assumptions 52, 105. -/
def Obligations.FaultsAreRecordedOrInjected : Prop :=
  (∀ s : State, s.safe.inj = none →
    (∀ (src : BitVec 8) (f : Option (Fin 6)) (j : Option (BitVec 4)) (d : BitVec 32),
      (faultKind src.toNat = .device → completes (.faultRecord src f j d) s (deviceFault src.toNat s)) ∧
      (faultKind src.toNat = .job → completes (.faultRecord src f j d) s fun t => faultLogged src.toNat s t ∧
        t.safe.resetDue = s.safe.resetDue) ∧
      (faultKind src.toNat = .home → completes (.faultRecord src f j d) s (homeFault src.toNat s)) ∧
      (faultKind src.toNat = .reserved → exec (.faultRecord src f j d) s = .next s)) ∧
    completes (.meshCrc true) s (deviceFault 0x04 s) ∧ exec (.meshCrc false) s = .next s ∧
    (∀ (ch : BitVec 12) (us : Nat),
      (20 ≤ us → completes (.stall true ch us) s (homeFault 0x23 s)) ∧
      (s.sentUs ≤ us → 6 ≤ bits ch.toNat 11 8 → completes (.stall false ch us) s (deviceFault 0x05 s)) ∧
      (s.sentUs ≤ us → bits ch.toNat 11 8 < 6 → s.quarantined (bits ch.toNat 11 8) = false →
        (s.face (bits ch.toNat 11 8)).halted = false → completes (.stall false ch us) s (deviceFault 0x05 s))) ∧
    (∀ w : BitVec 3, (w.toNat < 4 → s.flag Reg.SYS_CTRL (16 + w.toNat) = true → s.flag Reg.SYS_CTRL (12 + w.toNat) = true →
        completes (.lockstepMismatch w) s (deviceFault 0x06 s)) ∧
      (w.toNat = 4 → completes (.lockstepMismatch w) s (homeFault 0x20 s)) ∧
      (4 < w.toNat → completes (.lockstepMismatch w) s (homeFault 0x21 s))) ∧
    (s.cstate = 2 ∨ s.cstate = 3 → completes .line s (deviceFault 0x08 s)) ∧
    (s.cstate = 3 → s.safe.kickAt + s.ckickNs ≤ s.raw → completes .coreHb s (deviceFault 0x07 s)) ∧
    (s.cstate = 2 → s.safe.bootAt + 100000000 < s.raw → completes .bootTimeout s (deviceFault 0x0E s)) ∧
    completes .homeReq s (deviceFault 0x0F s)) ∧
  (∀ (f : Fin 6) (d : BitVec 32) (s : State),
    (s.safe.inj = none → s.cstate ≠ 1 → s.safe.resetDue = false →
      ∀ src : BitVec 8, faultHasFace src.toNat = true → completes (.faultRecord src (some f) none d) s fun t =>
        let n := 1 + ((Map.get [] s.safe.times f).filter fun t => decide (s.raw < t + 10000000000)).length
        t.fld (Reg.HFLT_FACE f) 1 0 = min 3 n ∧ (3 ≤ n → t.flag Reg.HFLT_QUAR f = true)) ∧
    (∀ (src : BitVec 8) (t0 : Nat), injKind src.toNat ≤ 4 → s.safe.inj = some (injKind src.toNat, f.val, t0) →
      completes (.faultRecord src (some f) none d) s fun t =>
      faultLogged src.toNat s t ∧ t.safe.resetDue = s.safe.resetDue ∧ t.safe.times = s.safe.times ∧ t.jobs = s.jobs ∧
      t.safe.inj = none ∧ t.flag Reg.SAFE_INJ 63 = true))

/-- PATROL_READ: a corrected word counts in SAFE_CE; an uncorrectable word that is not live is zeroed and counts; a live one is a
device fault, in Home memory a Home fault (R434). SAFE_KICK with its bit is the heartbeat; HFLT_RETRY leaves FAILED for RESET with
event 148; SAFE_INJ and GOLD_CTRL take writes only from cores in lockstep, an injection of a known kind is then in progress, and one
whose detection time has passed sets MISSED and records its checker's fault (R439, R440, R451, R454, R456). It rests on the model's
own readings in assumptions 51, 54. -/
def Obligations.PatrolAndSafetyCommands : Prop :=
  (∀ (a : Nat) (alloc : Bool) (s : State), s.safe.inj = none → s.flag Reg.SAFE_CTRL 0 = true →
    a < homeSpace ∨ homeSpace + 0x100000 ≤ a →
    completes (.patrolRead a 1 alloc false) s (fun t => t.rd Reg.SAFE_CE = Ctr.add (s.rd Reg.SAFE_CE) 1 ∧ t.mem = s.mem ∧
      sameRegsBut [Reg.SAFE_CE] s t) ∧
    (s.patrolLive a alloc = false → completes (.patrolRead a 2 alloc false) s fun t =>
      t.rd Reg.SAFE_CE = Ctr.add (s.rd Reg.SAFE_CE) 1 ∧
      ∀ k, t.loadByte k = if a - a % 8 ≤ k ∧ k < a - a % 8 + 8 then 0 else s.loadByte k) ∧
    (s.patrolLive a alloc = true → completes (.patrolRead a 2 alloc false) s (deviceFault 0x02 s)) ∧
    (∀ b < 0x100000, completes (.patrolRead (homeSpace + b) 2 alloc false) s (homeFault 0x22 s)) ∧
    completes (.patrolRead a 0 alloc true) s fun t =>
      t.fld Reg.SAFE_STATUS 31 0 = (s.fld Reg.SAFE_STATUS 31 0 + 1) % 2 ^ 32 ∧ t.mem = s.mem) ∧
  (∀ (s : State) (v : Word),
    (bitOf v.toNat 0 = true → completes (.safeKick v) s fun t => t.safe.kickAt = s.raw ∧ t.regs = s.regs ∧ t.mem = s.mem) ∧
    (s.cstate = 4 → completes .hfltRetry s fun t => t.cstate = 1 ∧ t.raised = s.raised ++ [148] ∧ t.mem = s.mem ∧
      sameRegsBut [Reg.HFLT_STATUS] s t) ∧
    exec (.safeInj v false) s = .next s ∧ exec (.goldCtrlWrite v false) s = .next s ∧
    (bitOf v.toNat 0 = true → bits v.toNat 15 12 ≤ 4 → completes (.safeInj v true) s fun t =>
      t.safe.inj = some (bits v.toNat 15 12, bits v.toNat 11 9, s.raw) ∧ t.flag Reg.SAFE_INJ 63 = false ∧
      sameRegsBut [Reg.SAFE_INJ] s t ∧ t.mem = s.mem) ∧
    (∀ k f t0, s.safe.inj = some (k, f, t0) → k ≤ 4 → t0 + s.injNs k < s.raw → completes .injectionMissed s fun t =>
      t.safe.inj = none ∧ t.flag Reg.SAFE_INJ 62 = true ∧ deviceFault (injSrc k) s t) ∧
    (s.flag Reg.GOLD_CTRL 63 = false → bitOf v.toNat 63 = true → 10 ≤ bits v.toNat 47 32 → bits v.toNat 47 32 ≤ 1000 →
      1000 ≤ bits v.toNat 31 16 → bits v.toNat 31 16 ≤ 30000 → 100 ≤ bits v.toNat 15 0 → bits v.toNat 15 0 ≤ 2000 →
      completes (.goldCtrlWrite v true) s fun t => t.flag Reg.GOLD_CTRL 63 = true ∧
        t.fld Reg.GOLD_CTRL 47 0 = bits v.toNat 47 0 ∧ t.fld Reg.GOLD_CTRL 62 59 = bits v.toNat 62 59 ∧
        sameRegsBut [Reg.GOLD_CTRL] s t ∧ t.mem = s.mem))

/-- The status gate takes a status word of a started instruction, and 2 us later writes it with the next SEQ of its slot pair, the
APP byte kept and FAULT from the job's latch, which is then 0 (R446, R447). Golden runs: a due run is released, or deferred while a
PRIO 3 command is ready and deferral is enabled; a released run starts in a TEST slot on all covered Faces; a run in which every log
agrees with a good reference in time passes and counts; one beyond its deadline records 0x0A with event 20 (R441 to R444). It rests
on the model's own readings in assumption 54. -/
def Obligations.GoldenRunsAndTheStatusGate : Prop :=
  (∀ (s : State),
    (∀ (f : Fin 6) (e : Entry) (g : GateHeld),
      ((s.face f).window.find? fun x => x.seq == e.seq && x.started) = some e → s.gateNext f e = some g →
      completes (.statusGateWrite f e.seq) s fun t => t.safe.gate = s.safe.gate ++ [g] ∧ t.mem = s.mem ∧ t.regs = s.regs ∧
        t.faces = s.faces) ∧
    (∀ g rest jb, s.safe.gate = g :: rest → g.since + 2000 ≤ s.raw → s.job g.job = some jb → g.app < 256 → jb.latch < 65536 →
      completes .statusGateComplete s fun t =>
        let seq := nextSeq (Map.get 0 s.kept.pubs (16 * g.job + g.pair))
        t.loadNat g.key 8 = seq + g.app * 2 ^ 32 + jb.latch * 2 ^ 48 ∧ sameMemBut [(g.key, 8)] s t ∧
        (∃ jb', t.job g.job = some jb' ∧ jb'.latch = 0) ∧ g ∉ t.safe.gate ∧ t.regs = s.regs ∧
        Map.get 0 t.kept.pubs (16 * g.job + g.pair) = seq)) ∧
  (∀ s : State,
    (s.flag Reg.GOLD_CTRL 63 = true → s.safe.goldReleased = false → s.flag Reg.GOLD_STATUS 49 = false →
      s.goldDeadline ≤ s.raw + 1000 * s.fld Reg.GOLD_CTRL 31 16 → s.goldSuspended = false →
      (s.goldBusy = false → completes .goldenRelease s fun t => t.safe.goldReleased = true ∧ t.regs = s.regs ∧ t.mem = s.mem) ∧
      (s.goldBusy = true → s.flag Reg.GOLD_CTRL 62 = true → s.defers < 2 → completes .goldenRelease s fun t =>
        t.defers = s.defers + 1 ∧ t.safe.goldReleased = false ∧ t.mem = s.mem)) ∧
    (s.safe.goldReleased = true → s.flag Reg.GOLD_STATUS 49 = false → s.cover ≠ [] →
      (∀ f ∈ s.cover, ∃ i, (s.face f).slot = some i ∧ s.slotTest i = true) → completes .goldenStart s fun t =>
        t.safe.goldReleased = false ∧ t.safe.goldAt = s.raw ∧ t.flag Reg.GOLD_STATUS 49 = true ∧ t.mem = s.mem) ∧
    (∀ ref n, s.flag Reg.GOLD_STATUS 49 = true → (∀ j ∈ s.goldJobs, s.jobRuns j.1 = false) →
      (∀ j ∈ s.goldJobs, goldMatches ((List.range n).map fun i => s.load (devKey (ref + 64 * i)) 64) (s.goldEntries j.1) = true) →
      s.raw ≤ s.goldDeadline → completes (.goldenCompare ref n true) s fun t =>
        t.flag Reg.GOLD_STATUS 49 = false ∧ t.fld Reg.GOLD_STATUS 31 0 = (s.fld Reg.GOLD_STATUS 31 0 + 1) % 2 ^ 32 ∧
        t.safe.goldFrom = s.safe.goldAt ∧ t.defers = 0 ∧ t.raised = s.raised ∧ t.mem = s.mem) ∧
    (s.flag Reg.GOLD_CTRL 63 = true → s.goldSuspended = false → s.goldDeadline < s.raw → s.safe.inj = none →
      completes .goldLate s fun t => deviceFault 0x0A s t ∧ 20 ∈ t.raised ∧ t.flag Reg.GOLD_STATUS 49 = false))

/-! ## HBM, pace, arbiters, the gate, perturbation -/

/-- HBM_ACCESS_COMPLETE: a good access leaves everything as it was; a corrected one counts for the half whose channel the interleave
gives to the address, and a retried one counts; an uncorrectable one, after a retry or without one, counts for that half, leaves its
chunk in HBMC_ERRADDR, records HBM_UE and gives the instruction that asked MEM_ERROR; HBM_TEMP_REPORT doubles the refresh above 85
and is HOT with event 13 above 95 degrees; HBM_TRAINED sets the half's bit and ends self-refresh; HBM_REFRESH changes nothing that can
be read (R77, R78, R80, R82). It rests on the model's own readings in assumption 57. -/
def Obligations.HbmController : Prop :=
  ∀ (h : BitVec 1) (a : Nat) (s : State),
    let half := (bits a 12 8 ^^^ bits a 17 13 ^^^ bits a 22 18) / 16
    (∀ q n, exec (.hbmAccessComplete a 0 q n) s = .next s) ∧ exec .hbmRefresh s = .next s ∧
    (∀ q n, completes (.hbmAccessComplete a 1 q n) s (fun t => t.rd (Reg.HBMC_CE half) = Ctr.add (s.rd (Reg.HBMC_CE half)) 1 ∧
      sameRegsBut [Reg.HBMC_CE half] s t ∧ t.mem = s.mem ∧ t.faces = s.faces) ∧
    completes (.hbmAccessComplete a 2 q n) s (fun t => t.rd Reg.HBMC_RETRY = Ctr.add (s.rd Reg.HBMC_RETRY) 1 ∧
      sameRegsBut [Reg.HBMC_RETRY] s t ∧ t.mem = s.mem ∧ t.faces = s.faces)) ∧
    (∀ n, completes (.hbmAccessComplete a 3 none n) s (fun t => t.rd (Reg.HBMC_UE half) = Ctr.add (s.rd (Reg.HBMC_UE half)) 1 ∧
      t.rd Reg.HBMC_ERRADDR = BitVec.ofNat 64 (2 ^ 63 + a % 2 ^ 35 / 256 * 256) ∧ deviceFault 0x03 s t)) ∧
    (∀ n, completes (.hbmAccessComplete a 4 none n) s (fun t => t.rd Reg.HBMC_RETRY = Ctr.add (s.rd Reg.HBMC_RETRY) 1 ∧
      t.rd Reg.HBMC_ERRADDR = BitVec.ofNat 64 (2 ^ 63 + a % 2 ^ 35 / 256 * 256) ∧
      t.rd (Reg.HBMC_UE half) = Ctr.add (s.rd (Reg.HBMC_UE half)) 1 ∧ deviceFault 0x03 s t)) ∧
    (∀ (f : Fin 6) (e : Entry), ((s.face f).window.find? fun x => x.seq == e.seq) = some e → s.sound →
      s.flag (Reg.FACE_EXC f) 63 = false → ∀ r ∈ [(3 : BitVec 3), 4], completes (.hbmAccessComplete a r (some f) e.seq) s fun t =>
        t.flag (Reg.FACE_EXC f) 63 = true ∧ t.flag (Reg.FACE_EXC f) 61 = false ∧ t.fld (Reg.FACE_EXC f) 55 48 = 0x0E ∧
        t.fld (Reg.FACE_EXC f) 31 0 = e.pc % 2 ^ 32 ∧ t.fld (Reg.FACE_EXCINFO f) 34 0 = a % 2 ^ 35 ∧
        (t.face f).running = false ∧ (t.face f).window = []) ∧
    (∀ c : BitVec 8, completes (.hbmTempReport c) s fun t => t.flag Reg.HBMC_STATUS 30 = decide (85 < c.toInt) ∧
      t.flag Reg.HBMC_STATUS 31 = decide (95 < c.toInt) ∧ t.raised = s.raised ++ (if 95 < c.toInt then [13] else []) ∧
      sameRegsBut [Reg.HBMC_STATUS] s t ∧ t.mem = s.mem) ∧
    completes (.hbmTrained h) s fun t => t.flag Reg.HBMC_STATUS h.toNat = true ∧ t.flag Reg.HBMC_STATUS 29 = false ∧
      sameRegsBut [Reg.HBMC_STATUS] s t ∧ t.mem = s.mem
/-- PACE_WINDOW of a domain that runs shows the cycles of the window and whether they are low, and raises PACE_LOW (12) at the second
low window in a row; one that is off or in reset has no window. ARB_STARVE latches a point that has waited beyond the limit, with
event 18 once, but for class 3 at the squares; ARB_REVOKE counts; while the gate is up a Home
access reaches the Board, while it is down it answers COMPUTE_DOWN (R16, R17, R23, R24, R274, R276). Perturbation registers: while
debug, lifecycle and power allow it, PERT_WRITE sets the register's writable bits and PERT_DELAY sets the delay of the selected
channel and of no other; otherwise only DENIED is set (R298 to R301). It rests on the model's own readings in assumptions 55, 56,
58. -/
def Obligations.PaceAndPerturbation : Prop :=
  (∀ s : State,
    (∀ (d : BitVec 3) (n : BitVec 14),
      let on := d = 7 ∨ ((s.cstate = 2 ∨ s.cstate = 3) ∧ s.fld Reg.SEC_PSTATE 31 29 < 3 ∧
        (d = 6 ∨ ((s.face d.toNat).gated = false ∧ (s.face d.toNat).resetting = false)))
      (¬ on → exec (.paceWindow d n) s = .next s) ∧ (on → completes (.paceWindow d n) s fun t =>
      let low := decide (n.toNat < s.fld Reg.PACE_LOW 13 0)
      t.fld (Reg.PACE_FACE d.toNat) 13 0 = n.toNat ∧ t.flag (Reg.PACE_FACE d.toNat) 30 = low ∧
      t.flag (Reg.PACE_FACE d.toNat) 31 = true ∧
      t.raised = s.raised ++ (if low && s.flag (Reg.PACE_FACE d.toNat) 30 then [12] else []) ∧
      sameRegsBut [Reg.PACE_FACE d.toNat] s t ∧ t.mem = s.mem)) ∧
    (∀ (k : BitVec 5) (c : BitVec 2) (us : Nat), s.flag Reg.ARB_CTRL 0 = true → k.toNat < 24 → max 1 (s.fld Reg.ARB_CTRL 31 16) < us →
      (k.toNat < 6 → c = 3 → exec (.arbStarve k ⟨c, us⟩) s = .next s) ∧
      (6 ≤ k.toNat ∨ c ≠ 3 → (s.flag Reg.ARB_STARVE k.toNat = true → exec (.arbStarve k ⟨c, us⟩) s = .next s) ∧
        (s.flag Reg.ARB_STARVE k.toNat = false → completes (.arbStarve k ⟨c, us⟩) s fun t =>
        t.flag Reg.ARB_STARVE k.toNat = true ∧ t.raised = s.raised ++ [18] ∧ sameRegsBut [Reg.ARB_STARVE] s t ∧ t.mem = s.mem))) ∧
    completes .arbRevoke s (fun t => t.rd Reg.ARB_REVOKE = Ctr.add (s.rd Reg.ARB_REVOKE) 1 ∧ sameRegsBut [Reg.ARB_REVOKE] s t ∧
      t.mem = s.mem) ∧
    (∀ (a n : Nat) (w : Option (List (BitVec 8))), s.gateDown = true → completes (.gateRead a n w) s fun t =>
      t = { s with out := .computeDown }) ∧
    ∀ (a : Nat) (bs : List (BitVec 8)), s.gateDown = false → isBoard a = true → isBoard (a + bs.length - 1) = true →
      s.unscrubbed a bs.length = false →
      completes (.gateRead a bs.length none) s (fun t => t = { s with out := .ok (s.load a bs.length) }) ∧
      completes (.gateRead a bs.length (some bs)) s fun t => t.load a bs.length = bs ∧ sameMemBut [(a, bs.length)] s t ∧
        t.out = .ok [] ∧ t.regs = s.regs ∧ t.faces = s.faces) ∧
  (∀ (v : Word) (s : State),
    (s.pertAllowed = false → ∀ k : BitVec 3, k ≠ 3 →
      completes (.pertWrite k v) s (fun t => t.flag Reg.PERT_STATUS 0 = true ∧ sameRegsBut [Reg.PERT_STATUS] s t ∧
        t.pertDelay = s.pertDelay) ∧
      completes (.pertDelayWrite v) s fun t => t.flag Reg.PERT_STATUS 0 = true ∧ sameRegsBut [Reg.PERT_STATUS] s t ∧
        t.pertDelay = s.pertDelay) ∧
    (s.pertAllowed = true →
      (completes (.pertDelayWrite v) s fun t =>
        (∀ c, Map.get 0 t.pertDelay c = if pertChannel c = true ∧ (c = s.fld Reg.PERT_CHSEL 11 0 ∨
          (s.flag Reg.PERT_CHSEL 12 = true ∧ c / 256 = s.fld Reg.PERT_CHSEL 11 0 / 256)) then v.toNat % 64 else Map.get 0 s.pertDelay c) ∧
        sameRegsBut [Reg.PERT_STATUS] s t ∧ t.mem = s.mem) ∧
      (completes (.pertWrite 1 v) s fun t => t.flag Reg.PERT_STATUS 0 = (s.flag Reg.PERT_STATUS 0 && !bitOf v.toNat 0) ∧
        sameRegsBut [Reg.PERT_STATUS] s t ∧ t.mem = s.mem) ∧
      ∀ x ∈ [((0 : BitVec 3), Reg.PERT_CTRL, (0xFFFFFFFF00000003 : Word)), (2, Reg.PERT_CHSEL, 0x1FFF), (4, Reg.PERT_BP, 0xFF7F),
          (5, Reg.PERT_HBM, 0x1FFF), (6, Reg.PERT_LINK, 0x3FF03FF)],
        completes (.pertWrite x.1 v) s fun t =>
          t.rd x.2.1 = (s.rd x.2.1 &&& ~~~ x.2.2) ||| (v &&& x.2.2) ∧ sameRegsBut [x.2.1, Reg.PERT_STATUS] s t ∧ t.mem = s.mem))

/-! ## The KV service (R191 to R195) -/

/-- KV_ADMIT of a sequence to a free slot between commands: it shares the pages that its prefix matches, whose REFS count it, takes
the pages that Ulnal allocates, and is answered how many tokens are shared; without pages enough, even after reclaiming, it changes
no table and is refused. KV_SEQUENCE_END frees the slot, drops the REFS of the nodes it shared and makes its row absent. Once a
command has ended, KV_INSERT_PAGES with every table intact and no page filled changes nothing; a filled first page that matches no
node becomes a node, and its entry read-only; a table that the job has written ends the job (R193 to R195). It rests on the model's
own readings in assumptions 38, 50. -/
def Obligations.KvServiceSequences : Prop :=
  ∀ (j : BitVec 4) (k slot : Nat) (s : State), s.jobRuns j.toNat = false →
    (∀ toks pages p, s.kvRec j.toNat k = some p → slot < p.slots → (∀ q ∈ (s.kvSet j.toNat k).seqs, q.slot ≠ slot) →
      let x := s.kvSet j.toNat k
      let sh := if p.shareable then (kvShared x.nodes toks p.perSeq 0 0 0).1 else []
      let x' := x.reclaim p.pages pages.length (sh.map (·.id)) x.nodes.length
      ((x'.free p.pages).length < pages.length → completes (.kvAdmit j k slot toks pages) s fun t =>
        t.out = .denied ∧ t.kv = s.kv ∧ t.regs = s.regs) ∧
      (pages.length ≤ (x'.free p.pages).length → (∀ x ∈ pages, x ∈ x'.free p.pages) → pages.Nodup →
        sh.length + pages.length ≤ p.perSeq →
        completes (.kvAdmit j k slot toks pages) s fun t => t.out = .ok (leBytes 8 (256 * sh.length)) ∧ t.regs = s.regs ∧
          (∃ q ∈ (t.kvSet j.toNat k).seqs, q.slot = slot ∧ q.toks = toks ∧
            q.nodes = sh.map (·.id) ++ List.replicate (p.perSeq - sh.length) 0 ∧
            q.pages = sh.map (fun n => some n.page) ++ pages.map some ++ List.replicate (p.perSeq - sh.length - pages.length) none) ∧
          (t.kvSet j.toNat k).nodes.map (fun n => (n.id, n.refs)) =
            x'.nodes.map fun n => (n.id, n.refs + if n.id ∈ sh.map (·.id) then 1 else 0))) ∧
    (∀ q p, ((s.kvSet j.toNat k).seqs.find? fun q => q.slot == slot) = some q → s.kvRec j.toNat k = some p →
      completes (.kvSequenceEnd j k slot) s fun t => (∀ q' ∈ (t.kvSet j.toNat k).seqs, q'.slot ≠ slot) ∧
        (t.kvSet j.toNat k).nodes = (s.kvSet j.toNat k).nodes.map (fun n => if n.id ∈ q.nodes then { n with refs := n.refs - 1 } else n) ∧
        (∀ i < q.pages.length, t.loadNat (s.kvKey j.toNat p slot i) 4 = kvAbsent) ∧ t.regs = s.regs ∧ t.faces = s.faces) ∧
    (∀ jb, s.job j.toNat = some jb →
      ((∀ p ∈ jb.img.pools.zipIdx, s.kvIntact j.toNat p.2 p.1 = true) →
        (∀ x ∈ s.kvPages j.toNat jb.img.pools, ∀ p, s.kvRec j.toNat x.1 = some p →
          s.kvFull j.toNat x.1 p x.2.1 x.2.2 = false) → exec (.kvInsertPages j []) s = .next s) ∧
      ((∃ p ∈ jb.img.pools.zipIdx, s.kvIntact j.toNat p.2 p.1 = false) → s.sound →
        completes (.kvInsertPages j []) s fun t => t.jobEnding j.toNat = true ∧ t.jobRuns j.toNat = false) ∧
      (∀ p q page rest, s.kvRec j.toNat k = some p → p.shareable = true →
        (∀ p ∈ jb.img.pools.zipIdx, s.kvIntact j.toNat p.2 p.1 = true) → s.kvPages j.toNat jb.img.pools = [(k, slot, 0)] →
        ((s.kvSet j.toNat k).seqs.find? fun q => q.slot == slot) = some q → q.pages = some page :: rest → page < 2 ^ 31 →
        256 ≤ q.toks.length → q.nodes.getD 0 0 = 0 → (s.kvSet j.toNat k).filled p.pools.length page = true →
        (kvLookup (s.kvSet j.toNat k).nodes 0 (kvHash 0 (pageToks q.toks 0)) (pageToks q.toks 0)).1 = none →
        completes (.kvInsertPages j []) s fun t =>
          t.loadNat (s.kvKey j.toNat p slot 0) 4 = page + 2 ^ 31 ∧ t.regs = s.regs ∧ t.faces = s.faces ∧
          ∃ n ∈ (t.kvSet j.toNat k).nodes, n.hash = kvHash 0 (pageToks q.toks 0) ∧ n.parent = 0 ∧ n.page = page ∧ n.refs = 1))
/-! ## Eflet (R410 to R427) -/

/-- A port: training with the peer that the topology predicts brings the link up, with another sets MISWIRED with event 24 + n;
frames are acknowledged, repeated, delivered in order, forwarded to another device or discarded; a due retrain and a failed lane retrain the port, and it is
down, with event 22 + n, where no half trains or a retrain takes 1 ms; EFL_CTRL sets EN (R411, R412, R415, R416, R427). Windows: an
open that passes the checks opens with the next GEN, one that fails reports its code, and a field changes only while the window is
closed; closing admits no new work and stays CLOSING while an accepted piece is left (R417, R423, R426). It rests on the model's own
readings in assumptions 59, 60. -/
def Obligations.EfletLinksAndWindows : Prop :=
  (∀ (n : Fin 2) (s : State),
    let p := s.port n
    (∀ dev ndev topo : BitVec 2, s.flag (Reg.EFL_CTRL n) 0 = true → s.flag (Reg.EFL_STATUS n) 4 = false → s.eflUp n = false →
      (s.eflPeer n = some dev.toNat ∧ ndev.toNat + 1 = s.eflDevs ∧ topo.toNat = s.eflTopo →
        completes (.eflTrain n dev ndev topo) s fun t => t.eflUp n = true ∧ t.flag (Reg.EFL_STATUS n) 3 = false ∧
          t.fld (Reg.EFL_STATUS n) 7 6 = dev.toNat ∧ t.raised = s.raised ∧ (t.port n).unacked = p.unacked ∧
          sameRegsBut [Reg.EFL_STATUS n, Reg.EFL_RETRY n] s t ∧ t.mem = s.mem) ∧
      (¬ (s.eflPeer n = some dev.toNat ∧ ndev.toNat + 1 = s.eflDevs ∧ topo.toNat = s.eflTopo) →
        completes (.eflTrain n dev ndev topo) s fun t => t.eflUp n = false ∧ t.flag (Reg.EFL_STATUS n) 5 = true ∧
          t.raised = s.raised ++ [24 + n.val] ∧ t.efl = s.efl ∧ sameRegsBut [Reg.EFL_STATUS n] s t ∧ t.mem = s.mem)) ∧
    (s.eflUp n = true →
      completes (.eflFrameRx n .bad) s (fun t => t.rd (Reg.EFL_CRCERR n) = Ctr.add (s.rd (Reg.EFL_CRCERR n)) 1 ∧
        t.port n = { p with naksOut := p.naksOut + 1 } ∧ sameRegsBut [Reg.EFL_CRCERR n] s t ∧ t.mem = s.mem) ∧
      (∀ seq, completes (.eflFrameRx n (.ack seq)) s fun t =>
        (t.port n).unacked = p.unacked.filter (fun x => decide (0 < (x.seq - seq).toInt)) ∧ t.regs = s.regs ∧ t.mem = s.mem) ∧
      (∀ seq, completes (.eflFrameRx n (.nak seq)) s fun t =>
        (t.port n).unacked = p.unacked.filter (fun x => decide (0 ≤ (x.seq - seq).toInt)) ∧
        t.rd (Reg.EFL_RETRY n) = Ctr.add (s.rd (Reg.EFL_RETRY n)) (t.port n).unacked.length ∧
        sameRegsBut [Reg.EFL_RETRY n] s t ∧ t.mem = s.mem) ∧
      (∀ x, x.typ ≠ 0 → x.seq = p.rxSeq → x.dst = s.eflMe → completes (.eflFrameRx n (.frame x)) s fun t =>
        (t.port n).inbox = p.inbox ++ [x] ∧ (t.port n).rxSeq = p.rxSeq + 1 ∧ (t.port n).naksOut = 0 ∧ t.regs = s.regs ∧
        t.mem = s.mem) ∧
      (∀ x, x.typ = 0 ∨ x.seq ≠ p.rxSeq → exec (.eflFrameRx n (.frame x)) s = .next s) ∧
      (∀ x, x.typ ≠ 0 → x.seq = p.rxSeq → x.dst ≠ s.eflMe →
        (s.eflRoom (1 - n.val) 1 = true → completes (.eflFrameRx n (.frame x)) s fun t =>
          (t.port n).rxSeq = p.rxSeq + 1 ∧ (t.port (1 - n.val)).unacked = (s.port (1 - n.val)).unacked ++
            [{ x with seq := (s.port (1 - n.val)).txSeq }] ∧ t.regs = s.regs ∧ t.mem = s.mem) ∧
        (s.eflRoom (1 - n.val) 1 = false → exec (.eflFrameRx n (.frame x)) s = .next s)) ∧
      (8 ≤ p.naksOut ∨ 8 ≤ p.naksIn ∨ (p.unacked ≠ [] ∧ p.since + 4000 ≤ s.raw) → completes (.eflRetrain n) s fun t =>
        t.eflUp n = false ∧ t.flag (Reg.EFL_STATUS n) 1 = true ∧ t.flag (Reg.EFL_STATUS n) 3 = true ∧
        (t.port n).unacked = p.unacked ∧ t.rd (Reg.EFL_RETRAINS n) = Ctr.add (s.rd (Reg.EFL_RETRAINS n)) 1 ∧
        sameRegsBut [Reg.EFL_STATUS n, Reg.EFL_RETRAINS n] s t ∧ t.mem = s.mem)) ∧
    (s.flag (Reg.EFL_CTRL n) 0 = true → s.flag (Reg.EFL_STATUS n) 4 = false →
      (∀ h, completes (.eflLaneFail n (some h)) s fun t => t.eflUp n = false ∧ t.flag (Reg.EFL_STATUS n) 2 = true ∧
        t.flag (Reg.EFL_STATUS n) 3 = true ∧ (t.port n).unacked = p.unacked ∧ t.raised = s.raised ∧ t.mem = s.mem) ∧
      completes (.eflLaneFail n none) s fun t => t.eflUp n = false ∧ t.flag (Reg.EFL_STATUS n) 4 = true ∧
        22 + n.val ∈ t.raised) ∧
    (s.flag (Reg.EFL_STATUS n) 3 = true → p.retrainAt + 1000000 ≤ s.raw → completes (.eflDown n) s fun t =>
      t.eflUp n = false ∧ t.flag (Reg.EFL_STATUS n) 4 = true ∧ t.flag (Reg.EFL_STATUS n) 3 = false ∧ 22 + n.val ∈ t.raised ∧
      ∀ j < 16, s.jobUsesPort j n = true → j ∈ t.safe.jobFaults) ∧
    ∀ v : Word, completes (.eflCtrlWrite n v) s fun t => t.flag (Reg.EFL_CTRL n) 0 = bitOf v.toNat 0 ∧
      (bitOf v.toNat 0 = false → t.eflUp n = false) ∧
      (bitOf v.toNat 0 = true → s.flag (Reg.EFL_CTRL n) 0 = false → t.flag (Reg.EFL_STATUS n) 4 = false) ∧ t.mem = s.mem ∧
      t.raised = s.raised) ∧
  (∀ (i : BitVec 6) (s : State),
    let r := Reg.WINA i.toNat
    (∀ v : Word, s.flag r 63 = false → s.flag r 62 = false →
      let s1 := (s.setFld r 61 56 (bits v.toNat 61 56)).setFld r 47 12 (bits v.toNat 47 12)
      (s1.winOpenErr i.toNat = 0 → completes (.eflWinOpen i v) s fun t => t.flag r 63 = true ∧
        t.fld r 55 48 = (s.fld r 55 48 + 1) % 256 ∧ t.fld r 61 56 = bits v.toNat 61 56 ∧ t.fld r 47 12 = bits v.toNat 47 12 ∧
        sameRegsBut [r] s t ∧ t.mem = s.mem) ∧
      (s1.winOpenErr i.toNat ≠ 0 → completes (.eflWinOpen i v) s fun t => t.flag r 63 = false ∧ t.fld r 55 48 = s.fld r 55 48 ∧
        t.fld Reg.EFL_WERR 7 0 = s1.winOpenErr i.toNat ∧ t.fld Reg.EFL_WERR 13 8 = i.toNat ∧
        sameRegsBut [r, Reg.EFL_WERR] s t ∧ t.mem = s.mem)) ∧
    (∀ v : Word, s.flag r 63 = false → s.flag r 62 = true → completes (.eflWinOpen i v) s fun t =>
      t.fld Reg.EFL_WERR 7 0 = 5 ∧ t.fld Reg.EFL_WERR 13 8 = i.toNat ∧ sameRegsBut [Reg.EFL_WERR] s t ∧ t.mem = s.mem) ∧
    (∀ v : Word, s.flag r 63 = true →
      (winaFields v.toNat = winaFields (s.rd r).toNat → exec (.eflWinOpen i v) s = .next s) ∧
      (winaFields v.toNat ≠ winaFields (s.rd r).toNat → completes (.eflWinOpen i v) s fun t =>
        t.fld Reg.EFL_WERR 7 0 = 5 ∧ t.fld Reg.EFL_WERR 13 8 = i.toNat ∧ sameRegsBut [Reg.EFL_WERR] s t ∧ t.mem = s.mem)) ∧
    (s.flag r 63 = true → completes (.eflWinClose i) s fun t => t.flag r 63 = false ∧ t.flag r 62 = s.eflOpenPieces i.toNat ∧
      t.fld r 61 0 = s.fld r 61 0 ∧ sameRegsBut [r] s t ∧ t.mem = s.mem) ∧
    (s.flag r 62 = true → s.eflOpenPieces i.toNat = false → completes (.eflWinCloseDone i) s fun t => t.flag r 62 = false ∧
      t.fld r 61 0 = s.fld r 61 0 ∧ t.fld r 63 63 = s.fld r 63 63 ∧ sameRegsBut [r] s t ∧ t.mem = s.mem))

/-- The target of a transfer: a put piece is checked at its first frame; the frames of one that the window admits land at the window's
base plus OFFSET, one that it does not admit is refused and counted; its last frame is answered with its status. An INC sends the window's routed
increment; a get piece is answered with the window's bytes. Each answer goes back through the port (R419 to R421, R423). The
requester of a transfer: a piece starts with one credit of its partition's pool; an acknowledgement returns the credit and counts
the piece as answered, the last one of a put sends its INC; get data land at the piece's key; a refusal raises STORE_ACCESS and an
error MEM_ERROR in the MOV (R419 to R422). It rests on the model's own readings in assumptions 59 to 61. -/
def Obligations.EfletTransfers : Prop :=
  (∀ (n : Fin 2) (x : EflFrame) (rest : List EflFrame) (s : State), (s.port n).inbox = x :: rest →
    let sent := fun (l : List EflFrame) (t : State) => (t.port n).inbox = rest ∧
      ((t.port n).unacked.drop (s.port n).unacked.length).map (fun y => (y.typ, y.dst, y.tag, y.status)) =
        l.map (fun y => (y.typ, y.dst, y.tag, y.status)) ∧
      ((t.port n).unacked.drop (s.port n).unacked.length).flatMap (fun y => y.data) = l.flatMap (fun y => y.data)
    let a := s.winBase x.win + x.offset
    (∀ len : Nat, x.typ = 1 → (x.last = true → s.eflRoom n 1 = true) →
      let known := s.efl.accepted.find? fun p => p.port == n.val && p.src == x.src && p.tag == x.tag
      let status := (known.map (·.status)).getD (s.winCheck x 0 len)
      completes (.eflPieceReceive n len) s fun t =>
        (status = 0 → t.load a x.data.length = x.data ∧ sameMemBut [(a, x.data.length)] s t) ∧ (status ≠ 0 → t.mem = s.mem) ∧
        (x.last = true → sent [s.eflFrame 4 x.src x.win x.gen x.tag status] t ∧
          ∀ p ∈ t.efl.accepted, ¬ (p.port = n.val ∧ p.src = x.src ∧ p.tag = x.tag)) ∧
        (x.last = false → sent [] t ∧ t.efl.accepted = s.efl.accepted ++
          if known = none then [⟨n.val, x.src, x.tag, x.win, status⟩] else []) ∧
        t.rd (Reg.EFL_REFUSED n) = Ctr.add (s.rd (Reg.EFL_REFUSED n)) (if known = none ∧ status ≠ 0 then 1 else 0) ∧
        sameRegsBut [Reg.EFL_REFUSED n] s t) ∧
    (x.typ = 5 → s.eflRoom n 1 = true →
      (s.winCheck x 0 0 = 0 → completes (.inc n) s fun t => sent [s.eflFrame 4 x.src x.win x.gen x.tag 0] t ∧
        t.inFlight = s.inFlight ++ (if s.flag (Reg.WINB x.win) 59 then
          [⟨s.fld (Reg.WINA x.win) 59 56, s.fld (Reg.WINB x.win) 58 56, s.fld (Reg.WINB x.win) 55 52, 1⟩] else []) ∧
        t.mem = s.mem ∧ t.regs = s.regs) ∧
      (s.winCheck x 0 0 ≠ 0 → completes (.inc n) s fun t => t.inFlight = s.inFlight ∧
        sent [s.eflFrame 4 x.src x.win x.gen x.tag (s.winCheck x 0 0)] t ∧
        t.rd (Reg.EFL_REFUSED n) = Ctr.add (s.rd (Reg.EFL_REFUSED n)) 1 ∧ t.mem = s.mem)) ∧
    (x.typ = 2 → s.winCheck x 1 (64 * x.plen) = 0 →
      (s.eflRoom n (framesOf x x.offset (s.load a (64 * x.plen))).length = true → completes (.getreq n false) s fun t =>
        (t.port n).inbox = rest ∧ t.mem = s.mem ∧ t.regs = s.regs ∧
        ((t.port n).unacked.drop (s.port n).unacked.length).flatMap (fun y => y.data) = s.load a (64 * x.plen)) ∧
      (s.eflRoom n 1 = true → completes (.getreq n true) s fun t =>
        sent [s.eflFrame 3 x.src x.win x.gen x.tag 4] t ∧ t.mem = s.mem ∧ t.regs = s.regs)) ∧
    (∀ bad, x.typ = 2 → s.winCheck x 1 (64 * x.plen) ≠ 0 → s.eflRoom n 1 = true → completes (.getreq n bad) s fun t =>
      sent [s.eflFrame 3 x.src x.win x.gen x.tag (s.winCheck x 1 (64 * x.plen))] t ∧ t.mem = s.mem ∧
      t.rd (Reg.EFL_REFUSED n) = Ctr.add (s.rd (Reg.EFL_REFUSED n)) 1)) ∧
  ((∀ (f : Fin 6) (e : Entry) (win : BitVec 6) (gen : BitVec 8) (x : EflXfer) (k len : Nat) (more : List (Nat × Nat)) (s : State),
    let n := s.pieceThrough x
    let part := s.partOf (s.face f).job
    s.xferOf f e.seq = some x → ((s.face f).window.find? fun y => y.seq == e.seq) = some e → x.waiting = (k, len) :: more →
    s.eflRoom n (if x.put then (len + 511) / 512 else 1) = true → Map.get 0 s.efl.used (8 * n + part) < s.creditPool part n →
    0 < s.fld (Reg.EFL_CREDIT n) 7 0 → completes (.eflPutPiece f e.seq win gen) s fun t =>
      t.fld (Reg.EFL_CREDIT n) 7 0 + 1 = s.fld (Reg.EFL_CREDIT n) 7 0 ∧
      Map.get 0 t.efl.used (8 * n + part) = Map.get 0 s.efl.used (8 * n + part) + 1 ∧
      t.efl.flights.length = s.efl.flights.length + 1 ∧
      (t.port n).unacked.length = (s.port n).unacked.length + (if x.put then (len + 511) / 512 else 1) ∧
      sameRegsBut [Reg.EFL_CREDIT n] s t ∧ t.mem = s.mem ∧ t.faces = s.faces) ∧
  ∀ (n : Fin 2) (a : EflFrame) (rest : List EflFrame) (x : EflFlight) (s : State), (s.port n).inbox = a :: rest →
    s.flightOf n a.tag = some x →
    let gone := fun t : State => (t.port n).inbox = rest ∧
      t.efl.flights = s.efl.flights.filter fun y => !(y.port == x.port && y.tag == x.tag)
    (a.typ = 4 → a.status = 0 → x.typ = 1 → s.fld (Reg.EFL_CREDIT n) 7 0 < 255 → ∀ y, s.xferOf x.face x.seq = some y →
      (¬ (y.put = true ∧ y.waiting = [] ∧ y.unanswered ≤ 1 ∧ y.inc = 0) → completes (.ackc n) s fun t =>
        gone t ∧ t.xferOf x.face x.seq = some { y with unanswered := y.unanswered - 1 } ∧
        t.fld (Reg.EFL_CREDIT n) 7 0 = s.fld (Reg.EFL_CREDIT n) 7 0 + 1 ∧ t.mem = s.mem ∧ sameRegsBut [Reg.EFL_CREDIT n] s t) ∧
      (y.put = true → y.waiting = [] → y.unanswered = 1 → y.inc = 0 → completes (.ackc n) s fun t =>
        t.xferOf x.face x.seq = some { y with unanswered := 0, inc := 1 } ∧
        (∃ fl ∈ t.efl.flights, fl.typ = 5 ∧ fl.face = x.face ∧ fl.seq = x.seq) ∧
        t.fld (Reg.EFL_CREDIT n) 7 0 = s.fld (Reg.EFL_CREDIT n) 7 0 + 1 ∧ t.mem = s.mem)) ∧
    (a.typ = 4 → a.status = 0 → x.typ = 5 → completes (.ackc n) s fun t => gone t ∧
      (∀ y, s.xferOf x.face x.seq = some y → t.xferOf x.face x.seq = some { y with inc := 2 }) ∧ t.mem = s.mem ∧ t.regs = s.regs) ∧
    (a.typ = 3 → a.status = 0 → a.last = false → completes (.getrsp n) s fun t => (t.port n).inbox = rest ∧
      t.load (x.key + (a.offset - x.off)) a.data.length = a.data ∧ t.efl.flights = s.efl.flights ∧ t.efl.xfers = s.efl.xfers ∧
      sameMemBut [(x.key + (a.offset - x.off), a.data.length)] s t ∧ t.regs = s.regs ∧ t.faces = s.faces) ∧
    (a.typ = 3 → a.status = 0 → x.typ = 2 → a.last = true → completes (.getrsp n) s fun t => gone t ∧
      t.load (x.key + (a.offset - x.off)) a.data.length = a.data ∧
      sameMemBut [(x.key + (a.offset - x.off), a.data.length)] s t ∧ t.faces = s.faces ∧
      ∀ y, s.xferOf x.face x.seq = some y → t.xferOf x.face x.seq = some { y with unanswered := y.unanswered - 1 }) ∧
    (a.status ≠ 0 → (s.xferOf x.face x.seq).isSome = true → x.face < 6 → s.sound → s.flag (Reg.FACE_EXC x.face) 63 = false →
      ∀ e, ((s.face x.face).window.find? fun e => e.seq == x.seq) = some e →
      let raised := fun (code : Nat) (t : State) => t.flag (Reg.FACE_EXC x.face) 63 = true ∧
        t.fld (Reg.FACE_EXC x.face) 55 48 = code ∧ t.fld (Reg.FACE_EXC x.face) 31 0 = e.pc % 2 ^ 32 ∧
        (t.face x.face).running = false ∧ (t.face x.face).window = []
      (a.typ = 4 → completes (.ackc n) s (raised 0x0A)) ∧
      (a.typ = 3 → completes (.getrsp n) s (raised (if a.status = 4 then 0x0E else 0x0A)))))

/-! ## Time (R342 to R363) -/

/-- A rate is applied at the present raw count, clamped, unless discipline owns it; a step in range moves time of day and one out of
range only sets its flag; PSEQ counts each change; the mailbox does the same for a request and answers it once (R346, R347, R349). A
read of the first word of a time answers with it and latches the words that follow for the reader, and no other reader's latches,
register or byte changes (R348). PPS_IN: a pulse under 100 ns changes nothing; in TRACK the edge of the other kind changes nothing,
an edge about a second after the last accepted one is captured with event 131 and counted, another one is counted as rejected;
outside TRACK a fixed polarity tracks at once, and without one detection goes on, until it tracks too; 1.5 s without an accepted edge is LOST with event
132; a failed TCXO sets its flag with event 133 and is a Home fault (R351 to R356, R363, R453). It rests on the model's own readings
in assumption 62. -/
def Obligations.TimeOfDayIsSetAndRead : Prop :=
  (∀ (s : State),
    (∀ (p : Fin 2) (v : BitVec 32),
      let rho := signed 48 (v.toNat + Map.get 0 s.time.rhoH p * 2 ^ 32)
      (s.rateOwned = true → completes (.timeRateWrite p v) s fun t => t.time = s.time ∧ t.flag Reg.TIME_STATUS 28 = true ∧
        sameRegsBut [Reg.TIME_STATUS] s t) ∧
      (s.rateOwned = false → completes (.timeRateWrite p v) s fun t => t.time.rho = max (-rhoMax) (min rhoMax rho) ∧
        t.time.ra = s.raw ∧ t.timeOf s.raw = s.timeOf s.raw ∧ (rho < -rhoMax ∨ rhoMax < rho → t.flag Reg.TIME_STATUS 30 = true) ∧
        t.fld Reg.TIME_STATUS 15 0 = (s.fld Reg.TIME_STATUS 15 0 + 1) % 2 ^ 16 ∧ sameRegsBut [Reg.TIME_STATUS] s t ∧
        t.mem = s.mem)) ∧
    (∀ v : BitVec 32,
      let d := signed 64 (v.toNat + s.time.stepH * 2 ^ 32) * 2 ^ 16 + s.time.stepF
      (s.stepOk d = true → completes (.timeStepWrite v) s fun t => (t.timeOf s.raw : Int) = s.timeOf s.raw + d ∧
        t.time.rho = s.time.rho ∧ t.fld Reg.TIME_STATUS 15 0 = (s.fld Reg.TIME_STATUS 15 0 + 1) % 2 ^ 16 ∧
        sameRegsBut [Reg.TIME_STATUS] s t ∧ t.mem = s.mem) ∧
      (s.stepOk d = false → completes (.timeStepWrite v) s fun t => t.time = s.time ∧ t.flag Reg.TIME_STATUS 29 = true ∧
        t.fld Reg.TIME_STATUS 15 0 = s.fld Reg.TIME_STATUS 15 0 ∧ sameRegsBut [Reg.TIME_STATUS] s t)) ∧
    (s.loadNat timeMbox 4 ≠ s.loadNat (timeMbox + 24) 4 → completes .timeMailboxRequest s fun t =>
      t.loadNat (timeMbox + 24) 4 = s.loadNat timeMbox 4 ∧ t.loadNat (timeMbox + 28) 1 = s.mboxServe.2 % 256 ∧
      sameMemBut [(timeMbox + 24, 5)] s t ∧ t.time = s.mboxServe.1.time ∧ sameRegsBut [Reg.TIME_STATUS] s t) ∧
    (s.loadNat timeMbox 4 = s.loadNat (timeMbox + 24) 4 → exec .timeMailboxRequest s = .next s)) ∧
  (∀ (p : Fin 2) (q : BitVec 4) (s : State),
    let now := stampOf (s.timeOf s.raw)
    let quietly := fun t : State => t.regs = s.regs ∧ t.mem = s.mem ∧ t.raw = s.raw
    completes (.timeRawRead p) s (fun t => t.out = .ok (leBytes 4 s.raw) ∧ Map.get 0 t.time.rawHi p = s.raw / 2 ^ 32 % 2 ^ 32 ∧
      (∀ k, k ≠ p.val → Map.get 0 t.time.rawHi k = Map.get 0 s.time.rawHi k) ∧ quietly t) ∧
    completes (.timeNowRead p) s (fun t => t.out = .ok (leBytes 4 now) ∧ Map.get 0 t.time.now1 p = now / 2 ^ 32 % 2 ^ 32 ∧
      Map.get 0 t.time.now2 p = now / 2 ^ 64 ∧ (∀ k, k ≠ p.val → Map.get 0 t.time.now1 k = Map.get 0 s.time.now1 k) ∧ quietly t) ∧
    completes (.timemNowRead q) s (fun t => t.out = .ok (leBytes 8 now) ∧ Map.get 0 t.time.memNow1 q.toNat = now / 2 ^ 64 ∧
      (∀ k, k ≠ q.toNat → Map.get 0 t.time.memNow1 k = Map.get 0 s.time.memNow1 k) ∧ quietly t) ∧
    completes .timemRaRead s (fun t => t.out = .ok (leBytes 8 s.time.ra) ∧ t.time.memTa = s.time.ta ∧ t.time.memRho = s.time.rho ∧
      t.time.memPseq = s.fld Reg.TIME_STATUS 15 0 ∧ t.time.ta = s.time.ta ∧ quietly t)) ∧
  (∀ (rising : Bool) (pulse : Nat) (s : State),
    (pulse < 100 → exec (.ppsEdge rising pulse) s = .next s) ∧
    (100 ≤ pulse → s.ppsState = 2 → (if rising then 0 else 1) ≠ s.fld Reg.PPS_STATUS 29 29 →
      exec (.ppsEdge rising pulse) s = .next s) ∧
    (100 ≤ pulse → s.ppsState = 2 → (if rising then 0 else 1) = s.fld Reg.PPS_STATUS 29 29 →
      (s.time.pps.first = true ∨ aboutSecond ((s.raw : Int) - s.time.pps.last) = true → completes (.ppsEdge rising pulse) s fun t =>
        t.rd Reg.PPS_CAPLO = BitVec.ofNat 64 (s.raw % 2 ^ 32) ∧ t.time.pps.cap = s.raw ∧
        t.raised = s.raised ++ [131] ∧ t.fld Reg.PPS_EDGES 31 0 = (s.fld Reg.PPS_EDGES 31 0 + 1) % 2 ^ 32 ∧
        t.time.pps.last = s.raw ∧ t.time.pps.first = false ∧
        sameRegsBut [Reg.PPS_CAPLO, Reg.PPS_ERR, Reg.PPS_EDGES, Reg.TIME_STATUS] s t ∧ t.mem = s.mem) ∧
      (s.time.pps.first = false → aboutSecond ((s.raw : Int) - s.time.pps.last) = false → completes (.ppsEdge rising pulse) s fun t =>
        t.fld Reg.PPS_STATUS 15 0 = min 65535 (s.fld Reg.PPS_STATUS 15 0 + 1) ∧ t.time = s.time ∧ t.raised = s.raised ∧
        sameRegsBut [Reg.PPS_STATUS] s t)) ∧
    (100 ≤ pulse → s.ppsState ≠ 2 →
      (s.fld Reg.PPS_CTRL 3 2 = 1 ∨ s.fld Reg.PPS_CTRL 3 2 = 2 → completes (.ppsEdge rising pulse) s fun t => t.ppsState = 2 ∧
        t.fld Reg.PPS_STATUS 29 29 = s.fld Reg.PPS_CTRL 3 2 - 1 ∧ t.mem = s.mem) ∧
      (s.fld Reg.PPS_CTRL 3 2 ≠ 1 → s.fld Reg.PPS_CTRL 3 2 ≠ 2 → completes (.ppsEdge rising pulse) s fun t =>
        (t.ppsState = 1 ∨ t.ppsState = 2) ∧ (t.ppsState = 1 → t.raised = s.raised ∧ sameRegsBut [Reg.PPS_STATUS] s t) ∧
        t.mem = s.mem)) ∧
    (s.ppsState = 2 → s.time.pps.last + 1500000000 ≤ s.raw → completes .ppsLost s fun t => t.ppsState = 3 ∧
      t.raised = s.raised ++ [132] ∧ t.time.rho = s.time.rho ∧ sameRegsBut [Reg.PPS_STATUS] s t ∧ t.mem = s.mem) ∧
    (s.flag Reg.TIME_STATUS 31 = false → completes .tcxoFail s fun t => t.flag Reg.TIME_STATUS 31 = true ∧ 133 ∈ t.raised ∧
      homeFault 0x24 s t))

/-! ## Camera ports (R367 to R373) -/

/-- A camera frame: where one stream is on the channel and no frame is open, a frame start opens the frame of an owned, valid
descriptor; without an owned one it is counted, and an invalid one is handed back with BADDESC; streams whose descriptors are all good
open together. A frame start on an open frame closes that with NO_FE. A line of the stream is written at its place in the buffer, cut
at LINE_BYTES, or dropped and counted. A frame end, a timeout and a lost lane synchronisation close the open frame: bytes 0 to 15 of
the status, OWN cleared, NEXT and CLOSED advanced, event 32 + p. CSI_STAMP writes the stamps of a closed frame and raises the granted
source; where it makes room, it hands the next descriptor of a ring with no free one back to the port and counts the overwrite in the
job's record (R34, R359, R368 to R372). CSI_RCTL, lane synchronisation. Ethernet: the oldest time stamp is latched by its first word
and removed by its second; a due gate cycle starts at a point of the grid of BASE and takes the list that waits; a link change is
shown and raises 28 + n (R373, R378). It rests on the model's own readings in assumptions 63, 64, 127. -/
def Obligations.CamerasAndEthernetControls : Prop :=
  (∀ (p : Fin 12) (vc : BitVec 4) (f : Nat) (s : State), f < 4 →
    let r := Reg.CSI_RCTL p f
    let a := s.csiDesc p f
    let owned := s.loadNat (devKey a + 24) 1 % 2 = 1
    (s.csiRuns p = true → s.csiOn p vc.toNat = [] → ∀ fnum,
      let unsel := fun t : State => t.rd (Reg.CSI_UNSEL p) = Ctr.add (s.rd (Reg.CSI_UNSEL p)) 1 ∧
        sameRegsBut [Reg.CSI_UNSEL p] s t ∧ t.mem = s.mem
      completes (.csiFrameStart p vc fnum) s unsel ∧ completes (.csiFrameEnd p vc) s unsel) ∧
    (s.csiRuns p = true → s.csiOn p vc.toNat = [f] → (s.csi p f).frame = none → ∀ fnum : BitVec 16,
      (s.served a 32 = false ∨ ¬ owned → completes (.csiFrameStart p vc fnum) s fun t => (t.csi p f).frame = none ∧
        t.rd (Reg.CSI_NOBUF p) = Ctr.add (s.rd (Reg.CSI_NOBUF p)) 1 ∧ sameRegsBut [Reg.CSI_NOBUF p] s t ∧ t.mem = s.mem) ∧
      (s.served a 32 = true → s.served (a + 24) 1 = true → owned → s.csiRead a vc.toNat fnum.toNat ((s.csi p f).opened + 1) = none →
        completes (.csiFrameStart p vc fnum) s fun t => (t.csi p f).frame = none ∧ t.loadByte (devKey (a + 24)) = 0 ∧
          t.flag (Reg.CSI_STATUS p) 2 = true ∧ t.rd (Reg.CSI_NOBUF p) = Ctr.add (s.rd (Reg.CSI_NOBUF p)) 1 ∧
          sameRegsBut [Reg.CSI_NOBUF p, Reg.CSI_STATUS p] s t ∧ sameMemBut [(devKey (a + 24), 1)] s t)) ∧
    (s.csiRuns p = true → ∀ fnum : BitVec 16, f ∈ s.csiOn p vc.toNat →
      (∀ k ∈ s.csiOn p vc.toNat, (s.csi p k).frame = none ∧ s.served (s.csiDesc p k) 32 = true ∧
        s.loadNat (devKey (s.csiDesc p k) + 24) 1 % 2 = 1 ∧
        (s.csiRead (s.csiDesc p k) vc.toNat fnum.toNat ((s.csi p k).opened + 1)).isSome = true) →
      completes (.csiFrameStart p vc fnum) s fun t => t.regs = s.regs ∧ t.mem = s.mem ∧
        (t.csi p f).opened = (s.csi p f).opened + 1 ∧ ∃ g, (t.csi p f).frame = some g ∧ g.desc = a ∧
          g.data = s.loadNat (devKey a) 8 ∧ g.stride = s.loadNat (devKey a + 8) 4 ∧ g.lineBytes = s.loadNat (devKey a + 12) 2 ∧
          g.maxLines = s.loadNat (devKey a + 14) 2 ∧ g.status = s.loadNat (devKey a + 16) 8 ∧
          g.seq = (s.csi p f).opened + 1 ∧ g.vc = vc.toNat ∧ g.dt = s.fld (Reg.CSI_STREAM p f) 5 0 ∧ g.fnum = fnum.toNat ∧
          g.lines = 0 ∧ g.dropped = 0 ∧ g.crcErr = 0 ∧ g.flags = 0) ∧
    (∀ (dt : BitVec 6) (bs : List Byte) (lost bad fixed : Bool), s.csiRuns p = true →
      (((s.csiOn p vc.toNat).find? fun f => s.fld (Reg.CSI_STREAM p f) 5 0 == dt.toNat) = none →
        completes (.csiLine p vc dt bs lost bad fixed) s fun t => t.rd (Reg.CSI_UNSEL p) = Ctr.add (s.rd (Reg.CSI_UNSEL p)) 1 ∧
          sameRegsBut [Reg.CSI_UNSEL p] s t ∧ t.mem = s.mem) ∧
      (((s.csiOn p vc.toNat).find? fun f => s.fld (Reg.CSI_STREAM p f) 5 0 == dt.toNat) = some f →
        ((s.csi p f).frame = none → exec (.csiLine p vc dt bs lost bad fixed) s = .next s) ∧
        ∀ g, (s.csi p f).frame = some g →
          let n := min g.lineBytes bs.length
          let line := g.data + g.met * g.stride
          (lost = false → g.met < g.maxLines → s.served line n = true → completes (.csiLine p vc dt bs lost bad fixed) s fun t =>
            t.load (devKey line) n = bs.take g.lineBytes ∧ sameMemBut [(devKey line, n)] s t ∧
            t.rd (Reg.CSI_CRCERR p) = Ctr.add (s.rd (Reg.CSI_CRCERR p)) (if bad then 1 else 0) ∧
            sameRegsBut [Reg.CSI_CRCERR p] s t ∧ (t.csi p f).frame = some { g with
              met := g.met + 1, lines := g.lines + 1, crcErr := g.crcErr + (if bad then 1 else 0), lastAt := s.raw
              flags := g.flags ||| (if g.lineBytes < bs.length then 2 else 0) ||| (if fixed then 8 else 0) }) ∧
          (lost = true ∨ g.maxLines ≤ g.met → completes (.csiLine p vc dt bs lost bad fixed) s fun t =>
            t.rd (Reg.CSI_DROP p) = Ctr.add (s.rd (Reg.CSI_DROP p)) 1 ∧ sameRegsBut [Reg.CSI_DROP p] s t ∧ t.mem = s.mem ∧
            (t.csi p f).frame = some { g with
              met := g.met + 1, dropped := g.dropped + 1, lastAt := s.raw
              flags := g.flags ||| (if g.maxLines ≤ g.met then 4 else 0) ||| (if fixed then 8 else 0) }))) ∧
    (∀ g, (s.csi p f).frame = some g → s.served g.status 16 = true → s.served (g.desc + 24) 1 = true →
      devKey (g.desc + 24) < devKey g.status ∨ devKey g.status + 16 ≤ devKey (g.desc + 24) →
      let closed := fun (extra dropped : Nat) (t : State) => t.loadByte (devKey (g.desc + 24)) = 0 ∧
        t.load (devKey g.status) 16 = leBytes 4 g.seq ++ leBytes 1 g.vc ++ leBytes 1 g.dt ++ leBytes 2 g.fnum ++ leBytes 2 g.lines ++
          leBytes 2 dropped ++ leBytes 2 (min 65535 g.crcErr) ++ leBytes 1 (g.flags ||| extra) ++ leBytes 1 0 ∧
        t.fld r 10 8 = (s.fld r 10 8 + 1) % (s.fld r 2 0 + 1) ∧ t.fld r 23 16 = (s.fld r 23 16 + 1) % 256 ∧
        t.raised = s.raised ++ [32 + p.val]
      let mems := [(devKey g.status, 16), (devKey (g.desc + 24), 1)]
      (s.csiRuns p = true → s.csiOn p vc.toNat = [f] → completes (.csiFrameEnd p vc) s fun t => closed 0 g.dropped t ∧
        (t.csi p f).frame = none ∧ (t.csi p f).unstamped = (s.csi p f).unstamped ++ [(g.status, g.startAt, s.raw)] ∧
        sameRegsBut [r] s t ∧ sameMemBut mems s t) ∧
      (∀ q : Fin 4, q = f → g.lastAt + 1000 * s.fld (Reg.CSI_CTRL p) 63 32 ≤ s.raw → completes (.csiFrameTimeout p q) s fun t =>
        closed 1 g.dropped t ∧ (t.csi p f).frame = none ∧
        (t.csi p f).unstamped = (s.csi p f).unstamped ++ [(g.status, g.startAt, 0)] ∧ sameRegsBut [r] s t ∧ sameMemBut mems s t) ∧
      (∀ rest, s.csiRuns p = true → (∀ k < 4, k ≠ f → (s.csi p k).frame = none) → completes (.csiSyncLost p rest) s fun t =>
        closed 1 (g.dropped + rest) t ∧ t.rd (Reg.CSI_DROP p) = Ctr.add (s.rd (Reg.CSI_DROP p)) rest ∧
        sameRegsBut [r, Reg.CSI_DROP p, Reg.CSI_STATUS p] s t ∧ sameMemBut mems s t) ∧
      ∀ fnum, s.csiRuns p = true → s.csiOn p vc.toNat = [f] →
        let next := s.fld (Reg.CSI_RBASE p f) 47 5 * 32 + 32 * ((s.fld r 10 8 + 1) % (s.fld r 2 0 + 1))
        devKey (next + 24) < devKey g.status ∨ devKey g.status + 16 ≤ devKey (next + 24) →
        completes (.csiFrameStart p vc fnum) s fun t => closed 1 g.dropped t ∧
          ((t.csi p f).frame = none ∨ ∃ g', (t.csi p f).frame = some g' ∧ g'.desc = next ∧ g'.fnum = fnum.toNat) ∧
          sameRegsBut [r, Reg.CSI_NOBUF p, Reg.CSI_STATUS p] s t ∧ sameMemBut ((devKey (next + 24), 1) :: mems) s t) ∧
    ∀ rest, s.csiRuns p = true → completes (.csiSyncLost p rest) s fun t => t.flag (Reg.CSI_STATUS p) 0 = false ∧
      t.flag (Reg.CSI_STATUS p) 1 = true ∧ ∀ k < 4, (t.csi p k).frame = none) ∧
  (∀ (p : Fin 12) (f : Fin 4) (v : Word) (s : State),
    (s.flag (Reg.CSI_CTRL p) 0 = true → completes (.csiLaneSync p) s fun t => t.flag (Reg.CSI_STATUS p) 0 = true ∧
      sameRegsBut [Reg.CSI_STATUS p] s t ∧ t.mem = s.mem) ∧
    (s.flag (Reg.CSI_STREAM p f) 15 = true → exec (.csiRctlWrite p f v) s = .next s) ∧
    (s.flag (Reg.CSI_STREAM p f) 15 = false → completes (.csiRctlWrite p f v) s fun t =>
      t.fld (Reg.CSI_RCTL p f) 2 0 = bits v.toNat 2 0 ∧ t.fld (Reg.CSI_RCTL p f) 10 8 = 0 ∧
      sameRegsBut [Reg.CSI_RCTL p f] s t ∧ t.mem = s.mem) ∧
    (∀ (a x y : Nat) (rest : List (Nat × Nat × Nat)) (fs fe : Word) (k : BitVec 9),
      (s.csi p f).unstamped = (a, x, y) :: rest → 256 ≤ k.toNat → s.flag (Reg.EVT_SRC k.toNat) 48 = true → s.gateDown = false →
      s.stampOk x fs.toNat = true → y = 0 ∨ s.stampOk y fe.toNat = true → s.served (a + 16) 16 = true → ∃ u,
        exec (.csiStamp p f ⟨fs, fe⟩ k false) s = .next u ∧ u.loadNat (devKey (a + 16)) 8 = fs.toNat ∧
        u.loadNat (devKey (a + 16) + 8) 8 = fe.toNat ∧ (u.csi p f).unstamped = rest ∧ u.raised = s.raised ++ [k.toNat] ∧
        sameMemBut [(devKey (a + 16), 16)] s u ∧ u.regs = s.regs ∧
        exec (.csiStamp p f ⟨fs, fe⟩ k true) s = .next (u.csiOverwrite p f (s.fld (Reg.EVT_SRC k.toNat) 47 44))) ∧
    ∀ j < 16,
      let d := s.csiDesc p f
      let owned := ∃ i ≤ s.fld (Reg.CSI_RCTL p f) 2 0, s.loadNat (devKey (s.fld (Reg.CSI_RBASE p f) 47 5 * 32 + 32 * i) + 24) 1 % 2 = 1
      let passed := s.pipReads (s.loadNat (devKey d) 8) (s.loadNat (devKey d + 8) 4 * s.loadNat (devKey d + 14) 2)
      let key := devKey (0x7F80020000 + j * 0x400 + 0x28)
      (owned ∨ (s.csi p f).frame.isSome = true ∨ passed = true → s.csiOverwrite p f j = s) ∧
      (¬ owned → (s.csi p f).frame = none → passed = false → s.served d 32 = true → s.served (d + 24) 1 = true →
        s.pwr.vhomeOut = false → devKey (d + 24) < key ∨ key + 8 ≤ devKey (d + 24) →
        (s.csiOverwrite p f j).loadByte (devKey (d + 24)) = 1 ∧
        (s.csiOverwrite p f j).loadNat key 8 = min (2 ^ 64 - 1) (s.loadNat key 8 + 1) ∧
        sameMemBut [(devKey (d + 24), 1), (key, 8)] s (s.csiOverwrite p f j) ∧ (s.csiOverwrite p f j).regs = s.regs)) ∧
  ∀ (n : BitVec 2) (tx : Bool) (s : State),
    let e := s.eth n.toNat
    (∀ x rest, (if tx then e.tx else e.rx) = x :: rest → completes (.ethTsRead0 n tx) s fun t => t.out = .ok (leBytes 8 x.raw) ∧
      (if tx then (t.eth n.toNat).txLatch else (t.eth n.toNat).rxLatch) = some x ∧ (t.eth n.toNat).tx = e.tx ∧
      (t.eth n.toNat).rx = e.rx ∧ t.regs = s.regs ∧ t.mem = s.mem) ∧
    ((if tx then e.tx else e.rx) = [] → completes (.ethTsRead0 n tx) s fun t => t.out = .ok (leBytes 8 0) ∧
      (if tx then (t.eth n.toNat).txLatch else (t.eth n.toNat).rxLatch) = none ∧ t.regs = s.regs ∧ t.mem = s.mem) ∧
    (∀ x rest, (if tx then e.tx else e.rx) = x :: rest → (if tx then e.txLatch else e.rxLatch) = some x →
      completes (.ethTsRead1 n tx) s fun t => t.out = .ok (leBytes 8 (2 ^ 63 + x.mtype * 2 ^ 32 + x.domain * 2 ^ 24 + x.seqId)) ∧
        (if tx then (t.eth n.toNat).tx else (t.eth n.toNat).rx) = rest ∧ t.regs = s.regs ∧ t.mem = s.mem) ∧
    ((if tx then e.txLatch else e.rxLatch) = none → completes (.ethTsRead1 n tx) s fun t => t = { s with out := .ok (leBytes 8 0) }) ∧
    (let base := (s.rd (Reg.ETH_GCLBASE n.toNat)).toNat
     let T := s.gclStep n.toNat
     s.flag (Reg.ETH_CTRL n.toNat) 0 = true → s.gclNext n.toNat ≤ s.raw → completes (.ethGclCycle n) s fun t =>
      (t.eth n.toNat).gcl = s.gclOf n.toNat ∧ t.flag (Reg.ETH_GCLCTL n.toNat) 9 = false ∧
      (∃ k, (t.eth n.toNat).cycle = some (base + k * T) ∧ base + k * T ≤ s.raw ∧ (T ≠ 0 → s.raw < base + (k + 1) * T)) ∧
      sameRegsBut [Reg.ETH_GCLCTL n.toNat] s t ∧ t.mem = s.mem) ∧
    ∀ up, s.flag (Reg.ETH_CTRL n.toNat) 0 = true → s.flag (Reg.ETH_STATUS n.toNat) 0 ≠ up → completes (.ethLink n up) s fun t =>
      t.flag (Reg.ETH_STATUS n.toNat) 0 = up ∧ (up = false → t.flag (Reg.ETH_STATUS n.toNat) 1 = true) ∧
      t.raised = s.raised ++ [28 + n.toNat] ∧ sameRegsBut [Reg.ETH_STATUS n.toNat] s t ∧ t.mem = s.mem

/-! ## Ethernet and PCIe (R374 to R380) -/

/-- Ethernet frames: the head frame of an enabled queue is released when its launch time and gate allow, late where it reached the
head after its launch time or leaves after it, held while they do not allow it, and passed over where LEN is out of range; an idle
port that nothing shapes or pauses begins it at once. A frame that the port was sending and has sent gets its release count and
status, leaves the ring, and its stamp is kept if it is a PTP event frame. A frame outside 64 to 9,216 bytes with its FCS is not
received, a good pause frame holds the transmitter for its time, any other frame is written to its ring's next buffer, or counted as
dropped (R358, R360, R374 to R377). It rests on the model's own readings in assumptions 64, 128. -/
def Obligations.EthernetSendsAndReceives : Prop :=
  ∀ (n : BitVec 2) (q : BitVec 3) (s : State),
    let c := Reg.ETH_TXCTL n.toNat q.toNat
    let a := s.ringAt (Reg.ETH_TXBASE n.toNat q.toNat) c (s.fld c 15 0)
    let len := s.devNat (a + 8) 2
    let timed := s.devNat (a + 10) 1 % 2 = 1
    let lt := s.devNat (a + 12) 4
    let e := s.eth n.toNat
    let behind := bitOf e.headLate q.toNat
    (s.ethUp n.toNat = true → s.flag c 63 = true → 0 < s.ringLevel c → e.holds q.toNat = false → s.served a 32 = true →
      (len < 60 ∨ 9212 < len → s.served (a + 24) 1 = true → completes (.ethTxRelease n q) s fun t => t.loadByte (devKey (a + 24)) = 12 ∧
        t.fld c 15 0 = (s.fld c 15 0 + 1) % 65536 ∧ (t.eth n.toNat).released = e.released ∧
        sameMemBut [(devKey (a + 24), 1)] s t ∧ sameRegsBut [c] s t) ∧
      (60 ≤ len → len ≤ 9212 → (timed → behind = true ∨ s.launchDue lt = true) → s.ethGate n.toNat q.toNat len = true →
        let late := decide timed && (behind || decide (s.launchDiff lt < -2))
        let out := fun t : State => Map.get 0 (t.eth n.toNat).released q.toNat = s.raw + 1 ∧
          bitOf (t.eth n.toNat).late q.toNat = late ∧
          t.rd (Reg.ETH_LATE n.toNat) = Ctr.add (s.rd (Reg.ETH_LATE n.toNat)) (if late then 1 else 0) ∧
          (e.sending = none → (∀ k < 8, e.holds k = false) → s.ethShaped n.toNat q.toNat = false → e.paused ≤ s.raw →
            e.creditAt ≤ s.raw → (t.eth n.toNat).sending = some (q.toNat, s.raw)) ∧
          sameRegsBut [Reg.ETH_LATE n.toNat] s t ∧ t.mem = s.mem
        completes (.ethTxRelease n q) s out ∧ completes (.launchRelease (.eth n q)) s out) ∧
      (60 ≤ len → len ≤ 9212 → (timed ∧ behind = false ∧ s.launchDue lt = false) ∨ s.ethGate n.toNat q.toNat len = false →
        exec (.ethTxRelease n q) s = .next s)) ∧
    (∀ (err : Bool) (sfd : Word) (b : Nat), let at0 := Map.get 0 e.released q.toNat
      let frame := (List.range (min 64 len)).map fun i => s.devByte (s.devNat a 8 + i)
      ((s.ethSettle n.toNat).eth n.toNat).sending = some (q.toNat, b) → b ≤ sfd.toNat → sfd.toNat ≤ s.raw →
      0 < at0 → at0 ≤ 2 ^ 64 → s.served (a + 16) 8 = true → s.served (a + 24) 1 = true →
      devKey (a + 24) = devKey (a + 16) + 8 → completes (.ethTxDone n q ⟨err, sfd⟩) s fun t =>
        t.loadNat (devKey (a + 16)) 8 = at0 - 1 ∧
        t.loadNat (devKey (a + 24)) 1 = 1 + (if bitOf e.late q.toNat then 2 else 0) + (if err then 4 else 0) ∧
        t.fld c 15 0 = (s.fld c 15 0 + 1) % 65536 ∧ Map.get 0 (t.eth n.toNat).released q.toNat = 0 ∧
        (ptpOf frame = none → (t.eth n.toNat).tx = e.tx) ∧
        (∀ m, ptpOf frame = some m → e.tx.length < 64 →
          (t.eth n.toNat).tx = e.tx ++ [{ raw := sfd.toNat, mtype := m.1, domain := m.2.1, seqId := m.2.2 }]) ∧
        (∀ m, ptpOf frame = some m → 64 ≤ e.tx.length → (t.eth n.toNat).tx = e.tx ∧
          t.rd (Reg.ETH_TSDROP n.toNat) = Ctr.add (s.rd (Reg.ETH_TSDROP n.toNat)) 1) ∧
        sameRegsBut [c, Reg.ETH_TSDROP n.toNat] s t ∧ sameMemBut [(devKey (a + 16), 9)] s t) ∧
    ∀ (bs : List Byte) (bad full : Bool) (sfd : Word), s.ethUp n.toNat = true →
      let tagged := bs.getD 12 0 == 0x81 && bs.getD 13 0 == 0
      let ring := if tagged then (bs.getD 14 0).toNat / 32 else 0
      let h := Reg.ETH_RXCTL n.toNat ring
      let d := s.ringAt (Reg.ETH_RXBASE n.toNat ring) h (s.fld h 15 0)
      let data := s.devNat d 8
      let fits := full = false ∧ s.flag h 63 = true ∧ 0 < s.ringLevel h ∧ s.served d 32 = true ∧ bs.length ≤ s.devNat (d + 8) 2 ∧
        s.served data bs.length = true
      (bs.length < 60 ∨ 9212 < bs.length → exec (.ethRxFrame n bs bad full sfd) s = .next s) ∧
      (60 ≤ bs.length → bs.length ≤ 9212 →
        (∀ k, bad = false → pauseOf bs = some k → completes (.ethRxFrame n bs bad full sfd) s fun t =>
          (t.eth n.toNat).paused = s.raw + (k * 512 * 1000 + s.ethRate n.toNat - 1) / s.ethRate n.toNat ∧
          t.regs = s.regs ∧ t.mem = s.mem) ∧
        (bad = true ∨ pauseOf bs = none →
          (fits → s.served (d + 16) 16 = true → devKey (d + 16) + 16 ≤ devKey data ∨ devKey data + bs.length ≤ devKey (d + 16) →
            completes (.ethRxFrame n bs bad full sfd) s fun t =>
              t.load (devKey data) bs.length = bs ∧ t.loadNat (devKey (d + 16)) 2 = bs.length ∧
              t.loadNat (devKey (d + 16) + 2) 1 = (if bad then 1 else 0) + (if tagged then 2 else 0) ∧
              t.loadNat (devKey (d + 16) + 4) 4 = Map.get 0 e.drops ring % 2 ^ 32 ∧
              t.loadNat (devKey (d + 16) + 8) 8 = s.raw % 2 ^ 64 ∧ t.fld h 15 0 = (s.fld h 15 0 + 1) % 65536 ∧
              Map.get 0 (t.eth n.toNat).drops ring = 0 ∧ sameRegsBut [h, Reg.ETH_TSDROP n.toNat] s t ∧
              sameMemBut [(devKey data, bs.length), (devKey (d + 16), 16)] s t) ∧
          (¬ fits → completes (.ethRxFrame n bs bad full sfd) s fun t =>
            t.rd (Reg.ETH_RXDROP n.toNat) = Ctr.add (s.rd (Reg.ETH_RXDROP n.toNat)) 1 ∧
            Map.get 0 (t.eth n.toNat).drops ring = Map.get 0 e.drops ring + 1 ∧ t.mem = s.mem ∧
            sameRegsBut [Reg.ETH_RXDROP n.toNat, Reg.ETH_TSDROP n.toNat] s t)))

/-- PCIe: training within the limits brings the link up in the mode that ROOT gives; a surprise link-down counts the requests that end
and raises 26; as an endpoint, a doorbell is pending and raises 27, MSIX sends its vector, and a host reads and writes the region that
BAR0 names and the mailbox RAM of BAR2: a bus error is counted, BAR0 without a window refuses and counts, and other BAR2 offsets read
0; as a root port, a transfer with the downstream device reads or writes the device address given; BAR0 opens a mapped region only
(R379, R380). It rests on the model's own readings in assumption 65. -/
def Obligations.PcieServesTheHost : Prop :=
  ∀ s : State,
    (∀ (r : BitVec 3) (w : BitVec 2), s.flag Reg.PCIE_CTRL 0 = true → s.flag Reg.PCIE_STATUS 0 = false →
      r.toNat ≤ min 4 (s.fld Reg.PCIE_CTRL 4 2) → w.toNat ≤ s.fld Reg.PCIE_CTRL 6 5 → completes (.pcieLinkUp r w) s fun t =>
        t.flag Reg.PCIE_STATUS 0 = true ∧ t.fld Reg.PCIE_STATUS 7 5 = r.toNat ∧ t.fld Reg.PCIE_STATUS 4 3 = w.toNat ∧
        t.pcieRoot = s.flag Reg.PCIE_CTRL 1 ∧ t.pcieEnd = !s.flag Reg.PCIE_CTRL 1 ∧ sameRegsBut [Reg.PCIE_STATUS] s t ∧
        t.mem = s.mem) ∧
    (∀ n, s.flag Reg.PCIE_STATUS 0 = true → completes (.pcieDown n) s fun t => t.flag Reg.PCIE_STATUS 0 = false ∧
      t.flag Reg.PCIE_STATUS 1 = true ∧ t.rd Reg.PCIE_ERR = Ctr.add (s.rd Reg.PCIE_ERR) n ∧ t.raised = s.raised ++ [26] ∧
      sameRegsBut [Reg.PCIE_STATUS, Reg.PCIE_ERR] s t ∧ t.mem = s.mem) ∧
    (let moved := fun (bar2 : Bool) (off a n : Nat) (bs : List Byte) =>
      (s.served a (if bs.isEmpty then n else bs.length) = true → completes (.pcieHostRequest bar2 off n bs) s fun t =>
        t.out = .ok (if bs.isEmpty then s.load (devKey a) n else []) ∧ t.load (devKey a) bs.length = bs ∧
        sameMemBut [(devKey a, bs.length)] s t ∧ t.regs = s.regs ∧ t.faces = s.faces) ∧
      (s.served a (if bs.isEmpty then n else bs.length) = false → completes (.pcieHostRequest bar2 off n bs) s fun t =>
        t.out = .busError ∧ t.rd Reg.PCIE_ERR = Ctr.add (s.rd Reg.PCIE_ERR) 1 ∧ sameRegsBut [Reg.PCIE_ERR] s t ∧ t.mem = s.mem)
     (s.pcieEnd = true →
      (∀ d : BitVec 6, completes (.pcieDoorbell d) s fun t => t.flag Reg.PCIE_DBPEND d.toNat = true ∧ t.raised = s.raised ++ [27] ∧
        (∀ k < 64, k ≠ d.toNat → t.flag Reg.PCIE_DBPEND k = s.flag Reg.PCIE_DBPEND k) ∧ sameRegsBut [Reg.PCIE_DBPEND] s t ∧
        t.mem = s.mem) ∧
      (∀ v : Word, completes (.pcieMsix v) s fun t => t = { s with out := .ok [BitVec.ofNat 8 (v.toNat % 32)] }) ∧
      ∀ off n (bs : List Byte), let m := if bs.isEmpty then n else bs.length
        (∀ bar2 a, s.pcieTarget bar2 off m = some a → moved bar2 off a n bs) ∧
        (s.pcieTarget false off m = none → completes (.pcieHostRequest false off n bs) s fun t => t.out = .denied ∧
          t.rd Reg.PCIE_ERR = Ctr.add (s.rd Reg.PCIE_ERR) 1 ∧ sameRegsBut [Reg.PCIE_ERR] s t ∧ t.mem = s.mem) ∧
        (s.pcieTarget true off m = none → completes (.pcieHostRequest true off n bs) s fun t =>
          t = { s with out := .ok (if bs.isEmpty then List.replicate n 0 else []) })) ∧
     (s.pcieRoot = true → ∀ bar2 off n bs, moved bar2 off off n bs) ∧
     (s.pcieEnd = false → (∀ d, exec (.pcieDoorbell d) s = .next s) ∧ ∀ v, exec (.pcieMsix v) s = .next s)) ∧
    ∀ v : Word, completes (.pcieBar0winWrite v) s fun t => t.fld Reg.PCIE_BAR0WIN 47 24 = bits v.toNat 47 24 ∧
      t.flag Reg.PCIE_BAR0WIN 63 = (bitOf v.toNat 63 && regionOk (bits v.toNat 47 24 * 2 ^ 24) 0x1000000) ∧
      sameRegsBut [Reg.PCIE_BAR0WIN] s t ∧ t.mem = s.mem

/-! ## CAN, frame builders, 10BASE-T1S (R359, R360, R381 to R392) -/

/-- CAN transmit: SEND makes idle buffers pending, and one that so comes to the head meets its launch time there; ABORT ends pending
ones and waits for one on the bus; the frame that is next and due goes on the bus, late or not, and none in restricted operation; it
ends with success, and in loop-back is received, or is retried, or completes where it is one-shot or aborted; bus-off makes it
pending again, and recovery ends; firmware writes only a buffer at rest that no builder owns (R385, R387 to R389). CAN receive: an
error counts in REC and sets LEC; a frame that no filter takes is counted; a taken one raises 135 + c, is stamped and mapped as its
filter says, and is stored in its queue's next slot or counted as dropped; slots are released within what stands in the ring;
BLD_CLR zeroes the four counts (R383 to R386, R389, R390). 10BASE-T1S: a pushed frame joins a queue of 16 or sets TXFULL; the head
frame is released when due and leaves the queue when sent; an accepted frame is stored in the next slot, one too long or without a
slot is counted; PLCA_STATUS shows the segment (R360, R391, R392). It rests on the model's own readings in assumptions 66 to 69, 129.
-/
def Obligations.FieldBusesQueueTheirFrames : Prop :=
  (∀ (c : BitVec 2) (s : State),
    let n := c.toNat
    let a := Reg.CAN_STATUS n
    let stats := [Reg.CAN_TXSTAT n 0, Reg.CAN_TXSTAT n 1, Reg.CAN_TXSTAT n 2]
    (∀ m : BitVec 3, completes (.canSend c m) s fun t => t.raised = s.raised ∧ t.mem = s.mem ∧ sameRegsBut stats s t ∧
      (t.can n).abort = (s.can n).abort ∧
      (∀ b < 3, t.txState n b = if bitOf m.toNat b = true ∧ s.txState n b ≠ 1 ∧ s.txState n b ≠ 2 then 1 else s.txState n b) ∧
      ∀ b < 3, bitOf (t.can n).late b =
        if s.canHead n b = false ∧ t.canHead n b = true then s.launchLate (s.canLt n b) else bitOf (s.can n).late b) ∧
    (∀ m : BitVec 3, completes (.canAbort c m) s fun t => t.mem = s.mem ∧ sameRegsBut stats s t ∧
      ∀ b < 3, t.txState n b = (if bitOf m.toNat b = true ∧ s.txState n b = 1 then 6 else s.txState n b) ∧
        (bitOf m.toNat b = true → s.txState n b = 1 → 139 + n ∈ t.raised ∧ bitOf (t.can n).abort b = false) ∧
        (bitOf m.toNat b = true → s.txState n b = 2 → bitOf (t.can n).abort b = true)) ∧
    (s.fld a 5 4 = 2 → completes (.canRecover c) s fun t => (t.can n).recovering = true ∧ (t.can n).abort = (s.can n).abort ∧
      t.regs = s.regs ∧ t.mem = s.mem) ∧
    (s.fld a 5 4 ≠ 2 → exec (.canRecover c) s = .next s) ∧
    (∀ (b : Fin 3) (o : BitVec 12) (v : BitVec 32),
      (s.bldOwns n b = true → completes (.canTxbufWrite c b o v) s fun t => t.flag (Reg.CAN_TXSTAT n b) 7 = true ∧
        t.txState n b = s.txState n b ∧ sameRegsBut [Reg.CAN_TXSTAT n b] s t ∧ t.mem = s.mem) ∧
      (s.bldOwns n b = false → s.txState n b = 1 ∨ s.txState n b = 2 → completes (.canTxbufWrite c b o v) s fun t =>
        t.flag (Reg.CAN_TXSTAT n b) 6 = true ∧ t.txState n b = s.txState n b ∧ sameRegsBut [Reg.CAN_TXSTAT n b] s t ∧
        t.mem = s.mem) ∧
      (s.bldOwns n b = false → s.txState n b ≠ 1 → s.txState n b ≠ 2 → completes (.canTxbufWrite c b o v) s fun t =>
        let m := min 4 (2064 - o.toNat)
        t.load (canBuf n b + o.toNat) m = (leBytes 4 v.toNat).take m ∧ sameMemBut [(canBuf n b + o.toNat, m)] s t ∧
        t.regs = s.regs)) ∧
    (s.canMode n = 1 → ∀ b, exec (.launchRelease (.can c b)) s = .next s) ∧
    (∀ b : Fin 3, s.flag (Reg.CAN_CTRL n) 0 = true → s.canMode n ≠ 1 → s.fld a 5 4 ≠ 2 → (∀ x < 3, s.txState n x ≠ 2) →
      s.txState n b = 1 → bitOf (s.can n).late b = true ∨ s.launchDue (s.canLt n b) = true →
      (if s.flag (Reg.CAN_CTRL n) 3 then ∀ x < b.val, s.txState n x ≠ 1
        else ∀ x < 3, x ≠ b.val → s.txState n x = 1 → bitOf (s.can n).late x = true ∨ s.launchDue (s.canLt n x) = true →
          s.arbKey n b < s.arbKey n x ∨ (s.arbKey n b = s.arbKey n x ∧ b.val < x)) →
      completes (.launchRelease (.can c b)) s fun t => t.txState n b = 2 ∧
        t.flag (Reg.CAN_TXSTAT n b) 5 = bitOf (s.can n).late b ∧ sameRegsBut [Reg.CAN_TXSTAT n b] s t ∧ t.mem = s.mem) ∧
    (∀ (b : Fin 3) (lec : BitVec 3) (sof : Word), s.txState n b = 2 →
      let own := [a, Reg.CAN_TXSTAT n b]
      (s.canMode n ≠ 2 → completes (.canTx c b ⟨0, lec⟩ sof) s fun t => t.txState n b = 3 ∧ bitOf (t.can n).abort b = false ∧
        t.raised = s.raised ++ [139 + n] ∧ t.fld a 31 24 = s.fld a 31 24 - 1 ∧ sameRegsBut own s t ∧ t.mem = s.mem) ∧
      (s.canMode n = 2 →
        let h := canHeader (BitVec.ofNat 32 (s.loadNat (canBuf n b) 4)) (BitVec.ofNat 8 (s.loadNat (canBuf n b + 6) 1))
          (BitVec.ofNat 32 (s.loadNat (canBuf n b + 8) 4))
        completes (.canTx c b ⟨0, lec⟩ sof) s fun t => t.txState n b = 3 ∧ t.fld a 31 24 = s.fld a 31 24 - 1 ∧
          (s.canFilter n h.1 (h.2.1 % 4) = none → t.raised = s.raised ++ [139 + n] ∧ t.mem = s.mem ∧
            t.fld (Reg.CAN_NOMATCH n) 31 0 = min (2 ^ 32 - 1) (s.fld (Reg.CAN_NOMATCH n) 31 0 + 1)) ∧
          ((s.canFilter n h.1 (h.2.1 % 4)).isSome = true → t.raised = s.raised ++ [139 + n, 135 + n])) ∧
      (∀ res : BitVec 2, res = 1 ∨ res = 2 →
        let after := fun t : State => t.fld a 31 24 = (if res = 2 then min 255 (s.fld a 31 24 + 8) else s.fld a 31 24) ∧
          (res = 2 → t.fld a 2 0 = lec.toNat) ∧ sameRegsBut own s t ∧ t.mem = s.mem
        (bitOf (s.can n).abort b = true → completes (.canTx c b ⟨res, lec⟩ sof) s fun t => t.txState n b = 6 ∧
          bitOf (t.can n).abort b = false ∧ t.raised = s.raised ++ [139 + n] ∧ after t) ∧
        (bitOf (s.can n).abort b = false → bitOf (s.fld (Reg.CAN_CTRL n) 7 5) b = true → completes (.canTx c b ⟨res, lec⟩ sof) s fun t =>
          t.txState n b = (if res = 1 then 4 else 5) ∧ t.raised = s.raised ++ [139 + n] ∧ after t) ∧
        (bitOf (s.can n).abort b = false → bitOf (s.fld (Reg.CAN_CTRL n) 7 5) b = false → completes (.canTx c b ⟨res, lec⟩ sof) s fun t =>
          t.txState n b = 1 ∧ t.raised = s.raised ∧ after t))) ∧
    (s.flag (Reg.CAN_CTRL n) 0 = true → s.fld a 5 4 ≠ 2 → completes (.canBusoff c false) s fun t => t.fld a 5 4 = 2 ∧
      t.flag a 10 = true ∧ sameRegsBut (a :: stats) s t ∧ t.mem = s.mem ∧
      ∀ b < 3, t.txState n b = if s.txState n b = 2 then 1 else s.txState n b) ∧
    (s.fld a 5 4 = 2 → s.flag (Reg.CAN_CTRL n) 4 = true ∨ (s.can n).recovering = true → completes (.canBusoff c true) s fun t =>
      t.fld a 5 4 = 0 ∧ t.fld a 31 16 = 0 ∧ (t.can n).recovering = false ∧ sameRegsBut [a] s t ∧ t.mem = s.mem)) ∧
  ((∀ s : State, completes .bldClr s fun t => (∀ r ∈ [Reg.BLD_REPLACED, Reg.BLD_SKIPPED, Reg.BLD_SHORT, Reg.BLD_LAST], t.rd r = 0) ∧
    sameRegsBut [Reg.BLD_REPLACED, Reg.BLD_SKIPPED, Reg.BLD_SHORT, Reg.BLD_LAST] s t ∧ t.mem = s.mem) ∧
  ∀ (c : BitVec 2) (key : BitVec 32) (fmt : BitVec 8) (af : BitVec 32) (bs : List (BitVec 8)) (err : BitVec 3) (hard : Bool)
    (sof : Word) (s : State),
    let n := c.toNat
    let a := Reg.CAN_STATUS n
    let h := canHeader key fmt af
    (s.flag (Reg.CAN_CTRL n) 0 = true → s.fld a 5 4 ≠ 2 → s.canMode n ≠ 2 → sof.toNat ≤ s.raw →
      (err ≠ 0 → err ≠ 7 → completes (.canRx c ⟨key, fmt, af, bs⟩ err hard sof) s fun t => t.fld a 2 0 = err.toNat ∧
        t.fld a 23 16 = (if s.canMode n = 1 then s.fld a 23 16 else min 255 (s.fld a 23 16 + if hard then 8 else 1)) ∧
        sameRegsBut [a] s t ∧ t.mem = s.mem ∧ t.raised = s.raised) ∧
      (err = 0 → canLenOk (fmt.toNat % 4) bs.length = true →
        let counted := fun t : State => (s.canMode n = 1 → t.fld a 23 16 = s.fld a 23 16) ∧
          (s.canMode n ≠ 1 → s.fld a 23 16 ≤ 127 → t.fld a 23 16 = s.fld a 23 16 - 1) ∧
          (s.canMode n ≠ 1 → 127 < s.fld a 23 16 → 119 ≤ t.fld a 23 16 ∧ t.fld a 23 16 ≤ 127)
        (s.canFilter n h.1 (h.2.1 % 4) = none → completes (.canRx c ⟨key, fmt, af, bs⟩ err hard sof) s fun t =>
          t.fld (Reg.CAN_NOMATCH n) 31 0 = min (2 ^ 32 - 1) (s.fld (Reg.CAN_NOMATCH n) 31 0 + 1) ∧ counted t ∧
          sameRegsBut [Reg.CAN_NOMATCH n, a] s t ∧ t.mem = s.mem ∧ t.raised = s.raised) ∧
        (∀ k, s.canFilter n h.1 (h.2.1 % 4) = some k →
          let cfg := Reg.CAN_FCFG n k
          let q := s.fld cfg 27 27
          let hd := Reg.CAN_RXHEAD n q
          let pay := slotPayload (s.fld (Reg.CAN_RXCFG n q) 1 0)
          let at' := homeSpace + s.fld (Reg.CAN_RXBASE n q) 31 4 * 16 + (16 + pay) * (s.fld hd 15 0 % 64)
          let fits := s.flag (Reg.CAN_RXCFG n q) 31 = true ∧ s.slotsUsed hd (Reg.CAN_RXTAIL n q) < 64 ∧ bs.length ≤ pay
          let l := s.mapFields (s.fld cfg 24 20)
          let words := if s.flag cfg 25 then [Reg.BLD_SHORT, Reg.BLD_LAST] ++ l.map fun x => Reg.CE_IN (x.1 % 128) else []
          let taken := fun t : State => counted t ∧ t.raised = s.raised ++ [135 + n] ∧
            (s.flag cfg 26 = true → sof.toNat + 100 ≤ Map.get 0 t.field.canStamps (32 * n + k) ∧
              Map.get 0 t.field.canStamps (32 * n + k) ≤ sof.toNat + 1500) ∧
            (s.flag cfg 25 = true →
              ((∃ x ∈ l, bs.length < x.2.2 + x.2.1) →
                t.fld Reg.BLD_SHORT 31 0 = min (2 ^ 32 - 1) (s.fld Reg.BLD_SHORT 31 0 + 1) ∧ t.fld Reg.BLD_LAST 15 14 = 3 ∧
                t.fld Reg.BLD_LAST 4 0 = s.fld cfg 24 20 ∧ ∀ i < 128, t.rd (Reg.CE_IN i) = s.rd (Reg.CE_IN i)) ∧
              ((∀ x ∈ l, x.2.2 + x.2.1 ≤ bs.length) → l.Pairwise (fun x y => x.1 % 128 ≠ y.1 % 128) → ∀ x ∈ l,
                t.rd (Reg.CE_IN (x.1 % 128)) =
                  BitVec.ofNat 64 (leNat ((bs.drop x.2.2).take x.2.1) * 2 ^ (32 - 8 * x.2.1) % 2 ^ 32)))
          (fits → completes (.canRx c ⟨key, fmt, af, bs⟩ err hard sof) s fun t => taken t ∧ t.loadNat at' 4 = h.1 ∧
            t.loadNat (at' + 4) 2 = bs.length ∧ t.loadNat (at' + 6) 1 = h.2.1 ∧ t.loadNat (at' + 7) 1 = k ∧
            t.loadNat (at' + 8) 4 = h.2.2 ∧ t.loadNat (at' + 12) 4 = 0 ∧ t.load (at' + 16) bs.length = bs ∧
            sameMemBut [(at', 16 + bs.length)] s t ∧ t.fld hd 15 0 = (s.fld hd 15 0 + 1) % 65536 ∧
            sameRegsBut ([hd, a] ++ words) s t) ∧
          (¬ fits → completes (.canRx c ⟨key, fmt, af, bs⟩ err hard sof) s fun t => taken t ∧
            t.fld (Reg.CAN_RXDROP n) 31 0 = min (2 ^ 32 - 1) (s.fld (Reg.CAN_RXDROP n) 31 0 + 1) ∧
            sameRegsBut ([Reg.CAN_RXDROP n, a] ++ words) s t ∧ t.mem = s.mem)))) ∧
    ∀ (q : BitVec 1) (v : BitVec 32),
      let d := signed 16 (s.fld (Reg.CAN_RXHEAD n q.toNat) 15 0 + 65536 - v.toNat % 65536)
      (0 ≤ d ∧ d ≤ 64 → completes (.canRxtailWrite c q v) s fun t => t.fld (Reg.CAN_RXTAIL n q.toNat) 15 0 = v.toNat % 65536 ∧
        sameRegsBut [Reg.CAN_RXTAIL n q.toNat] s t ∧ t.mem = s.mem) ∧
      (¬ (0 ≤ d ∧ d ≤ 64) → exec (.canRxtailWrite c q v) s = .next s)) ∧
  (∀ (n : Fin 2) (s : State),
    let p := s.t1s n
    (∀ v : BitVec 32, let a := homeSpace + bits v.toNat 31 4 * 16
      (p.queue.length < 16 → completes (.t1sTxpush n v) s fun t =>
        (t.t1s n).queue = p.queue ++ [⟨s.loadNat (a + 12) 4, s.load a (16 + s.loadNat (a + 4) 2)⟩] ∧
        (t.t1s n).late = (if p.queue = [] then s.launchLate (s.loadNat (a + 12) 4) else p.late) ∧
        t.fld (Reg.T1S_TXSTAT n) 4 0 = p.queue.length + 1 ∧ sameRegsBut [Reg.T1S_TXSTAT n] s t ∧ t.mem = s.mem) ∧
      (16 ≤ p.queue.length → completes (.t1sTxpush n v) s fun t => t.field = s.field ∧ t.flag (Reg.T1S_TXSTAT n) 7 = true ∧
        sameRegsBut [Reg.T1S_TXSTAT n] s t ∧ t.mem = s.mem)) ∧
    (s.flag (Reg.T1S_CTRL n) 31 = true →
      (∀ x rest, p.queue = x :: rest → p.released = false →
        (p.late = true ∨ s.launchDue x.lt = true → completes (.launchRelease (.t1s n)) s fun t =>
          (t.t1s n).released = true ∧ (t.t1s n).queue = p.queue ∧
          t.fld (Reg.T1S_TXSTAT n) 15 8 = (if p.late then min 255 (s.fld (Reg.T1S_TXSTAT n) 15 8 + 1)
            else s.fld (Reg.T1S_TXSTAT n) 15 8) ∧ sameRegsBut [Reg.T1S_TXSTAT n] s t ∧ t.mem = s.mem) ∧
        (p.late = false → s.launchDue x.lt = false → exec (.launchRelease (.t1s n)) s = .next s)) ∧
      (p.released = true → p.queue.length ≤ 16 → completes (.t1sTx n) s fun t => (t.t1s n).queue = p.queue.tail ∧
        (t.t1s n).released = false ∧ (∀ x y rest, p.queue = x :: y :: rest → (t.t1s n).late = s.launchLate y.lt) ∧
        t.fld (Reg.T1S_TXSTAT n) 4 0 = p.queue.length - 1 ∧
        t.fld (Reg.T1S_TXSTAT n) 31 16 = (s.fld (Reg.T1S_TXSTAT n) 31 16 + 1) % 65536 ∧ sameRegsBut [Reg.T1S_TXSTAT n] s t ∧
        t.mem = s.mem) ∧
      (∀ (bs : List (BitVec 8)) (bad : Bool), let h := Reg.T1S_RXHEAD n
        let at' := homeSpace + s.fld (Reg.T1S_RXBASE n) 31 4 * 16 + 1536 * (s.fld h 15 0 % 64)
        let tagged := bs.getD 12 0 == 0x81 && bs.getD 13 0 == 0
        (s.t1sMine n bs = false → exec (.t1sRx n bs bad) s = .next s) ∧
        (s.t1sMine n bs = true → bs.length ≤ 1520 → s.slotsUsed h (Reg.T1S_RXTAIL n) < 64 → completes (.t1sRx n bs bad) s fun t =>
          t.load (at' + 16) bs.length = bs ∧ t.loadNat at' 2 = bs.length ∧
          t.loadNat (at' + 2) 1 = (if bad then 1 else 0) + (if tagged then 2 else 0) ∧ t.loadNat (at' + 4) 4 = p.drops % 2 ^ 32 ∧
          t.loadNat (at' + 8) 8 = s.raw % 2 ^ 64 ∧ sameMemBut [(at', 16 + bs.length)] s t ∧
          t.fld h 15 0 = (s.fld h 15 0 + 1) % 65536 ∧ (t.t1s n).drops = 0 ∧ sameRegsBut [h] s t) ∧
        (s.t1sMine n bs = true → 1520 < bs.length ∨ 64 ≤ s.slotsUsed h (Reg.T1S_RXTAIL n) → completes (.t1sRx n bs bad) s fun t =>
          (t.t1s n).drops = p.drops + 1 ∧ t.mem = s.mem ∧
          t.fld (Reg.T1S_RXDROP n) 31 0 = min (2 ^ 32 - 1) (s.fld (Reg.T1S_RXDROP n) 31 0 + 1) ∧
          sameRegsBut [Reg.T1S_RXDROP n] s t)) ∧
      ∀ link ok beacon coll : Bool, completes (.plcaStatus n link ok beacon coll) s fun t =>
        t.flag (Reg.T1S_STATUS n) 0 = link ∧ t.flag (Reg.T1S_STATUS n) 1 = ok ∧ t.flag (Reg.T1S_STATUS n) 2 = beacon ∧
        t.flag (Reg.T1S_STATUS n) 3 = (coll || s.flag (Reg.T1S_STATUS n) 3) ∧ sameRegsBut [Reg.T1S_STATUS n] s t ∧ t.mem = s.mem))

/-! ## Motion: encoders, PWM, the permit, field pins (R393 to R409) -/

/-- Encoders, PWM and field pins: a quadrature edge counts by one; an index edge or framing error is recorded with event 143 and
stamped; a valid configuration enables a port, an invalid one is refused, and an enabled port takes only a write that clears EN; a PWM
period takes its settings and high times; a changed input level is shown, recorded with event 151 where its edge is selected, and
driven to its control word where WEN is set; a field-bank fault sets its bits with events 144 and 143 and stops the permit on a permit
pin (R359, R393 to R399, R405 to R409). The motion permit: keys 0x5A of pair 0 and, within 1 ms, 0xA5 of pair 1 arm it, and it toggles
from 10 ms later; while it toggles a missed kick, a STOP or a bad readback stops it with cause 5, 2 or 6 and event 145 (R401, R402,
R404). It rests on the model's own readings in assumptions 53, 70, 71. -/
def Obligations.FieldPinsAndMotionPermit : Prop :=
  ((∀ (p : BitVec 4) (v : BitVec 32) (s : State),
    let n := p.toNat
    (∀ up, s.encOn n = true → s.encQuad n = true → completes (.encQuadEdge p up) s fun t =>
      (t.enc n).count = (if up then (s.enc n).count + 1 else (s.enc n).count - 1) ∧ t.regs = s.regs ∧ t.mem = s.mem) ∧
    (∀ index, s.encOn n = true → s.encQuad n = index → completes (.encEvent p index) s fun t => t.raised = s.raised ++ [143] ∧
      (index = true → t.flag (Reg.ENC_STAT n) 7 = true) ∧
      (index = false → t.fld (Reg.ENC_STAT n) 15 8 = min 255 (s.fld (Reg.ENC_STAT n) 15 8 + 1)) ∧
      s.raw + 100 ≤ Map.get 0 t.field.encStamps n ∧ Map.get 0 t.field.encStamps n ≤ s.raw + 1500 ∧
      sameRegsBut [Reg.ENC_STAT n] s t ∧ t.mem = s.mem) ∧
    (s.encOn n = false → bitOf v.toNat 31 = true → encOk v.toNat = true → completes (.encCfgWrite p v) s fun t =>
      t.encOn n = true ∧ t.fld (Reg.ENC_CFG n) 30 29 = bits v.toNat 30 29 ∧ t.fld (Reg.ENC_CFG n) 27 0 = bits v.toNat 27 0 ∧
      t.flag (Reg.ENC_STAT n) 0 = true ∧
      (t.enc n).read = false ∧ sameRegsBut [Reg.ENC_CFG n, Reg.ENC_STAT n] s t ∧ t.mem = s.mem) ∧
    (s.encOn n = false → bitOf v.toNat 31 = true → encOk v.toNat = false → completes (.encCfgWrite p v) s fun t =>
      t.encOn n = false ∧ t.flag (Reg.ENC_STAT n) 6 = true ∧ t.field = s.field ∧
      sameRegsBut [Reg.ENC_CFG n, Reg.ENC_STAT n] s t ∧ t.mem = s.mem) ∧
    (s.encOn n = true → bitOf v.toNat 31 = true → exec (.encCfgWrite p v) s = .next s) ∧
    (bitOf v.toNat 31 = false → completes (.encCfgWrite p v) s fun t => t.encOn n = false ∧
      t.fld (Reg.ENC_CFG n) 30 29 = bits v.toNat 30 29 ∧ t.fld (Reg.ENC_CFG n) 27 0 = bits v.toNat 27 0 ∧
      (s.encOn n = true → t.flag (Reg.ENC_STAT n) 0 = false) ∧ t.field = s.field ∧
      sameRegsBut [Reg.ENC_CFG n, Reg.ENC_STAT n] s t ∧ t.mem = s.mem)) ∧
  (∀ (k : Fin 12) (s : State), completes (.pwmPeriodStart k) s fun t =>
    let w := (s.rd (Reg.PWM_PAIR k)).toNat
    Map.get 0 t.field.pair k = w ∧
    t.fld (Reg.PWM_CH (2 * k)) 15 0 = min 65535 (highTime (Map.get 0 s.field.duty (2 * k)) (pwmPeriod w)) ∧
    t.fld (Reg.PWM_CH (2 * k + 1)) 15 0 = (if bitOf w 30 then s.fld (Reg.PWM_CH (2 * k + 1)) 15 0
      else min 65535 (highTime (Map.get 0 s.field.duty (2 * k + 1)) (pwmPeriod w))) ∧
    sameRegsBut [Reg.PWM_CH (2 * k), Reg.PWM_CH (2 * k + 1)] s t ∧ t.mem = s.mem) ∧
  (∀ (i : BitVec 4) (level : Bool) (s : State), let a := Reg.GFP_CFG i.toNat
    (s.flag a 28 = level → exec (.gfpEdge i level) s = .next s) ∧
    (s.flag a 28 ≠ level → completes (.gfpEdge i level) s fun t => t.flag a 28 = level ∧ t.mem = s.mem ∧
      (let hit := s.fld a 27 26 = 3 ∨ (s.fld a 27 26 = 1 ∧ level = true) ∨ (s.fld a 27 26 = 2 ∧ level = false)
       (hit → t.flag Reg.GFP_EDGES i.toNat = true ∧ t.raised = s.raised ++ [151]) ∧
       (¬ hit → t.rd Reg.GFP_EDGES = s.rd Reg.GFP_EDGES ∧ t.raised = s.raised)) ∧
      (s.flag a 25 = true → t.rd (Reg.CE_IN (s.fld a 24 18)) = (if level then 0x7FFFFFFF else 0) ∧
        sameRegsBut [a, Reg.GFP_EDGES, Reg.CE_IN (s.fld a 24 18)] s t) ∧
      (s.flag a 25 = false → sameRegsBut [a, Reg.GFP_EDGES] s t))) ∧
  ∀ (i : Fin 141) (s : State), let a := Reg.FB_DIAG i
    (∀ folded limit, completes (.fbFoldback i folded limit) s fun t => t.flag a 6 = folded ∧ t.flag a 0 = limit ∧
      t.raised = s.raised ∧ sameRegsBut [a] s t ∧ t.mem = s.mem) ∧
    (∀ k : BitVec 2, k ≠ 0 → completes (.fbFault i k) s fun t => t.flag a k.toNat = true ∧ 144 ∈ t.raised ∧ 143 ∈ t.raised ∧
      (s.flag Reg.FB_CTRL 1 = true → bitOf t.field.offPins i = true) ∧ (s.flag Reg.FB_CTRL 1 = false → t.flag a 0 = true) ∧
      (isPermitPin i = true → t.flag Reg.PERMIT_STATUS 31 = false ∧
        (s.flag Reg.PERMIT_STATUS 31 = true → t.fld Reg.PERMIT_STATUS 30 28 = 6 ∧ 145 ∈ t.raised)) ∧
      (isPermitPin i = false → t.permit = s.permit ∧ sameRegsBut [a] s t) ∧ sameRegsBut [a, Reg.PERMIT_STATUS] s t ∧
      t.mem = s.mem) ∧
    ∀ (start : Bool) (found : List (Nat × BitVec 2)), start = true ∨ s.flag Reg.FB_CTRL 0 = true →
      completes (.fbDiagSlot start found) s fun t => t.mem = s.mem ∧
        (∀ x ∈ found, x.1 < 141 → x.2 ≠ 3 → x.2 ≠ 2 ∨ start = true →
          t.flag (Reg.FB_DIAG x.1) (if x.2 = 0 then 4 else if x.2 = 1 then 3 else 5) = true ∧ 144 ∈ t.raised ∧ 143 ∈ t.raised ∧
          (isPermitPin x.1 = true → t.flag Reg.PERMIT_STATUS 31 = false)) ∧
        ∀ r, r ≠ Reg.PERMIT_STATUS → (∀ x ∈ found, r ≠ Reg.FB_DIAG x.1) → t.rd r = s.rd r) ∧
  (∀ s : State,
    (∀ p : Fin 2, completes (.permitKick p) s fun t =>
      t.permit = (if p = 0 then { s.permit with kick0 := s.raw } else { s.permit with kick1 := s.raw }) ∧ t.regs = s.regs ∧
      t.mem = s.mem) ∧
    (s.permitArmable = true → s.permit.armedAt = none → ∀ v : BitVec 32,
      (v.toNat % 256 = 0x5A → completes (.permitArm 0 v) s fun t => t.permit = { s.permit with keyAt := some s.raw } ∧
        t.regs = s.regs ∧ t.mem = s.mem) ∧
      (∀ k0, v.toNat % 256 = 0xA5 → s.permit.keyAt = some k0 → s.raw ≤ k0 + 1000000 → completes (.permitArm 1 v) s fun t =>
        t.permit = { s.permit with keyAt := none, armedAt := some s.raw } ∧ t.fld Reg.PERMIT_STATUS 30 28 = 0 ∧
        sameRegsBut [Reg.PERMIT_STATUS] s t ∧ t.mem = s.mem)) ∧
    (∀ (p : Fin 2) (v : BitVec 32), s.permitArmable = false → exec (.permitArm p v) s = .next s) ∧
    (∀ t0, s.permit.armedAt = some t0 → t0 + 10000000 ≤ s.raw → completes .permitStart s fun t =>
      t.flag Reg.PERMIT_STATUS 31 = true ∧ t.fld Reg.PERMIT_STATUS 30 28 = 0 ∧ t.permit.armedAt = none ∧ t.permit.kick0 = s.raw ∧
      t.permit.kick1 = s.raw ∧ sameRegsBut [Reg.PERMIT_STATUS] s t ∧ t.mem = s.mem) ∧
    completes (.permitReadbackSample true) s (fun t => t.permit = { s.permit with badRead := false } ∧ t.regs = s.regs ∧
      t.mem = s.mem) ∧
    (s.flag Reg.PERMIT_STATUS 31 = true →
      let stopped := fun (cause : Nat) (t : State) => t.flag Reg.PERMIT_STATUS 31 = false ∧
        t.fld Reg.PERMIT_STATUS 30 28 = cause ∧ t.raised = s.raised ++ [145] ∧ t.permit.armedAt = none ∧ t.permit.keyAt = none ∧
        sameRegsBut [Reg.PERMIT_STATUS] s t ∧ t.mem = s.mem
      (∀ p : Fin 2, (if p = 0 then s.permit.kick0 else s.permit.kick1) + s.kickNs ≤ s.raw →
        completes (.permitKickMiss p) s (stopped 5)) ∧
      completes .permitStop s (stopped 2) ∧
      completes (.permitReadbackSample false) s (stopped 6)))

/-! ## The control engine (R307 to R324) and the hold controller (R338 to R341) -/

/-- The arithmetic instructions of a loop: RD holds the Q31 result, SAT is sticky, and no other register, the accumulator, the state
words or the output change (R312). The other instructions of a loop: IN, SP and LDS read what the tick captured, an output or a
state word; MACZ and MAC keep exact products in the accumulator; INT integrates into a state word; STS stores, OUT gives the output,
END ends (R312 to R314). It rests on the model's own readings in assumptions 72, 74. -/
def Obligations.LoopInstructionResults : Prop :=
  (∀ p ∈ loopRows, ∀ (s : State) (x : CeExec), s.ce.run = some x → x.ended = false → (s.ceWord x.pc).op = p.2.1 →
    completes p.1 s fun t => ∃ y, loopWent x y s t ∧
      let w := s.ceWord x.pc
      y.reg w.rd = (p.2.2 s x w).1 ∧ (∀ i, i ≠ w.rd → y.reg i = x.reg i) ∧ y.sat = (x.sat || (p.2.2 s x w).2) ∧ y.acc = x.acc ∧
      y.words = x.words ∧ y.output = x.output ∧ y.ended = false) ∧
  (∀ (s : State) (x : CeExec), s.ce.run = some x → x.ended = false →
    let w := s.ceWord x.pc
    let i := w.sel % 16
    let prod := s.ceCoef x.loop w.ci * x.reg w.ra
    let only := fun (y : CeExec) (v : Nat) => Map.get 0 y.regs w.rd = v ∧ (∀ k, k ≠ w.rd → Map.get 0 y.regs k = Map.get 0 x.regs k) ∧
      y.sat = x.sat ∧ y.acc = x.acc ∧ y.words = x.words ∧ y.output = x.output ∧ y.ended = false
    (w.op = 0x01 → completes .ceIn s fun t => ∃ y, loopWent x y s t ∧ only y (
      if w.sel / 128 = 0 then Map.get 0 x.cap.pos (w.sel % 128) else if w.sel / 128 = 1 then Map.get 0 x.cap.vel (w.sel % 128)
      else if w.sel / 128 = 2 then Map.get 0 x.cap.ins (w.sel % 128) else Map.get 0 s.ce.outs (w.sel % 128 % 64))) ∧
    (w.op = 0x02 → completes .ceSp s fun t => ∃ y, loopWent x y s t ∧ only y (Map.get 0 x.cap.sps (w.sel % 256))) ∧
    (w.op = 0x0B → completes .ceLds s fun t => ∃ y, loopWent x y s t ∧ only y (Map.get 0 x.words i)) ∧
    (w.op = 0x06 → completes .ceMacz s fun t => ∃ y, loopWent x y s t ∧ y = { x with pc := x.pc + 1, acc := prod }) ∧
    (w.op = 0x07 → completes .ceMac s fun t => ∃ y, loopWent x y s t ∧ y = { x with pc := x.pc + 1, acc := x.acc + prod }) ∧
    (w.op = 0x09 → completes .ceInt s fun t => ∃ y, loopWent x y s t ∧
      (let v := rneShift (signed 32 (Map.get 0 x.words i) * 2 ^ 62 + prod) 62
       y.reg w.rd = q31Range v ∧ signed 32 (Map.get 0 y.words i) = q31Range v ∧ y.sat = (x.sat || decide (q31Range v ≠ v))) ∧
      (∀ k, k ≠ w.rd → y.reg k = x.reg k) ∧ (∀ k, k ≠ i → Map.get 0 y.words k = Map.get 0 x.words k) ∧ y.acc = x.acc ∧
      y.output = x.output) ∧
    (w.op = 0x0C → completes .ceSts s fun t => ∃ y, loopWent x y s t ∧ Map.get 0 y.words i = Map.get 0 x.regs w.ra ∧
      (∀ k, k ≠ i → Map.get 0 y.words k = Map.get 0 x.words k) ∧ y.regs = x.regs ∧ y.acc = x.acc ∧ y.sat = x.sat ∧
      y.output = x.output) ∧
    (w.op = 0x0D → completes .ceOut s fun t => ∃ y, loopWent x y s t ∧
      y = { x with pc := x.pc + 1, output := Map.get 0 x.regs w.ra }) ∧
    (w.op = 0x0E → completes .ceEnd s fun t => ∃ y, loopWent x y s t ∧ y = { x with pc := x.pc + 1, ended := true }))

/-- A tick: a swap requested at least 1 us before is made, a hold cause engages on the active bank's setpoints, the hold values of an
engaged controller move by at most RATE toward their targets, a release ends the engagement unless a cause has come since the last
tick, and every enabled loop whose period and RUN select the tick is queued (R307, R321, R323, R338, R339). An execution starts with
its registers 0, its state words and, unless LOOP_HOLD is set, the coefficients as they stand; one that is over and late is discarded
and counted with event 128, one on time gives its output and state words; at the earliest apply instant the output of a loop that was
on time, or a group's least, reaches its target, WON is set for the group, and a losing member that tracks gets its state words back
(R309, R316, R318, R320, R322). It rests on the model's own readings in assumptions 72, 75, 76. -/
def Obligations.TicksAndExecutions : Prop :=
  (∀ (s : State), s.flag Reg.CE_CTRL 0 = true → s.tickAt s.ce.next ≤ s.raw → completes .controlTick s fun t =>
    t.ce.next = s.ce.next + 1 ∧ t.mem = s.mem ∧
    (let swap := s.spPending && decide (s.ce.goAt + 1000 ≤ s.tickAt s.ce.next)
     (∀ k < 256, t.rd (Reg.CE_SPA k) = if swap then s.rd (Reg.CE_SPW k) else s.rd (Reg.CE_SPA k)) ∧
     t.spPending = (s.spPending && !swap) ∧
     t.fld Reg.CE_STATUS 31 16 = (s.fld Reg.CE_STATUS 31 16 + if swap then 1 else 0) % 65536) ∧
    (∀ c < 8, s.hold.cause = some c → t.holding = true ∧ 130 ∈ t.raised ∧ t.hold.cause = none ∧
      ∀ k < 256, Map.get 0 t.hold.vals k = (t.rd (Reg.CE_SPA k)).toNat) ∧
    (s.hold.cause = none → s.holding = false → t.holding = false ∧ t.raised = s.raised) ∧
    (s.hold.cause = none → s.holding = true →
      (s.hold.release = true → t.holding = s.hold.again ∧ t.hold.release = false ∧ t.hold.vals = s.hold.vals) ∧
      (s.hold.release = false → t.holding = true ∧ ∀ k < 256,
        let h := signed 32 (Map.get 0 s.hold.vals k)
        let target := signed 32 (t.rd (Reg.HOLD_TGT k)).toNat
        let rate : Int := s.fld (Reg.HOLD_RATE k) 30 0
        signed 32 (Map.get 0 t.hold.vals k) = if h < target then min target (h + rate) else max target (h - rate))) ∧
    ∀ n, n ∈ (t.ce.queue.drop s.ce.queue.length).map (fun d => d.loop) ↔ n ∈ s.loopsAt s.ce.next ∧ t.runsNow n = true) ∧
  (∀ s : State,
    (∀ d rest, s.ce.run = none → s.ce.queue = d :: rest → s.flag Reg.CE_CTRL 0 = true → completes .loopExecute s fun t =>
      (∃ x, t.ce.run = some x ∧ x.loop = d.loop ∧ x.tick = d.tick ∧ x.cap = d.cap ∧ x.pc = bits (Map.get 0 s.ce.prog d.loop) 12 0 ∧
        (∀ i, x.reg i = 0) ∧ x.acc = 0 ∧ x.sat = false ∧ x.ended = false ∧
        ∀ w < 16, Map.get 0 x.words w = (s.rd (Reg.CE_STATE d.loop w)).toNat) ∧
      t.ce.queue = rest ∧ t.regs = s.regs ∧ t.mem = s.mem ∧
      (s.flag (Reg.CE_LOOP_CFG d.loop) 30 = true → t.ce.copies = s.ce.copies) ∧
      (s.flag (Reg.CE_LOOP_CFG d.loop) 30 = false → ∀ i < 32, Map.get 0 t.ce.copies (32 * d.loop + i) =
        (let b := bits (Map.get 0 s.ce.prog d.loop) 26 16 + i
         s.fld (Reg.CE_COEF_VALUE b) 31 0 + s.fld (Reg.CE_COEF_SHIFT b) 5 0 * 2 ^ 32))) ∧
    (∀ x, s.ce.run = some x → x.ended = true → x.loop < 64 →
      (x.tick + 100 * s.outDly x.loop < s.raw + 200 → completes .loopComplete s fun t => t.ce = { s.ce with run := none } ∧
        t.flag (Reg.CE_LSTAT x.loop) 29 = true ∧
        t.fld (Reg.CE_LSTAT x.loop) 15 0 = min 65535 (s.fld (Reg.CE_LSTAT x.loop) 15 0 + 1) ∧
        t.flag (Reg.CE_MISS (x.loop / 32)) (x.loop % 32) = true ∧ t.raised = s.raised ++ [128] ∧
        sameRegsBut [Reg.CE_LSTAT x.loop, Reg.CE_MISS (x.loop / 32)] s t ∧ t.mem = s.mem) ∧
      (s.raw + 200 ≤ x.tick + 100 * s.outDly x.loop → completes .loopComplete s fun t => t.ce.run = none ∧
        Map.get 0 t.ce.outs x.loop = x.output ∧ (∀ n, n ≠ x.loop → Map.get 0 t.ce.outs n = Map.get 0 s.ce.outs n) ∧
        (∀ w < 16, t.rd (Reg.CE_STATE x.loop w) = BitVec.ofNat 64 (Map.get 0 x.words w)) ∧
        t.flag (Reg.CE_LSTAT x.loop) 30 = x.sat ∧ t.flag (Reg.CE_LSTAT x.loop) 29 = false ∧ t.raised = s.raised ∧
        t.mem = s.mem)) ∧
    ∀ p, p ∈ s.ce.applies → (∀ a ∈ s.ce.applies, a = p ∨ p.due < a.due) → p.due ≤ s.raw + 6 → (∀ n ∈ p.loops, n < 64) →
      let reaches := fun (n : Nat) (t : State) => let tgt := s.ceTarget (Map.get 0 s.ce.prog n)
        t.ce.applies = s.ce.applies.filter (fun a => a != p) ∧
        (tgt / 128 = 0 → Map.get 0 t.field.duty (tgt % 128) = Map.get 0 s.ce.outs n) ∧
        (tgt / 128 = 1 → t.rd (Reg.CE_OUTW (tgt % 128)) = BitVec.ofNat 64 (Map.get 0 s.ce.outs n))
      (∀ n u, p.group = false → p.loops = [n] → s.ceOnTime n p.tick = some u → completes .loopApply s (reaches n)) ∧
      (∀ n, p.group = false → p.loops = [n] → s.ceOnTime n p.tick = none → completes .loopApply s fun t =>
        t.ce.applies = s.ce.applies.filter (fun a => a != p) ∧ t.field.duty = s.field.duty ∧
        ∀ i < 128, t.rd (Reg.CE_OUTW i) = s.rd (Reg.CE_OUTW i)) ∧
      (p.group = true → p.loops ≠ [] → completes .loopApply s fun t =>
        ∃ n ∈ p.loops, (∀ m ∈ p.loops, s.ceOutOf n < s.ceOutOf m ∨ (s.ceOutOf n = s.ceOutOf m ∧ n ≤ m)) ∧ reaches n t ∧
          (∀ m, m ∈ s.loopsOn ∨ m ∈ p.loops → s.groupOf m = s.groupOf n → t.flag (Reg.CE_LSTAT m) 31 = (m == n)) ∧
          ∀ m ∈ p.loops, m ≠ n → bitOf (Map.get 0 s.ce.outReg m) 25 = true → ∀ u, s.ceOnTime m p.tick = some u → ∀ w < 16,
            t.rd (Reg.CE_STATE m w) = BitVec.ofNat 64 (Map.get 0 u.words w)))

/-- The engine's registers: an enable that passes its checks starts from zero state, one that fails reports its code; LOOP_HOLD;
coefficients with a staged SHIFT; setpoints of the write bank and the swap that is asked for; program words of loops that are not
enabled; a loop whose EN is cleared stays on until its next tick where ticks come. Hold commands, and the SSI transfers that feed a
tick (R315, R316, R321, R323, R338, R339, R394). It rests on the model's own readings in assumptions 73, 77, 130. -/
def Obligations.ControlEngineRegisterWrites : Prop :=
  ∀ (s : State) (v : BitVec 32),
    (∀ n : BitVec 6, let a := Reg.CE_LOOP_CFG n.toNat
      (bitOf v.toNat 31 = true → s.flag a 31 = false → s.ceCheck n.toNat v.toNat = 0 → completes (.ceLoopCfgWrite n v) s fun t =>
        t.flag a 31 = true ∧ t.fld a 30 4 = bits v.toNat 30 4 ∧ (∀ w < 16, t.rd (Reg.CE_STATE n.toNat w) = 0) ∧
        Map.get 0 t.ce.prog n.toNat = (s.rd (Reg.CE_LOOP_PROG n.toNat)).toNat ∧
        Map.get 0 t.ce.outReg n.toNat = (s.rd (Reg.CE_LOOP_OUT n.toNat)).toNat ∧ t.mem = s.mem) ∧
      (bitOf v.toNat 31 = true → s.flag a 31 = false → s.ceCheck n.toNat v.toNat ≠ 0 → completes (.ceLoopCfgWrite n v) s fun t =>
        t.flag a 31 = false ∧ t.fld Reg.CE_ERR 7 0 = s.ceCheck n.toNat v.toNat ∧ t.fld Reg.CE_ERR 13 8 = n.toNat ∧ t.ce = s.ce ∧
        sameRegsBut [a, Reg.CE_ERR] s t) ∧
      (bitOf v.toNat 31 = s.flag a 31 → completes (.ceLoopCfgWrite n v) s fun t => t.flag a 31 = s.flag a 31 ∧
        t.fld a 30 4 = bits v.toNat 30 4 ∧ t.ce = s.ce ∧ sameRegsBut [a] s t ∧ t.mem = s.mem) ∧
      (bitOf v.toNat 31 = false → s.flag a 31 = true → completes (.ceLoopCfgWrite n v) s fun t => t.flag a 31 = false ∧
        t.fld a 30 4 = bits v.toNat 30 4 ∧ t.loopOn n.toNat = s.flag Reg.CE_CTRL 0 ∧
        t.ce = { s.ce with closing := t.ce.closing } ∧ sameRegsBut [a] s t ∧ t.mem = s.mem) ∧
      ∀ on, completes (.loopHold n on) s fun t => t.flag a 30 = on ∧ t.flag a 31 = s.flag a 31 ∧ t.fld a 29 0 = s.fld a 29 0 ∧
        sameRegsBut [a] s t ∧ t.mem = s.mem) ∧
    (∀ (p : Fin 2) (i : BitVec 11),
      (v.toNat % 64 = 32 → completes (.ceCoefShiftWrite p i v) s fun t => t.fld Reg.CE_ERR 7 0 = 7 ∧ t.ce = s.ce ∧
        sameRegsBut [Reg.CE_ERR] s t) ∧
      (v.toNat % 64 ≠ 32 → completes (.ceCoefShiftWrite p i v) s fun t =>
        Map.get 0 t.ce.staged p = 1 + i.toNat + 4096 * (v.toNat % 64) ∧ t.regs = s.regs ∧ t.mem = s.mem) ∧
      completes (.ceCoefValueWrite p i v) s fun t => t.rd (Reg.CE_COEF_VALUE i.toNat) = v.setWidth 64 ∧
        t.rd (Reg.CE_COEF_SHIFT i.toNat) = (if Map.get 0 s.ce.staged p % 4096 = 1 + i.toNat then
          BitVec.ofNat 64 (Map.get 0 s.ce.staged p / 4096) else s.rd (Reg.CE_COEF_SHIFT i.toNat)) ∧
        Map.get 0 t.ce.staged p = 0 ∧ sameRegsBut [Reg.CE_COEF_VALUE i.toNat, Reg.CE_COEF_SHIFT i.toNat] s t ∧ t.mem = s.mem) ∧
    (bitOf v.toNat 0 = false → exec (.ceSpcommit v) s = .next s) ∧
    (bitOf v.toNat 0 = true → s.spPending = false → completes (.ceSpcommit v) s fun t => t.spPending = true ∧
      t.ce.goAt = s.raw ∧ sameRegsBut [Reg.CE_SPCOMMIT] s t ∧ t.mem = s.mem) ∧
    (s.spPending = true →
      (bitOf v.toNat 0 = true → completes (.ceSpcommit v) s fun t => t.fld Reg.CE_ERR 7 0 = 8 ∧ t.ce = s.ce ∧
        sameRegsBut [Reg.CE_ERR] s t) ∧
      ∀ k, completes (.ceSpwWrite k v) s fun t => t.fld Reg.CE_ERR 7 0 = 8 ∧ sameRegsBut [Reg.CE_ERR] s t) ∧
    (s.spPending = false → ∀ k : BitVec 8, completes (.ceSpwWrite k v) s fun t => t.rd (Reg.CE_SPW k.toNat) = v.setWidth 64 ∧
      sameRegsBut [Reg.CE_SPW k.toNat] s t ∧ t.mem = s.mem) ∧
    (∀ i : BitVec 13,
      (s.progOwner i.toNat = none → completes (.ceProgWrite i v) s fun t => t.rd (Reg.CE_PMEM i.toNat) = v.setWidth 64 ∧
        sameRegsBut [Reg.CE_PMEM i.toNat] s t ∧ t.mem = s.mem) ∧
      ∀ n, s.progOwner i.toNat = some n → completes (.ceProgWrite i v) s fun t => t.fld Reg.CE_ERR 7 0 = 6 ∧
        t.fld Reg.CE_ERR 13 8 = n ∧ sameRegsBut [Reg.CE_ERR] s t) ∧
    (let caused := fun (c : Nat) (t : State) => t.regs = s.regs ∧ t.mem = s.mem ∧ t.hold =
        if s.holding then { s.hold with again := true } else if s.hold.cause.isSome then s.hold
        else { s.hold with cause := some c }
     completes .holdEngage s (caused 1) ∧
     (s.fld Reg.HOLD_CTRL 31 16 ≠ 0 → s.hold.swapAt + 1000000 * s.fld Reg.HOLD_CTRL 31 16 ≤ s.raw →
       completes .holdStale s (caused 2)) ∧
     (s.fld Reg.HOLD_CTRL 31 16 = 0 ∨ s.raw < s.hold.swapAt + 1000000 * s.fld Reg.HOLD_CTRL 31 16 → exec .holdStale s = .next s)) ∧
    (s.holding = false → exec .holdRelease s = .next s) ∧
    (s.holding = true →
      (s.hold.swapped = true → completes .holdRelease s fun t => t.hold = { s.hold with release := true } ∧ t.regs = s.regs) ∧
      (s.hold.swapped = false → completes .holdRelease s fun t => t.hold = s.hold ∧ t.flag Reg.HOLD_STATUS 27 = true ∧
        t.holding = true ∧ sameRegsBut [Reg.HOLD_STATUS] s t)) ∧
    ∀ p : BitVec 4, let e := s.enc p.toNat
      (s.encOn p.toNat = true → s.encQuad p.toNat = false → e.busy = false → e.word = none → s.flag Reg.CE_CTRL 0 = true →
        p.toNat ∈ s.portsAt s.ce.next → s.tickAt s.ce.next ≤ s.raw + 1000 * s.fld (Reg.ENC_CFG p.toNat) 15 10 →
        s.raw < s.tickAt s.ce.next → completes (.ssiTransferStart p) s fun t => t.enc p.toNat = { e with busy := true } ∧
          t.regs = s.regs ∧ t.mem = s.mem) ∧
      ∀ w : Word, e.busy = true → completes (.ssiTransferDone p w) s fun t =>
        t.enc p.toNat = { e with busy := false, word := some (w.toNat % 2 ^ 40) } ∧ t.regs = s.regs ∧ t.mem = s.mem
/-! ## The solver (R325 to R337) -/

/-- GO of a descriptor that keeps every rule starts a solve, which writes its WORK region and the measurements that it wrote back;
another ends at once with BAD_DESC and event 129; while one runs GO is ignored with GOBUSY; ABORT asks the running solve to end.
SOLV_DONE writes the solution and the status, counts, raises 129, and asks for a commit where AUTO is set, the code is OK or DEGRADED,
and STRICT finds no OVF or NEGPIV; an aborted solve ends with code 6 and no commit. The commit writes the setpoints that the map gives,
asks for the swap and clears BUSY, waits while a swap is pending, and gives up after 25 us (R333 to R336). It rests on the model's own
readings in assumptions 78 to 81. -/
def Obligations.SolverRunsAndCommits : Prop :=
  ∀ s : State,
    (s.flag Reg.SOLV_STATUS 31 = true → completes .solvGo s fun t => t.flag Reg.SOLV_STATUS 30 = true ∧ t.solv = s.solv ∧
      sameRegsBut [Reg.SOLV_STATUS] s t ∧ t.mem = s.mem) ∧
    (s.flag Reg.SOLV_STATUS 31 = false →
      let a := s.fld Reg.SOLV_DESC 31 7 * 128
      let d := s.solvDesc a
      (0xC0000 ≤ a ∨ s.solvDescOk a = false → completes .solvGo s fun t => t.fld Reg.SOLV_STATUS 15 0 = 0x400 ∧
        t.flag Reg.SOLV_STATUS 31 = false ∧ t.raised = s.raised ++ [129] ∧ t.solv = s.solv ∧ sameRegsBut [Reg.SOLV_STATUS] s t ∧
        sameMemBut [(homeSpace + d.status, 16)] s t) ∧
      (a < 0xC0000 → s.solvDescOk a = true → completes .solvGo s fun t => t.flag Reg.SOLV_STATUS 31 = true ∧ t.raised = s.raised ∧
        sameRegsBut [Reg.SOLV_STATUS] s t ∧ sameMemBut [(homeSpace + d.work, d.workLen), (homeSpace + d.meas, 4 * d.nmeas)] s t ∧
        ∃ r, t.solv.run = some r ∧ r.n = d.n ∧ r.out = d.out ∧ r.map = d.map ∧ r.status = some d.status ∧ r.deadline = d.deadline ∧
          r.auto = bitOf d.flags 0 ∧ r.strict = bitOf d.flags 1 ∧ r.aborted = false ∧ t.solv.commit = s.solv.commit)) ∧
    (∀ r, s.solv.run = some r →
      completes .solvAbort s (fun t => t.solv.run = some { r with aborted := true } ∧ t.regs = s.regs ∧ t.mem = s.mem) ∧
      ∀ st, r.status = some st → st + 16 ≤ r.out ∨ r.out + 4 * r.n ≤ st →
        (∀ missed : Bool, r.aborted = false ∨ missed = true → r.flags < 256 → r.code < 256 → r.xs = [] ∨ r.xs.length = r.n →
          completes (.solvDone missed) s fun t =>
            let code := if r.code ≤ 1 ∧ r.deadline ≠ 0 ∧ r.deadline < s.raw then 2 else r.code
            t.solv.run = none ∧ t.raised = s.raised ++ [129] ∧
            (r.xs ≠ [] → ∀ i < r.n, t.loadNat (homeSpace + r.out + 4 * i) 4 = r.xs.getD i 0 % 2 ^ 32) ∧
            t.loadNat (homeSpace + st) 1 = code ∧ t.loadNat (homeSpace + st + 1) 1 = r.flags ∧
            t.loadNat (homeSpace + st + 8) 8 = s.raw % 2 ^ 64 ∧ t.fld Reg.SOLV_STATUS 15 8 = code ∧
            t.fld Reg.SOLV_STATUS 7 0 = r.flags ∧
            t.fld Reg.SOLV_CNT 31 16 = (if code = 2 then min 65535 (s.fld Reg.SOLV_CNT 31 16 + 1) else s.fld Reg.SOLV_CNT 31 16) ∧
            t.fld Reg.SOLV_CNT 15 0 = min 65535 (s.fld Reg.SOLV_CNT 15 0 + r.reg) ∧
            (t.solv.commit.isSome = true ↔
              r.auto = true ∧ code ≤ 1 ∧ (r.strict = true → bitOf r.flags 1 = false ∧ bitOf r.flags 2 = false)) ∧
            t.flag Reg.SOLV_STATUS 31 = t.solv.commit.isSome ∧
            sameMemBut [(homeSpace + r.out, 4 * r.n), (homeSpace + st, 16)] s t ∧
            sameRegsBut [Reg.SOLV_STATUS, Reg.SOLV_CNT] s t) ∧
        (r.aborted = true → completes (.solvDone false) s fun t => t.solv.run = none ∧ t.solv.commit = none ∧
          t.raised = s.raised ++ [129] ∧ t.loadNat (homeSpace + st) 1 = 6 ∧ t.fld Reg.SOLV_STATUS 15 8 = 6 ∧
          t.flag Reg.SOLV_STATUS 31 = false ∧ sameMemBut [(homeSpace + r.out, 4 * r.n), (homeSpace + st, 16)] s t ∧
          sameRegsBut [Reg.SOLV_STATUS, Reg.SOLV_CNT] s t)) ∧
    (s.solv.run = none → exec .solvAbort s = .next s) ∧
    ∀ since r, s.solv.commit = some (since, r) →
      (s.spPending = false → r.flags < 8 → completes .solvCommit s fun t => t.spPending = true ∧ t.solv.commit = none ∧
        t.flag Reg.SOLV_STATUS 31 = false ∧
        (∀ i < r.n, ∀ k q sat, s.solvSetpoint r i = some (k, q, sat) →
          (∀ j < r.n, i < j → ∀ y, s.solvSetpoint r j = some y → y.1 ≠ k) → t.rd (Reg.CE_SPW k) = BitVec.ofNat 64 (q % 2 ^ 32)) ∧
        (∀ k < 256, (∀ i < r.n, ∀ y, s.solvSetpoint r i = some y → y.1 ≠ k) → t.rd (Reg.CE_SPW k) = s.rd (Reg.CE_SPW k)) ∧
        t.flag Reg.SOLV_STATUS 4 = true ∧
        (t.flag Reg.SOLV_STATUS 3 = true ↔ ∃ i < r.n, ∃ k q, s.solvSetpoint r i = some (k, q, true))) ∧
      (s.spPending = true → since + 25000 ≤ s.raw → completes .solvCommit s fun t => t.solv.commit = none ∧
        t.flag Reg.SOLV_STATUS 31 = false ∧ sameRegsBut [Reg.SOLV_STATUS] s t ∧ t.mem = s.mem) ∧
      (s.spPending = true → s.raw < since + 25000 → exec .solvCommit s = .next s)

/-! ## Security and debug (R458 to R472) -/

/-- The Keccak engine hashes always, and uses a key only while it is live; an attestation is the 512-byte report with the nonce,
signed with IK, for Ulnal or in the mailbox; a lifecycle record that keeps R465 and R466 is written into the other slot and raises
VERSION, and acts at the next reset only; another is refused (R460, R463 to R466, R498). It rests on the model's own readings in
assumptions 82 to 84, 86. -/
def Obligations.KeysAttestationAndLifecycleRecords : Prop :=
  ∀ s : State,
    (∀ n msg, completes (.keccakOp (.hash n msg)) s fun t => t = { s with out := .ok (shake256 n msg) }) ∧
    (s.sec.kPuf = true → completes (.keccakOp .publicKey) s (fun t => t = { s with out := .ok (ikPublic s.epoch) }) ∧
      (∀ msg, completes (.keccakOp (.sign msg)) s fun t => t = { s with out := .ok (ikSign s.epoch msg) }) ∧
      (∀ n msg, completes (.keccakOp (.rpmc n msg)) s fun t => t = { s with out := .ok (kmac256 n keyRk msg) }) ∧
      ∀ o n msg, s.life = 1 ∨ s.life = 2 → completes (.keccakOp (.seal o n msg)) s fun t =>
        t = { s with out := .ok (kmac256 n (keySeal o.toNat s.epoch) msg) }) ∧
    (s.sec.kPuf = false → ∀ op, (∀ n msg, op ≠ .hash n msg) → completes (.keccakOp op) s fun t => t = { s with out := .denied }) ∧
    (s.homeRuns = true →
      (∀ nonce : List (BitVec 8), nonce.length = 32 → s.sec.kPuf = true → completes (.attest (some nonce)) s fun t =>
        ∃ r, t.out = .ok (r ++ ikSign s.epoch r) ∧ r.length = 512 ∧ leNat (r.take 4) = 0x3154414E ∧ (r.drop 24).take 32 = deviceId s.epoch ∧
          (r.drop 56).take 32 = nonce ∧ t = { s with out := t.out }) ∧
      (∀ nonce, s.sec.kPuf = false → completes (.attest (some nonce)) s fun t => t = { s with out := .denied }) ∧
      (s.mailWaits = true → s.mailKind = 1 →
        (s.mailLen = 32 → s.sec.kPuf = true → completes (.attest none) s fun t => mailReplied 0 50368 s t ∧ t.regs = s.regs ∧
          t.load (replyBuf + 16 + 56) 32 = s.load (reqBuf + 8) 32) ∧
        (s.mailLen ≠ 32 → completes (.attest none) s fun t => mailReplied 2 0 s t ∧ t.regs = s.regs) ∧
        (s.mailLen = 32 → s.sec.kPuf = false → completes (.attest none) s fun t => mailReplied 3 0 s t ∧ t.regs = s.regs)) ∧
      (s.mailWaits = true → s.mailKind = 3 → ∀ (signer : BitVec 2) (locks : List (Nat × Nat)),
        let bytes := s.load (reqBuf + 8) 256
        let r : LifeRec := { bytes := bytes, signer := signer.toNat, locks := locks.take 64 }
        let epoch := if s.life = 3 then s.epoch + 1 else s.epoch
        let ok := recSound r = true ∧ transitionOk s.life (recState r) = true ∧ signerAllowed (recState r) signer.toNat = true ∧
          leNat ((bytes.drop 8).take 4) = s.flash.version + 1 ∧ leNat ((bytes.drop 12).take 4) = epoch % 2 ^ 32 ∧
          (bytes.drop 16).take 32 = deviceId (leNat ((bytes.drop 12).take 4)) ∧ s.flag Reg.SEC_LIFE 28 = true ∧ locks.length ≤ 64
        (s.mailLen ≠ 30048 → completes (.lifecycle signer locks) s fun t => mailReplied 2 0 s t ∧ t.flash = s.flash) ∧
        (s.mailLen = 30048 → ok → completes (.lifecycle signer locks) s fun t => mailReplied 0 0 s t ∧ t.regs = s.regs ∧
          t.flash.version = s.flash.version + 1 ∧ t.flash.newest = 1 - s.flash.newest ∧
          Map.get none t.flash.slots t.flash.newest = some r ∧ t.flash.svn = s.flash.svn) ∧
        (s.mailLen = 30048 → ¬ ok → completes (.lifecycle signer locks) s fun t => mailReplied 3 0 s t ∧ t.flash = s.flash ∧
          t.regs = s.regs)))
/-- Debug: CHAL writes a challenge for a level that can be granted; SUBMIT starts a verification unless LOCKOUT or BUSY stands; a
signature that R476 allows for the level grants it, another or a stale one fails and counts, the third failure locks out; D3 first
stops the permit, halts Home and resets the compute side, and then everything is zeroed and the keys are gone; RELOCK returns to D0;
under D2 a unit is halted and resumed, but not while the permit toggles (R468 to R472, R476). It rests on the model's own readings
in assumption 85. -/
def Obligations.DebugUnlocksHaltsAndRelocks : Prop :=
  ∀ s : State,
    (∀ lvl : BitVec 2,
      (levelReachable s.life lvl.toNat = true → completes (.chal lvl) s fun t => t.sec.chal = some lvl.toNat ∧ t.sec.stale = true ∧
        t.loadNat chalBuf 4 = 0x3142444E ∧ t.loadNat (chalBuf + 4) 1 = lvl.toNat ∧ t.loadNat (chalBuf + 5) 1 = s.life ∧
        sameMemBut [(chalBuf, 80)] s t ∧ sameRegsBut [Reg.SEC_DBGCTRL] s t) ∧
      (levelReachable s.life lvl.toNat = false → completes (.chal lvl) s fun t => t.sec = s.sec ∧ t.fld Reg.SEC_DBGSTAT 7 0 = 4 ∧
        t.mem = s.mem ∧ sameRegsBut [Reg.SEC_DBGCTRL, Reg.SEC_DBGSTAT] s t)) ∧
    (s.flag Reg.SEC_DBGSTAT 28 = true → completes .submit s fun t => t.fld Reg.SEC_DBGSTAT 7 0 = 5 ∧ t.sec = s.sec) ∧
    (s.flag Reg.SEC_DBGSTAT 28 = false → s.flag Reg.SEC_DBGSTAT 29 = true → completes .submit s fun t =>
      t.fld Reg.SEC_DBGSTAT 7 0 = 6 ∧ t.sec = s.sec) ∧
    (s.flag Reg.SEC_DBGSTAT 28 = false → s.flag Reg.SEC_DBGSTAT 29 = false → completes .submit s fun t =>
      t.flag Reg.SEC_DBGSTAT 29 = true ∧ t.sec.verifying = s.sec.chal ∧ t.sec.stale = false ∧ t.mem = s.mem ∧
      sameRegsBut [Reg.SEC_DBGSTAT] s t) ∧
    (s.flag Reg.SEC_DBGSTAT 29 = true → s.debugLevel ≠ 3 → ∀ (r : BitVec 2) (l : Nat), s.sec.verifying = some l → l < 4 →
      let failed := fun (code : Nat) (t : State) => t.fld Reg.SEC_DBGSTAT 7 0 = code ∧ t.debugLevel = s.debugLevel ∧
        t.fld Reg.SEC_DBGSTAT 27 26 = min 3 (s.fld Reg.SEC_DBGSTAT 27 26 + 1) ∧ t.flag Reg.SEC_DBGSTAT 29 = false ∧
        (2 ≤ s.fld Reg.SEC_DBGSTAT 27 26 → t.flag Reg.SEC_DBGSTAT 28 = true) ∧ t.mem = s.mem
      (s.sec.stale = true ∨ r = 3 → completes (.debugVerifyDone r) s (failed 3)) ∧
      (s.sec.stale = false → r ≠ 3 → unlockSigner s.life l r.toNat = false → completes (.debugVerifyDone r) s (failed 2)) ∧
      (s.sec.stale = false → r ≠ 3 → unlockSigner s.life l r.toNat = true → l ≠ 3 → completes (.debugVerifyDone r) s fun t =>
        t.debugLevel = l ∧ t.fld Reg.SEC_DBGSTAT 7 0 = 1 ∧ t.flag Reg.SEC_DBGSTAT 29 = false ∧ t.mem = s.mem ∧
        sameRegsBut [Reg.SEC_DBGSTAT] s t) ∧
      (s.sec.stale = false → r ≠ 3 → unlockSigner s.life l r.toNat = true → l = 3 → completes (.debugVerifyDone r) s fun t =>
        t.sec.d3 = true ∧ t.flag Reg.PERMIT_STATUS 31 = false ∧ t.cstate = 1 ∧ computeOff s t ∧
        Map.get 0 t.sec.halts 10 ≠ 0 ∧ Map.get 0 t.sec.halts 11 ≠ 0)) ∧
    (s.sec.d3 = true → completes .d3GrantDone s fun t => t.debugLevel = 3 ∧ t.fld Reg.SEC_DBGSTAT 7 0 = 1 ∧ t.sec.kPuf = false ∧
      t.sec.d3 = false ∧ ∀ k < peerKey 0, t.loadByte k = 0) ∧
    (s.debugLevel = 3 ∨ s.sec.d3 = true → exec .relock s = .next s) ∧
    (s.debugLevel ≠ 3 → s.sec.d3 = false → completes .relock s fun t => t.debugLevel = 0 ∧ t.flag Reg.SEC_DBGSTAT 24 = false ∧
      t.place.held = [] ∧ t.place.scrub = s.place.scrub ++ s.place.held ∧ t.mem = s.mem ∧ sameRegsBut [Reg.SEC_DBGSTAT] s t) ∧
    ∀ u : Fin 12,
      (s.debugLevel < 2 ∨ s.unitInReach u = false → completes (.debugHalt u) s (fun t => t = { s with out := .denied }) ∧
        completes (.debugResume u) s fun t => t = { s with out := .denied }) ∧
      (2 ≤ s.debugLevel → s.unitInReach u = true → s.flag Reg.PERMIT_STATUS 31 = true → completes (.debugHalt u) s fun t =>
        t.fld Reg.SEC_DBGSTAT 7 0 = 7 ∧ t.sec = s.sec ∧ t.faces = s.faces) ∧
      (2 ≤ s.debugLevel → s.unitInReach u = true → s.flag Reg.PERMIT_STATUS 31 = false → Map.get 0 s.sec.halts u = 0 →
        completes (.debugHalt u) s fun t => Map.get 0 t.sec.halts u = s.raw + 1 ∧ t.flag Reg.SEC_DBGSTAT 25 = true ∧
          (u.val < 6 → t.face u = { s.face u with halted := true }) ∧ sameFacesBut u s t ∧ t.mem = s.mem ∧
          sameRegsBut [Reg.SEC_DBGSTAT] s t) ∧
      (2 ≤ s.debugLevel → s.unitInReach u = true → 0 < Map.get 0 s.sec.halts u → s.debugLevel ≠ 3 ∨ u.val < 10 →
        completes (.debugResume u) s fun t => Map.get 0 t.sec.halts u = 0 ∧ t.flag Reg.SEC_DBGSTAT 25 = !t.sec.halts.isEmpty ∧
          (u.val < 6 → (t.face u).halted = false ∧ (t.face u).firstIssue =
            (s.face u).firstIssue.map (fun t0 => t0 + (s.raw + 1 - Map.get 0 s.sec.halts u))) ∧ sameFacesBut u s t ∧ t.mem = s.mem)
/-! ## Power (R20, R473 to R486, R518 to R522) -/

/-- Power states: Ulnal's request for Full, Trim or Doze gates the Faces that it names, or finds BUSY; Home firmware's for Retain,
Watch or back is refused under a debug hold or in FAILED, and ignored while one is under way or changes nothing; a transition
completes once no Face to be gated runs, Watch loses HBM and Retain keeps it; the mailbox answers with SEC_PSTATE (R473 to R475, R498). The governor and the limits: a trim is held within 10
steps; a tick sets VCORE from the limit, the sensors and the range of PWR_CAP; a junction, droop or current limit clamps and is
logged, and releases; a trip and the supply conditions record SUPPLY, VHOME and VFIELD stop the permit, and without VHOME the Home
window is not served; the energy counters add, and the energy of a domain that is shared goes to the jobs' records in proportion to
what each has gained; VOUT is written with exponent -12 (R18, R20, R271, R480 to R486, R520 to R522). It rests on the model's own readings in
assumptions 88 to 91, 132.
-/
def Obligations.PowerStatesLimitsAndSupplies : Prop :=
  (∀ s : State,
    (∀ v : BitVec 3,
      (s.flag Reg.SEC_PSTATE 25 = true → completes (.pwrStateWrite v) s fun t => t.flag Reg.PWR_STATUS 55 = true ∧ t.pwr = s.pwr ∧
        t.faces = s.faces ∧ sameRegsBut [Reg.PWR_STATUS] s t) ∧
      (s.flag Reg.SEC_PSTATE 25 = false → v.toNat ≤ 2 → completes (.pwrStateWrite v) s fun t => t.pwr.toUlnal = some v.toNat ∧
        t.fld Reg.PWR_CTRL 6 4 = v.toNat ∧ (∀ f < 6, (t.face f).gated = ((s.face f).gated || (s.gatedIn v.toNat).contains f)) ∧
        sameRegsBut [Reg.PWR_CTRL] s t ∧ t.mem = s.mem) ∧
      (s.flag Reg.SEC_PSTATE 25 = false → 2 < v.toNat → exec (.pwrStateWrite v) s = .next s)) ∧
    (∀ v : BitVec 3, ((v ≠ 0 ∧ v ≠ 3 ∧ v ≠ 4) ∨ s.flag Reg.SEC_PSTATE 25 = true ∨ v.toNat = s.pstate ∨ (v = 0 ∧ s.pstate < 3) →
        exec (.secPstateWrite v) s = .next s) ∧
      (v = 3 ∨ v = 4 → s.flag Reg.SEC_PSTATE 25 = false → v.toNat ≠ s.pstate →
        (s.flag Reg.SEC_DBGSTAT 24 = true → completes (.secPstateWrite v) s fun t => t.flag Reg.SEC_PSTATE 24 = true ∧
          t.fld Reg.SEC_PSTATE 7 0 = 1 ∧ t.pwr = s.pwr ∧ sameRegsBut [Reg.SEC_PSTATE] s t) ∧
        (s.flag Reg.SEC_DBGSTAT 24 = false → s.cstate = 4 → completes (.secPstateWrite v) s fun t =>
          t.flag Reg.SEC_PSTATE 24 = true ∧ t.fld Reg.SEC_PSTATE 7 0 = 2 ∧ t.pwr = s.pwr ∧ sameRegsBut [Reg.SEC_PSTATE] s t) ∧
        (s.flag Reg.SEC_DBGSTAT 24 = false → s.cstate ≠ 4 → completes (.secPstateWrite v) s fun t =>
          t.flag Reg.SEC_PSTATE 25 = true ∧ t.fld Reg.SEC_PSTATE 28 26 = v.toNat ∧ t.pwr.toHome = some v.toNat ∧ t.mem = s.mem ∧
          sameRegsBut [Reg.SEC_PSTATE] s t)) ∧
      (v = 0 → s.flag Reg.SEC_PSTATE 25 = false → 3 ≤ s.pstate → s.cstate = 4 → completes (.secPstateWrite v) s fun t =>
        t.flag Reg.SEC_PSTATE 24 = true ∧ t.fld Reg.SEC_PSTATE 7 0 = 2 ∧ t.pwr = s.pwr ∧ sameRegsBut [Reg.SEC_PSTATE] s t) ∧
      (v = 0 → s.flag Reg.SEC_PSTATE 25 = false → 3 ≤ s.pstate → s.cstate ≠ 4 → completes (.secPstateWrite v) s fun t =>
        t.flag Reg.SEC_PSTATE 25 = true ∧ t.pwr.toHome = some 0 ∧ t.pwr.coreEn = true)) ∧
    (∀ p, s.pwr.toHome = some p → p = 3 ∨ p = 4 → (∀ f < 6, (s.face f).running = false) → completes .powerTransitionDone s fun t =>
      t.pstate = p ∧ t.fld Reg.PWR_STATUS 2 0 = p ∧ t.flag Reg.SEC_PSTATE 25 = false ∧ t.cstate = 0 ∧ computeOff s t ∧
      t.pwr.coreEn = false ∧ t.pwr.toHome = none ∧ (p = 4 → t.pwr.hbmEn = false) ∧
      ∀ k < 0x600000000, t.loadByte k = if p = 4 then 0 else s.loadByte k) ∧
    (s.pwr.toHome = some 0 → s.pwr.pgCore = true → completes .powerTransitionDone s fun t => t.pstate = 0 ∧
      t.flag Reg.SEC_PSTATE 25 = false ∧ t.pwr.toHome = none ∧ (s.pstate = 4 → t.stage = 0x11) ∧
      (s.pstate ≠ 4 → t.cstate = 1 ∧ t.stage = 0x12)) ∧
    (∀ p, s.pwr.toHome = none → s.pwr.toUlnal = some p → p ≤ 2 → (∀ f ∈ s.gatedIn p, (s.face f).running = false) →
      completes .powerTransitionDone s fun t => t.pstate = p ∧ t.pwr.toUlnal = none ∧
        ∀ f < 6, (s.face f).gated = true → f ∉ s.gatedIn p → (t.face f).gated = false) ∧
    ((∃ p, s.pwr.toHome = some p ∧ ((p ≠ 0 ∧ ∃ f < 6, (s.face f).running = true) ∨ (p = 0 ∧ s.pwr.pgCore = false))) ∨
      (s.pwr.toHome = none ∧ ∃ p, s.pwr.toUlnal = some p ∧ ∃ f ∈ s.gatedIn p, (s.face f).running = true) →
      exec .powerTransitionDone s = .next s) ∧
    (s.homeRuns = true → s.mailWaits = true → s.mailKind = 2 →
      (s.mailLen ≠ 1 → completes .power s fun t => mailReplied 2 0 s t ∧ t.regs = s.regs ∧ t.pwr = s.pwr) ∧
      (s.mailLen = 1 → completes .power s fun t => ∃ st, (st = 0 ∨ st = 3) ∧ mailReplied st 4 s t ∧
        t.loadNat (replyBuf + 16) 4 = (t.rd Reg.SEC_PSTATE).toNat % 2 ^ 32 ∧ sameRegsBut [Reg.SEC_PSTATE] s t ∧
        ((s.loadNat (reqBuf + 8) 1 ≠ 0 ∧ s.loadNat (reqBuf + 8) 1 ≠ 3 ∧ s.loadNat (reqBuf + 8) 1 ≠ 4) → st = 3 ∧ t.pwr = s.pwr)) ∧
      (s.mailLen = 1 → s.loadNat (reqBuf + 8) 1 = 3 → s.flag Reg.SEC_PSTATE 25 = false → s.pstate < 3 →
        s.flag Reg.SEC_DBGSTAT 24 = false → s.cstate ≠ 4 → completes .power s fun t => mailReplied 0 4 s t ∧
          t.pwr.toHome = some 3 ∧ t.loadNat (replyBuf + 16) 4 = (t.rd Reg.SEC_PSTATE).toNat % 2 ^ 32))) ∧
  (∀ s : State,
    (∀ (n : Fin 6) (v : Word), completes (.pwrTrimWrite n v) s fun t => t.trim n = max (-10) (min 10 (signed 8 (v.toNat % 256))) ∧
      t.pinned n = bitOf v.toNat 8 ∧ sameRegsBut [Reg.PWR_TRIM n, Reg.PWR_STATUS, Reg.PWR_CLAMPLOG] s t ∧ t.mem = s.mem) ∧
    (∀ (mw : Nat) (tj : List Int) (common : Int),
      (s.cstate ≠ 3 ∨ s.raw < s.pwr.tickAt + 1000000 → exec (.governorTick mw tj common) s = .next s) ∧
      (s.cstate = 3 → s.pwr.tickAt + 1000000 ≤ s.raw → completes (.governorTick mw tj common) s fun t =>
        let hist := s.pwr.history || decide (1000 ≤ s.pwr.ticks)
        let hottest := (List.range 6).foldl (fun m k => max m (tj.getD k 0)) common
        t.pwr.tickAt = s.raw ∧ t.pwr.history = hist ∧ t.flag Reg.PWR_STATUS 54 = hist ∧ t.mem = s.mem ∧ t.faces = s.faces ∧
        sameRegsBut ([Reg.PWR_STATUS, Reg.PWR_CAP, Reg.PWR_CLAMPLOG] ++ (List.range 6).map Reg.PWR_TRIM) s t ∧
        ∃ v0 : Int, (s.vcore ≠ 0 → v0 = s.vcore) ∧ (s.vcore = 0 → 600 ≤ v0 ∧ v0 ≤ 900) ∧
          let v := if hist then v0 + vStep (min s.envelopeMw s.wcapMw) mw (decide (tjSoft ≤ common)) (decide (hottest < tjSoft - 3))
            else 700
          (t.vcore : Int) = max 600 (min 900 (max (s.fld Reg.PWR_CAP 31 16 : Int) (min (s.fld Reg.PWR_CAP 47 32 : Int) v))))) ∧
    (let mv := (min 900 s.topMv).toNat
     s.vcore ≠ 0 → mv ≠ s.pwr.voutMv → completes .pmbusVoutWrite s fun t => t.pwr.voutMv = mv ∧
      (t.pwr.vout = mv * 4096 / 1000 ∨ (mv * 4096 % 1000 ≠ 0 ∧ t.pwr.vout = mv * 4096 / 1000 + 1)) ∧ t.regs = s.regs ∧ t.mem = s.mem) ∧
    (let clamped := fun (k : Nat) (t : State) => t.flag Reg.PWR_STATUS 63 = true ∧ t.flag Reg.PWR_CLAMPLOG k = true ∧
      (s.pwr.acting < 512 → bitOf s.pwr.acting k = false → t.raised = s.raised ++ [19]) ∧
      sameRegsBut [Reg.PWR_STATUS, Reg.PWR_CLAMPLOG] s t ∧ t.mem = s.mem
     (∀ (d : Fin 7) (x : Int), tjMax ≤ x → completes (.junctionThrottle d x) s fun t => clamped 1 t ∧
        Map.get 0 t.pwr.junction d = if tjMax + 5 ≤ x then 2 else 1) ∧
     completes .droop s (fun t => clamped 2 t ∧ t.pwr.droop = true) ∧ completes .icc s (fun t => clamped 3 t ∧ t.pwr.icc = true)) ∧
    (∀ d : Fin 7, completes (.throttleRelease 0 d) s (fun t => Map.get 0 t.pwr.junction d = 0 ∧ t.pwr.droop = s.pwr.droop ∧
        t.pwr.icc = s.pwr.icc ∧ t.mem = s.mem) ∧
      completes (.throttleRelease 1 d) s (fun t => t.pwr.droop = false ∧ t.pwr.junction = s.pwr.junction ∧ t.mem = s.mem) ∧
      completes (.throttleRelease 2 d) s (fun t => t.pwr.icc = false ∧ t.pwr.junction = s.pwr.junction ∧ t.mem = s.mem) ∧
      ∀ x, tjMax + 10 ≤ x → completes (.junctionTrip d x) s (deviceFault 0x0D s)) ∧
    (∀ uj : List Nat, completes (.energyFold uj) s fun t =>
      (∀ d < 11, t.rd (Reg.PWR_ENERGY d) = s.rd (Reg.PWR_ENERGY d) + BitVec.ofNat 64 (uj.getD d 0)) ∧
      (∀ a, (∀ d < 11, a ≠ Reg.PWR_ENERGY d) → t.rd a = s.rd a) ∧ (s.acctFull = false → t.mem = s.mem) ∧
      sameMemBut ((List.range 16).map fun j => (devKey (0x7F80020000 + j * 0x400 + 0x90), 8)) s t) ∧
    (∀ d uj : Nat, shareBy d ≠ [] → s.acctFull = true → s.pwr.vhomeOut = false →
      let due := Map.get 0 s.pwr.shareDue d + uj
      let total := (List.range 16).foldl (fun m j => m + s.shareGain d j) 0
      total ≠ 0 → ∀ j < 16, let key := devKey (0x7F80020000 + j * 0x400 + 0x90)
        (s.shareEnergy d uj).loadNat key 8 =
          if due * s.shareGain d j / total = 0 then s.loadNat key 8
          else min (2 ^ 64 - 1) (s.loadNat key 8 + due * s.shareGain d j / total)) ∧
    (∀ c : BitVec 4,
      (c.toNat < 3 ∨ (c = 3 ∧ s.pwr.coreEn = true) ∨ (c = 4 ∧ s.pwr.coreEn = true ∧ s.pwr.pgCore = false ∧
        s.pwr.coreEnAt + 10000000 ≤ s.raw) → completes (.supply c) s (deviceFault 0x0D s)) ∧
      (c = 5 ∨ c = 7 → s.flag Reg.PERMIT_STATUS 31 = true → completes (.supply c) s fun t => t.flag Reg.PERMIT_STATUS 31 = false ∧
        t.fld Reg.PERMIT_STATUS 30 28 = (if c = 5 then 4 else 6) ∧ 145 ∈ t.raised ∧ sameRegsBut [Reg.PERMIT_STATUS] s t ∧
        t.mem = s.mem) ∧
      (c = 5 → completes (.supply c) s fun t => t.pwr.vhomeOut = true ∧ ∀ a, isHomeWindow a = true → t.mapped a = false) ∧
      (c = 7 → completes (.supply c) s fun t => 144 ∈ t.raised) ∧
      (c = 8 → completes (.supply c) s fun t => t = { s with pwr := { s.pwr with vhomeOut := false } }) ∧
      (c = 6 → exec (.supply c) s = exec .powerOnReset s)) ∧
    completes .pmbAlert s (deviceFault 0x0D s) ∧
    (s.pwr.coreEn = true → completes .pgCore s fun t => t.pwr.pgCore = true ∧ t.regs = s.regs ∧ t.mem = s.mem))

/-! ## Events, the mailbox and the host's registers (R498 to R505) -/

/-- Events: software sources are raised by the compute side, and by Home while the gate is up; the oldest raised source is delivered
to the subscribers that its register names; a new SEQ and a reply raise 149 and 150; CRST records HOME_REQ where it is enabled,
PSTOP stops the permit, the host's doorbell raises 21; a host window opens on a region that is one (R498, R499, R501 to R505). It
rests on the model's own readings in assumptions 94, 96. -/
def Obligations.EventsMailboxAndHostControls : Prop :=
  ∀ s : State,
    (∀ v : Word, (256 ≤ v.toNat % 512 → completes (.evtpRaise v) s fun t => t = { s with raised := s.raised ++ [v.toNat % 512] }) ∧
      (v.toNat % 512 < 256 → exec (.evtpRaise v) s = .next s)) ∧
    (∀ v : BitVec 32, (s.gateDown = false → 256 ≤ v.toNat % 512 → completes (.evhRaise v) s fun t =>
        t = { s with raised := s.raised ++ [v.toNat % 512] }) ∧
      (s.gateDown = true ∨ v.toNat % 512 < 256 → exec (.evhRaise v) s = .next s)) ∧
    (∀ k rest, s.raised = k :: rest → k < 512 →
      let a := Reg.EVT_SRC k
      let home := 128 ≤ k ∧ k < 256
      let routed := if s.flag a 60 = true ∧ s.fld a 55 53 < s.vfCountOf (s.fld a 59 56) then
        [⟨s.fld a 59 56, s.fld a 55 53, s.fld a 52 49, 1⟩] else []
      let reached := fun (yes : Bool) (r w : Nat) (t : State) => t.flag r (k % w) = (yes || s.flag r (k % w))
      let frame := fun t : State => t.raised = rest ∧ t.mem = s.mem ∧
        sameRegsBut [Reg.EVTP_PEND (k / 64), Reg.EVH_PEND (k / 32), Reg.CPH_PEND (k / 32)] s t
      (home → completes .eventDeliver s fun t => frame t ∧ reached true (Reg.EVH_PEND (k / 32)) 32 t ∧
        reached (s.flag (Reg.EVH_HOST ((k - 128) / 32)) (k % 32)) (Reg.CPH_PEND (k / 32)) 32 t ∧
        reached (s.cstate == 3 && s.flag a 63) (Reg.EVTP_PEND (k / 64)) 64 t ∧
        t.inFlight = s.inFlight ++ if s.cstate = 3 then routed else []) ∧
      (¬ home → completes .eventDeliver s fun t => frame t ∧ reached (s.flag a 63) (Reg.EVTP_PEND (k / 64)) 64 t ∧
        reached (s.flag a 62) (Reg.EVH_PEND (k / 32)) 32 t ∧ reached (s.flag a 61) (Reg.CPH_PEND (k / 32)) 32 t ∧
        t.inFlight = s.inFlight ++ routed)) ∧
    (∀ q : BitVec 16, completes (.cpMbox q) s fun t => t.fld Reg.CPH_MBOX 15 0 = q.toNat ∧
      t.raised = s.raised ++ (if s.fld Reg.CPH_MBOX 15 0 = q.toNat then [] else [149]) ∧ sameRegsBut [Reg.CPH_MBOX] s t ∧
      t.mem = s.mem) ∧
    (∀ q : BitVec 16, completes (.cpReply q none) s (fun t => t.fld Reg.CPH_MBOX 31 16 = q.toNat ∧ t.raised = s.raised ++ [150] ∧
        sameRegsBut [Reg.CPH_MBOX] s t ∧ t.mem = s.mem) ∧
      ∀ (st : BitVec 8) (bs : List (BitVec 8)), bs.length ≤ 65520 → completes (.cpReply q (some (st, bs))) s fun t =>
        mailReplied st.toNat bs.length s t ∧ t.load (replyBuf + 16) bs.length = bs ∧ t.fld Reg.CPH_MBOX 31 16 = q.toNat ∧
        t.raised = s.raised ++ [150]) ∧
    (s.flag Reg.CPH_CFG 0 = false → exec .crst s = .next s) ∧
    (s.flag Reg.CPH_CFG 0 = true → completes .crst s (deviceFault 0x0F s)) ∧
    completes .pstop s (fun t => t.flag Reg.PERMIT_STATUS 31 = false ∧
      (s.flag Reg.PERMIT_STATUS 31 = true → t.fld Reg.PERMIT_STATUS 30 28 = 2 ∧ t.raised = s.raised ++ [145]) ∧
      sameRegsBut [Reg.PERMIT_STATUS] s t ∧ t.mem = s.mem) ∧
    (∀ v : BitVec 32, s.cstate = 3 → s.gateDown = false → completes (.cpDoorbell v) s fun t =>
      t.fld Reg.CPB_DOORBELL 31 0 = v.toNat ∧ t.raised = s.raised ++ [21] ∧ sameRegsBut [Reg.CPB_DOORBELL] s t ∧ t.mem = s.mem) ∧
    (∀ v : BitVec 32, s.cstate ≠ 3 ∨ s.gateDown = true → exec (.cpDoorbell v) s = .next s) ∧
    ∀ (w : BitVec 3) (v : Word), let a := Reg.CPB_WINA w.toNat
      completes (.cpbWinWrite w false v) s (fun t => t.fld a 47 12 = bits v.toNat 47 12 ∧ t.flag a 62 = bitOf v.toNat 62 ∧
        t.flag a 63 = (bitOf v.toNat 63 && regionOk (bits v.toNat 47 12 * 4096) (s.hostWin w.toNat).2) ∧
        sameRegsBut [a] s t ∧ t.mem = s.mem) ∧
      completes (.cpbWinWrite w true v) s fun t => t.fld (Reg.CPB_WINB w.toNat) 39 12 = bits v.toNat 39 12 ∧
        t.flag a 63 = (s.flag a 63 && regionOk (s.hostWin w.toNat).1 (bits v.toNat 39 12 * 4096)) ∧
        sameRegsBut [a, Reg.CPB_WINB w.toNat] s t ∧ t.mem = s.mem
/-! ## The command port (R488 to R500) -/

/-- A transaction: no answer from a port that is off or to an incomplete request; CRC_ERR and BAD_REQ for a request that fails its CRC
or its form; a repeat of the last request answered again without effect; NOT_READY from ROM; STATUS; a Home location read and written,
BUS_ERROR where there is none and DENIED where it is read-only; device memory read and written, and registers read, where a window or
R500 gives them, COMPUTE_DOWN, DENIED and BUS_ERROR where that cannot be, MEM_ERROR of bad data; TIMEOUT counted, while a write may
still land (R491 to R500). It rests on the model's own readings in assumption 95. -/
def Obligations.CommandPortAnswersRequests : Prop :=
  ∀ (bs : List (BitVec 8)) (s : State),
    (s.portOn = false ∨ cpParse bs = none → ∀ c ∈ [Instr.cpRead bs false, .cpWrite bs, .cpStatus bs, .cpTimeout bs false],
      completes c s fun t => t = { s with out := .none }) ∧
    (s.portOn = true → ∀ r, cpParse bs = some r → r.tag < 256 →
      let send := if r.op = 2 then Instr.cpWrite bs else if r.op = 3 then .cpStatus bs else .cpRead bs false
      (r.crcOk = false → completes send s fun t => portAnswered 1 r.tag [] t ∧
        t.fld Reg.CPH_CNT 31 16 = min 65535 (s.fld Reg.CPH_CNT 31 16 + 1) ∧ sameRegsBut [Reg.CPH_CNT] s t ∧ t.mem = s.mem ∧
        t.cpLast = s.cpLast) ∧
      (r.crcOk = true → r.sound = false → completes send s fun t =>
        portAnswered 2 r.tag [] t ∧ t.regs = s.regs ∧ t.mem = s.mem ∧ t.cpLast = s.cpLast) ∧
      (r.crcOk = true → r.sound = true →
        (∀ l, s.cpLast = some l → r.flags = 1 → l.tag = r.tag → l.crc = r.crc → completes send s fun t =>
          t = { s with out := cpPacket (replayed l.resp) }) ∧
        ((∀ l, s.cpLast = some l → ¬ (r.flags = 1 ∧ l.tag = r.tag ∧ l.crc = r.crc)) →
          (r.op = 3 → completes (.cpStatus bs) s fun t => portAnswered 0 r.tag s.cpStatusBytes t ∧ s.cpStatusBytes.length = 32 ∧
            t.regs = s.regs ∧ t.mem = s.mem ∧ ∃ l, t.cpLast = some l ∧ l.tag = r.tag ∧ l.crc = r.crc) ∧
          (s.romStage = true → r.op ≠ 3 → completes send s fun t => portAnswered 6 r.tag [] t ∧ t.regs = s.regs ∧ t.mem = s.mem) ∧
          (s.romStage = false → r.space = 1 → r.op ≠ 3 →
            (cpWords r = none → completes send s fun t => portAnswered 5 r.tag [] t ∧ t.regs = s.regs ∧ t.mem = s.mem) ∧
            (∀ ws, cpWords r = some ws →
              (r.op = 1 → completes (.cpRead bs false) s fun t =>
                portAnswered 0 r.tag (ws.flatMap fun w => leBytes 4 (s.cpWordRead w)) t ∧ t.regs = s.regs ∧ t.mem = s.mem) ∧
              (r.op = 2 → (∃ w ∈ ws, w.write = false) → completes (.cpWrite bs) s fun t =>
                portAnswered 3 r.tag [] t ∧ t.regs = s.regs ∧ t.mem = s.mem) ∧
              (r.op = 2 → (∀ w ∈ ws, w.write = true) → completes (.cpWrite bs) s fun t => portAnswered 0 r.tag [] t)) ∧
            (r.op = 2 → r.len = 4 → 0x20000 ≤ r.addr → r.addr < 0x28000 → r.data.length = 4 → completes (.cpWrite bs) s fun t =>
              portAnswered 0 r.tag [] t ∧ t.load (portBuf r.addr) 4 = r.data ∧ sameMemBut [(portBuf r.addr, 4)] s t ∧
              t.regs = s.regs)) ∧
          (s.romStage = false → r.space = 0 → r.op ≠ 3 →
            let refused := fun (status : Nat) => completes send s fun t => portAnswered status r.tag [] t ∧ t.regs = s.regs ∧ t.mem = s.mem
            (s.cstate ≠ 3 ∨ s.gateDown = true → refused 4) ∧
            (s.cstate = 3 → s.gateDown = false → s.hostMay r = false → refused 3) ∧
            (s.cstate = 3 → s.gateDown = false → s.hostMay r = true →
              (s.unscrubbed r.addr r.len = true → refused 5) ∧
              (s.unscrubbed r.addr r.len = false →
                (r.op = 1 → isRegPage r.addr = false → completes (.cpRead bs false) s fun t =>
                  portAnswered 0 r.tag (s.load r.addr r.len) t ∧ t.regs = s.regs ∧ t.mem = s.mem) ∧
                (r.op = 1 → isRegPage r.addr = true → completes (.cpRead bs false) s fun t =>
                  portAnswered 0 r.tag (s.bridgeReads r.addr (r.len / 4)).1 t ∧ t.regs = s.regs ∧ t.mem = s.mem) ∧
                (r.op = 1 → completes (.cpRead bs true) s fun t => portAnswered 8 r.tag [] t ∧ t.regs = s.regs ∧ t.mem = s.mem) ∧
                (r.op = 2 → isRegPage r.addr = false →
                  let landed := fun t : State => t.load r.addr r.data.length = r.data ∧ sameMemBut [(r.addr, r.data.length)] s t
                  (completes (.cpWrite bs) s fun t => portAnswered 0 r.tag [] t ∧ landed t ∧ t.regs = s.regs) ∧
                  completes (.cpTimeout bs true) s fun t => portAnswered 7 r.tag [] t ∧ landed t ∧
                    t.fld Reg.CPH_CNT 15 0 = min 65535 (s.fld Reg.CPH_CNT 15 0 + 1) ∧ sameRegsBut [Reg.CPH_CNT] s t) ∧
                (r.op = 2 → r.addr = Reg.CPB_DOORBELL → completes (.cpWrite bs) s fun t => portAnswered 0 r.tag [] t ∧
                  t.fld Reg.CPB_DOORBELL 31 0 = leNat (r.data.take 4) % 2 ^ 32 ∧ t.raised = s.raised ++ [21] ∧ t.mem = s.mem) ∧
                completes (.cpTimeout bs false) s fun t => portAnswered 7 r.tag [] t ∧
                  t.fld Reg.CPH_CNT 15 0 = min 65535 (s.fld Reg.CPH_CNT 15 0 + 1) ∧ sameRegsBut [Reg.CPH_CNT] s t ∧
                  t.mem = s.mem))))))

/-! ## Resets and boot (R449 to R451, R461 to R467, R508 to R513) -/

/-- POWER_ON_RESET leaves the state after reset, but for the boot flash; a HOME_RST_N of 1 us or more does so too, but for what is
said of Home memory (assumption 2), and of VHOME, which no reset brings back into range: HBM has lost its bytes. FRST of an idle Face
starts its reset, and of a running one sets FRDENY; the reset of a Face clears its store, banks, blocks and command; SYS_CTRL releases
Doubles, and sets DLS of a held Double only (R510 to R513). -/
def Obligations.ResetsOfTheDeviceAndOfAFace : Prop :=
  ∀ s : State,
    completes .powerOnReset s (fun t => t = { State.reset with pending := s.pending, fresh := s.fresh, flash := s.flash }) ∧
    (∀ ns, 1000 ≤ ns → completes (.homeRstN ns) s fun t =>
      t = { State.reset with
        pending := s.pending, fresh := s.fresh, flash := s.flash, mem := t.mem
        pwr := { State.reset.pwr with vhomeOut := s.pwr.vhomeOut } } ∧
      (∀ k < 0x600000000, t.loadByte k = 0) ∧ ∀ k, homeSpace ≤ k → k < homeSpace + 0x100000 → t.loadByte k = s.loadByte k) ∧
    (∀ m : BitVec 6, completes (.frst m) s fun t => t.mem = s.mem ∧
      ∀ f < 6, (bitOf m.toNat f = true → (s.face f).running = false → (t.face f).resetting = true ∧ t.flag Reg.SYS_STATUS f = true) ∧
        (bitOf m.toNat f = true → (s.face f).running = true → t.face f = s.face f ∧ t.flag Reg.SYS_STATUS 6 = true) ∧
        (bitOf m.toNat f = false → t.face f = s.face f)) ∧
    (∀ f : Fin 6, (s.face f).resetting = true → completes (.faceResetDone f) s fun t =>
      (t.face f).resetting = false ∧ (t.face f).running = false ∧ (t.face f).window = [] ∧ t.flag Reg.SYS_STATUS f = false ∧
      sameFacesBut f s t ∧ (∀ k, storeBase f ≤ k → k < storeBase f + storeBytes → t.loadByte k = 0) ∧
      (∀ k, bankKey f 0 ≤ k → k < bankKey f 16 → t.loadByte k = 0) ∧
      (∀ a, faceBlockKey f a = true → t.rd a = regReset a) ∧ ∀ a, faceBlockKey f a = false → a ≠ Reg.SYS_STATUS → t.rd a = s.rd a) ∧
    ∀ v : Word, completes (.sysCtrlDoubleWrite v) s fun t => t.fld Reg.SYS_CTRL 15 12 = bits v.toNat 15 12 ∧ t.mem = s.mem ∧
      ∀ d < 4, t.flag Reg.SYS_CTRL (16 + d) =
        if s.flag Reg.SYS_CTRL (12 + d) then s.flag Reg.SYS_CTRL (16 + d) else bitOf v.toNat (16 + d)
/-- A device fault resets the compute side, which stays in FAILED after more than RST_MAX in 10 s; a restart releases it once the
supplies are good, puts STAGE0 into the Board and reloads the jobs; a job whose link is down ends and reloads; boot goes through its
stages, and UP starts the heartbeat (R449 to R451, R461 to R467, R508, R509, R513). It rests on the model's own readings in
assumptions 86, 92, 93. -/
def Obligations.ComputeSideResetsRestartsAndBoots : Prop :=
  ∀ s : State,
    (s.safe.resetDue = true →
      let n := (s.raw :: within10 s.raw s.safe.resets).length
      (n ≤ max 1 (s.fld Reg.HFLT_CTRL 23 20) → completes .computeReset s fun t => computeOff s t ∧ t.cstate = 1 ∧
        148 ∈ t.raised ∧ t.fld Reg.HFLT_STATUS 19 16 = min 15 n ∧ t.kept = { s.kept with zeroDue := t.kept.zeroDue } ∧
        ∀ k < 0x600000000, t.loadByte k = s.loadByte k) ∧
      (max 1 (s.fld Reg.HFLT_CTRL 23 20) < n → completes .computeReset s fun t => computeOff s t ∧ t.cstate = 4 ∧ 147 ∈ t.raised ∧
        t.stage = 0x83)) ∧
    (∀ plans, (s.cstate = 1 → s.releasable = true → completes (.computeRestart plans) s fun t => t.cstate = 2 ∧ t.stage = 0x12 ∧
        t.safe.bootAt = s.raw ∧ t.mem = s.mem) ∧
      (s.cstate = 2 → s.safe.boardOpen = false → completes (.computeRestart plans) s fun t => t.safe.boardOpen = true ∧
        t.load boardBase s.sec.stage0 = s.load (homeSpace + 0x50000) s.sec.stage0 ∧ sameMemBut [(boardBase, s.sec.stage0)] s t ∧
        t.regs = s.regs) ∧
      (s.cstate = 2 → s.safe.boardOpen = true → s.kept.reload = [] → exec (.computeRestart plans) s = .next s)) ∧
    (∀ j img old pl, s.cstate = 2 → s.safe.boardOpen = true → s.kept.reload = [(j, img, old)] → s.job j = none →
      let pl' : LoadPlan := { pl with seed := old.seed, jstep := BitVec.ofNat 64 (Map.get 0 s.kept.jstep j) }
      (s.loadErr img pl' = none → s.loadRefused img pl' = false → s.planOk img pl' = true → hbmRegions img pl' = hbmRegions img old →
        completes (.computeRestart [(j, pl, true)]) s fun t => ∃ jb, t.job j = some jb ∧ jb.img = img ∧ jb.codeBase = pl.codeBase ∧
          jb.ending = false) ∧
      completes (.computeRestart [(j, pl, false)]) s fun t => t.job j = none ∧ t.kept.reload = [] ∧
        t.place.scrub = s.place.scrub ++ hbmRegions img old ∧ t.mem = s.mem ∧ t.regs = s.regs) ∧
    (∀ (j : BitVec 4) (pl : LoadPlan), s.safe.jobFaults.contains j.toNat = true →
      (s.kept.reload.find? fun r => r.1 == j.toNat) = none → completes (.jobFaultRestart j pl) s fun t =>
        t = { s with safe := { s.safe with jobFaults := s.safe.jobFaults.filter fun k => k != j.toNat } }) ∧
    (∀ (j : BitVec 4) (pl : LoadPlan), s.sound → s.safe.jobFaults.contains j.toNat = true →
      (s.kept.reload.find? fun r => r.1 == j.toNat).isSome = true → s.jobLive j.toNat = true →
      completes (.jobFaultRestart j pl) s fun t => t.safe.jobFaults.contains j.toNat = false ∧ t.jobRuns j.toNat = false ∧
        ((t.job j.toNat).isSome = true ∨ (t.kept.reload.find? fun r => r.1 == j.toNat) = none)) ∧
    (s.stage = 0x12 → (s.cstate ≤ 1 → s.releasable = true → completes .computeBoot s fun t => t.cstate = 2 ∧ t.stage = 0x12 ∧
        t.mem = s.mem ∧ t.safe.bootAt = s.raw) ∧
      (s.cstate = 2 → s.safe.boardOpen = true →
        completes (.mainDigestVerdict true) s (fun t => t.cstate = 2 ∧ t.regs = s.regs ∧
          sameMemBut [(boardBase + 0xFFF000, 0x1000)] s t) ∧
        (s.fld Reg.CPH_STATUS 19 19 = 0 → bitOf s.sec.ulnTried 1 = false → s.sec.ulnTried < 4 →
          completes (.mainDigestVerdict false) s fun t => computeOff s t ∧ t.cstate = 1 ∧ t.stage = 0x11 ∧
            bitOf t.sec.ulnTried 0 = true))) ∧
    (s.cstate = 2 → s.safe.resetDue = false → completes .sysBootUp s fun t => t.cstate = 3 ∧ t.stage = 0x20 ∧ t.safe.kickAt = s.raw ∧
      148 ∈ t.raised ∧ s.flash.svn ≤ t.flash.svn ∧ t.rd Reg.SEC_FWSVN = BitVec.ofNat 64 t.flash.svn ∧ t.mem = s.mem) ∧
    (s.stage = 0x01 → completes (.bootStageDone .next) s fun t => t.stage = 0x02 ∧ t.mem = s.mem ∧ sameRegsBut [Reg.CPH_STATUS] s t) ∧
    (∀ ok, s.stage = 0x02 → completes (.bootStageDone (.puf ok)) s fun t => t.stage = 0x03 ∧ t.sec.kPuf = ok ∧
      t.flag Reg.SEC_LIFE 29 = ok ∧ t.mem = s.mem) ∧
    (∀ counters, s.stage = 0x03 → completes (.bootStageDone (.flash false counters)) s (fun t => t.stage = 0x80 ∧ t.flash = s.flash) ∧
      completes (.bootStageDone (.flash true counters)) s fun t => t.stage = 0x04 ∧ t.flag Reg.SEC_LIFE 28 = counters ∧
        t.flash.boots = if counters then (s.flash.boots + 1) % 2 ^ 32 else s.flash.boots) ∧
    (s.stage = 0x04 → s.sec.locks = [] → completes (.bootStageDone .record) s fun t => t.stage = 0x05 ∧ t.flash.life = t.life ∧
      (s.recordInForce = none → t.life = 0 ∧ t.flag Reg.SEC_LIFE 27 = true)) ∧
    ∀ a b : Option ImageHdr, s.stage = 0x05 →
      (s.pickImage a b 0 = none → completes (.bootStageDone (.images a b)) s fun t => t.stage = 0x81 ∧ t.mem = s.mem) ∧
      ∀ i h, s.pickImage a b 0 = some (i, h) → completes (.bootStageDone (.images a b)) s fun t => t.stage = 0x10 ∧
        t.sec.homeDigest = h.digest ∧ t.pwr.coreEn = true ∧ t.mem = s.mem
/-! ## Registers (R10, R16) -/

/-- REGISTER_WRITE: a write of a register without an effect of its own gives each field the value that its access code gives, and
changes no other register, byte or Face; of a register with one, it does what that register's own command does, here for SYNC_SEM,
SYS_CTRL, PWR_TRIM and CE_SPW (R10). A read answers with the register's value, where the read has no effect of its own. A control core
reads and writes device memory that is served, a Home core Home memory and, through the gate, the Board; other addresses answer with a
bus error, the Board behind a closed gate with COMPUTE_DOWN (R16 to R18, R68, R533). A debug session reads Face files from D1 on, writes
them and the banks from D2 on, and is refused what its level or the power state keeps from it (R468, R477). It rests on the model's own
readings in assumptions 94, 97, 134. -/
def Obligations.RegisterWritesFollowTheirAccessCodes : Prop :=
  ∀ (s : State) (v : Word),
    (∀ (n : Fin 8) (a : BitVec 48) (r : RegRow), regRow? a.toNat = some r → isRegPage a.toNat = true →
      a.toNat % 4096 + r.width ≤ 4096 →
      (s.devWrite a.toNat v.toNat = none → completes (.registerWrite (.core n) (.dev a) (.write v)) s fun t =>
        t.rd a.toNat = BitVec.ofNat 64 (r.written (s.life == 2) (s.rd a.toNat).toNat v.toNat) ∧ sameRegsBut [a.toNat] s t ∧
        t.mem = s.mem ∧ t.faces = s.faces) ∧
      (a.toNat ≠ Reg.TIMEM_NOW0 → a.toNat ≠ Reg.TIMEM_NOW1 → a.toNat ≠ Reg.TIMEM_RA → stampReg a.toNat = none →
        completes (.registerWrite (.core n) (.dev a) .read) s fun t =>
          t = { s with out := .ok (leBytes r.width (s.regRead a.toNat)) })) ∧
    (∀ (p : Fin 2) (a : BitVec 32) (r : RegRow), regRow? (homeSpace + a.toNat) = some r → 0x41000000 ≤ a.toNat →
      homeMapped a.toNat r.width = true → canBufAt a.toNat = none →
      s.homeWrite p (homeSpace + a.toNat) (v.toNat % 2 ^ (8 * r.width)) = none →
      completes (.registerWrite (.home p) (.home a) (.write v)) s fun t =>
        t.rd (homeSpace + a.toNat) =
          BitVec.ofNat 64 (r.written (s.life == 2) (s.rd (homeSpace + a.toNat)).toNat (v.toNat % 2 ^ (8 * r.width))) ∧
        sameRegsBut [homeSpace + a.toNat] s t ∧ t.mem = s.mem ∧ t.faces = s.faces) ∧
    (∀ (r : RegRow) (old : Nat) (k : Nat), r.rw < 2 ^ 64 → r.rws < 2 ^ 64 → r.rwl < 2 ^ 64 → old < 2 ^ 64 → k < 64 →
      ∀ locked, bitOf (r.written locked old v.toNat) k =
        if bitOf r.rw k || bitOf r.rws k || (!locked && bitOf r.rwl k) then bitOf v.toNat k
        else bitOf old k && !(bitOf r.w1c k && bitOf v.toNat k)) ∧
    (∀ (n : Fin 8) (m : BitVec 8),
      exec (.registerWrite (.core n) (.dev (BitVec.ofNat 48 (Reg.SYNC_SEM m.toNat))) (.write v)) s = exec (.syncSemWrite m v) s) ∧
    (∀ n : Fin 8, exec (.registerWrite (.core n) (.dev (BitVec.ofNat 48 Reg.SYS_CTRL)) (.write v)) s =
      exec (.sysCtrlDoubleWrite v) s) ∧
    (∀ (n : Fin 8) (f : Fin 6), exec (.registerWrite (.core n) (.dev (BitVec.ofNat 48 (Reg.PWR_TRIM f))) (.write v)) s =
      exec (.pwrTrimWrite f v) s) ∧
    (∀ (p : Fin 2) (k : BitVec 8),
      exec (.registerWrite (.home p) (.home (BitVec.ofNat 32 (Reg.CE_SPW k.toNat - homeSpace))) (.write v)) s =
        exec (.ceSpwWrite k (v.setWidth 32)) s) ∧
    (let stored := fun (key : Nat) (bs : List Byte) (t : State) => t.load key bs.length = bs ∧ sameMemBut [(key, bs.length)] s t ∧
       t.regs = s.regs ∧ t.out = s.out
     (∀ (n : Fin 8) (a : BitVec 48) (bs : List Byte) (len : Nat), isRegPage a.toNat = false →
       (s.served a.toNat bs.length = true →
         completes (.registerWrite (.core n) (.dev a) (.store bs)) s (stored (devKey a.toNat) bs)) ∧
       (s.served a.toNat bs.length = false →
         completes (.registerWrite (.core n) (.dev a) (.store bs)) s fun t => t = { s with out := .busError }) ∧
       completes (.registerWrite (.core n) (.dev a) (.load len)) s fun t =>
         t = { s with out := if s.served a.toNat len then .ok (s.load (devKey a.toNat) len) else .busError }) ∧
     (∀ (p : Fin 2) (a : BitVec 32) (bs : List Byte) (len : Nat),
       (a.toNat + bs.length ≤ 0x100000 → a.toNat < 0x100000 →
         completes (.registerWrite (.home p) (.home a) (.store bs)) s (stored (homeSpace + a.toNat) bs)) ∧
       (a.toNat + len ≤ 0x100000 → a.toNat < 0x100000 → completes (.registerWrite (.home p) (.home a) (.load len)) s fun t =>
         t = { s with out := .ok (s.load (homeSpace + a.toNat) len) }) ∧
       (homeMapped a.toNat len = false → completes (.registerWrite (.home p) (.home a) (.load len)) s fun t =>
         t = { s with out := .busError }) ∧
       (0x40000000 ≤ a.toNat → a.toNat < 0x41000000 → a.toNat + len ≤ 0x41000000 →
         let b := boardBase + (a.toNat - 0x40000000)
         completes (.registerWrite (.home p) (.home a) (.load len)) s fun t =>
           t = { s with out := if s.gateDown then .computeDown else if s.served b len then .ok (s.load b len) else .busError })) ∧
     ∀ (f : Fin 6) (i : BitVec 7) (pl : Place) (x : AccOp),
       (s.debugMay pl x = false → completes (.registerWrite .debug pl x) s fun t => t = { s with out := .denied }) ∧
       (s.debugLevel = 0 → s.debugMay (.file f 0 i) .read = false) ∧
       (s.unitInReach f = false → s.debugMay (.file f 0 i) x = false) ∧
       (s.debugLevel = 1 → s.debugMay (.file f 0 i) (.write v) = false) ∧
       (s.unitInReach f = true → 1 ≤ s.debugLevel → completes (.registerWrite .debug (.file f 0 i) .read) s fun t =>
         t = { s with out := .ok (leBytes 8 ((s.face f).gReg (i.toNat % 32)).toNat) }) ∧
       (s.unitInReach f = true → 2 ≤ s.debugLevel → i.toNat % 32 ≠ 0 →
         completes (.registerWrite .debug (.file f 0 i) (.write v)) s fun t =>
           (t.face f).gReg (i.toNat % 32) = v ∧ sameFacesBut f s t ∧ t.regs = s.regs ∧ t.mem = s.mem) ∧
       (s.unitInReach f = true → 2 ≤ s.debugLevel → ∀ (b : BitVec 4) (o : BitVec 16), o.toNat + 8 ≤ 0x10000 →
         completes (.registerWrite .debug (.bank f b o) (.write v)) s
           (stored (bankKey f b.toNat + o.toNat) (leBytes 8 v.toNat))))

/-! ## Results of moves and of the matrix unit (R131, R149, R151, R157) -/

/-- MOV, MOVZ and ACCZ issued with nothing of the job in flight and no uncorrectable word in memory, and then completed. MOVZ leaves zero codes in every byte of DD's
elements; MOV leaves the elements of DS in DD, row by row, where the two are LINEAR or BLK128, do not overlap and DD's own rows do
not; ACCZ leaves zeros in its accumulator and the type that FN gives it. No other byte changes. It rests on the model's own readings
in assumption 9. -/
def Obligations.MovesAndClearsTakeEffect : Prop :=
  ∀ (f : Fin 6) (h : Hdr) (s : State), canIssue s f h = true → quiet s f → (s.face f).window = [] →
    s.acctFull = false → s.statusWords (s.face f).job = [] → s.xferOf f (s.face f).seq = none → s.bad = [] →
    (∀ o : FmtM, s.descRemote f o.dd.toNat = false → moveRemote s f o.dd.toNat o.dvf.toNat = none →
      let dst := s.moveRef f o.dd.toNat o.dvf.toNat
      let src := s.moveRef f o.ds.toNat o.svf.toNat
      (movzChk s f o = .pass → issuesAndCompletes (.movz f h o) f s fun t =>
        (∀ x ∈ dst.writeSpans s, ∀ k, x.1 ≤ k → k < x.1 + x.2 → t.loadByte k = 0) ∧
        sameMemBut (dst.writeSpans s) s t ∧ (t.face f).window = []) ∧
      (movChk s f o = .pass → s.descRemote f o.ds.toNat = false → issuesAndCompletes (.mov f h o) f s fun t =>
        (dst.d.layout ≠ 2 → src.d.layout ≠ 2 → anyMeet (dst.spans s) (src.spans s) = false →
          (dst.writeSpans s).Pairwise (fun x y => spansMeet x y = false) → ∀ r < dst.d.rows, dst.row t r = src.row s r) ∧
        sameMemBut (dst.writeSpans s) s t ∧ (t.face f).window = [])) ∧
    ∀ o : FmtT, acczChk s f o = .pass → issuesAndCompletes (.accz f h o) f s fun t =>
      (∀ m < 128, ∀ n < 512, t.loadNat (accKey f o.dc.toNat m n) 4 = 0) ∧ sameMemBut (accSpans f o.dc.toNat) s t ∧
      (t.face f).accIsInt o.dc.toNat = bitOf o.fn.toNat 0
/-- MM of integer formats with UNIT scales, issued with nothing of the job in flight and no uncorrectable word in memory, and then completed: element (m, n) of the
accumulator is its old value, or 0 with FN 0, and the exact sum of the products of row m of A and row n of B, wherever no partial
sum leaves the INT32 range. No byte outside the accumulator and the Home fault
log (R431, R457) changes. It rests on the model's own readings in assumption 9. -/
def Obligations.IntegerMatrixProduct : Prop :=
  ∀ (f : Fin 6) (h : Hdr) (o : FmtT) (s : State), canIssue s f h = true → quiet s f → (s.face f).window = [] →
    s.acctFull = false → s.statusWords (s.face f).job = [] → s.xferOf f (s.face f).seq = none → s.bad = [] →
    let a := s.tref f o.da.toNat
    let b := s.tref f o.db.toNat
    mmChk s f o = .pass → macIsInt a.d.fmt b.d.fmt (s.scale f o.sa.toNat) (s.scale f o.sb.toNat) = true →
    bitOf (s.face f).accMixed o.dc.toNat = false →
    issuesAndCompletes (.mm f h o) f s fun t =>
      (∀ m < a.d.e1, ∀ n < b.d.e1,
        let key := accKey f o.dc.toNat m n
        let old := if o.fn = 0 then 0 else signed 32 (s.loadNat key 4)
        let terms := List.zipWith (fun x y => intOf a.d.fmt x * intOf b.d.fmt y) (a.row s m) (b.row s n)
        (o.fn = 0 ∨ s.loadByte (accFlagKey f o.dc.toNat m n) = 0) →
        (∀ j ≤ terms.length, -(2 ^ 31) ≤ old + (terms.take j).sum ∧ old + (terms.take j).sum < 2 ^ 31) →
        signed 32 (t.loadNat key 4) = old + terms.sum) ∧
      sameMemBut ((homeSpace + 0xFE000, 0x100) :: accSpans f o.dc.toNat) s t ∧ (t.face f).accIsInt o.dc.toNat = true
end

