-- ==== Sys2Proof/Laws/Map.lean ====
section
/-! SUPPORT. The laws of sparse tables: a read after a write, and the canonical form. The read laws need no canonical form;
each operation keeps it. -/

namespace Sys2Proof.Machine

variable {α : Type}

@[simp] theorem Map.get_nil (d : α) (k : Nat) : Map.get d [] k = d := rfl

theorem Map.get_insert (d : α) (m : Map α) (k k' : Nat) (v : α) :
    Map.get d (Map.insert m k v) k' = if k' = k then v else Map.get d m k' := by
  induction m with
  | nil => simp [Map.insert, Map.get]
  | cons e m ih =>
    obtain ⟨j, w⟩ := e
    simp only [Map.insert]
    split
    · simp [Map.get]
    · split
      · subst_vars
        simp only [Map.get]
        split <;> simp_all
      · simp only [Map.get, ih]
        split <;> split <;> simp_all

theorem Map.get_filter (d : α) (m : Map α) (p : Nat → Bool) (k : Nat) :
    Map.get d (m.filter fun e => p e.1) k = if p k then Map.get d m k else d := by
  induction m with
  | nil => simp
  | cons e m ih =>
    obtain ⟨j, w⟩ := e
    by_cases hp : p j = true
    · simp only [List.filter_cons, hp, if_true, Map.get, ih]
      split <;> simp_all
    · by_cases hk : k = j
      · subst hk
        simp [hp, ih]
      · simp [hp, Map.get, ih, hk]

/-- A read after a write: the written value at the key, every other key as before. -/
@[simp] theorem Map.get_put [DecidableEq α] (d : α) (m : Map α) (k k' : Nat) (v : α) :
    Map.get d (Map.put d m k v) k' = if k' = k then v else Map.get d m k' := by
  unfold Map.put
  split
  · have h := Map.get_filter d m (fun j => j != k) k'
    rw [h]
    by_cases hk : k' = k <;> simp_all
  · exact Map.get_insert d m k k' v

theorem Map.get_put_ne [DecidableEq α] (d d' : α) (m : Map α) {k k' : Nat} (h : k' ≠ k) (v : α) :
    Map.get d' (Map.put d m k v) k' = Map.get d' m k' := by
  unfold Map.put
  split
  · have h1 := Map.get_filter d' m (fun j => j != k) k'
    rw [h1]
    simp [h]
  · rw [Map.get_insert, if_neg h]

/-- What a cleared span reads as. -/
@[simp] theorem Map.get_clear (d : α) (lo hi : Nat) (m : Map α) (k : Nat) :
    Map.get d (Map.clear lo hi m) k = if lo ≤ k ∧ k < hi then d else Map.get d m k := by
  have h := Map.get_filter d m (fun j => !(decide (lo ≤ j) && decide (j < hi))) k
  simp only [Map.clear]
  rw [h]
  by_cases h1 : lo ≤ k <;> by_cases h2 : k < hi <;> simp [h1, h2]

/-! ## The canonical form -/

theorem Map.wfFrom_mono [DecidableEq α] {d : α} {m : Map α} {b c : Nat} (hbc : b ≤ c) (h : Map.wfFrom d c m = true) :
    Map.wfFrom d b m = true := by
  cases m with
  | nil => rfl
  | cons e m =>
    simp only [Map.wfFrom, Bool.and_eq_true, decide_eq_true_eq] at h ⊢
    exact ⟨⟨by omega, h.1.2⟩, h.2⟩

theorem Map.filter_wfFrom [DecidableEq α] {d : α} (p : Nat × α → Bool) (m : Map α) (b : Nat) (h : Map.wfFrom d b m = true) :
    Map.wfFrom d b (m.filter p) = true := by
  induction m generalizing b with
  | nil => rfl
  | cons e m ih =>
    obtain ⟨j, v⟩ := e
    simp only [Map.wfFrom, Bool.and_eq_true, decide_eq_true_eq] at h
    rw [List.filter_cons]
    split
    · simp only [Map.wfFrom, Bool.and_eq_true, decide_eq_true_eq]
      exact ⟨h.1, ih _ h.2⟩
    · exact ih b (Map.wfFrom_mono (by omega) h.2)

theorem Map.insert_wfFrom [DecidableEq α] {d : α} (m : Map α) (b k : Nat) (v : α) (hk : b ≤ k) (hv : v ≠ d)
    (h : Map.wfFrom d b m = true) : Map.wfFrom d b (Map.insert m k v) = true := by
  induction m generalizing b with
  | nil => simp [Map.insert, Map.wfFrom, hk, hv]
  | cons e m ih =>
    obtain ⟨j, w⟩ := e
    simp only [Map.wfFrom, Bool.and_eq_true, decide_eq_true_eq] at h
    obtain ⟨⟨hb, hw⟩, hm⟩ := h
    unfold Map.insert
    split
    · simp only [Map.wfFrom, Bool.and_eq_true, decide_eq_true_eq]
      exact ⟨⟨hk, by simpa using hv⟩, ⟨by omega, hw⟩, hm⟩
    · split
      · subst_vars
        simp only [Map.wfFrom, Bool.and_eq_true, decide_eq_true_eq]
        exact ⟨⟨hk, by simpa using hv⟩, hm⟩
      · simp only [Map.wfFrom, Bool.and_eq_true, decide_eq_true_eq]
        exact ⟨⟨hb, hw⟩, ih (j + 1) (by omega) hm⟩

/-- Writing keeps the canonical form. -/
theorem Map.put_wf [DecidableEq α] {d : α} {m : Map α} (k : Nat) (v : α) (h : Map.wf d m = true) :
    Map.wf d (Map.put d m k v) = true := by
  unfold Map.put
  split
  · exact Map.filter_wfFrom _ _ _ h
  · next hv => exact Map.insert_wfFrom _ _ _ _ (Nat.zero_le _) hv h

/-- Dropping entries keeps the canonical form. -/
theorem Map.filter_wf [DecidableEq α] {d : α} {m : Map α} (p : Nat × α → Bool) (h : Map.wf d m = true) :
    Map.wf d (m.filter p) = true := Map.filter_wfFrom _ _ _ h

/-- Clearing a span keeps the canonical form. -/
theorem Map.clear_wf [DecidableEq α] {d : α} {m : Map α} (lo hi : Nat) (h : Map.wf d m = true) :
    Map.wf d (Map.clear lo hi m) = true := Map.filter_wfFrom _ _ _ h

end Sys2Proof.Machine
end

