-- ==== Sys2Proof/Laws/State.lean ====
section
/-! SUPPORT. The state under its named updates: what each leaves in every field, and what every accessor then reads. -/

namespace Sys2Proof.Machine

variable (s : State)

/-! ## Fields -/

@[simp] theorem State.wr_pending (a : Nat) (v : Word) : (s.wr a v).pending = s.pending := rfl
@[simp] theorem State.wr_raw (a : Nat) (v : Word) : (s.wr a v).raw = s.raw := rfl
@[simp] theorem State.wr_fresh (a : Nat) (v : Word) : (s.wr a v).fresh = s.fresh := rfl
@[simp] theorem State.wr_out (a : Nat) (v : Word) : (s.wr a v).out = s.out := rfl
@[simp] theorem State.wr_mem (a : Nat) (v : Word) : (s.wr a v).mem = s.mem := rfl
@[simp] theorem State.wr_faces (a : Nat) (v : Word) : (s.wr a v).faces = s.faces := rfl
@[simp] theorem State.wr_jobs (a : Nat) (v : Word) : (s.wr a v).jobs = s.jobs := rfl
@[simp] theorem State.wr_vfs (a : Nat) (v : Word) : (s.wr a v).vfs = s.vfs := rfl
@[simp] theorem State.wr_routed (a : Nat) (v : Word) : (s.wr a v).routed = s.routed := rfl
@[simp] theorem State.wr_inFlight (a : Nat) (v : Word) : (s.wr a v).inFlight = s.inFlight := rfl
@[simp] theorem State.wr_net (a : Nat) (v : Word) : (s.wr a v).net = s.net := rfl
@[simp] theorem State.wr_waiters (a : Nat) (v : Word) : (s.wr a v).waiters = s.waiters := rfl
@[simp] theorem State.wr_bufs (a : Nat) (v : Word) : (s.wr a v).bufs = s.bufs := rfl
@[simp] theorem State.wr_place (a : Nat) (v : Word) : (s.wr a v).place = s.place := rfl
@[simp] theorem State.wr_sched (a : Nat) (v : Word) : (s.wr a v).sched = s.sched := rfl
@[simp] theorem State.wr_kept (a : Nat) (v : Word) : (s.wr a v).kept = s.kept := rfl
@[simp] theorem State.wr_raised (a : Nat) (v : Word) : (s.wr a v).raised = s.raised := rfl
@[simp] theorem State.wr_pip (a : Nat) (v : Word) : (s.wr a v).pip = s.pip := rfl
@[simp] theorem State.wr_kv (a : Nat) (v : Word) : (s.wr a v).kv = s.kv := rfl
@[simp] theorem State.wr_efl (a : Nat) (v : Word) : (s.wr a v).efl = s.efl := rfl
@[simp] theorem State.wr_safe (a : Nat) (v : Word) : (s.wr a v).safe = s.safe := rfl
@[simp] theorem State.wr_permit (a : Nat) (v : Word) : (s.wr a v).permit = s.permit := rfl
@[simp] theorem State.wr_pertDelay (a : Nat) (v : Word) : (s.wr a v).pertDelay = s.pertDelay := rfl
@[simp] theorem State.wr_time (a : Nat) (v : Word) : (s.wr a v).time = s.time := rfl
@[simp] theorem State.wr_ce (a : Nat) (v : Word) : (s.wr a v).ce = s.ce := rfl
@[simp] theorem State.wr_hold (a : Nat) (v : Word) : (s.wr a v).hold = s.hold := rfl
@[simp] theorem State.wr_solv (a : Nat) (v : Word) : (s.wr a v).solv = s.solv := rfl
@[simp] theorem State.wr_field (a : Nat) (v : Word) : (s.wr a v).field = s.field := rfl
@[simp] theorem State.wr_edge (a : Nat) (v : Word) : (s.wr a v).edge = s.edge := rfl
@[simp] theorem State.wr_flash (a : Nat) (v : Word) : (s.wr a v).flash = s.flash := rfl
@[simp] theorem State.wr_sec (a : Nat) (v : Word) : (s.wr a v).sec = s.sec := rfl
@[simp] theorem State.wr_pwr (a : Nat) (v : Word) : (s.wr a v).pwr = s.pwr := rfl
@[simp] theorem State.wr_cpLast (a : Nat) (v : Word) : (s.wr a v).cpLast = s.cpLast := rfl
@[simp] theorem State.setFld_pending (a hi lo x : Nat) : (s.setFld a hi lo x).pending = s.pending := rfl
@[simp] theorem State.setFld_raw (a hi lo x : Nat) : (s.setFld a hi lo x).raw = s.raw := rfl
@[simp] theorem State.setFld_fresh (a hi lo x : Nat) : (s.setFld a hi lo x).fresh = s.fresh := rfl
@[simp] theorem State.setFld_out (a hi lo x : Nat) : (s.setFld a hi lo x).out = s.out := rfl
@[simp] theorem State.setFld_mem (a hi lo x : Nat) : (s.setFld a hi lo x).mem = s.mem := rfl
@[simp] theorem State.setFld_faces (a hi lo x : Nat) : (s.setFld a hi lo x).faces = s.faces := rfl
@[simp] theorem State.setFld_jobs (a hi lo x : Nat) : (s.setFld a hi lo x).jobs = s.jobs := rfl
@[simp] theorem State.setFld_vfs (a hi lo x : Nat) : (s.setFld a hi lo x).vfs = s.vfs := rfl
@[simp] theorem State.setFld_routed (a hi lo x : Nat) : (s.setFld a hi lo x).routed = s.routed := rfl
@[simp] theorem State.setFld_inFlight (a hi lo x : Nat) : (s.setFld a hi lo x).inFlight = s.inFlight := rfl
@[simp] theorem State.setFld_net (a hi lo x : Nat) : (s.setFld a hi lo x).net = s.net := rfl
@[simp] theorem State.setFld_waiters (a hi lo x : Nat) : (s.setFld a hi lo x).waiters = s.waiters := rfl
@[simp] theorem State.setFld_bufs (a hi lo x : Nat) : (s.setFld a hi lo x).bufs = s.bufs := rfl
@[simp] theorem State.setFld_place (a hi lo x : Nat) : (s.setFld a hi lo x).place = s.place := rfl
@[simp] theorem State.setFld_sched (a hi lo x : Nat) : (s.setFld a hi lo x).sched = s.sched := rfl
@[simp] theorem State.setFld_kept (a hi lo x : Nat) : (s.setFld a hi lo x).kept = s.kept := rfl
@[simp] theorem State.setFld_raised (a hi lo x : Nat) : (s.setFld a hi lo x).raised = s.raised := rfl
@[simp] theorem State.setFld_pip (a hi lo x : Nat) : (s.setFld a hi lo x).pip = s.pip := rfl
@[simp] theorem State.setFld_kv (a hi lo x : Nat) : (s.setFld a hi lo x).kv = s.kv := rfl
@[simp] theorem State.setFld_efl (a hi lo x : Nat) : (s.setFld a hi lo x).efl = s.efl := rfl
@[simp] theorem State.setFld_safe (a hi lo x : Nat) : (s.setFld a hi lo x).safe = s.safe := rfl
@[simp] theorem State.setFld_permit (a hi lo x : Nat) : (s.setFld a hi lo x).permit = s.permit := rfl
@[simp] theorem State.setFld_pertDelay (a hi lo x : Nat) : (s.setFld a hi lo x).pertDelay = s.pertDelay := rfl
@[simp] theorem State.setFld_time (a hi lo x : Nat) : (s.setFld a hi lo x).time = s.time := rfl
@[simp] theorem State.setFld_ce (a hi lo x : Nat) : (s.setFld a hi lo x).ce = s.ce := rfl
@[simp] theorem State.setFld_hold (a hi lo x : Nat) : (s.setFld a hi lo x).hold = s.hold := rfl
@[simp] theorem State.setFld_solv (a hi lo x : Nat) : (s.setFld a hi lo x).solv = s.solv := rfl
@[simp] theorem State.setFld_field (a hi lo x : Nat) : (s.setFld a hi lo x).field = s.field := rfl
@[simp] theorem State.setFld_edge (a hi lo x : Nat) : (s.setFld a hi lo x).edge = s.edge := rfl
@[simp] theorem State.setFld_flash (a hi lo x : Nat) : (s.setFld a hi lo x).flash = s.flash := rfl
@[simp] theorem State.setFld_sec (a hi lo x : Nat) : (s.setFld a hi lo x).sec = s.sec := rfl
@[simp] theorem State.setFld_pwr (a hi lo x : Nat) : (s.setFld a hi lo x).pwr = s.pwr := rfl
@[simp] theorem State.setFld_cpLast (a hi lo x : Nat) : (s.setFld a hi lo x).cpLast = s.cpLast := rfl
@[simp] theorem State.setFlag_pending (a k : Nat) (b : Bool) : (s.setFlag a k b).pending = s.pending := rfl
@[simp] theorem State.setFlag_raw (a k : Nat) (b : Bool) : (s.setFlag a k b).raw = s.raw := rfl
@[simp] theorem State.setFlag_fresh (a k : Nat) (b : Bool) : (s.setFlag a k b).fresh = s.fresh := rfl
@[simp] theorem State.setFlag_out (a k : Nat) (b : Bool) : (s.setFlag a k b).out = s.out := rfl
@[simp] theorem State.setFlag_mem (a k : Nat) (b : Bool) : (s.setFlag a k b).mem = s.mem := rfl
@[simp] theorem State.setFlag_faces (a k : Nat) (b : Bool) : (s.setFlag a k b).faces = s.faces := rfl
@[simp] theorem State.setFlag_jobs (a k : Nat) (b : Bool) : (s.setFlag a k b).jobs = s.jobs := rfl
@[simp] theorem State.setFlag_vfs (a k : Nat) (b : Bool) : (s.setFlag a k b).vfs = s.vfs := rfl
@[simp] theorem State.setFlag_routed (a k : Nat) (b : Bool) : (s.setFlag a k b).routed = s.routed := rfl
@[simp] theorem State.setFlag_inFlight (a k : Nat) (b : Bool) : (s.setFlag a k b).inFlight = s.inFlight := rfl
@[simp] theorem State.setFlag_net (a k : Nat) (b : Bool) : (s.setFlag a k b).net = s.net := rfl
@[simp] theorem State.setFlag_waiters (a k : Nat) (b : Bool) : (s.setFlag a k b).waiters = s.waiters := rfl
@[simp] theorem State.setFlag_bufs (a k : Nat) (b : Bool) : (s.setFlag a k b).bufs = s.bufs := rfl
@[simp] theorem State.setFlag_place (a k : Nat) (b : Bool) : (s.setFlag a k b).place = s.place := rfl
@[simp] theorem State.setFlag_sched (a k : Nat) (b : Bool) : (s.setFlag a k b).sched = s.sched := rfl
@[simp] theorem State.setFlag_kept (a k : Nat) (b : Bool) : (s.setFlag a k b).kept = s.kept := rfl
@[simp] theorem State.setFlag_raised (a k : Nat) (b : Bool) : (s.setFlag a k b).raised = s.raised := rfl
@[simp] theorem State.setFlag_pip (a k : Nat) (b : Bool) : (s.setFlag a k b).pip = s.pip := rfl
@[simp] theorem State.setFlag_kv (a k : Nat) (b : Bool) : (s.setFlag a k b).kv = s.kv := rfl
@[simp] theorem State.setFlag_efl (a k : Nat) (b : Bool) : (s.setFlag a k b).efl = s.efl := rfl
@[simp] theorem State.setFlag_safe (a k : Nat) (b : Bool) : (s.setFlag a k b).safe = s.safe := rfl
@[simp] theorem State.setFlag_permit (a k : Nat) (b : Bool) : (s.setFlag a k b).permit = s.permit := rfl
@[simp] theorem State.setFlag_pertDelay (a k : Nat) (b : Bool) : (s.setFlag a k b).pertDelay = s.pertDelay := rfl
@[simp] theorem State.setFlag_time (a k : Nat) (b : Bool) : (s.setFlag a k b).time = s.time := rfl
@[simp] theorem State.setFlag_ce (a k : Nat) (b : Bool) : (s.setFlag a k b).ce = s.ce := rfl
@[simp] theorem State.setFlag_hold (a k : Nat) (b : Bool) : (s.setFlag a k b).hold = s.hold := rfl
@[simp] theorem State.setFlag_solv (a k : Nat) (b : Bool) : (s.setFlag a k b).solv = s.solv := rfl
@[simp] theorem State.setFlag_field (a k : Nat) (b : Bool) : (s.setFlag a k b).field = s.field := rfl
@[simp] theorem State.setFlag_edge (a k : Nat) (b : Bool) : (s.setFlag a k b).edge = s.edge := rfl
@[simp] theorem State.setFlag_flash (a k : Nat) (b : Bool) : (s.setFlag a k b).flash = s.flash := rfl
@[simp] theorem State.setFlag_sec (a k : Nat) (b : Bool) : (s.setFlag a k b).sec = s.sec := rfl
@[simp] theorem State.setFlag_pwr (a k : Nat) (b : Bool) : (s.setFlag a k b).pwr = s.pwr := rfl
@[simp] theorem State.setFlag_cpLast (a k : Nat) (b : Bool) : (s.setFlag a k b).cpLast = s.cpLast := rfl
@[simp] theorem State.setFace_pending (n : Nat) (f : FaceSt) : (s.setFace n f).pending = s.pending := rfl
@[simp] theorem State.setFace_raw (n : Nat) (f : FaceSt) : (s.setFace n f).raw = s.raw := rfl
@[simp] theorem State.setFace_fresh (n : Nat) (f : FaceSt) : (s.setFace n f).fresh = s.fresh := rfl
@[simp] theorem State.setFace_out (n : Nat) (f : FaceSt) : (s.setFace n f).out = s.out := rfl
@[simp] theorem State.setFace_mem (n : Nat) (f : FaceSt) : (s.setFace n f).mem = s.mem := rfl
@[simp] theorem State.setFace_regs (n : Nat) (f : FaceSt) : (s.setFace n f).regs = s.regs := rfl
@[simp] theorem State.setFace_jobs (n : Nat) (f : FaceSt) : (s.setFace n f).jobs = s.jobs := rfl
@[simp] theorem State.setFace_vfs (n : Nat) (f : FaceSt) : (s.setFace n f).vfs = s.vfs := rfl
@[simp] theorem State.setFace_routed (n : Nat) (f : FaceSt) : (s.setFace n f).routed = s.routed := rfl
@[simp] theorem State.setFace_inFlight (n : Nat) (f : FaceSt) : (s.setFace n f).inFlight = s.inFlight := rfl
@[simp] theorem State.setFace_net (n : Nat) (f : FaceSt) : (s.setFace n f).net = s.net := rfl
@[simp] theorem State.setFace_waiters (n : Nat) (f : FaceSt) : (s.setFace n f).waiters = s.waiters := rfl
@[simp] theorem State.setFace_bufs (n : Nat) (f : FaceSt) : (s.setFace n f).bufs = s.bufs := rfl
@[simp] theorem State.setFace_place (n : Nat) (f : FaceSt) : (s.setFace n f).place = s.place := rfl
@[simp] theorem State.setFace_sched (n : Nat) (f : FaceSt) : (s.setFace n f).sched = s.sched := rfl
@[simp] theorem State.setFace_kept (n : Nat) (f : FaceSt) : (s.setFace n f).kept = s.kept := rfl
@[simp] theorem State.setFace_raised (n : Nat) (f : FaceSt) : (s.setFace n f).raised = s.raised := rfl
@[simp] theorem State.setFace_pip (n : Nat) (f : FaceSt) : (s.setFace n f).pip = s.pip := rfl
@[simp] theorem State.setFace_kv (n : Nat) (f : FaceSt) : (s.setFace n f).kv = s.kv := rfl
@[simp] theorem State.setFace_efl (n : Nat) (f : FaceSt) : (s.setFace n f).efl = s.efl := rfl
@[simp] theorem State.setFace_safe (n : Nat) (f : FaceSt) : (s.setFace n f).safe = s.safe := rfl
@[simp] theorem State.setFace_permit (n : Nat) (f : FaceSt) : (s.setFace n f).permit = s.permit := rfl
@[simp] theorem State.setFace_pertDelay (n : Nat) (f : FaceSt) : (s.setFace n f).pertDelay = s.pertDelay := rfl
@[simp] theorem State.setFace_time (n : Nat) (f : FaceSt) : (s.setFace n f).time = s.time := rfl
@[simp] theorem State.setFace_ce (n : Nat) (f : FaceSt) : (s.setFace n f).ce = s.ce := rfl
@[simp] theorem State.setFace_hold (n : Nat) (f : FaceSt) : (s.setFace n f).hold = s.hold := rfl
@[simp] theorem State.setFace_solv (n : Nat) (f : FaceSt) : (s.setFace n f).solv = s.solv := rfl
@[simp] theorem State.setFace_field (n : Nat) (f : FaceSt) : (s.setFace n f).field = s.field := rfl
@[simp] theorem State.setFace_edge (n : Nat) (f : FaceSt) : (s.setFace n f).edge = s.edge := rfl
@[simp] theorem State.setFace_flash (n : Nat) (f : FaceSt) : (s.setFace n f).flash = s.flash := rfl
@[simp] theorem State.setFace_sec (n : Nat) (f : FaceSt) : (s.setFace n f).sec = s.sec := rfl
@[simp] theorem State.setFace_pwr (n : Nat) (f : FaceSt) : (s.setFace n f).pwr = s.pwr := rfl
@[simp] theorem State.setFace_cpLast (n : Nat) (f : FaceSt) : (s.setFace n f).cpLast = s.cpLast := rfl
@[simp] theorem State.setJob_pending (j : Nat) (v : Option JobSt) : (s.setJob j v).pending = s.pending := rfl
@[simp] theorem State.setJob_raw (j : Nat) (v : Option JobSt) : (s.setJob j v).raw = s.raw := rfl
@[simp] theorem State.setJob_fresh (j : Nat) (v : Option JobSt) : (s.setJob j v).fresh = s.fresh := rfl
@[simp] theorem State.setJob_out (j : Nat) (v : Option JobSt) : (s.setJob j v).out = s.out := rfl
@[simp] theorem State.setJob_mem (j : Nat) (v : Option JobSt) : (s.setJob j v).mem = s.mem := rfl
@[simp] theorem State.setJob_regs (j : Nat) (v : Option JobSt) : (s.setJob j v).regs = s.regs := rfl
@[simp] theorem State.setJob_faces (j : Nat) (v : Option JobSt) : (s.setJob j v).faces = s.faces := rfl
@[simp] theorem State.setJob_vfs (j : Nat) (v : Option JobSt) : (s.setJob j v).vfs = s.vfs := rfl
@[simp] theorem State.setJob_routed (j : Nat) (v : Option JobSt) : (s.setJob j v).routed = s.routed := rfl
@[simp] theorem State.setJob_inFlight (j : Nat) (v : Option JobSt) : (s.setJob j v).inFlight = s.inFlight := rfl
@[simp] theorem State.setJob_net (j : Nat) (v : Option JobSt) : (s.setJob j v).net = s.net := rfl
@[simp] theorem State.setJob_waiters (j : Nat) (v : Option JobSt) : (s.setJob j v).waiters = s.waiters := rfl
@[simp] theorem State.setJob_bufs (j : Nat) (v : Option JobSt) : (s.setJob j v).bufs = s.bufs := rfl
@[simp] theorem State.setJob_place (j : Nat) (v : Option JobSt) : (s.setJob j v).place = s.place := rfl
@[simp] theorem State.setJob_sched (j : Nat) (v : Option JobSt) : (s.setJob j v).sched = s.sched := rfl
@[simp] theorem State.setJob_kept (j : Nat) (v : Option JobSt) : (s.setJob j v).kept = s.kept := rfl
@[simp] theorem State.setJob_raised (j : Nat) (v : Option JobSt) : (s.setJob j v).raised = s.raised := rfl
@[simp] theorem State.setJob_pip (j : Nat) (v : Option JobSt) : (s.setJob j v).pip = s.pip := rfl
@[simp] theorem State.setJob_kv (j : Nat) (v : Option JobSt) : (s.setJob j v).kv = s.kv := rfl
@[simp] theorem State.setJob_efl (j : Nat) (v : Option JobSt) : (s.setJob j v).efl = s.efl := rfl
@[simp] theorem State.setJob_safe (j : Nat) (v : Option JobSt) : (s.setJob j v).safe = s.safe := rfl
@[simp] theorem State.setJob_permit (j : Nat) (v : Option JobSt) : (s.setJob j v).permit = s.permit := rfl
@[simp] theorem State.setJob_pertDelay (j : Nat) (v : Option JobSt) : (s.setJob j v).pertDelay = s.pertDelay := rfl
@[simp] theorem State.setJob_time (j : Nat) (v : Option JobSt) : (s.setJob j v).time = s.time := rfl
@[simp] theorem State.setJob_ce (j : Nat) (v : Option JobSt) : (s.setJob j v).ce = s.ce := rfl
@[simp] theorem State.setJob_hold (j : Nat) (v : Option JobSt) : (s.setJob j v).hold = s.hold := rfl
@[simp] theorem State.setJob_solv (j : Nat) (v : Option JobSt) : (s.setJob j v).solv = s.solv := rfl
@[simp] theorem State.setJob_field (j : Nat) (v : Option JobSt) : (s.setJob j v).field = s.field := rfl
@[simp] theorem State.setJob_edge (j : Nat) (v : Option JobSt) : (s.setJob j v).edge = s.edge := rfl
@[simp] theorem State.setJob_flash (j : Nat) (v : Option JobSt) : (s.setJob j v).flash = s.flash := rfl
@[simp] theorem State.setJob_sec (j : Nat) (v : Option JobSt) : (s.setJob j v).sec = s.sec := rfl
@[simp] theorem State.setJob_pwr (j : Nat) (v : Option JobSt) : (s.setJob j v).pwr = s.pwr := rfl
@[simp] theorem State.setJob_cpLast (j : Nat) (v : Option JobSt) : (s.setJob j v).cpLast = s.cpLast := rfl
@[simp] theorem State.setVf_pending (j v : Nat) (q : VfSt) : (s.setVf j v q).pending = s.pending := rfl
@[simp] theorem State.setVf_raw (j v : Nat) (q : VfSt) : (s.setVf j v q).raw = s.raw := rfl
@[simp] theorem State.setVf_fresh (j v : Nat) (q : VfSt) : (s.setVf j v q).fresh = s.fresh := rfl
@[simp] theorem State.setVf_out (j v : Nat) (q : VfSt) : (s.setVf j v q).out = s.out := rfl
@[simp] theorem State.setVf_mem (j v : Nat) (q : VfSt) : (s.setVf j v q).mem = s.mem := rfl
@[simp] theorem State.setVf_regs (j v : Nat) (q : VfSt) : (s.setVf j v q).regs = s.regs := rfl
@[simp] theorem State.setVf_faces (j v : Nat) (q : VfSt) : (s.setVf j v q).faces = s.faces := rfl
@[simp] theorem State.setVf_jobs (j v : Nat) (q : VfSt) : (s.setVf j v q).jobs = s.jobs := rfl
@[simp] theorem State.setVf_routed (j v : Nat) (q : VfSt) : (s.setVf j v q).routed = s.routed := rfl
@[simp] theorem State.setVf_inFlight (j v : Nat) (q : VfSt) : (s.setVf j v q).inFlight = s.inFlight := rfl
@[simp] theorem State.setVf_net (j v : Nat) (q : VfSt) : (s.setVf j v q).net = s.net := rfl
@[simp] theorem State.setVf_waiters (j v : Nat) (q : VfSt) : (s.setVf j v q).waiters = s.waiters := rfl
@[simp] theorem State.setVf_bufs (j v : Nat) (q : VfSt) : (s.setVf j v q).bufs = s.bufs := rfl
@[simp] theorem State.setVf_place (j v : Nat) (q : VfSt) : (s.setVf j v q).place = s.place := rfl
@[simp] theorem State.setVf_sched (j v : Nat) (q : VfSt) : (s.setVf j v q).sched = s.sched := rfl
@[simp] theorem State.setVf_kept (j v : Nat) (q : VfSt) : (s.setVf j v q).kept = s.kept := rfl
@[simp] theorem State.setVf_raised (j v : Nat) (q : VfSt) : (s.setVf j v q).raised = s.raised := rfl
@[simp] theorem State.setVf_pip (j v : Nat) (q : VfSt) : (s.setVf j v q).pip = s.pip := rfl
@[simp] theorem State.setVf_kv (j v : Nat) (q : VfSt) : (s.setVf j v q).kv = s.kv := rfl
@[simp] theorem State.setVf_efl (j v : Nat) (q : VfSt) : (s.setVf j v q).efl = s.efl := rfl
@[simp] theorem State.setVf_safe (j v : Nat) (q : VfSt) : (s.setVf j v q).safe = s.safe := rfl
@[simp] theorem State.setVf_permit (j v : Nat) (q : VfSt) : (s.setVf j v q).permit = s.permit := rfl
@[simp] theorem State.setVf_pertDelay (j v : Nat) (q : VfSt) : (s.setVf j v q).pertDelay = s.pertDelay := rfl
@[simp] theorem State.setVf_time (j v : Nat) (q : VfSt) : (s.setVf j v q).time = s.time := rfl
@[simp] theorem State.setVf_ce (j v : Nat) (q : VfSt) : (s.setVf j v q).ce = s.ce := rfl
@[simp] theorem State.setVf_hold (j v : Nat) (q : VfSt) : (s.setVf j v q).hold = s.hold := rfl
@[simp] theorem State.setVf_solv (j v : Nat) (q : VfSt) : (s.setVf j v q).solv = s.solv := rfl
@[simp] theorem State.setVf_field (j v : Nat) (q : VfSt) : (s.setVf j v q).field = s.field := rfl
@[simp] theorem State.setVf_edge (j v : Nat) (q : VfSt) : (s.setVf j v q).edge = s.edge := rfl
@[simp] theorem State.setVf_flash (j v : Nat) (q : VfSt) : (s.setVf j v q).flash = s.flash := rfl
@[simp] theorem State.setVf_sec (j v : Nat) (q : VfSt) : (s.setVf j v q).sec = s.sec := rfl
@[simp] theorem State.setVf_pwr (j v : Nat) (q : VfSt) : (s.setVf j v q).pwr = s.pwr := rfl
@[simp] theorem State.setVf_cpLast (j v : Nat) (q : VfSt) : (s.setVf j v q).cpLast = s.cpLast := rfl
@[simp] theorem State.setBuf_pending (e : Nat) (b : BufEnt) : (s.setBuf e b).pending = s.pending := rfl
@[simp] theorem State.setBuf_raw (e : Nat) (b : BufEnt) : (s.setBuf e b).raw = s.raw := rfl
@[simp] theorem State.setBuf_fresh (e : Nat) (b : BufEnt) : (s.setBuf e b).fresh = s.fresh := rfl
@[simp] theorem State.setBuf_out (e : Nat) (b : BufEnt) : (s.setBuf e b).out = s.out := rfl
@[simp] theorem State.setBuf_mem (e : Nat) (b : BufEnt) : (s.setBuf e b).mem = s.mem := rfl
@[simp] theorem State.setBuf_regs (e : Nat) (b : BufEnt) : (s.setBuf e b).regs = s.regs := rfl
@[simp] theorem State.setBuf_faces (e : Nat) (b : BufEnt) : (s.setBuf e b).faces = s.faces := rfl
@[simp] theorem State.setBuf_jobs (e : Nat) (b : BufEnt) : (s.setBuf e b).jobs = s.jobs := rfl
@[simp] theorem State.setBuf_vfs (e : Nat) (b : BufEnt) : (s.setBuf e b).vfs = s.vfs := rfl
@[simp] theorem State.setBuf_routed (e : Nat) (b : BufEnt) : (s.setBuf e b).routed = s.routed := rfl
@[simp] theorem State.setBuf_inFlight (e : Nat) (b : BufEnt) : (s.setBuf e b).inFlight = s.inFlight := rfl
@[simp] theorem State.setBuf_net (e : Nat) (b : BufEnt) : (s.setBuf e b).net = s.net := rfl
@[simp] theorem State.setBuf_waiters (e : Nat) (b : BufEnt) : (s.setBuf e b).waiters = s.waiters := rfl
@[simp] theorem State.setBuf_place (e : Nat) (b : BufEnt) : (s.setBuf e b).place = s.place := rfl
@[simp] theorem State.setBuf_sched (e : Nat) (b : BufEnt) : (s.setBuf e b).sched = s.sched := rfl
@[simp] theorem State.setBuf_kept (e : Nat) (b : BufEnt) : (s.setBuf e b).kept = s.kept := rfl
@[simp] theorem State.setBuf_raised (e : Nat) (b : BufEnt) : (s.setBuf e b).raised = s.raised := rfl
@[simp] theorem State.setBuf_pip (e : Nat) (b : BufEnt) : (s.setBuf e b).pip = s.pip := rfl
@[simp] theorem State.setBuf_kv (e : Nat) (b : BufEnt) : (s.setBuf e b).kv = s.kv := rfl
@[simp] theorem State.setBuf_efl (e : Nat) (b : BufEnt) : (s.setBuf e b).efl = s.efl := rfl
@[simp] theorem State.setBuf_safe (e : Nat) (b : BufEnt) : (s.setBuf e b).safe = s.safe := rfl
@[simp] theorem State.setBuf_permit (e : Nat) (b : BufEnt) : (s.setBuf e b).permit = s.permit := rfl
@[simp] theorem State.setBuf_pertDelay (e : Nat) (b : BufEnt) : (s.setBuf e b).pertDelay = s.pertDelay := rfl
@[simp] theorem State.setBuf_time (e : Nat) (b : BufEnt) : (s.setBuf e b).time = s.time := rfl
@[simp] theorem State.setBuf_ce (e : Nat) (b : BufEnt) : (s.setBuf e b).ce = s.ce := rfl
@[simp] theorem State.setBuf_hold (e : Nat) (b : BufEnt) : (s.setBuf e b).hold = s.hold := rfl
@[simp] theorem State.setBuf_solv (e : Nat) (b : BufEnt) : (s.setBuf e b).solv = s.solv := rfl
@[simp] theorem State.setBuf_field (e : Nat) (b : BufEnt) : (s.setBuf e b).field = s.field := rfl
@[simp] theorem State.setBuf_edge (e : Nat) (b : BufEnt) : (s.setBuf e b).edge = s.edge := rfl
@[simp] theorem State.setBuf_flash (e : Nat) (b : BufEnt) : (s.setBuf e b).flash = s.flash := rfl
@[simp] theorem State.setBuf_sec (e : Nat) (b : BufEnt) : (s.setBuf e b).sec = s.sec := rfl
@[simp] theorem State.setBuf_pwr (e : Nat) (b : BufEnt) : (s.setBuf e b).pwr = s.pwr := rfl
@[simp] theorem State.setBuf_cpLast (e : Nat) (b : BufEnt) : (s.setBuf e b).cpLast = s.cpLast := rfl
@[simp] theorem State.setRouted_pending (j v i : Nat) (c : Ctr) : (s.setRouted j v i c).pending = s.pending := rfl
@[simp] theorem State.setRouted_raw (j v i : Nat) (c : Ctr) : (s.setRouted j v i c).raw = s.raw := rfl
@[simp] theorem State.setRouted_fresh (j v i : Nat) (c : Ctr) : (s.setRouted j v i c).fresh = s.fresh := rfl
@[simp] theorem State.setRouted_out (j v i : Nat) (c : Ctr) : (s.setRouted j v i c).out = s.out := rfl
@[simp] theorem State.setRouted_mem (j v i : Nat) (c : Ctr) : (s.setRouted j v i c).mem = s.mem := rfl
@[simp] theorem State.setRouted_regs (j v i : Nat) (c : Ctr) : (s.setRouted j v i c).regs = s.regs := rfl
@[simp] theorem State.setRouted_faces (j v i : Nat) (c : Ctr) : (s.setRouted j v i c).faces = s.faces := rfl
@[simp] theorem State.setRouted_jobs (j v i : Nat) (c : Ctr) : (s.setRouted j v i c).jobs = s.jobs := rfl
@[simp] theorem State.setRouted_vfs (j v i : Nat) (c : Ctr) : (s.setRouted j v i c).vfs = s.vfs := rfl
@[simp] theorem State.setRouted_inFlight (j v i : Nat) (c : Ctr) : (s.setRouted j v i c).inFlight = s.inFlight := rfl
@[simp] theorem State.setRouted_net (j v i : Nat) (c : Ctr) : (s.setRouted j v i c).net = s.net := rfl
@[simp] theorem State.setRouted_waiters (j v i : Nat) (c : Ctr) : (s.setRouted j v i c).waiters = s.waiters := rfl
@[simp] theorem State.setRouted_bufs (j v i : Nat) (c : Ctr) : (s.setRouted j v i c).bufs = s.bufs := rfl
@[simp] theorem State.setRouted_place (j v i : Nat) (c : Ctr) : (s.setRouted j v i c).place = s.place := rfl
@[simp] theorem State.setRouted_sched (j v i : Nat) (c : Ctr) : (s.setRouted j v i c).sched = s.sched := rfl
@[simp] theorem State.setRouted_kept (j v i : Nat) (c : Ctr) : (s.setRouted j v i c).kept = s.kept := rfl
@[simp] theorem State.setRouted_raised (j v i : Nat) (c : Ctr) : (s.setRouted j v i c).raised = s.raised := rfl
@[simp] theorem State.setRouted_pip (j v i : Nat) (c : Ctr) : (s.setRouted j v i c).pip = s.pip := rfl
@[simp] theorem State.setRouted_kv (j v i : Nat) (c : Ctr) : (s.setRouted j v i c).kv = s.kv := rfl
@[simp] theorem State.setRouted_efl (j v i : Nat) (c : Ctr) : (s.setRouted j v i c).efl = s.efl := rfl
@[simp] theorem State.setRouted_safe (j v i : Nat) (c : Ctr) : (s.setRouted j v i c).safe = s.safe := rfl
@[simp] theorem State.setRouted_permit (j v i : Nat) (c : Ctr) : (s.setRouted j v i c).permit = s.permit := rfl
@[simp] theorem State.setRouted_pertDelay (j v i : Nat) (c : Ctr) : (s.setRouted j v i c).pertDelay = s.pertDelay := rfl
@[simp] theorem State.setRouted_time (j v i : Nat) (c : Ctr) : (s.setRouted j v i c).time = s.time := rfl
@[simp] theorem State.setRouted_ce (j v i : Nat) (c : Ctr) : (s.setRouted j v i c).ce = s.ce := rfl
@[simp] theorem State.setRouted_hold (j v i : Nat) (c : Ctr) : (s.setRouted j v i c).hold = s.hold := rfl
@[simp] theorem State.setRouted_solv (j v i : Nat) (c : Ctr) : (s.setRouted j v i c).solv = s.solv := rfl
@[simp] theorem State.setRouted_field (j v i : Nat) (c : Ctr) : (s.setRouted j v i c).field = s.field := rfl
@[simp] theorem State.setRouted_edge (j v i : Nat) (c : Ctr) : (s.setRouted j v i c).edge = s.edge := rfl
@[simp] theorem State.setRouted_flash (j v i : Nat) (c : Ctr) : (s.setRouted j v i c).flash = s.flash := rfl
@[simp] theorem State.setRouted_sec (j v i : Nat) (c : Ctr) : (s.setRouted j v i c).sec = s.sec := rfl
@[simp] theorem State.setRouted_pwr (j v i : Nat) (c : Ctr) : (s.setRouted j v i c).pwr = s.pwr := rfl
@[simp] theorem State.setRouted_cpLast (j v i : Nat) (c : Ctr) : (s.setRouted j v i c).cpLast = s.cpLast := rfl
@[simp] theorem State.setNet_pending (j m n : Nat) : (s.setNet j m n).pending = s.pending := rfl
@[simp] theorem State.setNet_raw (j m n : Nat) : (s.setNet j m n).raw = s.raw := rfl
@[simp] theorem State.setNet_fresh (j m n : Nat) : (s.setNet j m n).fresh = s.fresh := rfl
@[simp] theorem State.setNet_out (j m n : Nat) : (s.setNet j m n).out = s.out := rfl
@[simp] theorem State.setNet_mem (j m n : Nat) : (s.setNet j m n).mem = s.mem := rfl
@[simp] theorem State.setNet_regs (j m n : Nat) : (s.setNet j m n).regs = s.regs := rfl
@[simp] theorem State.setNet_faces (j m n : Nat) : (s.setNet j m n).faces = s.faces := rfl
@[simp] theorem State.setNet_jobs (j m n : Nat) : (s.setNet j m n).jobs = s.jobs := rfl
@[simp] theorem State.setNet_vfs (j m n : Nat) : (s.setNet j m n).vfs = s.vfs := rfl
@[simp] theorem State.setNet_routed (j m n : Nat) : (s.setNet j m n).routed = s.routed := rfl
@[simp] theorem State.setNet_inFlight (j m n : Nat) : (s.setNet j m n).inFlight = s.inFlight := rfl
@[simp] theorem State.setNet_waiters (j m n : Nat) : (s.setNet j m n).waiters = s.waiters := rfl
@[simp] theorem State.setNet_bufs (j m n : Nat) : (s.setNet j m n).bufs = s.bufs := rfl
@[simp] theorem State.setNet_place (j m n : Nat) : (s.setNet j m n).place = s.place := rfl
@[simp] theorem State.setNet_sched (j m n : Nat) : (s.setNet j m n).sched = s.sched := rfl
@[simp] theorem State.setNet_kept (j m n : Nat) : (s.setNet j m n).kept = s.kept := rfl
@[simp] theorem State.setNet_raised (j m n : Nat) : (s.setNet j m n).raised = s.raised := rfl
@[simp] theorem State.setNet_pip (j m n : Nat) : (s.setNet j m n).pip = s.pip := rfl
@[simp] theorem State.setNet_kv (j m n : Nat) : (s.setNet j m n).kv = s.kv := rfl
@[simp] theorem State.setNet_efl (j m n : Nat) : (s.setNet j m n).efl = s.efl := rfl
@[simp] theorem State.setNet_safe (j m n : Nat) : (s.setNet j m n).safe = s.safe := rfl
@[simp] theorem State.setNet_permit (j m n : Nat) : (s.setNet j m n).permit = s.permit := rfl
@[simp] theorem State.setNet_pertDelay (j m n : Nat) : (s.setNet j m n).pertDelay = s.pertDelay := rfl
@[simp] theorem State.setNet_time (j m n : Nat) : (s.setNet j m n).time = s.time := rfl
@[simp] theorem State.setNet_ce (j m n : Nat) : (s.setNet j m n).ce = s.ce := rfl
@[simp] theorem State.setNet_hold (j m n : Nat) : (s.setNet j m n).hold = s.hold := rfl
@[simp] theorem State.setNet_solv (j m n : Nat) : (s.setNet j m n).solv = s.solv := rfl
@[simp] theorem State.setNet_field (j m n : Nat) : (s.setNet j m n).field = s.field := rfl
@[simp] theorem State.setNet_edge (j m n : Nat) : (s.setNet j m n).edge = s.edge := rfl
@[simp] theorem State.setNet_flash (j m n : Nat) : (s.setNet j m n).flash = s.flash := rfl
@[simp] theorem State.setNet_sec (j m n : Nat) : (s.setNet j m n).sec = s.sec := rfl
@[simp] theorem State.setNet_pwr (j m n : Nat) : (s.setNet j m n).pwr = s.pwr := rfl
@[simp] theorem State.setNet_cpLast (j m n : Nat) : (s.setNet j m n).cpLast = s.cpLast := rfl
@[simp] theorem State.setWaiters_pending (m : Nat) (l : List SemReq) : (s.setWaiters m l).pending = s.pending := rfl
@[simp] theorem State.setWaiters_raw (m : Nat) (l : List SemReq) : (s.setWaiters m l).raw = s.raw := rfl
@[simp] theorem State.setWaiters_fresh (m : Nat) (l : List SemReq) : (s.setWaiters m l).fresh = s.fresh := rfl
@[simp] theorem State.setWaiters_out (m : Nat) (l : List SemReq) : (s.setWaiters m l).out = s.out := rfl
@[simp] theorem State.setWaiters_mem (m : Nat) (l : List SemReq) : (s.setWaiters m l).mem = s.mem := rfl
@[simp] theorem State.setWaiters_regs (m : Nat) (l : List SemReq) : (s.setWaiters m l).regs = s.regs := rfl
@[simp] theorem State.setWaiters_faces (m : Nat) (l : List SemReq) : (s.setWaiters m l).faces = s.faces := rfl
@[simp] theorem State.setWaiters_jobs (m : Nat) (l : List SemReq) : (s.setWaiters m l).jobs = s.jobs := rfl
@[simp] theorem State.setWaiters_vfs (m : Nat) (l : List SemReq) : (s.setWaiters m l).vfs = s.vfs := rfl
@[simp] theorem State.setWaiters_routed (m : Nat) (l : List SemReq) : (s.setWaiters m l).routed = s.routed := rfl
@[simp] theorem State.setWaiters_inFlight (m : Nat) (l : List SemReq) : (s.setWaiters m l).inFlight = s.inFlight := rfl
@[simp] theorem State.setWaiters_net (m : Nat) (l : List SemReq) : (s.setWaiters m l).net = s.net := rfl
@[simp] theorem State.setWaiters_bufs (m : Nat) (l : List SemReq) : (s.setWaiters m l).bufs = s.bufs := rfl
@[simp] theorem State.setWaiters_place (m : Nat) (l : List SemReq) : (s.setWaiters m l).place = s.place := rfl
@[simp] theorem State.setWaiters_sched (m : Nat) (l : List SemReq) : (s.setWaiters m l).sched = s.sched := rfl
@[simp] theorem State.setWaiters_kept (m : Nat) (l : List SemReq) : (s.setWaiters m l).kept = s.kept := rfl
@[simp] theorem State.setWaiters_raised (m : Nat) (l : List SemReq) : (s.setWaiters m l).raised = s.raised := rfl
@[simp] theorem State.setWaiters_pip (m : Nat) (l : List SemReq) : (s.setWaiters m l).pip = s.pip := rfl
@[simp] theorem State.setWaiters_kv (m : Nat) (l : List SemReq) : (s.setWaiters m l).kv = s.kv := rfl
@[simp] theorem State.setWaiters_efl (m : Nat) (l : List SemReq) : (s.setWaiters m l).efl = s.efl := rfl
@[simp] theorem State.setWaiters_safe (m : Nat) (l : List SemReq) : (s.setWaiters m l).safe = s.safe := rfl
@[simp] theorem State.setWaiters_permit (m : Nat) (l : List SemReq) : (s.setWaiters m l).permit = s.permit := rfl
@[simp] theorem State.setWaiters_pertDelay (m : Nat) (l : List SemReq) : (s.setWaiters m l).pertDelay = s.pertDelay := rfl
@[simp] theorem State.setWaiters_time (m : Nat) (l : List SemReq) : (s.setWaiters m l).time = s.time := rfl
@[simp] theorem State.setWaiters_ce (m : Nat) (l : List SemReq) : (s.setWaiters m l).ce = s.ce := rfl
@[simp] theorem State.setWaiters_hold (m : Nat) (l : List SemReq) : (s.setWaiters m l).hold = s.hold := rfl
@[simp] theorem State.setWaiters_solv (m : Nat) (l : List SemReq) : (s.setWaiters m l).solv = s.solv := rfl
@[simp] theorem State.setWaiters_field (m : Nat) (l : List SemReq) : (s.setWaiters m l).field = s.field := rfl
@[simp] theorem State.setWaiters_edge (m : Nat) (l : List SemReq) : (s.setWaiters m l).edge = s.edge := rfl
@[simp] theorem State.setWaiters_flash (m : Nat) (l : List SemReq) : (s.setWaiters m l).flash = s.flash := rfl
@[simp] theorem State.setWaiters_sec (m : Nat) (l : List SemReq) : (s.setWaiters m l).sec = s.sec := rfl
@[simp] theorem State.setWaiters_pwr (m : Nat) (l : List SemReq) : (s.setWaiters m l).pwr = s.pwr := rfl
@[simp] theorem State.setWaiters_cpLast (m : Nat) (l : List SemReq) : (s.setWaiters m l).cpLast = s.cpLast := rfl
@[simp] theorem State.store_pending (k : Nat) (bs : List Byte) : (s.store k bs).pending = s.pending := rfl
@[simp] theorem State.store_raw (k : Nat) (bs : List Byte) : (s.store k bs).raw = s.raw := rfl
@[simp] theorem State.store_fresh (k : Nat) (bs : List Byte) : (s.store k bs).fresh = s.fresh := rfl
@[simp] theorem State.store_out (k : Nat) (bs : List Byte) : (s.store k bs).out = s.out := rfl
@[simp] theorem State.store_regs (k : Nat) (bs : List Byte) : (s.store k bs).regs = s.regs := rfl
@[simp] theorem State.store_faces (k : Nat) (bs : List Byte) : (s.store k bs).faces = s.faces := rfl
@[simp] theorem State.store_jobs (k : Nat) (bs : List Byte) : (s.store k bs).jobs = s.jobs := rfl
@[simp] theorem State.store_vfs (k : Nat) (bs : List Byte) : (s.store k bs).vfs = s.vfs := rfl
@[simp] theorem State.store_routed (k : Nat) (bs : List Byte) : (s.store k bs).routed = s.routed := rfl
@[simp] theorem State.store_inFlight (k : Nat) (bs : List Byte) : (s.store k bs).inFlight = s.inFlight := rfl
@[simp] theorem State.store_net (k : Nat) (bs : List Byte) : (s.store k bs).net = s.net := rfl
@[simp] theorem State.store_waiters (k : Nat) (bs : List Byte) : (s.store k bs).waiters = s.waiters := rfl
@[simp] theorem State.store_bufs (k : Nat) (bs : List Byte) : (s.store k bs).bufs = s.bufs := rfl
@[simp] theorem State.store_place (k : Nat) (bs : List Byte) : (s.store k bs).place = s.place := rfl
@[simp] theorem State.store_sched (k : Nat) (bs : List Byte) : (s.store k bs).sched = s.sched := rfl
@[simp] theorem State.store_kept (k : Nat) (bs : List Byte) : (s.store k bs).kept = s.kept := rfl
@[simp] theorem State.store_raised (k : Nat) (bs : List Byte) : (s.store k bs).raised = s.raised := rfl
@[simp] theorem State.store_pip (k : Nat) (bs : List Byte) : (s.store k bs).pip = s.pip := rfl
@[simp] theorem State.store_kv (k : Nat) (bs : List Byte) : (s.store k bs).kv = s.kv := rfl
@[simp] theorem State.store_efl (k : Nat) (bs : List Byte) : (s.store k bs).efl = s.efl := rfl
@[simp] theorem State.store_safe (k : Nat) (bs : List Byte) : (s.store k bs).safe = s.safe := rfl
@[simp] theorem State.store_permit (k : Nat) (bs : List Byte) : (s.store k bs).permit = s.permit := rfl
@[simp] theorem State.store_pertDelay (k : Nat) (bs : List Byte) : (s.store k bs).pertDelay = s.pertDelay := rfl
@[simp] theorem State.store_time (k : Nat) (bs : List Byte) : (s.store k bs).time = s.time := rfl
@[simp] theorem State.store_ce (k : Nat) (bs : List Byte) : (s.store k bs).ce = s.ce := rfl
@[simp] theorem State.store_hold (k : Nat) (bs : List Byte) : (s.store k bs).hold = s.hold := rfl
@[simp] theorem State.store_solv (k : Nat) (bs : List Byte) : (s.store k bs).solv = s.solv := rfl
@[simp] theorem State.store_field (k : Nat) (bs : List Byte) : (s.store k bs).field = s.field := rfl
@[simp] theorem State.store_edge (k : Nat) (bs : List Byte) : (s.store k bs).edge = s.edge := rfl
@[simp] theorem State.store_flash (k : Nat) (bs : List Byte) : (s.store k bs).flash = s.flash := rfl
@[simp] theorem State.store_sec (k : Nat) (bs : List Byte) : (s.store k bs).sec = s.sec := rfl
@[simp] theorem State.store_pwr (k : Nat) (bs : List Byte) : (s.store k bs).pwr = s.pwr := rfl
@[simp] theorem State.store_cpLast (k : Nat) (bs : List Byte) : (s.store k bs).cpLast = s.cpLast := rfl
@[simp] theorem State.zero_pending (k n : Nat) : (s.zero k n).pending = s.pending := rfl
@[simp] theorem State.zero_raw (k n : Nat) : (s.zero k n).raw = s.raw := rfl
@[simp] theorem State.zero_fresh (k n : Nat) : (s.zero k n).fresh = s.fresh := rfl
@[simp] theorem State.zero_out (k n : Nat) : (s.zero k n).out = s.out := rfl
@[simp] theorem State.zero_regs (k n : Nat) : (s.zero k n).regs = s.regs := rfl
@[simp] theorem State.zero_faces (k n : Nat) : (s.zero k n).faces = s.faces := rfl
@[simp] theorem State.zero_jobs (k n : Nat) : (s.zero k n).jobs = s.jobs := rfl
@[simp] theorem State.zero_vfs (k n : Nat) : (s.zero k n).vfs = s.vfs := rfl
@[simp] theorem State.zero_routed (k n : Nat) : (s.zero k n).routed = s.routed := rfl
@[simp] theorem State.zero_inFlight (k n : Nat) : (s.zero k n).inFlight = s.inFlight := rfl
@[simp] theorem State.zero_net (k n : Nat) : (s.zero k n).net = s.net := rfl
@[simp] theorem State.zero_waiters (k n : Nat) : (s.zero k n).waiters = s.waiters := rfl
@[simp] theorem State.zero_bufs (k n : Nat) : (s.zero k n).bufs = s.bufs := rfl
@[simp] theorem State.zero_place (k n : Nat) : (s.zero k n).place = s.place := rfl
@[simp] theorem State.zero_sched (k n : Nat) : (s.zero k n).sched = s.sched := rfl
@[simp] theorem State.zero_kept (k n : Nat) : (s.zero k n).kept = s.kept := rfl
@[simp] theorem State.zero_raised (k n : Nat) : (s.zero k n).raised = s.raised := rfl
@[simp] theorem State.zero_pip (k n : Nat) : (s.zero k n).pip = s.pip := rfl
@[simp] theorem State.zero_kv (k n : Nat) : (s.zero k n).kv = s.kv := rfl
@[simp] theorem State.zero_efl (k n : Nat) : (s.zero k n).efl = s.efl := rfl
@[simp] theorem State.zero_safe (k n : Nat) : (s.zero k n).safe = s.safe := rfl
@[simp] theorem State.zero_permit (k n : Nat) : (s.zero k n).permit = s.permit := rfl
@[simp] theorem State.zero_pertDelay (k n : Nat) : (s.zero k n).pertDelay = s.pertDelay := rfl
@[simp] theorem State.zero_time (k n : Nat) : (s.zero k n).time = s.time := rfl
@[simp] theorem State.zero_ce (k n : Nat) : (s.zero k n).ce = s.ce := rfl
@[simp] theorem State.zero_hold (k n : Nat) : (s.zero k n).hold = s.hold := rfl
@[simp] theorem State.zero_solv (k n : Nat) : (s.zero k n).solv = s.solv := rfl
@[simp] theorem State.zero_field (k n : Nat) : (s.zero k n).field = s.field := rfl
@[simp] theorem State.zero_edge (k n : Nat) : (s.zero k n).edge = s.edge := rfl
@[simp] theorem State.zero_flash (k n : Nat) : (s.zero k n).flash = s.flash := rfl
@[simp] theorem State.zero_sec (k n : Nat) : (s.zero k n).sec = s.sec := rfl
@[simp] theorem State.zero_pwr (k n : Nat) : (s.zero k n).pwr = s.pwr := rfl
@[simp] theorem State.zero_cpLast (k n : Nat) : (s.zero k n).cpLast = s.cpLast := rfl
@[simp] theorem State.raiseEv_pending (k : Nat) : (s.raiseEv k).pending = s.pending := rfl
@[simp] theorem State.raiseEv_raw (k : Nat) : (s.raiseEv k).raw = s.raw := rfl
@[simp] theorem State.raiseEv_fresh (k : Nat) : (s.raiseEv k).fresh = s.fresh := rfl
@[simp] theorem State.raiseEv_out (k : Nat) : (s.raiseEv k).out = s.out := rfl
@[simp] theorem State.raiseEv_mem (k : Nat) : (s.raiseEv k).mem = s.mem := rfl
@[simp] theorem State.raiseEv_regs (k : Nat) : (s.raiseEv k).regs = s.regs := rfl
@[simp] theorem State.raiseEv_faces (k : Nat) : (s.raiseEv k).faces = s.faces := rfl
@[simp] theorem State.raiseEv_jobs (k : Nat) : (s.raiseEv k).jobs = s.jobs := rfl
@[simp] theorem State.raiseEv_vfs (k : Nat) : (s.raiseEv k).vfs = s.vfs := rfl
@[simp] theorem State.raiseEv_routed (k : Nat) : (s.raiseEv k).routed = s.routed := rfl
@[simp] theorem State.raiseEv_inFlight (k : Nat) : (s.raiseEv k).inFlight = s.inFlight := rfl
@[simp] theorem State.raiseEv_net (k : Nat) : (s.raiseEv k).net = s.net := rfl
@[simp] theorem State.raiseEv_waiters (k : Nat) : (s.raiseEv k).waiters = s.waiters := rfl
@[simp] theorem State.raiseEv_bufs (k : Nat) : (s.raiseEv k).bufs = s.bufs := rfl
@[simp] theorem State.raiseEv_place (k : Nat) : (s.raiseEv k).place = s.place := rfl
@[simp] theorem State.raiseEv_sched (k : Nat) : (s.raiseEv k).sched = s.sched := rfl
@[simp] theorem State.raiseEv_kept (k : Nat) : (s.raiseEv k).kept = s.kept := rfl
@[simp] theorem State.raiseEv_pip (k : Nat) : (s.raiseEv k).pip = s.pip := rfl
@[simp] theorem State.raiseEv_kv (k : Nat) : (s.raiseEv k).kv = s.kv := rfl
@[simp] theorem State.raiseEv_efl (k : Nat) : (s.raiseEv k).efl = s.efl := rfl
@[simp] theorem State.raiseEv_safe (k : Nat) : (s.raiseEv k).safe = s.safe := rfl
@[simp] theorem State.raiseEv_permit (k : Nat) : (s.raiseEv k).permit = s.permit := rfl
@[simp] theorem State.raiseEv_pertDelay (k : Nat) : (s.raiseEv k).pertDelay = s.pertDelay := rfl
@[simp] theorem State.raiseEv_time (k : Nat) : (s.raiseEv k).time = s.time := rfl
@[simp] theorem State.raiseEv_ce (k : Nat) : (s.raiseEv k).ce = s.ce := rfl
@[simp] theorem State.raiseEv_hold (k : Nat) : (s.raiseEv k).hold = s.hold := rfl
@[simp] theorem State.raiseEv_solv (k : Nat) : (s.raiseEv k).solv = s.solv := rfl
@[simp] theorem State.raiseEv_field (k : Nat) : (s.raiseEv k).field = s.field := rfl
@[simp] theorem State.raiseEv_edge (k : Nat) : (s.raiseEv k).edge = s.edge := rfl
@[simp] theorem State.raiseEv_flash (k : Nat) : (s.raiseEv k).flash = s.flash := rfl
@[simp] theorem State.raiseEv_sec (k : Nat) : (s.raiseEv k).sec = s.sec := rfl
@[simp] theorem State.raiseEv_pwr (k : Nat) : (s.raiseEv k).pwr = s.pwr := rfl
@[simp] theorem State.raiseEv_cpLast (k : Nat) : (s.raiseEv k).cpLast = s.cpLast := rfl
@[simp] theorem State.answer_pending (r : Resp) : (s.answer r).pending = s.pending := rfl
@[simp] theorem State.answer_raw (r : Resp) : (s.answer r).raw = s.raw := rfl
@[simp] theorem State.answer_fresh (r : Resp) : (s.answer r).fresh = s.fresh := rfl
@[simp] theorem State.answer_mem (r : Resp) : (s.answer r).mem = s.mem := rfl
@[simp] theorem State.answer_regs (r : Resp) : (s.answer r).regs = s.regs := rfl
@[simp] theorem State.answer_faces (r : Resp) : (s.answer r).faces = s.faces := rfl
@[simp] theorem State.answer_jobs (r : Resp) : (s.answer r).jobs = s.jobs := rfl
@[simp] theorem State.answer_vfs (r : Resp) : (s.answer r).vfs = s.vfs := rfl
@[simp] theorem State.answer_routed (r : Resp) : (s.answer r).routed = s.routed := rfl
@[simp] theorem State.answer_inFlight (r : Resp) : (s.answer r).inFlight = s.inFlight := rfl
@[simp] theorem State.answer_net (r : Resp) : (s.answer r).net = s.net := rfl
@[simp] theorem State.answer_waiters (r : Resp) : (s.answer r).waiters = s.waiters := rfl
@[simp] theorem State.answer_bufs (r : Resp) : (s.answer r).bufs = s.bufs := rfl
@[simp] theorem State.answer_place (r : Resp) : (s.answer r).place = s.place := rfl
@[simp] theorem State.answer_sched (r : Resp) : (s.answer r).sched = s.sched := rfl
@[simp] theorem State.answer_kept (r : Resp) : (s.answer r).kept = s.kept := rfl
@[simp] theorem State.answer_raised (r : Resp) : (s.answer r).raised = s.raised := rfl
@[simp] theorem State.answer_pip (r : Resp) : (s.answer r).pip = s.pip := rfl
@[simp] theorem State.answer_kv (r : Resp) : (s.answer r).kv = s.kv := rfl
@[simp] theorem State.answer_efl (r : Resp) : (s.answer r).efl = s.efl := rfl
@[simp] theorem State.answer_safe (r : Resp) : (s.answer r).safe = s.safe := rfl
@[simp] theorem State.answer_permit (r : Resp) : (s.answer r).permit = s.permit := rfl
@[simp] theorem State.answer_pertDelay (r : Resp) : (s.answer r).pertDelay = s.pertDelay := rfl
@[simp] theorem State.answer_time (r : Resp) : (s.answer r).time = s.time := rfl
@[simp] theorem State.answer_ce (r : Resp) : (s.answer r).ce = s.ce := rfl
@[simp] theorem State.answer_hold (r : Resp) : (s.answer r).hold = s.hold := rfl
@[simp] theorem State.answer_solv (r : Resp) : (s.answer r).solv = s.solv := rfl
@[simp] theorem State.answer_field (r : Resp) : (s.answer r).field = s.field := rfl
@[simp] theorem State.answer_edge (r : Resp) : (s.answer r).edge = s.edge := rfl
@[simp] theorem State.answer_flash (r : Resp) : (s.answer r).flash = s.flash := rfl
@[simp] theorem State.answer_sec (r : Resp) : (s.answer r).sec = s.sec := rfl
@[simp] theorem State.answer_pwr (r : Resp) : (s.answer r).pwr = s.pwr := rfl
@[simp] theorem State.answer_cpLast (r : Resp) : (s.answer r).cpLast = s.cpLast := rfl
@[simp] theorem State.sendRouted_pending (j v i n : Nat) : (s.sendRouted j v i n).pending = s.pending := rfl
@[simp] theorem State.sendRouted_raw (j v i n : Nat) : (s.sendRouted j v i n).raw = s.raw := rfl
@[simp] theorem State.sendRouted_fresh (j v i n : Nat) : (s.sendRouted j v i n).fresh = s.fresh := rfl
@[simp] theorem State.sendRouted_out (j v i n : Nat) : (s.sendRouted j v i n).out = s.out := rfl
@[simp] theorem State.sendRouted_mem (j v i n : Nat) : (s.sendRouted j v i n).mem = s.mem := rfl
@[simp] theorem State.sendRouted_regs (j v i n : Nat) : (s.sendRouted j v i n).regs = s.regs := rfl
@[simp] theorem State.sendRouted_faces (j v i n : Nat) : (s.sendRouted j v i n).faces = s.faces := rfl
@[simp] theorem State.sendRouted_jobs (j v i n : Nat) : (s.sendRouted j v i n).jobs = s.jobs := rfl
@[simp] theorem State.sendRouted_vfs (j v i n : Nat) : (s.sendRouted j v i n).vfs = s.vfs := rfl
@[simp] theorem State.sendRouted_routed (j v i n : Nat) : (s.sendRouted j v i n).routed = s.routed := rfl
@[simp] theorem State.sendRouted_net (j v i n : Nat) : (s.sendRouted j v i n).net = s.net := rfl
@[simp] theorem State.sendRouted_waiters (j v i n : Nat) : (s.sendRouted j v i n).waiters = s.waiters := rfl
@[simp] theorem State.sendRouted_bufs (j v i n : Nat) : (s.sendRouted j v i n).bufs = s.bufs := rfl
@[simp] theorem State.sendRouted_place (j v i n : Nat) : (s.sendRouted j v i n).place = s.place := rfl
@[simp] theorem State.sendRouted_sched (j v i n : Nat) : (s.sendRouted j v i n).sched = s.sched := rfl
@[simp] theorem State.sendRouted_kept (j v i n : Nat) : (s.sendRouted j v i n).kept = s.kept := rfl
@[simp] theorem State.sendRouted_raised (j v i n : Nat) : (s.sendRouted j v i n).raised = s.raised := rfl
@[simp] theorem State.sendRouted_pip (j v i n : Nat) : (s.sendRouted j v i n).pip = s.pip := rfl
@[simp] theorem State.sendRouted_kv (j v i n : Nat) : (s.sendRouted j v i n).kv = s.kv := rfl
@[simp] theorem State.sendRouted_efl (j v i n : Nat) : (s.sendRouted j v i n).efl = s.efl := rfl
@[simp] theorem State.sendRouted_safe (j v i n : Nat) : (s.sendRouted j v i n).safe = s.safe := rfl
@[simp] theorem State.sendRouted_permit (j v i n : Nat) : (s.sendRouted j v i n).permit = s.permit := rfl
@[simp] theorem State.sendRouted_pertDelay (j v i n : Nat) : (s.sendRouted j v i n).pertDelay = s.pertDelay := rfl
@[simp] theorem State.sendRouted_time (j v i n : Nat) : (s.sendRouted j v i n).time = s.time := rfl
@[simp] theorem State.sendRouted_ce (j v i n : Nat) : (s.sendRouted j v i n).ce = s.ce := rfl
@[simp] theorem State.sendRouted_hold (j v i n : Nat) : (s.sendRouted j v i n).hold = s.hold := rfl
@[simp] theorem State.sendRouted_solv (j v i n : Nat) : (s.sendRouted j v i n).solv = s.solv := rfl
@[simp] theorem State.sendRouted_field (j v i n : Nat) : (s.sendRouted j v i n).field = s.field := rfl
@[simp] theorem State.sendRouted_edge (j v i n : Nat) : (s.sendRouted j v i n).edge = s.edge := rfl
@[simp] theorem State.sendRouted_flash (j v i n : Nat) : (s.sendRouted j v i n).flash = s.flash := rfl
@[simp] theorem State.sendRouted_sec (j v i n : Nat) : (s.sendRouted j v i n).sec = s.sec := rfl
@[simp] theorem State.sendRouted_pwr (j v i n : Nat) : (s.sendRouted j v i n).pwr = s.pwr := rfl
@[simp] theorem State.sendRouted_cpLast (j v i n : Nat) : (s.sendRouted j v i n).cpLast = s.cpLast := rfl

/-! ## Accessors of the other tables -/

@[simp] theorem State.wr_face (a : Nat) (v : Word) (g' : Nat) : (s.wr a v).face g' = s.face g' := rfl
@[simp] theorem State.wr_job (a : Nat) (v : Word) (i' : Nat) : (s.wr a v).job i' = s.job i' := rfl
@[simp] theorem State.wr_vf (a : Nat) (v : Word) (i' w' : Nat) : (s.wr a v).vf i' w' = s.vf i' w' := rfl
@[simp] theorem State.wr_buf (a : Nat) (v : Word) (i' : Nat) : (s.wr a v).buf i' = s.buf i' := rfl
@[simp] theorem State.wr_routedCtr (a : Nat) (v : Word) (i' w' x' : Nat) : (s.wr a v).routedCtr i' w' x' = s.routedCtr i' w' x' := rfl
@[simp] theorem State.wr_netOf (a : Nat) (v : Word) (i' x' : Nat) : (s.wr a v).netOf i' x' = s.netOf i' x' := rfl
@[simp] theorem State.wr_semWaiters (a : Nat) (v : Word) (x' : Nat) : (s.wr a v).semWaiters x' = s.semWaiters x' := rfl
@[simp] theorem State.wr_loadByte (a : Nat) (v : Word) (x' : Nat) : (s.wr a v).loadByte x' = s.loadByte x' := rfl
@[simp] theorem State.wr_findBuf (a : Nat) (v : Word) (i' w' : Nat) : (s.wr a v).findBuf i' w' = s.findBuf i' w' := rfl
@[simp] theorem State.setFld_face (a hi lo x : Nat) (g' : Nat) : (s.setFld a hi lo x).face g' = s.face g' := rfl
@[simp] theorem State.setFld_job (a hi lo x : Nat) (i' : Nat) : (s.setFld a hi lo x).job i' = s.job i' := rfl
@[simp] theorem State.setFld_vf (a hi lo x : Nat) (i' w' : Nat) : (s.setFld a hi lo x).vf i' w' = s.vf i' w' := rfl
@[simp] theorem State.setFld_buf (a hi lo x : Nat) (i' : Nat) : (s.setFld a hi lo x).buf i' = s.buf i' := rfl
@[simp] theorem State.setFld_routedCtr (a hi lo x : Nat) (i' w' x' : Nat) : (s.setFld a hi lo x).routedCtr i' w' x' = s.routedCtr i' w' x' := rfl
@[simp] theorem State.setFld_netOf (a hi lo x : Nat) (i' x' : Nat) : (s.setFld a hi lo x).netOf i' x' = s.netOf i' x' := rfl
@[simp] theorem State.setFld_semWaiters (a hi lo x : Nat) (x' : Nat) : (s.setFld a hi lo x).semWaiters x' = s.semWaiters x' := rfl
@[simp] theorem State.setFld_loadByte (a hi lo x : Nat) (x' : Nat) : (s.setFld a hi lo x).loadByte x' = s.loadByte x' := rfl
@[simp] theorem State.setFld_findBuf (a hi lo x : Nat) (i' w' : Nat) : (s.setFld a hi lo x).findBuf i' w' = s.findBuf i' w' := rfl
@[simp] theorem State.setFlag_face (a k : Nat) (b : Bool) (g' : Nat) : (s.setFlag a k b).face g' = s.face g' := rfl
@[simp] theorem State.setFlag_job (a k : Nat) (b : Bool) (i' : Nat) : (s.setFlag a k b).job i' = s.job i' := rfl
@[simp] theorem State.setFlag_vf (a k : Nat) (b : Bool) (i' w' : Nat) : (s.setFlag a k b).vf i' w' = s.vf i' w' := rfl
@[simp] theorem State.setFlag_buf (a k : Nat) (b : Bool) (i' : Nat) : (s.setFlag a k b).buf i' = s.buf i' := rfl
@[simp] theorem State.setFlag_routedCtr (a k : Nat) (b : Bool) (i' w' x' : Nat) : (s.setFlag a k b).routedCtr i' w' x' = s.routedCtr i' w' x' := rfl
@[simp] theorem State.setFlag_netOf (a k : Nat) (b : Bool) (i' x' : Nat) : (s.setFlag a k b).netOf i' x' = s.netOf i' x' := rfl
@[simp] theorem State.setFlag_semWaiters (a k : Nat) (b : Bool) (x' : Nat) : (s.setFlag a k b).semWaiters x' = s.semWaiters x' := rfl
@[simp] theorem State.setFlag_loadByte (a k : Nat) (b : Bool) (x' : Nat) : (s.setFlag a k b).loadByte x' = s.loadByte x' := rfl
@[simp] theorem State.setFlag_findBuf (a k : Nat) (b : Bool) (i' w' : Nat) : (s.setFlag a k b).findBuf i' w' = s.findBuf i' w' := rfl
@[simp] theorem State.setFace_rd (n : Nat) (f : FaceSt) (b' : Nat) : (s.setFace n f).rd b' = s.rd b' := rfl
@[simp] theorem State.setFace_job (n : Nat) (f : FaceSt) (i' : Nat) : (s.setFace n f).job i' = s.job i' := rfl
@[simp] theorem State.setFace_vf (n : Nat) (f : FaceSt) (i' w' : Nat) : (s.setFace n f).vf i' w' = s.vf i' w' := rfl
@[simp] theorem State.setFace_buf (n : Nat) (f : FaceSt) (i' : Nat) : (s.setFace n f).buf i' = s.buf i' := rfl
@[simp] theorem State.setFace_routedCtr (n : Nat) (f : FaceSt) (i' w' x' : Nat) : (s.setFace n f).routedCtr i' w' x' = s.routedCtr i' w' x' := rfl
@[simp] theorem State.setFace_netOf (n : Nat) (f : FaceSt) (i' x' : Nat) : (s.setFace n f).netOf i' x' = s.netOf i' x' := rfl
@[simp] theorem State.setFace_semWaiters (n : Nat) (f : FaceSt) (x' : Nat) : (s.setFace n f).semWaiters x' = s.semWaiters x' := rfl
@[simp] theorem State.setFace_loadByte (n : Nat) (f : FaceSt) (x' : Nat) : (s.setFace n f).loadByte x' = s.loadByte x' := rfl
@[simp] theorem State.setFace_fld (n : Nat) (f : FaceSt) (b' hi' lo' : Nat) : (s.setFace n f).fld b' hi' lo' = s.fld b' hi' lo' := rfl
@[simp] theorem State.setFace_flag (n : Nat) (f : FaceSt) (b' w' : Nat) : (s.setFace n f).flag b' w' = s.flag b' w' := rfl
@[simp] theorem State.setFace_findBuf (n : Nat) (f : FaceSt) (i' w' : Nat) : (s.setFace n f).findBuf i' w' = s.findBuf i' w' := rfl
@[simp] theorem State.setJob_rd (j : Nat) (v : Option JobSt) (b' : Nat) : (s.setJob j v).rd b' = s.rd b' := rfl
@[simp] theorem State.setJob_face (j : Nat) (v : Option JobSt) (g' : Nat) : (s.setJob j v).face g' = s.face g' := rfl
@[simp] theorem State.setJob_vf (j : Nat) (v : Option JobSt) (i' w' : Nat) : (s.setJob j v).vf i' w' = s.vf i' w' := rfl
@[simp] theorem State.setJob_buf (j : Nat) (v : Option JobSt) (i' : Nat) : (s.setJob j v).buf i' = s.buf i' := rfl
@[simp] theorem State.setJob_routedCtr (j : Nat) (v : Option JobSt) (i' w' x' : Nat) : (s.setJob j v).routedCtr i' w' x' = s.routedCtr i' w' x' := rfl
@[simp] theorem State.setJob_netOf (j : Nat) (v : Option JobSt) (i' x' : Nat) : (s.setJob j v).netOf i' x' = s.netOf i' x' := rfl
@[simp] theorem State.setJob_semWaiters (j : Nat) (v : Option JobSt) (x' : Nat) : (s.setJob j v).semWaiters x' = s.semWaiters x' := rfl
@[simp] theorem State.setJob_loadByte (j : Nat) (v : Option JobSt) (x' : Nat) : (s.setJob j v).loadByte x' = s.loadByte x' := rfl
@[simp] theorem State.setJob_fld (j : Nat) (v : Option JobSt) (b' hi' lo' : Nat) : (s.setJob j v).fld b' hi' lo' = s.fld b' hi' lo' := rfl
@[simp] theorem State.setJob_flag (j : Nat) (v : Option JobSt) (b' w' : Nat) : (s.setJob j v).flag b' w' = s.flag b' w' := rfl
@[simp] theorem State.setJob_findBuf (j : Nat) (v : Option JobSt) (i' w' : Nat) : (s.setJob j v).findBuf i' w' = s.findBuf i' w' := rfl
@[simp] theorem State.setVf_rd (j v : Nat) (q : VfSt) (b' : Nat) : (s.setVf j v q).rd b' = s.rd b' := rfl
@[simp] theorem State.setVf_face (j v : Nat) (q : VfSt) (g' : Nat) : (s.setVf j v q).face g' = s.face g' := rfl
@[simp] theorem State.setVf_job (j v : Nat) (q : VfSt) (i' : Nat) : (s.setVf j v q).job i' = s.job i' := rfl
@[simp] theorem State.setVf_buf (j v : Nat) (q : VfSt) (i' : Nat) : (s.setVf j v q).buf i' = s.buf i' := rfl
@[simp] theorem State.setVf_routedCtr (j v : Nat) (q : VfSt) (i' w' x' : Nat) : (s.setVf j v q).routedCtr i' w' x' = s.routedCtr i' w' x' := rfl
@[simp] theorem State.setVf_netOf (j v : Nat) (q : VfSt) (i' x' : Nat) : (s.setVf j v q).netOf i' x' = s.netOf i' x' := rfl
@[simp] theorem State.setVf_semWaiters (j v : Nat) (q : VfSt) (x' : Nat) : (s.setVf j v q).semWaiters x' = s.semWaiters x' := rfl
@[simp] theorem State.setVf_loadByte (j v : Nat) (q : VfSt) (x' : Nat) : (s.setVf j v q).loadByte x' = s.loadByte x' := rfl
@[simp] theorem State.setVf_fld (j v : Nat) (q : VfSt) (b' hi' lo' : Nat) : (s.setVf j v q).fld b' hi' lo' = s.fld b' hi' lo' := rfl
@[simp] theorem State.setVf_flag (j v : Nat) (q : VfSt) (b' w' : Nat) : (s.setVf j v q).flag b' w' = s.flag b' w' := rfl
@[simp] theorem State.setVf_findBuf (j v : Nat) (q : VfSt) (i' w' : Nat) : (s.setVf j v q).findBuf i' w' = s.findBuf i' w' := rfl
@[simp] theorem State.setBuf_rd (e : Nat) (b : BufEnt) (b' : Nat) : (s.setBuf e b).rd b' = s.rd b' := rfl
@[simp] theorem State.setBuf_face (e : Nat) (b : BufEnt) (g' : Nat) : (s.setBuf e b).face g' = s.face g' := rfl
@[simp] theorem State.setBuf_job (e : Nat) (b : BufEnt) (i' : Nat) : (s.setBuf e b).job i' = s.job i' := rfl
@[simp] theorem State.setBuf_vf (e : Nat) (b : BufEnt) (i' w' : Nat) : (s.setBuf e b).vf i' w' = s.vf i' w' := rfl
@[simp] theorem State.setBuf_routedCtr (e : Nat) (b : BufEnt) (i' w' x' : Nat) : (s.setBuf e b).routedCtr i' w' x' = s.routedCtr i' w' x' := rfl
@[simp] theorem State.setBuf_netOf (e : Nat) (b : BufEnt) (i' x' : Nat) : (s.setBuf e b).netOf i' x' = s.netOf i' x' := rfl
@[simp] theorem State.setBuf_semWaiters (e : Nat) (b : BufEnt) (x' : Nat) : (s.setBuf e b).semWaiters x' = s.semWaiters x' := rfl
@[simp] theorem State.setBuf_loadByte (e : Nat) (b : BufEnt) (x' : Nat) : (s.setBuf e b).loadByte x' = s.loadByte x' := rfl
@[simp] theorem State.setBuf_fld (e : Nat) (b : BufEnt) (b' hi' lo' : Nat) : (s.setBuf e b).fld b' hi' lo' = s.fld b' hi' lo' := rfl
@[simp] theorem State.setBuf_flag (e : Nat) (b : BufEnt) (b' w' : Nat) : (s.setBuf e b).flag b' w' = s.flag b' w' := rfl
@[simp] theorem State.setRouted_rd (j v i : Nat) (c : Ctr) (b' : Nat) : (s.setRouted j v i c).rd b' = s.rd b' := rfl
@[simp] theorem State.setRouted_face (j v i : Nat) (c : Ctr) (g' : Nat) : (s.setRouted j v i c).face g' = s.face g' := rfl
@[simp] theorem State.setRouted_job (j v i : Nat) (c : Ctr) (i' : Nat) : (s.setRouted j v i c).job i' = s.job i' := rfl
@[simp] theorem State.setRouted_vf (j v i : Nat) (c : Ctr) (i' w' : Nat) : (s.setRouted j v i c).vf i' w' = s.vf i' w' := rfl
@[simp] theorem State.setRouted_buf (j v i : Nat) (c : Ctr) (i' : Nat) : (s.setRouted j v i c).buf i' = s.buf i' := rfl
@[simp] theorem State.setRouted_netOf (j v i : Nat) (c : Ctr) (i' x' : Nat) : (s.setRouted j v i c).netOf i' x' = s.netOf i' x' := rfl
@[simp] theorem State.setRouted_semWaiters (j v i : Nat) (c : Ctr) (x' : Nat) : (s.setRouted j v i c).semWaiters x' = s.semWaiters x' := rfl
@[simp] theorem State.setRouted_loadByte (j v i : Nat) (c : Ctr) (x' : Nat) : (s.setRouted j v i c).loadByte x' = s.loadByte x' := rfl
@[simp] theorem State.setRouted_fld (j v i : Nat) (c : Ctr) (b' hi' lo' : Nat) : (s.setRouted j v i c).fld b' hi' lo' = s.fld b' hi' lo' := rfl
@[simp] theorem State.setRouted_flag (j v i : Nat) (c : Ctr) (b' w' : Nat) : (s.setRouted j v i c).flag b' w' = s.flag b' w' := rfl
@[simp] theorem State.setRouted_findBuf (j v i : Nat) (c : Ctr) (i' w' : Nat) : (s.setRouted j v i c).findBuf i' w' = s.findBuf i' w' := rfl
@[simp] theorem State.setNet_rd (j m n : Nat) (b' : Nat) : (s.setNet j m n).rd b' = s.rd b' := rfl
@[simp] theorem State.setNet_face (j m n : Nat) (g' : Nat) : (s.setNet j m n).face g' = s.face g' := rfl
@[simp] theorem State.setNet_job (j m n : Nat) (i' : Nat) : (s.setNet j m n).job i' = s.job i' := rfl
@[simp] theorem State.setNet_vf (j m n : Nat) (i' w' : Nat) : (s.setNet j m n).vf i' w' = s.vf i' w' := rfl
@[simp] theorem State.setNet_buf (j m n : Nat) (i' : Nat) : (s.setNet j m n).buf i' = s.buf i' := rfl
@[simp] theorem State.setNet_routedCtr (j m n : Nat) (i' w' x' : Nat) : (s.setNet j m n).routedCtr i' w' x' = s.routedCtr i' w' x' := rfl
@[simp] theorem State.setNet_semWaiters (j m n : Nat) (x' : Nat) : (s.setNet j m n).semWaiters x' = s.semWaiters x' := rfl
@[simp] theorem State.setNet_loadByte (j m n : Nat) (x' : Nat) : (s.setNet j m n).loadByte x' = s.loadByte x' := rfl
@[simp] theorem State.setNet_fld (j m n : Nat) (b' hi' lo' : Nat) : (s.setNet j m n).fld b' hi' lo' = s.fld b' hi' lo' := rfl
@[simp] theorem State.setNet_flag (j m n : Nat) (b' w' : Nat) : (s.setNet j m n).flag b' w' = s.flag b' w' := rfl
@[simp] theorem State.setNet_findBuf (j m n : Nat) (i' w' : Nat) : (s.setNet j m n).findBuf i' w' = s.findBuf i' w' := rfl
@[simp] theorem State.setWaiters_rd (m : Nat) (l : List SemReq) (b' : Nat) : (s.setWaiters m l).rd b' = s.rd b' := rfl
@[simp] theorem State.setWaiters_face (m : Nat) (l : List SemReq) (g' : Nat) : (s.setWaiters m l).face g' = s.face g' := rfl
@[simp] theorem State.setWaiters_job (m : Nat) (l : List SemReq) (i' : Nat) : (s.setWaiters m l).job i' = s.job i' := rfl
@[simp] theorem State.setWaiters_vf (m : Nat) (l : List SemReq) (i' w' : Nat) : (s.setWaiters m l).vf i' w' = s.vf i' w' := rfl
@[simp] theorem State.setWaiters_buf (m : Nat) (l : List SemReq) (i' : Nat) : (s.setWaiters m l).buf i' = s.buf i' := rfl
@[simp] theorem State.setWaiters_routedCtr (m : Nat) (l : List SemReq) (i' w' x' : Nat) : (s.setWaiters m l).routedCtr i' w' x' = s.routedCtr i' w' x' := rfl
@[simp] theorem State.setWaiters_netOf (m : Nat) (l : List SemReq) (i' x' : Nat) : (s.setWaiters m l).netOf i' x' = s.netOf i' x' := rfl
@[simp] theorem State.setWaiters_loadByte (m : Nat) (l : List SemReq) (x' : Nat) : (s.setWaiters m l).loadByte x' = s.loadByte x' := rfl
@[simp] theorem State.setWaiters_fld (m : Nat) (l : List SemReq) (b' hi' lo' : Nat) : (s.setWaiters m l).fld b' hi' lo' = s.fld b' hi' lo' := rfl
@[simp] theorem State.setWaiters_flag (m : Nat) (l : List SemReq) (b' w' : Nat) : (s.setWaiters m l).flag b' w' = s.flag b' w' := rfl
@[simp] theorem State.setWaiters_findBuf (m : Nat) (l : List SemReq) (i' w' : Nat) : (s.setWaiters m l).findBuf i' w' = s.findBuf i' w' := rfl
@[simp] theorem State.store_rd (k : Nat) (bs : List Byte) (b' : Nat) : (s.store k bs).rd b' = s.rd b' := rfl
@[simp] theorem State.store_face (k : Nat) (bs : List Byte) (g' : Nat) : (s.store k bs).face g' = s.face g' := rfl
@[simp] theorem State.store_job (k : Nat) (bs : List Byte) (i' : Nat) : (s.store k bs).job i' = s.job i' := rfl
@[simp] theorem State.store_vf (k : Nat) (bs : List Byte) (i' w' : Nat) : (s.store k bs).vf i' w' = s.vf i' w' := rfl
@[simp] theorem State.store_buf (k : Nat) (bs : List Byte) (i' : Nat) : (s.store k bs).buf i' = s.buf i' := rfl
@[simp] theorem State.store_routedCtr (k : Nat) (bs : List Byte) (i' w' x' : Nat) : (s.store k bs).routedCtr i' w' x' = s.routedCtr i' w' x' := rfl
@[simp] theorem State.store_netOf (k : Nat) (bs : List Byte) (i' x' : Nat) : (s.store k bs).netOf i' x' = s.netOf i' x' := rfl
@[simp] theorem State.store_semWaiters (k : Nat) (bs : List Byte) (x' : Nat) : (s.store k bs).semWaiters x' = s.semWaiters x' := rfl
@[simp] theorem State.store_fld (k : Nat) (bs : List Byte) (b' hi' lo' : Nat) : (s.store k bs).fld b' hi' lo' = s.fld b' hi' lo' := rfl
@[simp] theorem State.store_flag (k : Nat) (bs : List Byte) (b' w' : Nat) : (s.store k bs).flag b' w' = s.flag b' w' := rfl
@[simp] theorem State.store_findBuf (k : Nat) (bs : List Byte) (i' w' : Nat) : (s.store k bs).findBuf i' w' = s.findBuf i' w' := rfl
@[simp] theorem State.zero_rd (k n : Nat) (b' : Nat) : (s.zero k n).rd b' = s.rd b' := rfl
@[simp] theorem State.zero_face (k n : Nat) (g' : Nat) : (s.zero k n).face g' = s.face g' := rfl
@[simp] theorem State.zero_job (k n : Nat) (i' : Nat) : (s.zero k n).job i' = s.job i' := rfl
@[simp] theorem State.zero_vf (k n : Nat) (i' w' : Nat) : (s.zero k n).vf i' w' = s.vf i' w' := rfl
@[simp] theorem State.zero_buf (k n : Nat) (i' : Nat) : (s.zero k n).buf i' = s.buf i' := rfl
@[simp] theorem State.zero_routedCtr (k n : Nat) (i' w' x' : Nat) : (s.zero k n).routedCtr i' w' x' = s.routedCtr i' w' x' := rfl
@[simp] theorem State.zero_netOf (k n : Nat) (i' x' : Nat) : (s.zero k n).netOf i' x' = s.netOf i' x' := rfl
@[simp] theorem State.zero_semWaiters (k n : Nat) (x' : Nat) : (s.zero k n).semWaiters x' = s.semWaiters x' := rfl
@[simp] theorem State.zero_fld (k n : Nat) (b' hi' lo' : Nat) : (s.zero k n).fld b' hi' lo' = s.fld b' hi' lo' := rfl
@[simp] theorem State.zero_flag (k n : Nat) (b' w' : Nat) : (s.zero k n).flag b' w' = s.flag b' w' := rfl
@[simp] theorem State.zero_findBuf (k n : Nat) (i' w' : Nat) : (s.zero k n).findBuf i' w' = s.findBuf i' w' := rfl
@[simp] theorem State.raiseEv_rd (k : Nat) (b' : Nat) : (s.raiseEv k).rd b' = s.rd b' := rfl
@[simp] theorem State.raiseEv_face (k : Nat) (g' : Nat) : (s.raiseEv k).face g' = s.face g' := rfl
@[simp] theorem State.raiseEv_job (k : Nat) (i' : Nat) : (s.raiseEv k).job i' = s.job i' := rfl
@[simp] theorem State.raiseEv_vf (k : Nat) (i' w' : Nat) : (s.raiseEv k).vf i' w' = s.vf i' w' := rfl
@[simp] theorem State.raiseEv_buf (k : Nat) (i' : Nat) : (s.raiseEv k).buf i' = s.buf i' := rfl
@[simp] theorem State.raiseEv_routedCtr (k : Nat) (i' w' x' : Nat) : (s.raiseEv k).routedCtr i' w' x' = s.routedCtr i' w' x' := rfl
@[simp] theorem State.raiseEv_netOf (k : Nat) (i' x' : Nat) : (s.raiseEv k).netOf i' x' = s.netOf i' x' := rfl
@[simp] theorem State.raiseEv_semWaiters (k : Nat) (x' : Nat) : (s.raiseEv k).semWaiters x' = s.semWaiters x' := rfl
@[simp] theorem State.raiseEv_loadByte (k : Nat) (x' : Nat) : (s.raiseEv k).loadByte x' = s.loadByte x' := rfl
@[simp] theorem State.raiseEv_fld (k : Nat) (b' hi' lo' : Nat) : (s.raiseEv k).fld b' hi' lo' = s.fld b' hi' lo' := rfl
@[simp] theorem State.raiseEv_flag (k : Nat) (b' w' : Nat) : (s.raiseEv k).flag b' w' = s.flag b' w' := rfl
@[simp] theorem State.raiseEv_findBuf (k : Nat) (i' w' : Nat) : (s.raiseEv k).findBuf i' w' = s.findBuf i' w' := rfl
@[simp] theorem State.answer_rd (r : Resp) (b' : Nat) : (s.answer r).rd b' = s.rd b' := rfl
@[simp] theorem State.answer_face (r : Resp) (g' : Nat) : (s.answer r).face g' = s.face g' := rfl
@[simp] theorem State.answer_job (r : Resp) (i' : Nat) : (s.answer r).job i' = s.job i' := rfl
@[simp] theorem State.answer_vf (r : Resp) (i' w' : Nat) : (s.answer r).vf i' w' = s.vf i' w' := rfl
@[simp] theorem State.answer_buf (r : Resp) (i' : Nat) : (s.answer r).buf i' = s.buf i' := rfl
@[simp] theorem State.answer_routedCtr (r : Resp) (i' w' x' : Nat) : (s.answer r).routedCtr i' w' x' = s.routedCtr i' w' x' := rfl
@[simp] theorem State.answer_netOf (r : Resp) (i' x' : Nat) : (s.answer r).netOf i' x' = s.netOf i' x' := rfl
@[simp] theorem State.answer_semWaiters (r : Resp) (x' : Nat) : (s.answer r).semWaiters x' = s.semWaiters x' := rfl
@[simp] theorem State.answer_loadByte (r : Resp) (x' : Nat) : (s.answer r).loadByte x' = s.loadByte x' := rfl
@[simp] theorem State.answer_fld (r : Resp) (b' hi' lo' : Nat) : (s.answer r).fld b' hi' lo' = s.fld b' hi' lo' := rfl
@[simp] theorem State.answer_flag (r : Resp) (b' w' : Nat) : (s.answer r).flag b' w' = s.flag b' w' := rfl
@[simp] theorem State.answer_findBuf (r : Resp) (i' w' : Nat) : (s.answer r).findBuf i' w' = s.findBuf i' w' := rfl
@[simp] theorem State.sendRouted_rd (j v i n : Nat) (b' : Nat) : (s.sendRouted j v i n).rd b' = s.rd b' := rfl
@[simp] theorem State.sendRouted_face (j v i n : Nat) (g' : Nat) : (s.sendRouted j v i n).face g' = s.face g' := rfl
@[simp] theorem State.sendRouted_job (j v i n : Nat) (i' : Nat) : (s.sendRouted j v i n).job i' = s.job i' := rfl
@[simp] theorem State.sendRouted_vf (j v i n : Nat) (i' w' : Nat) : (s.sendRouted j v i n).vf i' w' = s.vf i' w' := rfl
@[simp] theorem State.sendRouted_buf (j v i n : Nat) (i' : Nat) : (s.sendRouted j v i n).buf i' = s.buf i' := rfl
@[simp] theorem State.sendRouted_routedCtr (j v i n : Nat) (i' w' x' : Nat) : (s.sendRouted j v i n).routedCtr i' w' x' = s.routedCtr i' w' x' := rfl
@[simp] theorem State.sendRouted_netOf (j v i n : Nat) (i' x' : Nat) : (s.sendRouted j v i n).netOf i' x' = s.netOf i' x' := rfl
@[simp] theorem State.sendRouted_semWaiters (j v i n : Nat) (x' : Nat) : (s.sendRouted j v i n).semWaiters x' = s.semWaiters x' := rfl
@[simp] theorem State.sendRouted_loadByte (j v i n : Nat) (x' : Nat) : (s.sendRouted j v i n).loadByte x' = s.loadByte x' := rfl
@[simp] theorem State.sendRouted_fld (j v i n : Nat) (b' hi' lo' : Nat) : (s.sendRouted j v i n).fld b' hi' lo' = s.fld b' hi' lo' := rfl
@[simp] theorem State.sendRouted_flag (j v i n : Nat) (b' w' : Nat) : (s.sendRouted j v i n).flag b' w' = s.flag b' w' := rfl
@[simp] theorem State.sendRouted_findBuf (j v i n : Nat) (i' w' : Nat) : (s.sendRouted j v i n).findBuf i' w' = s.findBuf i' w' := rfl

/-! ## A read after a write -/

@[simp] theorem State.rd_wr (a b : Nat) (v : Word) : (s.wr a v).rd b = if b = a then v else s.rd b := by
  by_cases h : b = a
  · subst h; simp [State.rd, State.wr]
  · simp [State.rd, State.wr, h, Map.get_put_ne _ _ _ h v]

@[simp] theorem State.face_setFace (n g : Nat) (f : FaceSt) : (s.setFace n f).face g = if g = n then f else s.face g := by
  simp [State.face, State.setFace]

@[simp] theorem State.job_setJob (j i : Nat) (v : Option JobSt) : (s.setJob j v).job i = if i = j then v else s.job i := by
  simp [State.job, State.setJob]

@[simp] theorem State.vf_setVf (j v i w : Nat) (q : VfSt) :
    (s.setVf j v q).vf i w = if 8 * i + w = 8 * j + v then q else s.vf i w := by
  simp [State.vf, State.setVf]

@[simp] theorem State.buf_setBuf (e i : Nat) (b : BufEnt) : (s.setBuf e b).buf i = if i = e then b else s.buf i := by
  simp [State.buf, State.setBuf]

@[simp] theorem State.routedCtr_setRouted (j v i j' v' i' : Nat) (c : Ctr) :
    (s.setRouted j v i c).routedCtr j' v' i' = if routedIdx j' v' i' = routedIdx j v i then c else s.routedCtr j' v' i' := by
  simp [State.routedCtr, State.setRouted]

@[simp] theorem State.netOf_setNet (j m n j' m' : Nat) :
    (s.setNet j m n).netOf j' m' = if 256 * j' + m' = 256 * j + m then n else s.netOf j' m' := by
  simp [State.netOf, State.setNet]

@[simp] theorem State.semWaiters_setWaiters (m m' : Nat) (l : List SemReq) :
    (s.setWaiters m l).semWaiters m' = if m' = m then l else s.semWaiters m' := by
  simp [State.semWaiters, State.setWaiters]

/-! ## Memory -/

/-- Where a byte list covers a key: the byte there. -/
def byteOver (k : Nat) (bs : List Byte) (x : Nat) (old : Byte) : Byte :=
  if k ≤ x ∧ x < k + bs.length then bs.getD (x - k) 0 else old

theorem memStore_get (m : List Host.Cell) (k : Nat) (bs : List Byte) (x : Nat) :
    Map.get 0 (memStore m k bs) x = byteOver k bs x (Map.get 0 m x) := by
  induction bs generalizing m k with
  | nil => simp [memStore, byteOver, show ¬ (k ≤ x ∧ x < k) by omega]
  | cons b bs ih =>
    simp only [memStore, ih, byteOver, List.length_cons, Map.get_put]
    by_cases h : x = k
    · subst h
      simp [show ¬ (x + 1 ≤ x) by omega]
    · by_cases h2 : k ≤ x ∧ x < k + (bs.length + 1)
      · have h3 : k + 1 ≤ x ∧ x < k + 1 + bs.length := by omega
        rw [if_pos h3, if_pos h2]
        have h4 : x - k = (x - (k + 1)) + 1 := by omega
        rw [h4, List.getD_cons_succ]
      · have h3 : ¬ (k + 1 ≤ x ∧ x < k + 1 + bs.length) := by omega
        rw [if_neg h3, if_neg h2, if_neg h]

/-- A byte after a store: the stored one, or as before. -/
@[simp] theorem State.loadByte_store (k : Nat) (bs : List Byte) (x : Nat) :
    (s.store k bs).loadByte x = byteOver k bs x (s.loadByte x) := memStore_get _ _ _ _

/-- A byte after zeroing: 0 in the span, as before elsewhere. -/
@[simp] theorem State.loadByte_zero (k n x : Nat) :
    (s.zero k n).loadByte x = if k ≤ x ∧ x < k + n then 0 else s.loadByte x := by
  simp [State.loadByte, State.zero]

/-- What was stored is read back. -/
theorem State.load_store (k : Nat) (bs : List Byte) : (s.store k bs).load k bs.length = bs := by
  apply List.ext_getElem
  · simp [State.load]
  · intro i h1 h2
    simp [State.load, byteOver, List.getD_eq_getElem?_getD, h2]

theorem leNat_leBytes (n v : Nat) : leNat (leBytes n v) = v % 256 ^ n := by
  induction n generalizing v with
  | zero => simp [leBytes, leNat, Nat.mod_one]
  | succ n ih =>
    simp only [leBytes, leNat, ih, BitVec.toNat_ofNat, show (2 : Nat) ^ 8 = 256 from rfl]
    rw [Nat.pow_succ, Nat.mul_comm (256 ^ n) 256, Nat.mod_mul]

@[simp] theorem leBytes_length (n v : Nat) : (leBytes n v).length = n := by
  induction n generalizing v with
  | zero => rfl
  | succ n ih => simp [leBytes, ih]

/-- A little-endian number that was stored is read back. -/
theorem State.loadNat_storeNat (k n v : Nat) : (s.storeNat k n v).loadNat k n = v % 256 ^ n := by
  have h := State.load_store s k (leBytes n v)
  rw [leBytes_length] at h
  simp only [State.loadNat, State.storeNat, h, leNat_leBytes]

/-! ## The canonical form of memory -/

theorem memStore_wf {m : List Host.Cell} (k : Nat) (bs : List Byte) (h : Map.wf (0 : Byte) m = true) :
    Map.wf (0 : Byte) (memStore m k bs) = true := by
  induction bs generalizing m k with
  | nil => exact h
  | cons b bs ih => exact ih _ (Map.put_wf _ _ h)

theorem State.store_memWf {s : State} (k : Nat) (bs : List Byte) (h : s.memWf = true) : (s.store k bs).memWf = true :=
  memStore_wf _ _ h

theorem State.storeNat_memWf {s : State} (k n v : Nat) (h : s.memWf = true) : (s.storeNat k n v).memWf = true :=
  memStore_wf _ _ h

theorem State.zero_memWf {s : State} (k n : Nat) (h : s.memWf = true) : (s.zero k n).memWf = true := Map.clear_wf _ _ h

theorem foldl_put_wf {m : List Host.Cell} (l : List Host.Cell) (g : Nat → Nat) (h : Map.wf (0 : Byte) m = true) :
    Map.wf (0 : Byte) (l.foldl (fun m c => Map.put 0 m (g c.1) c.2) m) = true := by
  induction l generalizing m with
  | nil => exact h
  | cons c l ih => exact ih (Map.put_wf _ _ h)

theorem State.copy_memWf {s : State} (a b n : Nat) (h : s.memWf = true) : (s.copy a b n).memWf = true :=
  foldl_put_wf _ (fun x => b + (x - a)) (Map.clear_wf _ _ h)

/-- A state change made for each element of a list keeps what each one keeps. -/
theorem State.each_memWf {β : Type} {s : State} (l : List β) (f : State → β → State)
    (hf : ∀ t x, t.memWf = true → (f t x).memWf = true) (h : s.memWf = true) : (s.each l f).memWf = true := by
  unfold State.each
  induction l generalizing s with
  | nil => exact h
  | cons x l ih => exact ih (hf _ _ h)

end Sys2Proof.Machine
end

