-- ==== Sys2Proof/Laws/Face.lean ====
section
/-! SUPPORT. What the shared operations of a Face's instructions can do: issue (R111), retirement, signals (R118), entry into
the window (R113). -/

namespace Sys2Proof.Machine

variable (s : State)

/-! ## Registers of a Face -/

theorem FaceSt.gReg_setG (fs : FaceSt) (r n : Nat) (v : Word) :
    (fs.setG r v).gReg n = if n = r ∧ n ≠ 0 then v else fs.gReg n := by
  unfold FaceSt.setG FaceSt.gReg
  by_cases hr : r = 0
  · subst hr
    by_cases hn : n = 0 <;> simp [hn]
  · by_cases hn : n = 0
    · simp [hn]
    · simp [hr, hn]

@[simp] theorem FaceSt.gReg_zero (fs : FaceSt) : fs.gReg 0 = 0 := rfl

@[simp] theorem FaceSt.dReg_setD (fs : FaceSt) (r n : Nat) (v : BitVec 256) :
    (fs.setD r v).dReg n = if n = r then v else fs.dReg n := by
  simp [FaceSt.setD, FaceSt.dReg]

@[simp] theorem FaceSt.sReg_setS (fs : FaceSt) (r n : Nat) (v : BitVec 128) :
    (fs.setS r v).sReg n = if n = r then v else fs.sReg n := by
  simp [FaceSt.setS, FaceSt.sReg]

/-! ## Issue -/

/-- Everything that issuing can do: the instruction acts; a precise exception is taken; or nothing happens. -/
theorem issue_cases (f : Nat) (h : Hdr) (c : Chk) (act : State → Out) :
    (canIssue s f h = true ∧ c = .pass ∧ issue s f h c act = act (s.beginIssue f)) ∨
    (∃ e, issue s f h c act = .next (s.takeExc f e true (s.face f).pc)) ∨ issue s f h c act = .next s := by
  unfold issue
  by_cases hc : canIssue s f h = true
  · simp only [hc, if_true]
    cases c with
    | pass => exact .inl ⟨trivial, rfl, rfl⟩
    | hold => exact .inr (.inr rfl)
    | exc e => exact .inr (.inl ⟨e, rfl⟩)
  · simp only [hc, Bool.false_eq_true, if_false]
    refine .inr ?_
    split_ifs
    all_goals first
      | exact .inr rfl
      | exact .inl ⟨_, rfl⟩

/-- An instruction whose checks pass acts. -/
theorem issue_pass {s : State} {f : Nat} {h : Hdr} {c : Chk} {act : State → Out} (hi : canIssue s f h = true)
    (hc : c = .pass) : issue s f h c act = act (s.beginIssue f) := by
  subst hc
  simp [issue, hi]

/-- An instruction that fails a check takes its exception. -/
theorem issue_exc {s : State} {f : Nat} {h : Hdr} {e : Exc} {act : State → Out} (hi : canIssue s f h = true) :
    issue s f h (.exc e) act = .next (s.takeExc f e true (s.face f).pc) := by
  simp [issue, hi]

/-- The first issue of a command changes nothing but its Face, and of that only the start of the duration and the latched
step counter (R104, R285). -/
theorem State.beginIssue_cases (f : Nat) :
    s.beginIssue f = s ∨ s.beginIssue f = s.setFace f { s.face f with
      firstIssue := some s.raw
      jstep := some (s.rd (Reg.DET_JSTEP (s.face f).job)).toNat } := by
  unfold State.beginIssue
  dsimp only
  split
  · exact .inl rfl
  · exact .inr rfl

@[simp] theorem State.beginIssue_rd (f a : Nat) : (s.beginIssue f).rd a = s.rd a := by
  rcases s.beginIssue_cases f with h | h <;> simp [h]
@[simp] theorem State.beginIssue_loadByte (f k : Nat) : (s.beginIssue f).loadByte k = s.loadByte k := by
  rcases s.beginIssue_cases f with h | h <;> simp [h]
@[simp] theorem State.beginIssue_mem (f : Nat) : (s.beginIssue f).mem = s.mem := by
  rcases s.beginIssue_cases f with h | h <;> simp [h]
@[simp] theorem State.beginIssue_regs (f : Nat) : (s.beginIssue f).regs = s.regs := by
  rcases s.beginIssue_cases f with h | h <;> simp [h]
@[simp] theorem State.beginIssue_bufs (f : Nat) : (s.beginIssue f).bufs = s.bufs := by
  rcases s.beginIssue_cases f with h | h <;> simp [h]
@[simp] theorem State.beginIssue_routed (f : Nat) : (s.beginIssue f).routed = s.routed := by
  rcases s.beginIssue_cases f with h | h <;> simp [h]
@[simp] theorem State.beginIssue_jobs (f : Nat) : (s.beginIssue f).jobs = s.jobs := by
  rcases s.beginIssue_cases f with h | h <;> simp [h]
@[simp] theorem State.beginIssue_raw (f : Nat) : (s.beginIssue f).raw = s.raw := by
  rcases s.beginIssue_cases f with h | h <;> simp [h]
@[simp] theorem State.beginIssue_face_ne {f g : Nat} (hg : g ≠ f) : (s.beginIssue f).face g = s.face g := by
  rcases s.beginIssue_cases f with h | h <;> simp [h, hg]

/-- What the first issue keeps of its own Face. -/
theorem State.beginIssue_face (f : Nat) : ∃ t j, (s.beginIssue f).face f = { s.face f with
      firstIssue := t
      jstep := j } := by
  rcases s.beginIssue_cases f with h | h
  · exact ⟨(s.face f).firstIssue, (s.face f).jstep, by rw [h]⟩
  · exact ⟨some s.raw, some (s.rd (Reg.DET_JSTEP (s.face f).job)).toNat, by rw [h]; simp⟩

@[simp] theorem State.beginIssue_pc (f : Nat) : ((s.beginIssue f).face f).pc = (s.face f).pc := by
  obtain ⟨t, j, h⟩ := s.beginIssue_face f; simp [h]
@[simp] theorem State.beginIssue_window (f : Nat) : ((s.beginIssue f).face f).window = (s.face f).window := by
  obtain ⟨t, j, h⟩ := s.beginIssue_face f; simp [h]
@[simp] theorem State.beginIssue_running (f : Nat) : ((s.beginIssue f).face f).running = (s.face f).running := by
  obtain ⟨t, j, h⟩ := s.beginIssue_face f; simp [h]
@[simp] theorem State.beginIssue_seq (f : Nat) : ((s.beginIssue f).face f).seq = (s.face f).seq := by
  obtain ⟨t, j, h⟩ := s.beginIssue_face f; simp [h]
@[simp] theorem State.beginIssue_job (f : Nat) : ((s.beginIssue f).face f).job = (s.face f).job := by
  obtain ⟨t, j, h⟩ := s.beginIssue_face f; simp [h]
@[simp] theorem State.beginIssue_vf (f : Nat) : ((s.beginIssue f).face f).vf = (s.face f).vf := by
  obtain ⟨t, j, h⟩ := s.beginIssue_face f; simp [h]
@[simp] theorem State.beginIssue_gReg (f n : Nat) : ((s.beginIssue f).face f).gReg n = (s.face f).gReg n := by
  obtain ⟨t, j, h⟩ := s.beginIssue_face f; simp [h, FaceSt.gReg]
@[simp] theorem State.beginIssue_dReg (f n : Nat) : ((s.beginIssue f).face f).dReg n = (s.face f).dReg n := by
  obtain ⟨t, j, h⟩ := s.beginIssue_face f; simp [h, FaceSt.dReg]
@[simp] theorem State.beginIssue_sReg (f n : Nat) : ((s.beginIssue f).face f).sReg n = (s.face f).sReg n := by
  obtain ⟨t, j, h⟩ := s.beginIssue_face f; simp [h, FaceSt.sReg]
@[simp] theorem State.beginIssue_evCtr (f n : Nat) : (s.beginIssue f).evCtr f n = s.evCtr f n := by
  rcases s.beginIssue_cases f with h | h <;> simp [h, State.evCtr]

/-! ## Counters and signals -/

/-- Adding to a counter changes that counter of the command and no other. -/
theorem State.evCtr_evAdd (f n k m : Nat) :
    (s.evAdd f n k).evCtr f m = if m = n then Ctr.add (s.evCtr f n) k else s.evCtr f m := by
  unfold State.evAdd State.evCtr
  by_cases hn : n < 112
  · by_cases hm : m < 112
    · simp only [hn, hm, if_true, State.face_setFace, Map.get_put]
    · have : m ≠ n := by omega
      simp [hn, hm, this]
  · by_cases hm : m < 112
    · have : m ≠ n := by omega
      simp [hn, hm, this]
    · simp only [hn, hm, if_false, State.setRouted_face, State.routedCtr_setRouted]
      by_cases hmn : m = n
      · subst hmn; simp
      · have h : routedIdx (s.face f).job (s.face f).vf (m - 112) ≠ routedIdx (s.face f).job (s.face f).vf (n - 112) := by
          simp only [routedIdx]; omega
        simp [hmn, h]

theorem State.evAdd_cases (f n k : Nat) :
    (∃ e, s.evAdd f n k = s.setFace f { s.face f with ev := e }) ∨ ∃ j v i c, s.evAdd f n k = s.setRouted j v i c := by
  unfold State.evAdd
  split
  · exact .inl ⟨_, rfl⟩
  · exact .inr ⟨_, _, _, _, rfl⟩

@[simp] theorem State.evAdd_rd (f n k a : Nat) : (s.evAdd f n k).rd a = s.rd a := by
  rcases s.evAdd_cases f n k with ⟨e, h⟩ | ⟨j, v, i, c, h⟩ <;> simp [h]
@[simp] theorem State.evAdd_loadByte (f n k x : Nat) : (s.evAdd f n k).loadByte x = s.loadByte x := by
  rcases s.evAdd_cases f n k with ⟨e, h⟩ | ⟨j, v, i, c, h⟩ <;> simp [h]
@[simp] theorem State.evAdd_mem (f n k : Nat) : (s.evAdd f n k).mem = s.mem := by
  rcases s.evAdd_cases f n k with ⟨e, h⟩ | ⟨j, v, i, c, h⟩ <;> simp [h]
@[simp] theorem State.evAdd_face_ne {f g : Nat} (n k : Nat) (hg : g ≠ f) : (s.evAdd f n k).face g = s.face g := by
  rcases s.evAdd_cases f n k with ⟨e, h⟩ | ⟨j, v, i, c, h⟩ <;> simp [h, hg]
/-- A counter's increment keeps everything of its Face but the counters. -/
theorem State.evAdd_face (f n k : Nat) : ∃ e, (s.evAdd f n k).face f = { s.face f with ev := e } := by
  rcases s.evAdd_cases f n k with ⟨e, h⟩ | ⟨j, v, i, c, h⟩
  · exact ⟨e, by simp [h]⟩
  · exact ⟨_, by simp [h]; rfl⟩

/-- The signal of an instruction: its counter counts one, if it has one (R118). -/
theorem State.evCtr_signal (f : Nat) (sig : Option Nat) (m : Nat) :
    (s.signal f sig).evCtr f m = if sig = some m then Ctr.add (s.evCtr f m) 1 else s.evCtr f m := by
  cases sig with
  | none => simp [State.signal]
  | some n =>
    simp only [State.signal, State.evCtr_evAdd, Option.some.injEq]
    by_cases h : m = n
    · simp [h]
    · rw [if_neg h, if_neg (fun x => h x.symm)]

theorem State.signal_face (f : Nat) (sig : Option Nat) : ∃ e, (s.signal f sig).face f = { s.face f with ev := e } := by
  cases sig with
  | none => exact ⟨_, rfl⟩
  | some n => exact s.evAdd_face f n 1

@[simp] theorem State.signal_rd (f : Nat) (sig : Option Nat) (a : Nat) : (s.signal f sig).rd a = s.rd a := by
  cases sig <;> simp [State.signal]
@[simp] theorem State.signal_loadByte (f : Nat) (sig : Option Nat) (x : Nat) :
    (s.signal f sig).loadByte x = s.loadByte x := by
  cases sig <;> simp [State.signal]
@[simp] theorem State.signal_mem (f : Nat) (sig : Option Nat) : (s.signal f sig).mem = s.mem := by
  cases sig <;> simp [State.signal]
@[simp] theorem State.signal_face_ne {f g : Nat} (sig : Option Nat) (hg : g ≠ f) : (s.signal f sig).face g = s.face g := by
  cases sig <;> simp [State.signal, hg]

/-! ## Retirement -/

/-- Changing a Face's registers and PC leaves its counters as they were. -/
theorem State.evCtr_setFace {s : State} {f : Nat} {x : FaceSt} (he : x.ev = (s.face f).ev) (hj : x.job = (s.face f).job)
    (hv : x.vf = (s.face f).vf) (n : Nat) : (s.setFace f x).evCtr f n = s.evCtr f n := by
  simp [State.evCtr, he, hj, hv]

/-- An instruction that completes as it issues: the Face as `g` makes it with the next PC, its signal counted, all else kept. -/
theorem State.retire_spec (f : Nat) (h : Hdr) (g : FaceSt → FaceSt) (he : (g (s.face f)).ev = (s.face f).ev)
    (hj : (g (s.face f)).job = (s.face f).job) (hv : (g (s.face f)).vf = (s.face f).vf) :
    (∃ e, (s.retire f h g).face f = { g (s.face f) with
      pc := (g (s.face f)).pc + 1
      ev := e }) ∧ signalled f h s (s.retire f h g) ∧ outsideKept f s (s.retire f h g) := by
  refine ⟨?_, ?_, ?_⟩
  · obtain ⟨e, hx⟩ := ((s.setFace f (g (s.face f))).advance f).signal_face f (sigOf h)
    exact ⟨e, by rw [State.retire, hx]; simp [State.advance]⟩
  · intro n
    rw [State.retire, State.evCtr_signal]
    have h1 : ((s.setFace f (g (s.face f))).advance f).evCtr f n = s.evCtr f n := by
      simp [State.advance, State.evCtr, he, hj, hv]
    rw [h1]
  · refine ⟨?_, ?_, ?_⟩
    · intro k; simp [State.retire, State.advance]
    · intro a _; simp [State.retire, State.advance]
    · intro x hx; simp [State.retire, State.advance, hx]

end Sys2Proof.Machine
end

