-- ==== Sys2Proof/Laws/Word.lean ====
section
/-! SUPPORT. The laws of bit fields: what a field reads after a field is replaced. -/

namespace Sys2Proof

theorem testBit_bits (v hi lo i : Nat) : (bits v hi lo).testBit i = (decide (i < hi + 1 - lo) && v.testBit (lo + i)) := by
  simp [bits, Nat.testBit_mod_two_pow, Nat.testBit_div_two_pow, Nat.add_comm]

theorem bits_lt (v hi lo : Nat) : bits v hi lo < 2 ^ (hi + 1 - lo) := Nat.mod_lt _ (Nat.two_pow_pos _)

theorem bits_mul_le (v hi lo : Nat) : bits v hi lo * 2 ^ lo ≤ v :=
  le_trans (Nat.mul_le_mul_right _ (Nat.mod_le _ _)) (Nat.div_mul_le_self _ _)

/-- A number as its low bits, a field and the bits above it. -/
theorem split_at_field (v lo w : Nat) :
    v = v % 2 ^ lo + 2 ^ lo * (v / 2 ^ lo % 2 ^ w) + 2 ^ (lo + w) * (v / 2 ^ (lo + w)) := by
  have h1 := Nat.mod_add_div v (2 ^ lo)
  have h2 := Nat.mod_add_div (v / 2 ^ lo) (2 ^ w)
  have h3 : v / 2 ^ lo / 2 ^ w = v / 2 ^ (lo + w) := by rw [Nat.div_div_eq_div_mul, ← Nat.pow_add]
  rw [h3] at h2
  conv_lhs => rw [← h1, ← h2]
  rw [Nat.mul_add, ← Nat.mul_assoc, ← Nat.pow_add]
  omega

theorem putBits_eq (v hi lo x : Nat) (h : lo ≤ hi) :
    putBits v hi lo x = v % 2 ^ lo + 2 ^ lo * (x % 2 ^ (hi + 1 - lo)) + 2 ^ (hi + 1) * (v / 2 ^ (hi + 1)) := by
  have hw : lo + (hi + 1 - lo) = hi + 1 := by omega
  have hs := split_at_field v lo (hi + 1 - lo)
  rw [hw] at hs
  unfold putBits
  have hb : bits v hi lo * 2 ^ lo = 2 ^ lo * (v / 2 ^ lo % 2 ^ (hi + 1 - lo)) := by rw [bits, Nat.mul_comm]
  rw [hb, Nat.mul_comm (x % 2 ^ (hi + 1 - lo))]
  omega

/-- A bit of a number in which a field has been replaced. -/
theorem testBit_putBits (v hi lo x i : Nat) (h : lo ≤ hi) :
    (putBits v hi lo x).testBit i = if lo ≤ i ∧ i ≤ hi then x.testBit (i - lo) else v.testBit i := by
  rw [putBits_eq v hi lo x h]
  have hx : x % 2 ^ (hi + 1 - lo) < 2 ^ (hi + 1 - lo) := Nat.mod_lt _ (Nat.two_pow_pos _)
  have hl : v % 2 ^ lo + 2 ^ lo * (x % 2 ^ (hi + 1 - lo)) < 2 ^ (hi + 1) := by
    have h1 : v % 2 ^ lo < 2 ^ lo := Nat.mod_lt _ (Nat.two_pow_pos _)
    have h2 : 2 ^ (hi + 1) = 2 ^ lo * 2 ^ (hi + 1 - lo) := by rw [← Nat.pow_add]; congr 1; omega
    rw [h2]
    calc _ < 2 ^ lo + 2 ^ lo * (x % 2 ^ (hi + 1 - lo)) := by omega
      _ = 2 ^ lo * (x % 2 ^ (hi + 1 - lo) + 1) := by ring
      _ ≤ _ := Nat.mul_le_mul_left _ hx
  rw [Nat.add_comm (_ + _), Nat.testBit_two_pow_mul_add _ hl]
  by_cases hi' : i < hi + 1
  · rw [if_pos hi', Nat.add_comm, Nat.testBit_two_pow_mul_add _ (Nat.mod_lt _ (Nat.two_pow_pos _))]
    by_cases hlo : i < lo
    · rw [if_pos hlo, if_neg (by omega), Nat.testBit_mod_two_pow]
      simp [hlo]
    · rw [if_neg hlo, if_pos (by omega), Nat.testBit_mod_two_pow]
      simp [show i - lo < hi + 1 - lo by omega]
  · rw [if_neg hi', if_neg (by omega), Nat.testBit_div_two_pow]
    congr 1
    omega

theorem putBits_lt {v n : Nat} (hi lo x : Nat) (h : lo ≤ hi) (hn : hi < n) (hv : v < 2 ^ n) : putBits v hi lo x < 2 ^ n := by
  apply Nat.lt_pow_two_of_testBit
  intro i hi'
  rw [testBit_putBits _ _ _ _ _ h, if_neg (by omega)]
  exact Nat.testBit_lt_two_pow (lt_of_lt_of_le hv (Nat.pow_le_pow_right (by norm_num) hi'))

/-- The replaced field reads what was put there. -/
theorem bits_putBits_same (v hi lo x : Nat) (h : lo ≤ hi) : bits (putBits v hi lo x) hi lo = x % 2 ^ (hi + 1 - lo) := by
  apply Nat.eq_of_testBit_eq
  intro i
  rw [testBit_bits, testBit_putBits _ _ _ _ _ h, Nat.testBit_mod_two_pow]
  by_cases hi' : i < hi + 1 - lo
  · rw [if_pos (by omega)]; simp [hi']
  · simp [hi']

/-- A field that does not meet the replaced one reads as before. -/
theorem bits_putBits_disjoint (v hi lo x hi' lo' : Nat) (h : lo ≤ hi) (hd : hi' < lo ∨ hi < lo') :
    bits (putBits v hi lo x) hi' lo' = bits v hi' lo' := by
  apply Nat.eq_of_testBit_eq
  intro i
  rw [testBit_bits, testBit_bits]
  by_cases hi'' : i < hi' + 1 - lo'
  · rw [testBit_putBits _ _ _ _ _ h, if_neg (by omega)]
  · simp [hi'']

end Sys2Proof
end

