-- ==== Sys2Proof/Laws/Regs.lean ====
section
/-! SUPPORT. Register fields under the named updates. -/

namespace Sys2Proof.Machine

variable (s : State)

theorem State.rd_setFld (a b hi lo x : Nat) :
    (s.setFld a hi lo x).rd b = if b = a then BitVec.ofNat 64 (putBits (s.rd a).toNat hi lo x) else s.rd b := by
  simp [State.setFld]

@[simp] theorem State.rd_setFld_ne {a b : Nat} (hi lo x : Nat) (h : b ≠ a) : (s.setFld a hi lo x).rd b = s.rd b := by
  simp [State.rd_setFld, h]

@[simp] theorem State.rd_setFlag_ne {a b : Nat} (k : Nat) (v : Bool) (h : b ≠ a) : (s.setFlag a k v).rd b = s.rd b :=
  State.rd_setFld_ne s _ _ _ h

theorem State.toNat_setFld (a hi lo x : Nat) (h : lo ≤ hi) (hh : hi < 64) :
    ((s.setFld a hi lo x).rd a).toNat = putBits (s.rd a).toNat hi lo x := by
  simp only [State.rd_setFld, if_true, BitVec.toNat_ofNat]
  exact Nat.mod_eq_of_lt (putBits_lt hi lo x h hh (s.rd a).isLt)

/-- The field that was set. -/
theorem State.fld_setFld_same (a hi lo x : Nat) (h : lo ≤ hi) (hh : hi < 64) :
    (s.setFld a hi lo x).fld a hi lo = x % 2 ^ (hi + 1 - lo) := by
  rw [State.fld, State.toNat_setFld s a hi lo x h hh, bits_putBits_same _ _ _ _ h]

/-- Another field of the register. -/
theorem State.fld_setFld_disjoint (a hi lo x hi' lo' : Nat) (h : lo ≤ hi) (hh : hi < 64) (hd : hi' < lo ∨ hi < lo') :
    (s.setFld a hi lo x).fld a hi' lo' = s.fld a hi' lo' := by
  rw [State.fld, State.toNat_setFld s a hi lo x h hh, bits_putBits_disjoint _ _ _ _ _ _ h hd]; rfl

/-- A field of another register. -/
theorem State.fld_setFld_ne {a b : Nat} (hi lo x hi' lo' : Nat) (hab : b ≠ a) :
    (s.setFld a hi lo x).fld b hi' lo' = s.fld b hi' lo' := by
  simp [State.fld, hab]

/-- The flag that was set. -/
theorem State.flag_setFlag_same (a k : Nat) (v : Bool) (hk : k < 64) : (s.setFlag a k v).flag a k = v := by
  unfold State.flag State.setFlag
  rw [State.fld_setFld_same s a k k _ (Nat.le_refl k) hk]
  cases v <;> simp

/-- Another flag of the register. -/
theorem State.flag_setFlag_ne (a k k' : Nat) (v : Bool) (hk : k < 64) (h : k' ≠ k) :
    (s.setFlag a k v).flag a k' = s.flag a k' := by
  unfold State.flag State.setFlag
  rw [State.fld_setFld_disjoint s a k k _ k' k' (Nat.le_refl k) hk (by omega)]

/-- A flag of another register. -/
theorem State.flag_setFlag_other {a b : Nat} (k k' : Nat) (v : Bool) (hab : b ≠ a) :
    (s.setFlag a k v).flag b k' = s.flag b k' := by
  simp [State.flag, State.fld, hab]

/-- A counter register after counting (R116, R364). -/
theorem State.rd_countReg (a n b : Nat) : (s.countReg a n).rd b = if b = a then Ctr.add (s.rd a) n else s.rd b := by
  simp [State.countReg]

theorem Ctr.count_ofCount (n : Nat) : Ctr.count (Ctr.ofCount n) = min n maxCount := by
  unfold Ctr.ofCount Ctr.count maxCount
  split
  · next h => simp [bits]; omega
  · next h =>
    simp only [bits, BitVec.toNat_ofNat]
    omega

/-- Counts add up to the maximum, where they stay. -/
theorem Ctr.count_add (c : Ctr) (n : Nat) : Ctr.count (Ctr.add c n) = min (Ctr.count c + n) maxCount := by
  unfold Ctr.add
  split
  · next h =>
    have : Ctr.count c ≤ maxCount := by
      have := bits_lt c.toNat 47 0
      unfold Ctr.count maxCount
      omega
    omega
  · exact Ctr.count_ofCount _

end Sys2Proof.Machine
end

