-- ==== Sys2Proof/Tests/Slice0.lean ====
section
/-! SUPPORT. The model's own tests: ill-formed commands, words of the encoding tables, single steps, and for each statement with
hypotheses a state and operands that meet them, clause by clause. -/

open Sys2Proof Sys2Proof.Machine

namespace Sys2Proof.Tests

set_option Elab.async false

/-! ## Small states -/

/-- A job image with two vFaces and a code section of 16 instructions. -/
def img : JobImage :=
  { bytes := [], bufs := [], vfs := [0, 0], live := [], rings := [], bound := 100, codeLen := 16, pubs := [], ndet := true, devices := 1,
    pools := [], stripes := [], golden := false }
/-- That job, loaded. -/
def job : JobSt :=
  { img := img, codeBase := 0, device := 0, ending := false, started := true, captured := [], latch := 0, ranStatus := 0, ranScrub := 0,
    borrow := 0, donated := 0, preempted := false, regions := [], hbmUsed := 0, saves := [0, 0], hold := false }
/-- Job 0 is loaded. -/
def loaded : State := State.reset.setJob 0 (some job)
/-- Face 0 runs a command of job 0. -/
def work : State := loaded.setFace 0 { FaceSt.idle with running := true }
/-- `work` with Face 0 changed. -/
def workOf (g : FaceSt → FaceSt) : State := work.setFace 0 (g (work.face 0))
/-- A header without signal or waits. -/
def hdr : Hdr := ⟨false, 0, 0, 0, 0, 0⟩
/-- A record of a buffer table entry: VALID, job 0, BUF_ID, tier, strength, LIFE. -/
def bufRec (id tier strength life : Nat) : Word :=
  BitVec.ofNat 64 (2 ^ 63 + id * 2 ^ 40 + tier * 2 ^ 38 + strength * 2 ^ 36 + life * 2 ^ 35)
/-- Buffer 1 in the store, 1 MiB; buffer 2 in the Board, pinned, LIFE 1. -/
def bufs : Map BufEnt :=
  [(0, { BufEnt.free with record := bufRec 1 0 0 0, size := 0x100000 }),
   (1, { BufEnt.free with record := bufRec 2 1 2 1, size := 0x10000, bind := 0x4000004000000000 })]
/-- A LINEAR descriptor: buffer, OFFSET, rank, format, extents, rows packed one after another. -/
def desc (buf off rank fmt e3 e2 e1 e0 : Nat) : BitVec 256 :=
  let s1 := rowBytes fmt e0
  BitVec.ofNat 256 (buf * 2 ^ 240 + rank * 2 ^ 237 + fmt * 2 ^ 232 + 2 ^ 225 + off * 2 ^ 184 + (e3 - 1) * 2 ^ 164 +
    (e2 - 1) * 2 ^ 144 + (e1 - 1) * 2 ^ 124 + (e0 - 1) * 2 ^ 104 + s1 * e1 * e2 * 2 ^ 72 + s1 * e1 * 2 ^ 40 + s1 * 2 ^ 8)
/-- `work` with the two buffers and these d and s registers. -/
def withRegs (d : Map (BitVec 256)) (sc : Map (BitVec 128)) : State :=
  { workOf fun fs => { fs with d := d, s := sc } with bufs := bufs }
/-- Format T with DD, DA, DB, DC and FN. -/
def opT (dd da db dc : BitVec 6) (fn : BitVec 8) : FmtT := ⟨dd, da, db, dc, 0, 0, 0, 0, 0, fn⟩

/-- What `State.sound` asks, as a check on the tables. -/
def soundB (s : State) : Bool :=
  s.memWf && s.waiters.all (fun e => decide (e.1 < 256)) && s.faces.all (fun e => decide (e.2.job < 16)) && decide (s.sched.staged.length ≤ 64)

theorem get_mem {α : Type} (d : α) (m : Map α) (k : Nat) : Map.get d m k = d ∨ ∃ e ∈ m, Map.get d m k = e.2 := by
  induction m with
  | nil => exact .inl rfl
  | cons e m ih =>
    obtain ⟨j, v⟩ := e
    by_cases h : k = j
    · exact .inr ⟨(j, v), List.mem_cons_self .., by simp [Map.get, h]⟩
    · obtain h' | ⟨e, he, h'⟩ := ih
      · exact .inl (by simp [Map.get, h, h'])
      · exact .inr ⟨e, List.mem_cons_of_mem _ he, by simp [Map.get, h, h']⟩

theorem sound_of_soundB {s : State} (h : soundB s = true) : s.sound := by
  simp only [soundB, Bool.and_eq_true, List.all_eq_true, decide_eq_true_eq] at h
  obtain ⟨⟨⟨hm, hw⟩, hf⟩, hs⟩ := h
  refine ⟨hm, hw, fun f => ?_, hs⟩
  obtain h' | ⟨e, he, h'⟩ := get_mem FaceSt.idle s.faces f
  · rw [State.face, h']; decide
  · rw [State.face, h']; exact hf e he

theorem work_sound : work.sound := sound_of_soundB (by decide +kernel)

/-! ## Ill-formed commands -/

/-- A plan for `img` with as many Faces as vFaces. -/
def plan : LoadPlan :=
  { part := 0, prio := 0, codeBase := 0x4000100000, device := 0, faces := [0, 1], backs := [], binds := [], entries := [], saves := [0, 0], seed := 0,
    jstep := 0, logBase := 0, logEn := false }
/-- An Eflet frame. -/
def frame : EflFrame :=
  { typ := 1, src := 1, dst := 0, seq := 0, win := 0, gen := 0, tag := 0, status := 0, offset := 0, last := true, plen := 1, data := [] }

/-- One ill-formed term for each check. -/
theorem test_ill_formed : ∀ c ∈ ([.unitStartQueued 0 3, .scrubStart (.region (2 ^ 48) 1), .jobLoad 0 img { plan with faces := [0] },
    .jobLoad 0 img { plan with faces := [0, 6] }, .jobLoad 0 img { plan with backs := [0] }, .jobLoad 0 img { plan with binds := [0] },
    .jobLoad 0 img { plan with entries := [0] }, .jobLoad 0 img { plan with part := 8 }, .jobLoad 0 img { plan with prio := 4 },
    .jobLoad 0 { img with bufs := [0] } { plan with backs := [0], binds := [0], entries := [4096] },
    .placementPlan 0 0 [(16, [])] [] [], .placementPlan 0 0 [(0, [0, 0, 0, 0, 0, 0, 0])] [] [], .placementPlan 0 0 [] [(4096, 0)] [],
    .placementPlan 0 0 [] [] [(16, 0, [])], .patrolRead (2 ^ 49) 0 false false, .patrolRead 0 3 false false,
    .hbmAccessComplete (2 ^ 35) 0 none 0, .hbmAccessComplete 0 5 none 0, .gateRead (2 ^ 48) 1 none, .gateRead 0 1 (some []),
    .kvAdmit 0 0 0 [] [2 ^ 24], .kvInsertPages 0 [(0, 0, 2 ^ 24)], .eflFrameRx 0 (.frame { frame with typ := 16 }),
    .eflFrameRx 0 (.frame { frame with src := 4 }), .eflFrameRx 0 (.frame { frame with dst := 4 }),
    .canTx 0 0 ⟨3, 0⟩ 0, .fbDiagSlot true [(141, 0)], .fbFault 0 0,
    .computeRestart [(16, plan, true)], .attest (some []), .lifecycle 3 [], .chal 0, .governorTick 0 [] 0, .energyFold []] : List Instr), c.wf = false := by decide +kernel

/-- Data longer than a frame, and a STAGE0 larger than the Board. -/
theorem test_ill_formed_long (bs : List (BitVec 8)) (h : 0x1000000 < bs.length) :
    (Instr.eflFrameRx 0 (.frame { frame with data := bs })).wf = false ∧
    (Instr.bootStageDone (.images (some ⟨0, false, 0, true, true, true, true, bs⟩) none)).wf = false := by
  simp [Instr.wf, imageWf]; omega

/-- Well-formed ones pass. -/
theorem test_well_formed : (Instr.jobLoad 0 img plan).wf = true ∧ (Instr.patrolRead (2 ^ 49 - 1) 2 true true).wf = true ∧
    (Instr.eflFrameRx 1 (.frame frame)).wf = true ∧ (Instr.fbFault 140 3).wf = true := by decide +kernel
/-! ## Words of the encoding tables (R125 to R128), written out field by field -/

/-- One word of each instruction family; the last operand bits of formats A, D and C are the 32 or 26 bits of IMM or OFF. -/
theorem test_decode_words :
    decodeInstr 0 0x0D000000000000000000190000000007#128 = .slt 0 hdr ⟨3, 4, 0, 0, 7⟩ ∧
    decodeInstr 1 0x60000000000000000000000000000000#128 = .conv 1 hdr ⟨0, 0, 0, 0, 0, 0, 0, 0, 0, 0⟩ ∧
    decodeInstr 2 0xA0000000000000000000000000000000#128 = .waitEv 2 hdr ⟨0, 0, 0, 0, 0, 0, 0⟩ ∧
    decodeInstr 3 0xFF000000000000000000000000000000#128 = .illOpc 3 hdr := by decide +kernel

/-! ## Tensor operands that pass each instruction's checks -/

/-- A 2 by 4 and B 3 by 4 of INT8; FP32 2 by 3, 2 by 4, 4 by 2; vectors; bytes; INT32 indices. Registers 20 to 31 hold ATTN's operands, 40
to 45 the tables' and recurrences', 50 to 53 CONV's. -/
def descs : Map (BitVec 256) :=
  [(0, 0), (1, desc 1 0 2 1 1 1 2 4), (2, desc 1 0x100 2 1 1 1 3 4), (3, desc 1 0x200 2 12 1 1 2 3), (4, desc 1 0x300 2 12 1 1 2 4),
   (5, desc 1 0x400 2 12 1 1 2 4), (6, desc 1 0x500 2 12 1 1 2 1), (7, desc 1 0x600 2 12 1 1 4 2), (8, desc 1 0x700 1 4 1 1 1 2),
   (9, desc 1 0x800 1 4 1 1 1 2), (10, desc 2 0 2 12 1 1 2 4), (11, desc 1 0x1000 1 2 1 1 1 65600), (12, desc 1 0x900 1 2 1 1 1 8),
   (13, desc 1 0x940 1 2 1 1 1 32), (14, desc 1 0xA00 2 10 1 1 4 128), (15, desc 1 0x20000 4 12 1 4 32 256), (16, desc 1 0x68000 2 14 1 1 4 128),
   (20, desc 1 0x40000 4 12 1 1 2 4), (21, desc 1 0x41000 4 12 1 1 3 4), (22, desc 1 0x42000 4 12 1 1 3 4), (23, desc 1 0x43000 2 4 1 1 1 4),
   (24, desc 1 0x44000 4 12 1 1 2 4), (25, desc 1 0x45000 3 2 1 1 1 2), (26, desc 1 0x46000 4 12 1 1 2 2),
   (27, desc 1 0x47000 4 12 1 1 2 4), (28, desc 1 0x48000 4 12 1 1 3 4), (29, desc 1 0x49000 4 12 1 1 3 4),
   (30, desc 1 0x4A000 4 12 1 1 2 4), (31, desc 1 0x4B000 4 12 1 1 2 4), (32, desc 1 0x4C000 4 12 1 1 2 2),
   (33, desc 1 0x4D000 1 4 1 1 1 1), (34, desc 1 0x4E000 1 4 1 1 1 1), (35, desc 1 0x4F000 4 12 1 1 4 4),
   (40, desc 1 0x50000 3 12 1 2 1 4), (41, desc 1 0x51000 3 12 1 2 1 4), (42, desc 1 0x52000 2 12 1 1 2 4),
   (50, desc 1 0x60000 4 12 1 4 4 2), (51, desc 1 0x61000 4 12 2 3 3 2), (52, desc 1 0x62000 4 12 1 2 2 2), (53, desc 1 0x63000 1 4 1 1 1 16)]
/-- s1 is a codebook scale: MODE CODEBOOK, BF16, DESC 17. -/
def scales : Map (BitVec 128) := [(1, BitVec.ofNat 128 (6 * 2 ^ 124 + 2 * 2 ^ 120 + 17))]
/-- Face 0 with these registers, digest slot 0 armed, the job's NDET, and a geometry record at register 53's place. -/
def tensors : State :=
  let s := (withRegs ((descs.drop 1).take 16 ++ [(17, desc 1 0xB00 2 10 1 1 1 4)] ++ descs.drop 17) scales).setFlag (Reg.DET_JCTRL 0) 0 true
  let s := s.store (storeBase 0 + 0x63000) ([1, 1, 1, 1, 0, 0, 0, 0, 1, 4, 0, 0, 0, 0, 0, 0].flatMap (leBytes 4))
  s.setFace 0 { s.face 0 with digs := [(0, { DigSlot.off with armed := true, desc := 1 })] }

/-- Operands for each row of `tensorRows`, in its order. -/
def tensorOps : List FmtT :=
  [opT 0 1 2 0 0, { opT 15 14 0 0 0 with sb := 1 }, opT 0 15 16 1 0, opT 3 0 0 0 0, opT 0 3 0 0 0, opT 0 0 0 3 1,
   opT 5 4 4 0 0, opT 5 4 0 0 0, opT 6 4 0 0 0, opT 5 4 0 0 0, opT 5 4 0 0 0, opT 5 4 0 0 0, opT 5 0 0 0 1, opT 7 4 0 0 0,
   opT 5 4 8 0 0, opT 5 4 8 0 0, opT 5 4 8 9 0, opT 10 4 0 0 0, opT 11 0 0 0 0, opT 12 11 0 0 0, opT 13 0 0 0 0, opT 13 4 0 0 0,
   opT 24 20 21 23 0, opT 27 20 30 23 0, opT 35 20 33 34 0, opT 40 41 42 0 0, opT 40 41 42 0 0]

/-! ## Witnesses: the hypotheses of each statement hold together somewhere -/

theorem witness_EmptyQueueCountsRawTime : State.reset.pending = [] := rfl

theorem witness_HomeResetPulses : (99 < 100 ∧ 1000 ≤ 1000) ∧ (100 ≤ 100 ∧ 100 < 1000) ∧ 100 ≤ 999 ∧ 999 < 1000 := by decide

theorem witness_StepKeepsStateSound : soundB State.reset = true ∧ step State.reset = .next { State.reset with raw := 1 } :=
  ⟨by decide +kernel, rfl⟩

theorem witness_DecodeAndEncodeAgree :
    (instrFace (.add 0 hdr ⟨3, 4, 5, 0, 0⟩) = some 0 ∧
      encodeInstr (.add 0 hdr ⟨3, 4, 5, 0, 0⟩) = some 0x01000000000000000000190A00000000#128) ∧
    ((0x80000000000000000000000000000000#128).extractLsb' 120 8).toNat ∈ assignedOpcodes ∧
    ((0x82000000000000000000000000000000#128).extractLsb' 120 8).toNat ∉ assignedOpcodes := by decide +kernel

theorem witness_HeldFetchAndReservedInstructions :
    (instrFace (.nop 0 hdr ⟨0, 0, 0, 0⟩) = some 0 ∧ (State.reset.face 0).running = false ∧
      ((workOf fun fs => { fs with ending := true }).face 0).ending = true ∧
      ((workOf fun fs => { fs with halted := true }).face 0).halted = true) ∧
    (let s := workOf fun fs => { fs with pc := 16 }
     soundB s = true ∧ (s.face 0).running = true ∧ (s.face 0).ending = false ∧ (s.face 0).halted = false ∧ s.codeLen 0 ≤ (s.face 0).pc ∧
       s.flag (Reg.FACE_EXC 0) 63 = false) ∧
    (soundB work = true ∧ canIssue work 0 hdr = true ∧ work.flag (Reg.FACE_EXC 0) 63 = false) ∧ (0xFFFF#32).toNat < 65536 ∧
    ¬ reservedA ⟨0, 0, 1, 1, 0⟩ ∧ ¬ reservedA ⟨0, 0, 0, 0, 1⟩ := by unfold reservedA; decide +kernel

/-- Face 0 with counter 2 at `c` and g3 at 2^48. -/
def counted (c : Nat) : State := workOf fun fs => { fs with ev := [(2, BitVec.ofNat 64 c)], g := [(3, 2 ^ 48)] }

/-- A wait entry on counter 2 with threshold 5, satisfied at 5 and not at 4; one whose threshold is g3 + 0 = 2^48. -/
theorem witness_WaitSetsHoldOrRaise :
    (instrFace (.waitEv 0 ⟨false, 0, 0x0405, 0, 0, 0⟩ ⟨0, 0, 0, 0, 0, 0, 0⟩) = some 0 ∧
      encodeInstr (.waitEv 0 ⟨false, 0, 0x0405, 0, 0, 0⟩ ⟨0, 0, 0, 0, 0, 0, 0⟩) = some 0xA0000405000000000000000000000000#128 ∧
      hdrWaits (hdrOf 0xA0000405000000000000000000000000#128) = [0x0405, 0, 0, 0]) ∧
    (∀ c ∈ [4, 5], soundB (counted c) = true ∧ ((counted c).face 0).running = true ∧ ((counted c).face 0).ending = false ∧
      ((counted c).face 0).halted = false ∧ ((counted c).face 0).pc < (counted c).codeLen 0 ∧ (counted c).flag (Reg.FACE_EXC 0) 63 = false ∧
      ((counted c).face 0).window.length < 256 ∧ 2 ^ 48 - 1 < waitThr ((counted c).face 0) 0x0503 ∧
      waitThr ((counted c).face 0) 0x0405 = 5 ∧ waitThr ((counted c).face 0) 0 = 0 ∧ Ctr.count ((counted c).evCtr 0 2) = c ∧
      Ctr.ovf ((counted c).evCtr 0 2) = false) ∧ waitEvOf 0x0405 = 2 := by decide +kernel

theorem witness_ScalarInstructionResults : canIssue work 0 hdr = true ∧ reservedA ⟨3, 4, 5, 0, 0⟩ ∧ reservedA ⟨3, 4, 0, 1, 0xFFFFFFFF⟩ ∧
    scalarRows.length = 15 := by unfold reservedA; decide +kernel

theorem witness_ImmediateFrontEndAndDescriptorValues : canIssue work 0 hdr = true ∧ ((0 : BitVec 1) = 1 ∨ (0 : BitVec 32) = 0) ∧
    (0xFFFFFFFF : BitVec 32) ≠ 0 ∧ soundB work = true ∧ work.flag (Reg.FACE_EXC 0) 63 = false ∧ descField 0 = some (255, 240) ∧
    descField 4 = some (223, 184) ∧ descField 8 = some (183, 164) ∧ descField 12 = some (225, 225) ∧ scaleField 4 = some (5, 0) ∧
    (15#6).toNat < 16 := by decide +kernel

/-- LDG, LDD and LDS of register 4's tensor, and STG to it, from its first byte; its first word holds an error, or not. -/
theorem witness_ScalarMemoryInstructions :
    (canIssue tensors 0 hdr = true ∧ quiet tensors 0 ∧ (tensors.face 0).window = [] ∧
      accessChk tensors 0 ⟨31, 4, 0, 0, 0⟩ 8 1 = .pass ∧ accessChk tensors 0 ⟨63, 4, 0, 0, 0⟩ 32 1 = .pass ∧
      accessChk tensors 0 ⟨15, 4, 0, 0, 0⟩ 16 1 = .pass ∧ accessChk tensors 0 ⟨31, 4, 0, 0, 0⟩ 8 0 = .pass ∧
      tensors.firstBad (accessKey tensors 0 ⟨31, 4, 0, 0, 0⟩) 32 = none ∧ tensors.statusWords (tensors.face 0).job = []) ∧
    (let s := tensors.markBad (accessKey tensors 0 ⟨31, 4, 0, 0, 0⟩) 1
     canIssue s 0 hdr = true ∧ quiet s 0 ∧ (s.face 0).window = [] ∧ accessChk s 0 ⟨31, 4, 0, 0, 0⟩ 8 1 = .pass ∧ soundB s = true ∧
       (s.firstBad (accessKey s 0 ⟨31, 4, 0, 0, 0⟩) 8).isSome = true ∧ s.flag (Reg.FACE_EXC 0) 63 = false) := by
  unfold quiet; decide +kernel

theorem witness_ControlTransfers :
    let s := workOf fun fs => { fs with pc := 4, g := [(3, 15), (4, 2 ^ 63)] }
    canIssue s 0 hdr = true ∧ (BitVec.ofNat 64 (s.face 0).pc + (BitVec.ofInt 32 (-4)).signExtend 64 : Word).toNat < s.codeLen 0 ∧
    (BitVec.ofNat 64 (s.face 0).pc + (11#32).signExtend 64 : Word).toNat < s.codeLen 0 ∧
    ((s.face 0).gReg 3 + (0#32).signExtend 64 : Word).toNat < s.codeLen 0 ∧
    (∀ p ∈ branchRows, (∃ a ∈ [0, 3, 4], ∃ b ∈ [0, 3, 4], p.2 ((s.face 0).gReg a) ((s.face 0).gReg b) = true) ∧
      ∃ a ∈ [0, 3, 4], ∃ b ∈ [0, 3, 4], p.2 ((s.face 0).gReg a) ((s.face 0).gReg b) = false) := by decide +kernel

theorem witness_CommandsEndOrReachTheirLimit :
    (soundB work = true ∧ canIssue work 0 hdr = true) ∧
    (let s := workOf fun fs => { fs with ending := true }
     soundB s = true ∧ (s.face 0).running = true ∧ (s.face 0).ending = true ∧ (s.face 0).window = []) ∧
    (bitOf (work.liveMask 0 0 0) 0 = false ∧ 0 ∉ work.guests 0 0 0 ∧
      15 ∈ (workOf fun fs => { fs with owner := [(15, ownerMark 1 0)] }).guests 0 0 0 ∧
      ∀ e ∈ bufs, e.2.tier = 1 ∨ e.2.tier = 2 → e.2.base 0 0 + e.2.sizeB ≤ homeSpace) ∧
    (let s := { workOf fun fs => { fs with firstIssue := some 0 } with raw := 200001 }
     soundB s = true ∧ (s.face 0).running = true ∧ (s.face 0).halted = false ∧ (s.face 0).firstIssue = some 0 ∧ s.cmdLimitNs 0 < s.raw - 0 ∧
       s.flag (Reg.FACE_EXC 0) 63 = false) := by decide +kernel

/-- `work` with semaphore 255 enabled for partition 0 at count 10, and software source 256 granted to job 0. -/
def sems : State := ((work.wr (Reg.SYNC_SEM 255) (2 ^ 63 + 10)).setFlag (Reg.EVT_SRC 256) 48 true)

theorem witness_SyncInstructionsIssue : canIssue sems 0 hdr = true ∧ vfNamed sems 0 1 = some 1 ∧ 112 ≤ (127#7).toNat ∧
    semAllowed sems (sems.face 0).job 255 = true ∧ (∀ e ∈ (sems.face 0).window, e.tiers &&& 15 = 0) ∧
    srcGranted sems (sems.face 0).job 256 = true := by decide +kernel

/-- A SACQ entry that waits for 10 of semaphore 255, a command record's acquire, and a routed increment in flight. -/
theorem witness_SemaphoresAndRoutedCounters :
    let e : Entry := { Entry.of .sync with seq := 7, acq := some (255, 10), sig := some 3 }
    let t := (sems.setFace 0 { sems.face 0 with window := [e] }).setWaiters 255 [⟨0, some (0, 7), 0, 10, 0, false, 0⟩]
    let q := sems.setWaiters 255 [⟨0, none, 1, 10, 0, false, 0⟩]
    let r := { work with inFlight := [⟨0, 1, 15, 3⟩] }
    (q.semWaiters 255 = [⟨0, none, 1, 10, 0, false, 0⟩] ∧ q.flag (Reg.SYNC_SEM 255) 63 = true ∧ 10 ≤ q.semCount 255) ∧
    (t.semWaiters 255 = [⟨0, some (0, e.seq), 0, 10, 0, false, 0⟩] ∧ t.flag (Reg.SYNC_SEM 255) 63 = true ∧ 10 ≤ t.semCount 255 ∧
      ((t.face 0).window.find? fun x => x.seq == e.seq) = some e ∧ e.fx = [] ∧ t.acctFull = false) ∧
    (r.inFlight = [⟨0, 1, 15, 3⟩] ∧ r.job 0 = some job ∧ 1 < job.img.vfs.length) ∧ work.fld Reg.SYNC_RSEL 6 4 < 6 := by decide +kernel

/-- An SREL at issue without and with its semaphore, and at completion where the sum is 65,535 and one more. -/
theorem witness_SrelAddsOrRaises :
    let e : Entry := { Entry.of .sync with seq := 7, started := true, fx := [.release 0 255 65525] }
    let e' := { e with fx := [.release 0 255 65526] }
    let t := fun x => sems.setFace 0 { sems.face 0 with window := [x] }
    (soundB sems = true ∧ canIssue sems 0 hdr = true ∧ semAllowed sems 0 254 = false ∧ semAllowed sems 0 255 = true ∧
      sems.flag (Reg.FACE_EXC 0) 63 = false) ∧
    (∀ x ∈ [e, e'], soundB (t x) = true ∧ (((t x).face 0).window.find? fun y => y.seq == x.seq) = some x ∧ x.started = true ∧ x.acq = none ∧
      x.remote = none ∧ x.macBad = 0 ∧ x.macUsed = 0 ∧ (t x).badRead x = none ∧ (t x).xferOf 0 x.seq = none ∧ ((t x).face 0).job = 0 ∧ (t x).flag (Reg.FACE_EXC 0) 63 = false) ∧
    (t e).semCount 255 + (65525#16).toNat ≤ 65535 ∧ 65535 < (t e').semCount 255 + (65526#16).toNat := by decide +kernel

/-- Every row of the tensor instructions has operands that pass, with the job's NDET where it is needed; so have CONV and the moves. -/
theorem witness_TensorInstructionsEnterTheWindow :
    canIssue tensors 0 hdr = true ∧ tensorOps.length = tensorRows.length ∧ tensors.flag (Reg.DET_JCTRL (tensors.face 0).job) 0 = true ∧
    (∀ x ∈ tensorRows.zip tensorOps, x.1.2.2.1 tensors 0 x.2 = .pass ∧ unitFree (tensors.face 0) x.1.2.1 = true) ∧
    quiet tensors 0 ∧ convChk tensors 0 (opT 52 50 51 53 0) (tensors.geoAt 0 53) = .pass ∧ unitFree (tensors.face 0) .tile = true ∧
    unitFree (tensors.face 0) .mover = true ∧ movChk tensors 0 ⟨5, 4, 0, 0, 0, 0⟩ = .pass ∧ movzChk tensors 0 ⟨10, 0, 7, 0, 0, 0⟩ = .pass := by
  unfold quiet; decide +kernel

theorem witness_DigestSlotsAndUnitQueues :
    let e : Entry := { Entry.of .tile with seq := 7, started := false }
    let t := tensors.setFace 0 { tensors.face 0 with window := [e] }
    (canIssue tensors 0 hdr = true ∧ dgarmChk tensors 0 (opT 0 4 0 7 0) = .pass ∧ unitFree (tensors.face 0) .digest = true) ∧
    (((t.face 0).window.find? fun x => x.unit == .tile && !x.started) = some e ∧
      (∀ x ∈ (t.face 0).window, x.unit = .tile → x.started = false) ∧ orderMet (t.face 0) e = true) ∧ e.redo = none ∧
    (let r : Redo := ⟨.accz 0 hdr (opT 0 0 0 3 1), [], [], 0, 0, 0, [], 0, [], 0, [], []⟩
     ({ e with redo := some r }).lost = [] ∧ (computeOf r.ins (t.startView 0 r) r.geo).isSome = true) := by decide +kernel

theorem witness_CompletionMakesEffectsVisible :
    (∀ fx ∈ [Fx.store 0 [1, 2], .routed 0 1 15 3, .release 0 255 65525, .raise 256],
      let e : Entry := { Entry.of .sync with seq := 7, started := true, fx := [fx] }
      let t := sems.setFace 0 { sems.face 0 with window := [e] }
      ((t.face 0).window.find? fun x => x.seq == e.seq) = some e ∧ e.started = true ∧ e.acq = none ∧ e.remote = none ∧ e.macBad = 0 ∧
        e.macUsed = 0 ∧ t.badRead e = none ∧ t.xferOf 0 e.seq = none ∧ t.acctFull = false ∧ t.semCount 255 + 65525 ≤ 65535) ∧
    (let e : Entry := { Entry.of .store with seq := 7, started := true, reads := [(storeBase 0, 9)], fx := [.store 0 [1, 2]] }
     let t := (sems.setFace 0 { sems.face 0 with window := [e] }).markBad (storeBase 0 + 8) 1
     ((t.face 0).window.find? fun x => x.seq == e.seq) = some e ∧ t.badRead e = some (storeBase 0 + 8) ∧ soundB t = true ∧
       t.flag (Reg.FACE_EXC 0) 63 = false ∧ (∀ x ∈ e.fx, x.isWrite = true) ∧ t.acctFull = false) := by decide +kernel

/-- MOV between two tensors that do not meet, MOVZ and ACCZ, with nothing in flight. -/
theorem witness_MovesAndClearsTakeEffect :
    (canIssue tensors 0 hdr = true ∧ quiet tensors 0 ∧ (tensors.face 0).window = [] ∧ tensors.acctFull = false ∧
      tensors.statusWords (tensors.face 0).job = [] ∧ tensors.xferOf 0 (tensors.face 0).seq = none ∧ tensors.bad = []) ∧
    (let o : FmtM := ⟨5, 4, 0, 0, 0, 0⟩
     tensors.descRemote 0 5 = false ∧ moveRemote tensors 0 5 0 = none ∧ movChk tensors 0 o = .pass ∧ tensors.descRemote 0 4 = false ∧
       (tensors.moveRef 0 5 0).d.layout ≠ 2 ∧ (tensors.moveRef 0 4 0).d.layout ≠ 2 ∧
       anyMeet ((tensors.moveRef 0 5 0).spans tensors) ((tensors.moveRef 0 4 0).spans tensors) = false ∧
       ((tensors.moveRef 0 5 0).writeSpans tensors).Pairwise (fun x y => spansMeet x y = false)) ∧
    movzChk tensors 0 ⟨5, 0, 0, 0, 0, 0⟩ = .pass ∧ acczChk tensors 0 (opT 0 0 0 3 1) = .pass := by unfold quiet; decide +kernel

theorem witness_IntegerMatrixProduct :
    (canIssue tensors 0 hdr = true ∧ quiet tensors 0 ∧ (tensors.face 0).window = [] ∧ tensors.acctFull = false ∧
      tensors.statusWords (tensors.face 0).job = [] ∧ tensors.xferOf 0 (tensors.face 0).seq = none ∧ tensors.bad = []) ∧
    mmChk tensors 0 (opT 0 1 2 0 0) = .pass ∧
    macIsInt (tensors.tref 0 1).d.fmt (tensors.tref 0 2).d.fmt (tensors.scale 0 0) (tensors.scale 0 0) = true ∧
    bitOf (tensors.face 0).accMixed 0 = false ∧ (opT 0 1 2 0 0).fn = 0 ∧
    (∀ m < 2, ∀ n < 3, ∀ j < 5, (List.zipWith (fun x y => intOf 1 x * intOf 1 y) ((tensors.tref 0 1).row tensors m)
      ((tensors.tref 0 2).row tensors n) |>.take j).sum.natAbs < 2 ^ 31) := by unfold quiet; decide +kernel
/-- Partition 0 enabled with all Faces, 4 GiB of HBM and 1 MiB of the Board, CMD_BOUND 200. -/
def parted : State := (State.reset.wr (Reg.SCHED_PARTA 0) (BitVec.ofNat 64 (2 ^ 63 + 16 * 2 ^ 54 + 63 * 2 ^ 48 + 4096))).setFld (Reg.SCHED_PARTB 0) 15 8 200
/-- An image of one LIFE 1 ring buffer pinned to the Board, one vFace; its plan. -/
def ringImg : JobImage := { img with bufs := [BitVec.ofNat 128 (1 * 2 ^ 112 + 1 * 2 ^ 110 + 2 * 2 ^ 108 + 2 ^ 107 + 1088)], vfs := [0], rings := [(1, 4)] }
def ringPlan : LoadPlan :=
  { plan with faces := [0], backs := [BitVec.ofNat 64 0x1000], binds := [BitVec.ofNat 64 (2 ^ 62 + boardBase)], entries := [0], saves := [0] }
/-- The scrub of HBM is over. -/
def clean (s : State) : State := { s with place := { s.place with unzeroed := [] } }

theorem witness_JobLoadChecksThenLoads :
    State.reset.job 15 = none ∧ State.reset.loadErr ringImg ringPlan = some (0x0A, 0) ∧
    (clean parted).job 0 = none ∧ (clean parted).loadErr ringImg ringPlan = none ∧ (clean parted).loadRefused ringImg ringPlan = false ∧
    (clean parted).planOk ringImg ringPlan = true := by decide +kernel

/-- A live job, one that ends with a Board region and no command, and Faces with records of program and hardware exceptions. -/
theorem witness_JobsEndAndAreScrubbed :
    let ends := loaded.setJob 15 (some { job with ending := true, regions := [(boardBase, 64)] })
    let exc := fun b => loaded.setFace 5 { FaceSt.idle with excJobs := [(0, b)] }
    (soundB loaded = true ∧ loaded.jobLive 0 = true) ∧
    (∀ b, soundB (exc b) = true ∧ ((exc b).face 5).excJobs = [(0, b)] ∧ (exc b).jobLive 0 = true) ∧
    (∃ r ∈ State.reset.place.unzeroed, r.1 ≤ 0x5FFFFFFFF ∧ 0x5FFFFFFFF + 1 ≤ r.1 + r.2) ∧
    (ends.jobEnding 15 = true ∧ ends.jobRuns 15 = false ∧ ends.pipRuns 15 = false ∧ (∀ r ∈ ends.place.scrub, r.2.2 ≠ 15) ∧
      (∀ r ∈ ends.place.held, r.2.2 ≠ 15) ∧ ends.holdWanted 15 = false ∧
      ends.regionsBusy (ends.jobRegions 15) = false ∧ (∀ i ∈ ends.windowsOf 15, ends.flag (Reg.WINA i) 62 = false) ∧
      ends.jobRegions 15 ≠ []) ∧
    ({ loaded with place := { loaded.place with scrub := [(0, 64, 16)] } } : State).place.scrub = [(0, 64, 16)] := by decide +kernel

/-- A queue of vFace 1 of job 0 at the Board's first line, K 4, with one record: no semaphore and no wait, or semaphore 255 for 10. -/
def queued (flags : Nat) : State :=
  ((sems.setFace 0 FaceSt.idle).setVf 0 1 { VfSt.empty with qbase := BitVec.ofNat 64 (2 ^ 63 + boardBase + 4), tail := 1 }).store (boardBase + 64)
    (leBytes 40 0 ++ leBytes 2 100 ++ leBytes 1 flags ++ leBytes 2 0 ++ leBytes 1 255 ++ leBytes 2 10 ++ leBytes 16 0)

theorem witness_HeadCommandBecomesReady :
    ∀ flags ∈ [0, 4, 8, 12], ∀ o ∈ [true, false], let s := if o then queued flags else { queued flags with routed := [(routedIdx 0 1 0, 2 ^ 48)] }
      s.jobLive 0 = true ∧ 1 < s.vfCountOf 0 ∧ (s.vf 0 1).holds = true ∧ (s.vf 0 1).stage = 0 ∧ s.stepHeld 0 1 = false ∧
      ((s.headRec 0 1).waitEn = true → (s.headRec 0 1).waitVal ≤ Ctr.count (s.routedCtr 0 1 (s.headRec 0 1).waitEv)) ∧
      ((s.headRec 0 1).semEn = decide (8 ≤ flags)) ∧ semAllowed s 0 (s.headRec 0 1).sem = true := by decide +kernel

/-- Slot 63 of partition 0 grants Face 0, now; vFace 1's command is ready, and the Face paces at full rate. -/
def slotted : State :=
  let s := ((queued 0).setFlag Reg.SCHED_CTRL 0 true).wr (Reg.SCHED_SLOT 63) (BitVec.ofNat 64 (2 ^ 63 + 1 * 2 ^ 50 + 1000 * 2 ^ 20))
  let s := ((s.setFld (Reg.PACE_FACE 0) 13 0 1300).setFld (Reg.PLACE_VMAP 0) 7 4 0).setVf 0 1 { s.vf 0 1 with stage := 3 }
  { s.setFace 0 { FaceSt.idle with slot := some 63 } with raw := 5000, sched := { s.sched with frameAt := 5000, nextBoundary := 5000 } }

theorem witness_CommandStartsAsItsRecordSays :
    slotted.choose 0 = some (63, 0, 1) ∧ slotted.readyOn 0 0 1 = true ∧ slotted.startSet 0 1 = ([1], none) ∧
    slotted.startOk 0 63 0 1 = true := by decide +kernel

theorem witness_SlotsAndFrames :
    (slotted.flag Reg.SCHED_CTRL 0 = true ∧ slotted.flag (Reg.SCHED_SLOT 63) 63 = true ∧
      slotted.slotStartAt 63 ≤ slotted.raw ∧ slotted.raw < slotted.slotEndAt 63) ∧
    (let s := { slotted.setFace 0 { slotted.face 0 with running := true } with raw := 1005000 }
     s.slotEndAt 63 ≤ s.raw ∧ ∃ f < 6, (s.face f).slot = some 63 ∧ (s.face f).running = true) ∧
    (soundB slotted = true ∧ slotted.sched.nextBoundary ≤ slotted.raw) := by decide +kernel

/-- A turn of job 0 with no time left; a live image of another job in bank 0; waiters of semaphore 255 held by job 1. -/
def heldBy (r : SemReq) : State :=
  { ((((slotted.setJob 1 (some job)).setVf 0 1 VfSt.empty).setVf 1 1
      { VfSt.empty with qbase := BitVec.ofNat 64 (2 ^ 63 + boardBase + 4), tail := 1, stage := 3 }).setFld (Reg.SYNC_SEM 255) 62 58 3).setFld
        (Reg.PLACE_VMAP 1) 7 4 0 with waiters := [(255, [r])], raw := 5001 }
/-- Job 1 in turn waits for semaphore 254, held by job 0. -/
def cyclic : State :=
  { heldBy ⟨0, none, 1, 10, 0, true, 0⟩ with waiters := [(254, [⟨1, none, 1, 10, 0, true, 0⟩]), (255, [⟨0, none, 1, 10, 0, true, 0⟩])] }.setFld
    (Reg.SYNC_SEM 254) 62 58 1

theorem witness_TurnsBanksAndDonation :
    (let t := slotted.setTurn 0 0 { TurnSt.none with job := some 0 }
     (t.face 0).slot = some 63 ∧ (t.turn 0 (t.slotPart 63)).job = some 0 ∧ (t.face 0).running = false ∧ (t.turn 0 (t.slotPart 63)).left = 0 ∧
       t.exchanging 0 = false) ∧
    (let b := (slotted.setFld (Reg.SCHED_JOB 1) 62 60 7).setFace 0 { slotted.face 0 with owner := [(15, ownerMark 1 0)] }
     b.choose 0 = some (63, 0, 1) ∧ (b.face 0).running = false ∧ b.banksOut 0 0 1 = [15] ∧ b.acctFull = false) ∧
    (let b := (slotted.setFld Reg.SCHED_CTRL 2 1 2).setJob 0 (some { job with img := { img with live := [0, 0x8000] } })
     b.choose 0 = some (63, 0, 1) ∧ (b.face 0).running = false ∧ b.banksIn 0 0 1 = [15] ∧ b.banksOut 0 0 1 = [] ∧ b.acctFull = false ∧
       b.bankHolder 0 1 15 = none ∧ bitOf (b.vf 0 1).inSave 15 = false) ∧
    ((heldBy ⟨0, none, 1, 10, 3000, false, 0⟩).blockedWaiter 255).isSome = true := by decide +kernel
theorem witness_TurnsBanksAndDonation_donees :
    (∀ n ∈ [0, 3, 4], let s := heldBy ⟨0, none, 1, 10, 3000, true, n⟩
      s.holderOf 255 = some 1 ∧
      ((s.semWaiters 255).find? fun r => r.blocked && decide (r.donated < 5)) = some ⟨0, none, 1, 10, 3000, true, n⟩ ∧
      s.donee 4 [0, 1] 1 = .inl 1 ∧ (s.job 1).isSome = true ∧ s.jobRuns 1 = false ∧ (∀ f < 6, s.borrows f 1 = false) ∧
      ∃ f < 6, s.jobReadyOn f 1 = true) ∧
    (cyclic.holderOf 255 = some 1 ∧ ((cyclic.semWaiters 255).find? fun r => r.blocked && decide (r.donated < 5)) =
      some ⟨0, none, 1, 10, 0, true, 0⟩ ∧ cyclic.donee 4 [0, 1] 1 = .inr 1) := by decide +kernel

/-- Partitions without and with a job, a valid and an invalid shadow table, TAILs in and out of range. -/
theorem witness_SchedulerRegisterWrites :
    let tab := (parted.setFld Reg.SCHED_SFRAME 16 0 100).wr (Reg.SCHED_SSLOT 63) (BitVec.ofNat 64 (2 ^ 63 + 63 * 2 ^ 50 + 100 * 2 ^ 20))
    let bad := tab.setFld Reg.SCHED_SFRAME 16 0 99
    let has := parted.setJob 0 (some job)
    let high : Word := BitVec.ofNat 64 (2 ^ 63 + 256 * 2 ^ 54)
    (parted.partLoaded 0 = false ∧ parted.partLoaded 7 = false ∧ loaded.partLoaded 0 = true ∧ has.partLoaded 0 = true) ∧
    ((parted.wr (Reg.SCHED_PARTA 0) 0).partErr 0 = none ∧ bitOf high.toNat 63 = true ∧
      (parted.wr (Reg.SCHED_PARTA 7) (high &&& 0x7FFFFFFF0000FFFF)).partErr 7 = some 7) ∧
    ((0 : Word) &&& 0xFFFFFFFF0000FFFF ≠ has.rd (Reg.SCHED_PARTA 0) &&& 0xFFFFFFFF0000FFFF ∧
      bits (200 * 256) 47 32 = has.fld (Reg.SCHED_PARTB 0) 47 32 ∧
      max 10 (min 200 (bits (201 * 256) 15 8)) = has.fld (Reg.SCHED_PARTB 0) 15 8 ∧ max 10 (min 200 (bits 0 15 8)) ≠ has.fld (Reg.SCHED_PARTB 0) 15 8) ∧
    (tab.tableErr = none ∧ tab.flag Reg.SCHED_CTRL 0 = false ∧ (tab.setFlag Reg.SCHED_CTRL 0 true).tableErr = none ∧
      (tab.setFlag Reg.SCHED_CTRL 0 true).flag Reg.SCHED_CTRL 0 = true ∧ ∀ f < 6, (tab.face f).gated = false) ∧
    bad.tableErr = some (0, 4) := by decide +kernel
theorem witness_SchedulerRegisterWrites_queues :
    let q := (queued 0).setFld Reg.SCHED_QSEL 2 0 5
    let on := ((queued 0).setFld Reg.SCHED_QSEL 2 0 1).store (boardBase + 64 + 64 * 15 + 63) [1]
    (q.qsel.2 < 6 ∧ (q.vf q.qsel.1 q.qsel.2).en = false ∧
      ((0xFFFFFFFF#64).setWidth 32 - (q.vf 0 5).head).toInt < 0 ∧ ((q.vf 0 5).size : Int) < ((2#64).setWidth 32 - (q.vf 0 5).head).toInt ∧
      0 ≤ ((0#64).setWidth 32 - (q.vf 0 5).head).toInt ∧ ((0#64).setWidth 32 - (q.vf 0 5).head).toInt ≤ (q.vf 0 5).size ∧
      q.pushRejected ((0#64).setWidth 32) = false) ∧
    (on.qsel.2 < 6 ∧ (on.vf on.qsel.1 on.qsel.2).en = true ∧ (on.vf 0 1).size = 16 ∧ (on.vf 0 1).head = 0 ∧
      (∀ n ∈ [0, 16], 0 ≤ ((BitVec.ofNat 64 n).setWidth 32 - (on.vf 0 1).head).toInt ∧
        ((BitVec.ofNat 64 n).setWidth 32 - (on.vf 0 1).head).toInt ≤ (on.vf 0 1).size) ∧
      on.pushRejected ((1#64).setWidth 32) = false ∧ on.pushRejected ((16#64).setWidth 32) = true) ∧
    (∀ n ∈ [3, 4, 12, 13], 4 ≤ bits n 3 0 ∧ bits n 3 0 ≤ 12 ↔ n = 4 ∨ n = 12) ∧ bitOf (0 : Word).toNat 63 = false ∧
    bitOf (0x8000000000000004 : Word).toNat 63 = true := by decide +kernel

theorem witness_StepAdvances :
    let busy := loaded.setFlag (Reg.DET_STEP 0) 1 true
    loaded.job 0 = some job ∧ loaded.flag (Reg.DET_STEP 0) 1 = false ∧ loaded.rd (Reg.DET_JSTEP 0) ≠ BitVec.allOnes 64 ∧
    (busy.job 0 = some job ∧ busy.flag (Reg.DET_STEP 0) 1 = true ∧
      ∀ t ∈ job.captured.zipIdx, (t.1 - (busy.vf 0 t.2).ended).toInt ≤ 0) ∧
    job.started = true ∧ (State.reset.setJob 0 (some { job with started := false })).job 0 = some { job with started := false } := by
  decide +kernel

/-- Buffer 1 with a zeroing asked for; in use and not; a plan that rebinds vFaces; a move to start and one under way. -/
theorem witness_PlacementPlansAndMoves :
    let z := { loaded with bufs := [(4095, { BufEnt.free with zeroing := 0x20 })] }
    let used := workOf fun fs => { fs with refs := [0] }
    let pend := State.reset.setFlag Reg.PLACE_STATUS 0 true
    let pl := { (parted.setJob 0 (some { job with img := { img with stripes := [(7, [0, 1])] } })).setFld (Reg.PLACE_VMAP 0) 7 0 0x10 with
      sched := { State.reset.sched with framePace := [(4, 1900), (5, 2000)] } }
    let mv : BufEnt := { BufEnt.free with record := bufRec 1 2 0 1, size := 64, back := 0x1000, bind := BitVec.ofNat 64 (2 ^ 63 + 0x1000) }
    let m := { loaded with bufs := [(4095, mv)], place := { loaded.place with moves := [(4095, BitVec.ofNat 64 (2 ^ 62 + boardBase))] } }
    let w := { loaded with bufs := [(4095, mv)], place := { loaded.place with moving := [(4095, BitVec.ofNat 64 (2 ^ 63 + 0x2000), 0)] } }
    bitOf (z.buf 4095).zeroing 5 = true ∧ used.bufInUse (used.fld Reg.PLACE_BSEL 11 0) = true ∧
    loaded.bufInUse (loaded.fld Reg.PLACE_BSEL 11 0) = false ∧ bits 0x3000000000 37 36 = 3 ∧ bits 0 37 36 ≠ 3 ∧
    loaded.flag Reg.PLACE_STATUS 0 = false ∧ pend.flag Reg.PLACE_STATUS 0 = true ∧
    ((let maps := [(0, [5, 4])]
      let face := fun j v => (((maps.find? fun m => m.1 == j).map (·.2)).getD []).getD v (pl.boundTo j v)
      pl.mapsOk 0 0 maps face = true ∧ (maps.map (·.1)).Nodup ∧ (∀ t ∈ pl.planTiers 0, pl.bindOk t.1 t.2 0 = true) ∧
        pl.bindsApart (pl.planTiers 0) (fun _ => 0) = true ∧ pl.exchangeOk face 0 7 [0, 1] = true)) ∧
    (soundB m = true ∧ (m.place.moves.find? fun x => x.1 == 4095) = some (4095, BitVec.ofNat 64 (2 ^ 62 + boardBase)) ∧ m.bufInUse 4095 = false) ∧
    (soundB w = true ∧ (w.place.moving.find? fun x => x.1 == 4095) = some (4095, BitVec.ofNat 64 (2 ^ 63 + 0x2000), 0) ∧
      (w.buf 4095).life1 = true ∧ (w.buf 4095).isValid = true ∧ bits (w.buf 4095).record.toNat 62 59 < 16 ∧
      bits (BitVec.ofNat 64 (2 ^ 63 + 0x2000)).toNat 63 62 = 2 ∧ (w.buf 4095).sizeB ≤ 2 ^ 40 ∧
      bits (BitVec.ofNat 64 (2 ^ 63 + 0x2000)).toNat 47 6 * 64 + (w.buf 4095).sizeB ≤ 2 ^ 47) := by decide +kernel
/-! ## Pip, faults, golden runs, HBM -/

/-- A Pip record at 0x40 of the Board: RAW8 16 by 16 at the Board, one stage-less UINT8 copy of a 1 by 1 crop to 0x4000002000, event 256. -/
def pipBytesOf (cw : Nat) : List (BitVec 8) :=
  leBytes 8 0x4000001000 ++ leBytes 8 0x4000002000 ++ leBytes 8 0 ++ leBytes 8 0x4000003000 ++ leBytes 2 16 ++ leBytes 2 16 ++ leBytes 4 16 ++
    leBytes 1 0 ++ leBytes 1 0 ++ leBytes 1 0 ++ leBytes 1 2 ++ leBytes 2 0 ++ leBytes 2 0 ++ leBytes 2 cw ++ leBytes 2 1 ++ leBytes 2 0 ++
    leBytes 2 0 ++ leBytes 2 256 ++ leBytes 1 0 ++ leBytes 1 0 ++ leBytes 4 7
/-- A record is in memory, its event granted or not; or the engine runs it. -/
def pipped (cw : Nat) : State := sems.store (boardBase + 0x40) (pipBytesOf cw)
def piping (cw : Nat) (flushed : Bool) : State :=
  { pipped cw with pip := { queues := [], running := some ⟨boardBase + 0x40, pipBytesOf cw, 0, 0, 0, flushed⟩, last := 0 }, raw := 1 }

theorem witness_PipEngineRunsItsQueues :
    let s := pipped 1
    let a := boardBase + 0x40
    let full := { s with pip := { s.pip with queues := [(7, List.replicate 16 0)] } }
    let q := { (s.setFlag Reg.PIP_CTRL 0 true) with pip := { s.pip with queues := [(7, [a])] } }
    let hole := 0x7F00300000
    let h := { q with pip := { s.pip with queues := [(7, [hole])] } }
    (State.reset.served a 64 = true ∧ pipGranted State.reset (pipRecOf (State.reset.load (devKey a) 64)) = false ∧ s.served hole 64 = false) ∧
    (s.served a 64 = true ∧ pipGranted s (pipRecOf (s.load (devKey a) 64)) = true ∧ (s.pipQueue 7).length < 16) ∧
    (full.served a 64 = true ∧ pipGranted full (pipRecOf (full.load (devKey a) 64)) = true ∧ 16 ≤ (full.pipQueue 7).length) ∧
    (bitOf 0xF 4 = false ∧ bitOf 0x10 4 = true ∧ bits 0x10 3 0 = 0) ∧
    (q.pip.running = none ∧ q.flag Reg.PIP_CTRL 0 = true ∧ q.pipNext = some 7 ∧ q.pipQueue 7 = [a] ∧ q.served a 64 = true) ∧
    (h.pip.running = none ∧ h.flag Reg.PIP_CTRL 0 = true ∧ h.pipNext = some 7 ∧ h.pipQueue 7 = [hole] ∧ h.served hole 64 = false) ∧
    (let p := piping 1 false
     let r := pipRecOf (pipBytesOf 1)
     let n := (pipOutput p r (p.pipParam r.param)).bytes.length
     p.pipStop r (p.pipParam r.param) = none ∧ r.mapped p (p.pipParam r.param) n = true ∧ n = 1 ∧ p.served r.status 16 = true ∧
       (∀ k < 16, devKey r.status + k ≠ devKey r.dst) ∧ 0 + 1000 * p.fld Reg.PIP_CTRL 31 16 < ({ p with raw := 10 ^ 9 } : State).raw) ∧
    (let p := piping 17 false
     let r := pipRecOf (pipBytesOf 17)
     p.pipStop r (p.pipParam r.param) = some 1) ∧
    (let p := piping 1 false
     let r := { pipRecOf (pipBytesOf 1) with dst := hole }
     p.pipStop r (p.pipParam r.param) = none ∧ r.mapped p (p.pipParam r.param) 1 = false) ∧
    (piping 1 true).pip.running.map (·.flushed) = some true := by decide +kernel

/-- CSTATE `c`, as HFLT shows it. -/
def cst (c : Nat) : State := State.reset.setFld Reg.HFLT_STATUS 31 29 c

theorem witness_FaultsAreRecordedOrInjected :
    let dbl := (State.reset.setFlag Reg.SYS_CTRL 19 true).setFlag Reg.SYS_CTRL 15 true
    let twice := { cst 3 with safe := { SafeSt.init with times := [(5, [2, 1])] } }
    let inj := { State.reset with safe := { SafeSt.init with inj := some (0, 5, 0) } }
    (State.reset.safe.inj = none ∧ faultKind 0x01 = .device ∧ faultKind 0x0F = .device ∧ faultKind 0x0C = .job ∧ faultKind 0x20 = .home ∧
      faultKind 0x24 = .home ∧ faultKind 0x10 = .reserved ∧ faultKind 0x25 = .reserved) ∧
    (State.reset.sentUs ≤ 10000 ∧ 6 ≤ bits 0x600 11 8 ∧ bits 0x5FF 11 8 < 6 ∧ State.reset.quarantined 5 = false ∧
      (State.reset.face 5).halted = false) ∧
    (dbl.flag Reg.SYS_CTRL (16 + 3) = true ∧ dbl.flag Reg.SYS_CTRL (12 + 3) = true ∧ dbl.safe.inj = none) ∧
    ((cst 2).cstate = 2 ∧ (cst 3).cstate = 3 ∧ (cst 3).safe.kickAt + (cst 3).ckickNs ≤ 100000000 ∧ (cst 2).safe.bootAt + 100000000 < 100000001) ∧
    (twice.safe.inj = none ∧ twice.cstate ≠ 1 ∧ twice.safe.resetDue = false ∧
      2 ≤ ((Map.get [] twice.safe.times 5).filter fun (t : Nat) => decide (twice.raw < t + 10000000000)).length) ∧
    inj.safe.inj = some (0, 5, 0) := by decide +kernel

/-- The same two, with the time that has passed. -/
theorem witness_FaultsAreRecordedOrInjected_times :
    (let s := { cst 3 with raw := 100000000 }
     s.cstate = 3 ∧ s.safe.kickAt + s.ckickNs ≤ s.raw) ∧
    (let s := { cst 2 with raw := 100000001 }
     s.cstate = 2 ∧ s.safe.bootAt + 100000000 < s.raw) := by decide +kernel

theorem witness_PatrolAndSafetyCommands :
    let on := State.reset.setFlag Reg.SAFE_CTRL 0 true
    (on.safe.inj = none ∧ on.flag Reg.SAFE_CTRL 0 = true ∧ boardBase < homeSpace ∧ on.patrolLive boardBase false = false ∧
      on.patrolLive boardBase true = true) ∧
    (cst 4).cstate = 4 ∧ (bitOf 0x4001 0 = true ∧ bits 0x4001 15 12 ≤ 4) ∧
    (let s := { State.reset with safe := { SafeSt.init with inj := some (4, 7, 0) }, raw := 100000001 }
     s.safe.inj = some (4, 7, 0) ∧ 0 + s.injNs 4 < s.raw) ∧
    (let v := 2 ^ 63 + 10 * 2 ^ 32 + 30000 * 2 ^ 16 + 100
     State.reset.flag Reg.GOLD_CTRL 63 = false ∧ bitOf v 63 = true ∧ 10 ≤ bits v 47 32 ∧ bits v 47 32 ≤ 1000 ∧ 1000 ≤ bits v 31 16 ∧
       bits v 31 16 ≤ 30000 ∧ 100 ≤ bits v 15 0 ∧ bits v 15 0 ≤ 2000) := by decide +kernel

/-- Golden runs are enabled with a period of 10 ms, lead 1 ms, deferral; TEST slot 63 covers Face 0; `raw` is 9.5 ms. -/
def golden : State :=
  { ((slotted.wr Reg.GOLD_CTRL (BitVec.ofNat 64 (2 ^ 63 + 2 ^ 62 + 10 * 2 ^ 32 + 1000 * 2 ^ 16 + 100))).setFlag (Reg.SCHED_SLOT 63) 62 true).setFld
      (Reg.SCHED_JOB 0) 59 58 3 with raw := 9500000 }

theorem witness_GoldenRunsAndTheStatusGate :
    let e : Entry := { Entry.of .store with seq := 7, started := true, fx := [.gate 0 15 0 0x4000000000 0xFF] }
    let g : GateHeld := ⟨0, 7, 0, 15, 0, 0x4000000000, 0xFF, 0⟩
    let w := work.setFace 0 { work.face 0 with window := [e] }
    let held := { work with safe := { SafeSt.init with gate := [g] }, raw := 2000 }
    let busy := golden
    let idle := golden.setVf 0 1 VfSt.empty
    let rel := { idle with safe := { SafeSt.init with goldReleased := true } }
    let ran := idle.setFlag Reg.GOLD_STATUS 49 true
    ((w.face 0).window.find? (fun x => x.seq == e.seq && x.started) = some e ∧ w.gateNext 0 e = some g) ∧
    (held.safe.gate = [g] ∧ g.since + 2000 ≤ held.raw ∧ held.job g.job = some job ∧ g.app < 256 ∧ job.latch < 65536) ∧
    (∀ s ∈ [busy, idle], s.flag Reg.GOLD_CTRL 63 = true ∧ s.safe.goldReleased = false ∧ s.flag Reg.GOLD_STATUS 49 = false ∧
      s.goldDeadline ≤ s.raw + 1000 * s.fld Reg.GOLD_CTRL 31 16 ∧ s.goldSuspended = false ∧ s.flag Reg.GOLD_CTRL 62 = true ∧ s.defers < 2) ∧
    busy.goldBusy = true ∧ idle.goldBusy = false ∧
    (rel.safe.goldReleased = true ∧ rel.flag Reg.GOLD_STATUS 49 = false ∧ rel.cover ≠ [] ∧
      ∀ f ∈ rel.cover, (rel.face f).slot = some 63 ∧ rel.slotTest 63 = true) ∧
    (ran.flag Reg.GOLD_STATUS 49 = true ∧ (∀ j ∈ ran.goldJobs, ran.jobRuns j.1 = false) ∧
      (∀ j ∈ ran.goldJobs, goldMatches [] (ran.goldEntries j.1) = true) ∧ ran.raw ≤ ran.goldDeadline) ∧
    (let s := { idle with raw := 10000001 }
     s.flag Reg.GOLD_CTRL 63 = true ∧ s.goldSuspended = false ∧ s.goldDeadline < s.raw ∧ s.safe.inj = none) := by decide +kernel

theorem witness_HbmController :
    let e : Entry := { Entry.of .tile with seq := 7 }
    let s := work.setFace 0 { work.face 0 with window := [e] }
    ((s.face 0).window.find? fun x => x.seq == e.seq) = some e ∧ soundB s = true ∧ s.flag (Reg.FACE_EXC 0) 63 = false := by
  decide +kernel

theorem witness_PaceAndPerturbation :
    let arb := State.reset.setFlag Reg.ARB_CTRL 0 true
    let up := (clean (cst 3))
    let pert := (((State.reset.setFld Reg.SEC_DBGSTAT 31 30 2).setFld Reg.PERT_CHSEL 11 0 0x000))
    (arb.flag Reg.ARB_CTRL 0 = true ∧ (23#5).toNat < 24 ∧ max 1 (arb.fld Reg.ARB_CTRL 31 16) < 70000 ∧ arb.flag Reg.ARB_STARVE 23 = false) ∧
    State.reset.gateDown = true ∧
    (let s := { up with safe := { up.safe with boardOpen := true } }
     s.gateDown = false ∧ isBoard (boardBase + 0xFFFFFF) = true ∧ isBoard (boardBase + 0xFFFFFF + 1 - 1) = true ∧
       s.unscrubbed (boardBase + 0xFFFFFF) 1 = false) ∧
    State.reset.pertAllowed = false ∧ (7#3) ≠ 3 ∧
    (let on := fun (s : State) (d : BitVec 3) => decide (d = 7 ∨ ((s.cstate = 2 ∨ s.cstate = 3) ∧ s.fld Reg.SEC_PSTATE 31 29 < 3 ∧
       (d = 6 ∨ ((s.face d.toNat).gated = false ∧ (s.face d.toNat).resetting = false))))
     (∀ d ∈ [0, 5, 6, 7], on (cst 3) d) ∧ (∀ d ∈ [0, 5, 6], ¬ on (cst 1) d) ∧ ¬ on ((cst 3).setFace 5 { FaceSt.idle with gated := true }) 5) ∧
    ((5#5).toNat < 6 ∧ 6 ≤ (6#5).toNat ∧ (arb.setFlag Reg.ARB_STARVE 23 true).flag Reg.ARB_STARVE 23 = true) ∧
    (pert.pertAllowed = true ∧ pert.flag Reg.PERT_CHSEL 12 = false ∧ pertChannel (pert.fld Reg.PERT_CHSEL 11 0) = true) := by decide +kernel

/-- A shareable set of one slot and two pages for job 0, its table in buffer 2; with a sequence of 256 tokens in the slot. -/
def kvPool : PoolRec := { table := 2, off := 0, stride := 8, slots := 1, perSeq := 2, pages := 2, shareable := true, pools := [5] }
def kvSets : List PoolRec := [kvPool, { kvPool with shareable := false, off := 64 }]
def kvJob : State :=
  (({ loaded.setJob 0 (some { job with img := { img with pools := kvSets } }) with bufs := bufs }.kvLoad 0 kvPool).kvLoad 0 { kvPool with off := 64 })
def kvSeq (rows : Nat) : State :=
  kvJob.setKv 0 0 { KvSet.empty with seqs := [⟨0, List.replicate 256 7, [0, 0], [some 1, none]⟩], copy := [(0, 1)], written := [(1, rows)] }
    |>.storeNat (boardBase) 4 1

theorem witness_KvServiceSequences :
    ((kvJob.kvRec 0 1).map (fun p => (p.slots, p.shareable, p.pages, p.perSeq)) = some (1, false, 2, 2) ∧ kvJob.jobRuns 0 = false ∧
      (∀ q ∈ (kvJob.kvSet 0 1).seqs, q.slot ≠ 0) ∧ (∀ x ∈ [0, 1], x ∈ (kvJob.kvSet 0 1).free 2) ∧ [0, 1].Nodup) ∧ (2 < [0, 1, 0].length) ∧
    ((kvSeq 0).kvSet 0 0).seqs.find? (fun q => q.slot == 0) = some ⟨0, List.replicate 256 7, [0, 0], [some 1, none]⟩ ∧
    (∃ jb, (kvSeq 0).job 0 = some jb ∧ (∀ p ∈ jb.img.pools.zipIdx, (kvSeq 0).kvIntact 0 p.2 p.1 = true) ∧
      ∃ p ∈ jb.img.pools.zipIdx, ((kvSeq 0).storeNat boardBase 4 2).kvIntact 0 p.2 p.1 = false) ∧
    (soundB ((kvSeq 0).storeNat boardBase 4 2) = true ∧ ((kvSeq 0).storeNat boardBase 4 2).jobRuns 0 = false) := by
  refine ⟨by decide +kernel, by decide +kernel, by decide +kernel, ⟨_, rfl, by decide +kernel, by decide +kernel⟩, by decide +kernel⟩
theorem witness_KvServiceSequences_insert :
    (∀ rows ∈ [2 ^ 256 - 2, 2 ^ 256 - 1], let s := kvSeq rows
      s.job 0 = some { job with img := { img with pools := kvSets } } ∧ s.kvRec 0 0 = some kvPool ∧ kvPool.shareable = true ∧
      s.kvPages 0 kvSets = [(0, 0, 0)] ∧ s.kvFull 0 0 kvPool 0 0 = decide (rows = 2 ^ 256 - 1) ∧
      (s.kvSet 0 0).filled kvPool.pools.length 1 = decide (rows = 2 ^ 256 - 1) ∧
      (∀ p ∈ kvSets.zipIdx, s.kvIntact 0 p.2 p.1 = true)) ∧ 256 ≤ (List.replicate 256 7).length ∧
    (kvLookup ((kvSeq 0).kvSet 0 0).nodes 0 (kvHash 0 (pageToks (List.replicate 256 7) 0)) (pageToks (List.replicate 256 7) 0)).1 = none := by
  decide +kernel
/-! ## Eflet, time, the edge -/

/-- Two devices on one chain of both ports; port 0 and port 1 enabled and, if asked, up. -/
def linked (up : Bool) : State :=
  let s := ((sems.setFld Reg.EFL_TOPO 5 4 1).setFld Reg.EFL_TOPO 7 6 2)
  (List.range 2).foldl (fun s n => (s.setFlag (Reg.EFL_CTRL n) 0 true).setFlag (Reg.EFL_STATUS n) 0 up) s
/-- Window 63 on the Board's first two pages for job 0, with these OPEN, CLOSING, ACCESS and SRC bits. -/
def windowed (opened closing access src : Nat) : State :=
  (((linked true).setFace 0 FaceSt.idle).wr (Reg.WINA 63) (BitVec.ofNat 64 (opened * 2 ^ 63 + closing * 2 ^ 62 + access * 2 ^ 60 + 255 * 2 ^ 48 +
    boardBase))).wr (Reg.WINB 63) (BitVec.ofNat 64 (src * 2 ^ 60 + 2 ^ 59 + 1 * 2 ^ 56 + 15 * 2 ^ 52 + 0x2000))

theorem witness_EfletLinksAndWindows :
    let s := linked true
    let d := linked false
    let late := (d.setFlag (Reg.EFL_STATUS 1) 3 true)
    let fits := ((windowed 0 0 0 15).setFld (Reg.WINA 63) 61 56 0x30).setFld (Reg.WINA 63) 47 12 0x4000000
    let none' := ((windowed 0 0 0 15).setFld (Reg.WINA 63) 61 56 0x31).setFld (Reg.WINA 63) 47 12 0x4000000
    (d.flag (Reg.EFL_CTRL 0) 0 = true ∧ d.flag (Reg.EFL_STATUS 0) 4 = false ∧ d.eflUp 0 = false ∧ d.eflPeer 0 = some 1 ∧ 1 + 1 = d.eflDevs ∧
      2 = d.eflTopo ∧ d.eflPeer 0 ≠ some 0) ∧
    (s.eflUp 1 = true ∧ frame.typ ≠ 0 ∧ frame.seq = (s.port 1).rxSeq ∧ frame.dst = s.eflMe ∧ (1#16) ≠ (s.port 1).rxSeq) ∧
    (let p := { s with efl := { EflSt.init with ports := [(1, { EflPort.idle with naksOut := 8 })] } }
     p.eflUp 1 = true ∧ 8 ≤ (p.port 1).naksOut) ∧
    (let p := { s with efl := { EflSt.init with ports := [(1, { EflPort.idle with unacked := [frame] })] }, raw := 4000 }
     p.eflUp 1 = true ∧ (p.port 1).unacked ≠ [] ∧ (p.port 1).since + 4000 ≤ p.raw) ∧
    (let p := { late with raw := 1000000 }
     p.flag (Reg.EFL_STATUS 1) 3 = true ∧ (p.port 1).retrainAt + 1000000 ≤ p.raw) ∧
    ((windowed 0 0 0 15).flag (Reg.WINA 63) 63 = false ∧ (windowed 0 0 0 15).flag (Reg.WINA 63) 62 = false ∧ fits.winOpenErr 63 = 0 ∧
      none'.winOpenErr 63 = 2) ∧
    ((windowed 1 0 0 15).flag (Reg.WINA 63) 63 = true ∧ winaFields boardBase = winaFields ((windowed 1 0 0 15).rd (Reg.WINA 63)).toNat ∧
      winaFields 0 ≠ winaFields ((windowed 1 0 0 15).rd (Reg.WINA 63)).toNat) ∧
    ((windowed 0 1 0 15).flag (Reg.WINA 63) 62 = true ∧ (windowed 0 1 0 15).eflOpenPieces 63 = false) := by decide +kernel

/-- Port 1 forwards to port 0 where that is up and its buffer has room; a port is enabled and not down; a ring rejects eight NAKs. -/
theorem witness_EfletLinksAndWindows_forward :
    let s := linked true
    let d := s.setFlag (Reg.EFL_STATUS 0) 0 false
    (s.eflUp 1 = true ∧ frame.typ ≠ 0 ∧ frame.seq = (s.port 1).rxSeq ∧ (3 : Nat) ≠ s.eflMe ∧ s.eflRoom 0 1 = true) ∧
    (d.eflUp 1 = true ∧ d.eflRoom 0 1 = false) ∧
    (let p := { s with efl := { EflSt.init with ports := [(1, { EflPort.idle with naksIn := 8 })] } }
     p.eflUp 1 = true ∧ 8 ≤ (p.port 1).naksIn) ∧
    (s.flag (Reg.EFL_CTRL 1) 0 = true ∧ s.flag (Reg.EFL_STATUS 1) 4 = false) ∧
    (({ frame with typ := 0 } : EflFrame).typ = 0 ∧ s.flag (Reg.EFL_CTRL 1) 0 = true ∧ State.reset.flag (Reg.EFL_CTRL 1) 0 = false) := by
  decide +kernel

/-- A frame that names window 63, in front of port 1; and the requester's side of a transfer. -/
def arrived (access : Nat) (x : EflFrame) : State :=
  let s := windowed 1 0 access 15
  { s with efl := { s.efl with ports := [(1, { EflPort.idle with inbox := [x] })] } }
/-- The MOV of window entry 7 of Face 0 has a transfer with these pieces and this flight. -/
def moving (x : EflFrame) (y : EflXfer) (fl : List EflFlight) : State :=
  let e : Entry := { Entry.of .mover with seq := 7, started := true }
  let s := ((linked true).setFld (Reg.EFL_CREDIT 1) 7 0 254).setFld (Reg.SCHED_PARTB 0) 47 32 0xFFFF
  { s.setFace 0 { s.face 0 with window := [e] } with
    efl := { s.efl with ports := [(1, { EflPort.idle with inbox := [x] })], xfers := [y], flights := fl } }
/-- A put of one piece to device 1, not started. -/
def put : EflXfer :=
  { face := 0, seq := 7, put := true, dev := 1, waiting := [(peerKey 1, 64)], started := 1, unanswered := 0, win := 0, gen := 0, inc := 0,
    base := peerKey 1, dst := none, src := none, issued := [] }
/-- A flight of that MOV with tag 9. -/
def flight (typ : Nat) : EflFlight := { tag := 9, port := 1, part := 0, face := 0, seq := 7, typ := typ, off := 0, key := boardBase }

theorem witness_EfletTransfers :
    let x : EflFrame := { frame with win := 63, gen := 255, src := 3, data := [1, 2] }
    (∀ a ∈ [1, 2], let s := arrived a x
      (s.port 1).inbox = [x] ∧ x.typ = 1 ∧ x.last = true ∧ s.eflRoom 1 1 = true ∧ s.efl.accepted = [] ∧ s.winCheck x 0 64 = (if a = 1 then 0 else 2) ∧
      ∀ g < 6, (s.face g).running = false) ∧
    (∀ a ∈ [1, 2], let s := arrived a { x with typ := 5 }
      s.eflRoom 1 1 = true ∧ s.winCheck { x with typ := 5 } 0 0 = (if a = 1 then 0 else 2)) ∧
    (∀ a ∈ [1, 2], let y := { x with typ := 2, data := [] }
      let s := arrived a y
      s.eflRoom 1 (framesOf y y.offset (s.load (s.winBase y.win + y.offset) (64 * y.plen))).length = true ∧ s.eflRoom 1 1 = true ∧
        s.winCheck y 1 (64 * y.plen) = (if a = 2 then 0 else 2)) ∧
    (let s := moving frame put []
     s.pieceThrough put = 1 ∧ s.xferOf 0 7 = some put ∧ ((s.face 0).window.find? (fun y => y.seq == 7)).isSome = true ∧
       s.eflRoom 1 ((64 + 511) / 512) = true ∧ Map.get 0 s.efl.used 8 < s.creditPool (s.partOf 0) 1 ∧ 0 < s.fld (Reg.EFL_CREDIT 1) 7 0) ∧
    (∀ y ∈ [{ put with waiting := [], unanswered := 2 }, { put with waiting := [], unanswered := 1 }],
      let a := { frame with typ := 4, tag := 9 }
      let s := moving a y [flight 1]
      (s.port 1).inbox = [a] ∧ s.flightOf 1 9 = some (flight 1) ∧ a.status = 0 ∧ s.fld (Reg.EFL_CREDIT 1) 7 0 < 255 ∧ s.xferOf 0 7 = some y) ∧
    (let s := moving { frame with typ := 4, tag := 9 } { put with waiting := [], inc := 1 } [flight 5]
     s.flightOf 1 9 = some (flight 5)) ∧
    (let a := { frame with typ := 3, tag := 9, data := [1, 2] }
     let s := moving a { put with put := false, waiting := [], unanswered := 1 } [flight 2]
     (s.port 1).inbox = [a] ∧ s.flightOf 1 9 = some (flight 2) ∧ a.status = 0 ∧ a.last = true) ∧
    (∀ t ∈ [3, 4], let a := { frame with typ := t, tag := 9, status := 4 }
      let s := moving a { put with waiting := [], unanswered := 1 } [flight 1]
      a.status ≠ 0 ∧ s.flightOf 1 9 = some (flight 1) ∧ (s.xferOf 0 7).isSome = true ∧ soundB s = true ∧ s.flag (Reg.FACE_EXC 0) 63 = false ∧
        ((s.face 0).window.find? fun e => e.seq == 7).isSome = true) := by decide +kernel

/-- A put piece of more than one frame: its first frame, and its last once the first has been accepted; a get piece's data before its last. -/
theorem witness_EfletTransfers_frames :
    let x : EflFrame := { frame with win := 63, gen := 255, src := 3, data := [1, 2] }
    (let s := arrived 1 { x with last := false }
     (s.port 1).inbox = [{ x with last := false }] ∧ x.typ = 1 ∧ ∀ p ∈ s.efl.accepted, ¬ (p.port = 1 ∧ p.src = x.src ∧ p.tag = x.tag)) ∧
    (let s := { arrived 1 x with efl := { (arrived 1 x).efl with accepted := [⟨1, 3, x.tag, 63, 2⟩] } }
     (s.port 1).inbox = [x] ∧ s.eflRoom 1 1 = true ∧
       (s.efl.accepted.find? fun p => p.port == 1 && p.src == x.src && p.tag == x.tag) = some ⟨1, 3, x.tag, 63, 2⟩) ∧
    (let a := { frame with typ := 3, tag := 9, data := [1, 2], last := false }
     let s := moving a { put with put := false, waiting := [], unanswered := 1 } [flight 2]
     (s.port 1).inbox = [a] ∧ s.flightOf 1 9 = some (flight 2) ∧ a.status = 0 ∧ a.last = false ∧ (flight 2).face < 6) := by decide +kernel

/-- PPS_STATUS.STATE `k`. -/
def ppsIn (k : Nat) : State := State.reset.setFld Reg.PPS_STATUS 31 30 k

theorem witness_TimeOfDayIsSetAndRead :
    let owned := State.reset.setFld Reg.PPS_CTRL 1 0 2
    let neg := { State.reset with time := { TimeSt.init with stepH := 0xFFFFFFFF } }
    let req := State.reset.store timeMbox [1]
    (owned.rateOwned = true ∧ State.reset.rateOwned = false) ∧ State.reset.stepOk (signed 64 (1 + 0 * 2 ^ 32) * 2 ^ 16 + 0) = true ∧
    neg.stepOk (signed 64 (0 + neg.time.stepH * 2 ^ 32) * 2 ^ 16 + neg.time.stepF) = false ∧
    req.loadNat timeMbox 4 ≠ req.loadNat (timeMbox + 24) 4 ∧ State.reset.loadNat timeMbox 4 = State.reset.loadNat (timeMbox + 24) 4 ∧
    (99 < 100 ∧ 100 ≤ 100 ∧ (ppsIn 2).ppsState = 2 ∧ 1 ≠ (ppsIn 2).fld Reg.PPS_STATUS 29 29 ∧ 0 = (ppsIn 2).fld Reg.PPS_STATUS 29 29 ∧
      (ppsIn 2).time.pps.first = true) ∧
    (let s := { ppsIn 2 with time := { TimeSt.init with pps := { TimeSt.init.pps with first := false } }, raw := 998999999 }
     s.ppsState = 2 ∧ s.time.pps.first = false ∧ aboutSecond ((s.raw : Int) - s.time.pps.last) = false) ∧
    (∀ k ∈ [0, 1, 2], let s := (ppsIn 3).setFld Reg.PPS_CTRL 3 2 k
      s.ppsState ≠ 2 ∧ s.fld Reg.PPS_CTRL 3 2 = k) ∧
    (let s := { ppsIn 2 with raw := 1500000000 }
     s.ppsState = 2 ∧ s.time.pps.last + 1500000000 ≤ s.raw) ∧ State.reset.flag Reg.TIME_STATUS 31 = false := by decide +kernel
/-- Stream 3 of camera port 11 takes virtual channel 15, data type 0x2A; its descriptor at the Board's first bytes is OWNed or not. -/
def camera (own lines : Nat) : State :=
  let s := (State.reset.setFlag (Reg.CSI_CTRL 11) 0 true).setFlag (Reg.CSI_STATUS 11) 0 true
  let s := (s.setFld (Reg.CSI_STREAM 11 3) 15 0 (2 ^ 15 + 15 * 256 + 0x2A)).wr (Reg.CSI_RBASE 11 3) (BitVec.ofNat 64 boardBase)
  s.store boardBase (leBytes 8 (boardBase + 0x1000) ++ leBytes 4 64 ++ leBytes 2 4 ++ leBytes 2 lines ++ leBytes 8 (boardBase + 0x2000) ++ leBytes 1 own)
/-- The open frame of that descriptor, after `met` lines. -/
def openFrame (met : Nat) : CsiFrame :=
  { desc := boardBase, data := boardBase + 0x1000, stride := 64, lineBytes := 4, maxLines := 1, status := boardBase + 0x2000, vc := 15, dt := 0x2A,
    fnum := 0, seq := 1, met := met, lines := met, dropped := 0, crcErr := 0, flags := 0, startAt := 0, lastAt := 0 }
def filming (met : Nat) : State := (camera 1 1).setCsi 11 3 { CsiSt.idle with frame := some (openFrame met) }
/-- The gate is up. -/
def gateUp (s : State) : State := let s := s.setFld Reg.HFLT_STATUS 31 29 3; { s with safe := { s.safe with boardOpen := true } }

theorem witness_CamerasAndEthernetControls :
    ((camera 1 1).csiRuns 11 = true ∧ (camera 1 1).csiOn 11 14 = [] ∧ (camera 1 1).csiOn 11 15 = [3] ∧ ((camera 1 1).csi 11 3).frame = none) ∧
    (let s := camera 0 1
     s.loadNat (devKey (s.csiDesc 11 3) + 24) 1 % 2 = 0) ∧
    (let s := camera 1 0
     s.csiOn 11 15 = [3] ∧ s.served (s.csiDesc 11 3) 32 = true ∧ s.served (s.csiDesc 11 3 + 24) 1 = true ∧
       s.loadNat (devKey (s.csiDesc 11 3) + 24) 1 % 2 = 1 ∧ s.csiRead (s.csiDesc 11 3) 15 0 1 = none) ∧
    (let s := camera 1 1
     s.csiOn 11 15 = [3] ∧ (s.csi 11 3).frame = none ∧ s.served (s.csiDesc 11 3) 32 = true ∧
       s.loadNat (devKey (s.csiDesc 11 3) + 24) 1 % 2 = 1 ∧ (s.csiRead (s.csiDesc 11 3) 15 0 1).isSome = true) ∧
    (∀ k ∈ [0, 1], let s := filming k
      s.csiRuns 11 = true ∧ ((s.csiOn 11 15).find? fun f => s.fld (Reg.CSI_STREAM 11 f) 5 0 == 0x2A) = some 3 ∧
        ((s.csiOn 11 15).find? fun f => s.fld (Reg.CSI_STREAM 11 f) 5 0 == 0x2B) = none ∧ (s.csi 11 3).frame = some (openFrame k) ∧
        ((openFrame k).met < (openFrame k).maxLines ↔ k = 0) ∧ s.served ((openFrame k).data + k * 64) 4 = true) ∧
    (let s := { filming 0 with raw := 10 ^ 12 }
     let g := openFrame 0
     let next := s.fld (Reg.CSI_RBASE 11 3) 47 5 * 32 + 32 * ((s.fld (Reg.CSI_RCTL 11 3) 10 8 + 1) % (s.fld (Reg.CSI_RCTL 11 3) 2 0 + 1))
     s.csiOn 11 15 = [3] ∧ s.served g.status 16 = true ∧ s.served (g.desc + 24) 1 = true ∧ devKey (g.desc + 24) < devKey g.status ∧
       devKey (next + 24) < devKey g.status ∧ (∀ k < 4, k ≠ 3 → (s.csi 11 k).frame = none) ∧
       g.lastAt + 1000 * s.fld (Reg.CSI_CTRL 11) 63 32 ≤ s.raw) := by decide +kernel
theorem witness_CamerasAndEthernetControls_ring :
    (State.reset.flag (Reg.CSI_STREAM 11 3) 15 = false ∧ (camera 1 1).flag (Reg.CSI_STREAM 11 3) 15 = true ∧
      (camera 1 1).flag (Reg.CSI_CTRL 11) 0 = true) ∧
    (∀ t ∈ [1200, 6000], ∀ y ∈ [0, 1000], let s := { gateUp (sems.setCsi 11 3 { CsiSt.idle with unstamped := [(boardBase, 1000, y)] }) with raw := 6000 }
      (s.csi 11 3).unstamped = [(boardBase, 1000, y)] ∧ 256 ≤ (256#9).toNat ∧ s.flag (Reg.EVT_SRC 256) 48 = true ∧ s.gateDown = false ∧
        s.stampOk 1000 t = true ∧ (y = 0 ∨ s.stampOk y t = true) ∧ s.served (boardBase + 16) 16 = true ∧ s.stampOk 1000 1199 = false) ∧
    (let s := camera 0 1
     let d := s.csiDesc 11 3
     let key := devKey (0x7F80020000 + 15 * 0x400 + 0x28)
     (∀ i ≤ s.fld (Reg.CSI_RCTL 11 3) 2 0, s.loadNat (devKey (s.fld (Reg.CSI_RBASE 11 3) 47 5 * 32 + 32 * i) + 24) 1 % 2 = 0) ∧
       (s.csi 11 3).frame = none ∧ s.pipReads (s.loadNat (devKey d) 8) (s.loadNat (devKey d + 8) 4 * s.loadNat (devKey d + 14) 2) = false ∧
       s.served d 32 = true ∧ s.served (d + 24) 1 = true ∧ s.pwr.vhomeOut = false ∧ devKey (d + 24) < key) ∧
    (∃ i ≤ (camera 1 1).fld (Reg.CSI_RCTL 11 3) 2 0,
      (camera 1 1).loadNat (devKey ((camera 1 1).fld (Reg.CSI_RBASE 11 3) 47 5 * 32 + 32 * i) + 24) 1 % 2 = 1) ∧
    (let x : EthStamp := ⟨1, 2, 3, 4⟩
     let s := State.reset.setEth 3 { EthSt.idle with tx := [x], txLatch := some x, rx := [x] }
     (s.eth 3).tx = [x] ∧ (s.eth 3).txLatch = some x ∧ (s.eth 3).rx = [x] ∧ (s.eth 3).rxLatch = none ∧ (State.reset.eth 3).tx = []) ∧
    (let s := State.reset.setFlag (Reg.ETH_CTRL 3) 0 true
     s.flag (Reg.ETH_CTRL 3) 0 = true ∧ s.gclNext 3 ≤ s.raw ∧ s.flag (Reg.ETH_STATUS 3) 0 ≠ true) := by decide +kernel

/-- Port 3 with its link up; queue 7 has a ring at the Board whose head frame has this length and launch time, and so has ring 7, with
buffers of 60 bytes. -/
def ether (len timed lt : Nat) : State :=
  let s := (State.reset.setFlag (Reg.ETH_CTRL 3) 0 true).setFlag (Reg.ETH_STATUS 3) 0 true
  let s := (s.wr (Reg.ETH_TXBASE 3 7) (BitVec.ofNat 64 boardBase)).wr (Reg.ETH_TXCTL 3 7) (BitVec.ofNat 64 (2 ^ 63 + 65536))
  let s := (s.wr (Reg.ETH_RXBASE 3 7) (BitVec.ofNat 64 (boardBase + 0x1000))).wr (Reg.ETH_RXCTL 3 7) (BitVec.ofNat 64 (2 ^ 63 + 65536))
  (s.store boardBase (leBytes 8 0 ++ leBytes 2 len ++ leBytes 2 timed ++ leBytes 4 lt)).store (boardBase + 0x1000) (leBytes 8 (boardBase + 0x2000) ++ leBytes 2 60)
/-- A received frame of `n` bytes with a VLAN tag of priority 7. -/
def tagged (n : Nat) : List (BitVec 8) := List.replicate 12 0 ++ [0x81, 0, 0xE0, 0] ++ List.replicate (n - 16) 0
/-- A pause frame. -/
def pause : List (BitVec 8) := [0x01, 0x80, 0xC2, 0, 0, 0x01, 0, 0, 0, 0, 0, 0, 0x88, 0x08, 0, 0x01, 0xFF, 0xFF] ++ List.replicate 42 0

theorem witness_EthernetSendsAndReceives :
    (∀ l ∈ [59, 60, 9212, 9213], let s := ether l 0 0
      let c := Reg.ETH_TXCTL 3 7
      let a := s.ringAt (Reg.ETH_TXBASE 3 7) c (s.fld c 15 0)
      s.ethUp 3 = true ∧ s.flag c 63 = true ∧ 0 < s.ringLevel c ∧ (s.eth 3).holds 7 = false ∧ s.served a 32 = true ∧
        s.devNat (a + 8) 2 = l ∧ s.ethGate 3 7 l = true ∧ s.served (a + 24) 1 = true ∧ (s.eth 3).sending = none ∧
        (∀ k < 8, (s.eth 3).holds k = false) ∧ s.ethShaped 3 7 = false ∧ (s.eth 3).paused ≤ s.raw ∧ (s.eth 3).creditAt ≤ s.raw) ∧
    ((ether 60 1 100000).launchDue 100000 = false ∧ (ether 60 1 0).launchDue 0 = true ∧
      bitOf (((ether 60 1 9).setEth 3 { EthSt.idle with headLate := 128 }).eth 3).headLate 7 = true) ∧
    (let s := { (ether 60 0 0).setEth 3 { EthSt.idle with gcl := [(0x7F, 1000)], cycle := some 0 } with raw := 10 }
     s.ethGate 3 7 60 = false) ∧
    (let s := { (ether 60 0 0).setEth 3 { EthSt.idle with released := [(7, 6)], sending := some (7, 5) } with raw := 9 }
     let a := s.ringAt (Reg.ETH_TXBASE 3 7) (Reg.ETH_TXCTL 3 7) 0
     ((s.ethSettle 3).eth 3).sending = some (7, 5) ∧ 5 ≤ (9#64).toNat ∧ (9#64).toNat ≤ s.raw ∧ 0 < Map.get 0 (s.eth 3).released 7 ∧
       Map.get 0 (s.eth 3).released 7 ≤ 2 ^ 64 ∧ s.served (a + 16) 8 = true ∧ s.served (a + 24) 1 = true ∧ devKey (a + 24) = devKey (a + 16) + 8 ∧
       (ptpOf (List.replicate 60 0)).isNone = true ∧ (ptpOf (List.replicate 12 0 ++ [0x88, 0xF7, 0] ++ List.replicate 45 0)).isSome = true) ∧
    (∀ n ∈ [60, 61], let s := ether 60 0 0
      let h := Reg.ETH_RXCTL 3 7
      let d := s.ringAt (Reg.ETH_RXBASE 3 7) h (s.fld h 15 0)
      ((tagged n).getD 12 0 == 0x81 && (tagged n).getD 13 0 == 0) = true ∧ ((tagged n).getD 14 0).toNat / 32 = 7 ∧ (tagged n).length = n ∧
      pauseOf (tagged n) = none ∧
      ((s.flag h 63 = true ∧ 0 < s.ringLevel h ∧ s.served d 32 = true ∧ (tagged n).length ≤ s.devNat (d + 8) 2 ∧
        s.served (s.devNat d 8) (tagged n).length = true) ↔ n = 60) ∧
      s.served (d + 16) 16 = true ∧ devKey (d + 16) + 16 ≤ devKey (s.devNat d 8)) ∧
    ((tagged 59).length < 60 ∧ pause.length = 60 ∧ pauseOf pause = some 65535) := by decide +kernel

/-- The PCIe link is up as an endpoint, BAR0 on the Board. -/
def hosted : State :=
  ((State.reset.setFlag Reg.PCIE_CTRL 0 true).setFlag Reg.PCIE_STATUS 0 true).wr Reg.PCIE_BAR0WIN (BitVec.ofNat 64 (2 ^ 63 + boardBase))

theorem witness_PcieServesTheHost :
    (let s := (State.reset.setFlag Reg.PCIE_CTRL 0 true).setFld Reg.PCIE_CTRL 6 2 0x1F
     s.flag Reg.PCIE_CTRL 0 = true ∧ s.flag Reg.PCIE_STATUS 0 = false ∧ (4#3).toNat ≤ min 4 (s.fld Reg.PCIE_CTRL 4 2) ∧
       (3#2).toNat ≤ s.fld Reg.PCIE_CTRL 6 5) ∧
    (hosted.flag Reg.PCIE_STATUS 0 = true ∧ hosted.pcieEnd = true ∧ hosted.pcieTarget false 0xFFFFFF 1 = some (boardBase + 0xFFFFFF) ∧
      hosted.served (boardBase + 0xFFFFFF) 1 = true ∧ (hosted.pcieTarget true 0x1FFF 1).isSome = true ∧ hosted.pcieTarget true 0x2000 1 = none ∧
      hosted.pcieTarget false 0x1000000 1 = none) ∧
    (let s := { hosted with place := { hosted.place with scrub := [(boardBase, 64, 16)] } }
     s.pcieEnd = true ∧ s.pcieTarget false 0 1 = some boardBase ∧ s.served boardBase 1 = false) ∧
    (let s := { hosted with edge := { hosted.edge with root := true } }
     s.pcieRoot = true ∧ s.pcieEnd = false ∧ s.served boardBase 64 = true ∧ s.served 0x7F00300000 4 = false) := by decide +kernel

/-! ## Field buses, motion, control, the solver -/

/-- Controller 15 is on; its three transmit buffers are in these states; BUS and ERR2:0 fields of CAN_STATUS. -/
def canAt (x0 x1 x2 bus : Nat) : State :=
  ((((State.reset.setFlag (Reg.CAN_CTRL 3) 0 true).setTx 3 0 x0).setTx 3 1 x1).setTx 3 2 x2).setFld (Reg.CAN_STATUS 3) 5 4 bus
/-- Filter 31 of controller 3 takes every key of format 0 into queue 1, of 64-byte slots. -/
def canFilt (slots : Nat) : State :=
  let s := (canAt 0 0 0 0).wr (Reg.CAN_FCFG 3 31) (BitVec.ofNat 64 (2 ^ 31 + 7 * 2 ^ 28 + 2 ^ 27))
  (s.wr (Reg.CAN_RXCFG 3 1) (BitVec.ofNat 64 (2 ^ 31))).setFld (Reg.CAN_RXHEAD 3 1) 15 0 slots
/-- 10BASE-T1S port 1 is on, with this queue and this fill of its ring. -/
def t1sAt (q : List T1sItem) (late rel : Bool) (slots : Nat) : State :=
  let s := (State.reset.setFlag (Reg.T1S_CTRL 1) 31 true).setFld (Reg.T1S_RXHEAD 1) 15 0 slots
  { s with field := { s.field with t1s := [(1, ⟨q, late, rel, 0⟩)] } }
/-- A frame of a 10BASE-T1S queue. -/
def t1sItem : T1sItem := ⟨0, []⟩

theorem witness_FieldBusesQueueTheirFrames_sends :
    ((canAt 1 2 0 0).txState 3 0 = 1 ∧ bitOf (7#3).toNat 0 = true ∧ bitOf (7#3).toNat 1 = true ∧ (canAt 1 2 0 0).txState 3 1 = 2) ∧
    ((canAt 0 0 0 2).fld (Reg.CAN_STATUS 3) 5 4 = 2 ∧ (canAt 0 0 0 0).fld (Reg.CAN_STATUS 3) 5 4 ≠ 2) ∧
    (let s := State.reset.wr (Reg.BLD_REC 31 0) (BitVec.ofNat 64 (1 + 3 * 256 + 2 * 65536))
     s.bldOwns 3 2 = true ∧ (canAt 0 0 1 0).bldOwns 3 2 = false ∧ (canAt 0 0 1 0).txState 3 2 = 1 ∧ (canAt 0 0 6 0).txState 3 2 ≠ 1 ∧
       (canAt 0 0 6 0).txState 3 2 ≠ 2) ∧
    (∀ bufno ∈ [true, false], let s := (canAt 0 0 1 0).setFlag (Reg.CAN_CTRL 3) 3 bufno
     s.flag (Reg.CAN_CTRL 3) 0 = true ∧ s.fld (Reg.CAN_STATUS 3) 5 4 ≠ 2 ∧ s.canMode 3 = 0 ∧ (∀ x < 3, s.txState 3 x ≠ 2) ∧ s.txState 3 2 = 1 ∧
       s.launchDue (s.canLt 3 2) = true ∧ (∀ x < 2, s.txState 3 x ≠ 1) ∧ s.flag (Reg.CAN_CTRL 3) 3 = bufno) ∧
    (let s := canAt 1 0 1 0
     s.arbKey 3 0 = s.arbKey 3 2 ∧ bitOf ((s.setCan 3 ⟨0, 4, false⟩).can 3).late 2 = true ∧
       ((s.setFld (Reg.CAN_CTRL 3) 2 1 1).canMode 3 = 1) ∧ (s.setFld (Reg.CAN_CTRL 3) 2 1 2).canMode 3 = 2) ∧
    (let s := canAt 0 0 2 0
     s.txState 3 2 = 2 ∧ bitOf (s.can 3).abort 2 = false ∧ bitOf (s.fld (Reg.CAN_CTRL 3) 7 5) 2 = false ∧
       bitOf ((s.setCan 3 ⟨4, 0, false⟩).can 3).abort 2 = true ∧ bitOf ((s.setFld (Reg.CAN_CTRL 3) 7 5 4).fld (Reg.CAN_CTRL 3) 7 5) 2 = true) ∧
    (let s := (canAt 0 0 2 2).setFlag (Reg.CAN_CTRL 3) 4 true
     s.fld (Reg.CAN_STATUS 3) 5 4 = 2 ∧ s.flag (Reg.CAN_CTRL 3) 4 = true) := by decide +kernel
theorem witness_FieldBusesQueueTheirFrames_receives :
    (let h := canHeader 5 0 0
     (canAt 0 0 0 0).flag (Reg.CAN_CTRL 3) 0 = true ∧ (canAt 0 0 0 0).fld (Reg.CAN_STATUS 3) 5 4 ≠ 2 ∧ (canAt 0 0 0 0).canMode 3 = 0 ∧
       (canAt 0 0 0 0).canFilter 3 h.1 (h.2.1 % 4) = none ∧ (canFilt 0).canFilter 3 h.1 (h.2.1 % 4) = some 31 ∧
       (canFilt 0).flag (Reg.CAN_FCFG 3 31) 25 = false ∧ (∀ n ∈ [0, 8], canLenOk 0 n = true) ∧ canLenOk 0 9 = false ∧
       ((canFilt 0).setFld (Reg.CAN_FCFG 3 31) 26 25 3).flag (Reg.CAN_FCFG 3 31) 25 = true ∧
       ((canAt 0 0 0 0).setFld (Reg.CAN_STATUS 3) 23 16 128).fld (Reg.CAN_STATUS 3) 23 16 = 128) ∧
    (∀ n ∈ [63, 64], (canFilt n).fld (Reg.CAN_FCFG 3 31) 27 27 = 1 ∧ (canFilt n).flag (Reg.CAN_RXCFG 3 1) 31 = true ∧
        ((canFilt n).slotsUsed (Reg.CAN_RXHEAD 3 1) (Reg.CAN_RXTAIL 3 1) < 64 ↔ n = 63)) ∧ slotPayload ((canFilt 63).fld (Reg.CAN_RXCFG 3 1) 1 0) = 64 ∧
    (let s := (canFilt 0).wr (Reg.BLD_MAP 0 0) (BitVec.ofNat 64 (127 + 2 * 256 + 6 * 65536))
     s.mapFields (s.fld (Reg.CAN_FCFG 3 31) 24 20) = [(127, 2, 6)] ∧ 7 < 6 + 2 ∧ 6 + 2 ≤ 8) ∧
    ((canFilt 64).fld (Reg.CAN_RXHEAD 3 1) 15 0 = 64 ∧ signed 16 (64 + 65536 - (0#32).toNat % 65536) = 64 ∧
      signed 16 (64 + 65536 - (64#32).toNat % 65536) = 0 ∧ signed 16 (64 + 65536 - (65#32).toNat % 65536) = -1) := by decide +kernel
theorem witness_FieldBusesQueueTheirFrames_t1s :
    (((t1sAt (List.replicate 15 t1sItem) false false 0).t1s 1).queue.length < 16 ∧
      16 ≤ ((t1sAt (List.replicate 16 t1sItem) false false 0).t1s 1).queue.length) ∧
    (∀ late ∈ [true, false], let s := t1sAt [t1sItem] late false 0
     s.flag (Reg.T1S_CTRL 1) 31 = true ∧ (s.t1s 1).queue = [t1sItem] ∧ (s.t1s 1).released = false ∧ (s.t1s 1).late = late ∧
       s.launchDue t1sItem.lt = true ∧ s.launchDue 100000 = false) ∧
    (let s := t1sAt (List.replicate 16 t1sItem) false true 0
     (s.t1s 1).released = true ∧ (s.t1s 1).queue.length ≤ 16) ∧
    (let s := (t1sAt [] false false 63).setFld (Reg.T1S_MAC0 1) 31 0 2
     s.t1sMine 1 [4] = false ∧ s.t1sMine 1 [1] = true ∧ s.slotsUsed (Reg.T1S_RXHEAD 1) (Reg.T1S_RXTAIL 1) < 64 ∧
       64 ≤ (t1sAt [] false false 64).slotsUsed (Reg.T1S_RXHEAD 1) (Reg.T1S_RXTAIL 1)) := by decide +kernel

/-- Encoder port 15 with EN, and quadrature or SSI. -/
def encAt (quad : Bool) : State := (State.reset.setFlag (Reg.ENC_CFG 15) 31 true).setFlag (Reg.ENC_CFG 15) 30 quad
/-- The permit is off, or toggles, after this cause, and the device has its key. -/
def permitAt (on : Bool) (cause : Nat) : State :=
  ((State.reset.setFlag Reg.SEC_LIFE 29 true).setFlag Reg.PERMIT_STATUS 31 on).setFld Reg.PERMIT_STATUS 30 28 cause

theorem witness_FieldPinsAndMotionPermit :
    ((encAt true).encOn 15 = true ∧ (encAt true).encQuad 15 = true ∧ (encAt false).encQuad 15 = false ∧ State.reset.encOn 15 = false) ∧
    (∀ n ∈ [40, 41], bitOf (2 ^ 31 + n * 2 ^ 22 + 8 * 2 ^ 16 + 2 ^ 10 + 7) 31 = true ∧
      (encOk (2 ^ 31 + n * 2 ^ 22 + 8 * 2 ^ 16 + 2 ^ 10 + 7) = true ↔ n = 40)) ∧ bitOf (2 ^ 31 - 1) 31 = false ∧
    (State.reset.flag (Reg.GFP_CFG 15) 28 = false ∧ ∀ k ∈ [0, 1, 2, 3], ((State.reset.setFld (Reg.GFP_CFG 15) 27 26 k).setFlag (Reg.GFP_CFG 15) 25 true).flag (Reg.GFP_CFG 15) 28 ≠ true) ∧
    ((∀ i ∈ [23, 24, 27, 28], isPermitPin i = true ↔ i = 24 ∨ i = 27) ∧ (State.reset.setFld Reg.FB_CTRL 1 0 3).flag Reg.FB_CTRL 0 = true ∧
      (State.reset.setFld Reg.FB_CTRL 1 0 3).flag Reg.FB_CTRL 1 = true ∧ (State.reset.setFld Reg.FB_CTRL 1 0 0).flag Reg.FB_CTRL 1 = false) ∧
    (∀ k ∈ [0, 1, 2, 3, 6], (permitAt false k).permit.armedAt = none ∧ ((permitAt false k).permitArmable = true ↔ k ∈ [1, 2, 6])) ∧
    (let s := { permitAt false 1 with permit := { (permitAt false 1).permit with keyAt := some 5 }, raw := 1000005 }
     s.permitArmable = true ∧ s.permit.armedAt = none ∧ s.permit.keyAt = some 5 ∧ s.raw ≤ 5 + 1000000) ∧
    (let s := { permitAt false 1 with permit := { (permitAt false 1).permit with armedAt := some 5 }, raw := 10000005 }
     s.permit.armedAt = some 5 ∧ 5 + 10000000 ≤ s.raw) ∧
    (let s := { permitAt true 0 with raw := 100000000 }
     s.flag Reg.PERMIT_STATUS 31 = true ∧ s.permit.kick0 + s.kickNs ≤ s.raw ∧ s.permit.kick1 + s.kickNs ≤ s.raw) := by decide +kernel

/-- A word of a loop program. -/
def ceW (op rd ra ci sel : Nat) : Nat := op * 2 ^ 27 + rd * 2 ^ 23 + ra * 2 ^ 19 + ci * 2 ^ 10 + sel
/-- An execution of loop 63 at its first word. -/
def ceX (ended : Bool) : CeExec :=
  { loop := 63, tick := 0, cap := ⟨[], [], [], []⟩, pc := 0, regs := [(1, 5)], acc := 0, words := [], output := 7, sat := false, ended := ended }
/-- The engine is on; loop 63's program stands at word 0 and is one OUT and an END unless given; loop 63 executes, or not. -/
def ceOn (ws : List Nat) (x : Option CeExec) : State :=
  let s := (ws.zipIdx.foldl (fun s p => s.wr (Reg.CE_PMEM p.2) (BitVec.ofNat 64 p.1)) State.reset).setFlag Reg.CE_CTRL 0 true
  { s with ce := { s.ce with run := x, outReg := [(63, 63 * 2 ^ 26 + 10)] } }

theorem witness_LoopInstructionResults :
    (∀ p ∈ loopRows, let s := ceOn [ceW p.2.1 2 1 0 0] (some (ceX false))
      s.ce.run = some (ceX false) ∧ (ceX false).ended = false ∧ (s.ceWord (ceX false).pc).op = p.2.1) ∧
    ∀ op ∈ [0x01, 0x02, 0x0B, 0x06, 0x07, 0x09, 0x0C, 0x0D, 0x0E], let s := ceOn [ceW op 2 1 0 0] (some (ceX false))
      s.ce.run = some (ceX false) ∧ (s.ceWord (ceX false).pc).op = op := by decide +kernel

/-- Loop 63 may be enabled: OUT to PWM channel 23, then END; OUTDLY 10, no group. -/
def looped : State := (ceOn [ceW 0x0D 0 1 0 23, ceW 0x0E 0 0 0 0] none).wr (Reg.CE_LOOP_OUT 63) (BitVec.ofNat 64 (63 * 2 ^ 26 + 10))

theorem witness_TicksAndExecutions :
    (let s := looped
     s.flag Reg.CE_CTRL 0 = true ∧ s.tickAt s.ce.next ≤ s.raw ∧ s.hold.cause = none ∧ s.holding = false) ∧
    (let s := { looped with hold := { looped.hold with cause := some 7 } }
     s.hold.cause = some 7) ∧
    (∀ rel ∈ [true, false], let s := looped.setFlag Reg.HOLD_STATUS 31 true
     let s := { s with hold := { s.hold with release := rel, again := true } }
     s.holding = true ∧ s.hold.cause = none ∧ s.hold.release = rel) ∧
    (let d : CeDue := ⟨63, 0, ⟨[], [], [], []⟩⟩
     let s := { looped with ce := { looped.ce with queue := [d] } }
     s.ce.run = none ∧ s.ce.queue = [d] ∧ s.flag Reg.CE_CTRL 0 = true) ∧
    (∀ b ∈ [true, false], ((looped.setFlag (Reg.CE_LOOP_CFG 63) 30 b).flag (Reg.CE_LOOP_CFG 63) 30 = b)) ∧
    (∀ r ∈ [800, 801], let s := { ceOn [] (some (ceX true)) with raw := r }
      s.ce.run = some (ceX true) ∧ (ceX true).ended = true ∧ (s.raw + 200 ≤ (ceX true).tick + 100 * s.outDly 63 ↔ r = 800)) ∧
    (let p : CeApply := ⟨1000, 0, false, [63]⟩
     let q : CeApply := ⟨1000, 0, true, [0, 63]⟩
     let s := { ceOn [] none with raw := 994 }
     let a := { s with ce := { s.ce with applies := [p, { p with due := 1001 }] } }
     let g := { s with ce := { s.ce with applies := [q], outReg := [(0, 2 ^ 25), (63, 2 ^ 25)], undo := [⟨0, 0, []⟩] } }
     p ∈ a.ce.applies ∧ (∀ x ∈ a.ce.applies, x = p ∨ p.due < x.due) ∧ g.ce.applies = [q] ∧ p.due ≤ s.raw + 6 ∧ q.loops ≠ [] ∧
       (∀ n ∈ q.loops, n < 64) ∧ a.ceOnTime 63 0 = none ∧ bitOf (Map.get 0 g.ce.outReg 0) 25 = true ∧ (g.ceOnTime 0 0).isSome = true ∧
       (({ a with ce := { a.ce with undo := [⟨63, 0, []⟩] } } : State).ceOnTime 63 0).isSome = true) := by decide +kernel

theorem witness_ControlEngineRegisterWrites :
    (bitOf (2 ^ 31) 31 = true ∧ looped.flag (Reg.CE_LOOP_CFG 63) 31 = false ∧ looped.ceCheck 63 (2 ^ 31) = 0 ∧
      (ceOn [] none).ceCheck 63 (2 ^ 31) ≠ 0 ∧ (∀ i ∈ [32, 31, 33], i % 64 = 32 ↔ i = 32)) ∧
    (State.reset.spPending = false ∧ (State.reset.setFlag Reg.CE_SPCOMMIT 31 true).spPending = true) ∧
    ((looped.setFlag (Reg.CE_LOOP_CFG 63) 31 true).progOwner 1 = some 63 ∧ (looped.setFlag (Reg.CE_LOOP_CFG 63) 31 true).progOwner 2 = none) ∧
    (State.reset.holding = false ∧ State.reset.hold.cause = none) ∧ (State.reset.setFld Reg.HOLD_CTRL 31 16 0).fld Reg.HOLD_CTRL 31 16 = 0 ∧
    (let s := { State.reset.setFld Reg.HOLD_CTRL 31 16 1 with raw := 1000000 }
     s.fld Reg.HOLD_CTRL 31 16 ≠ 0 ∧ s.hold.swapAt + 1000000 * s.fld Reg.HOLD_CTRL 31 16 ≤ s.raw ∧
       ({ s with raw := 999999 } : State).raw < s.hold.swapAt + 1000000 * s.fld Reg.HOLD_CTRL 31 16) ∧
    ((looped.setFlag (Reg.CE_LOOP_CFG 63) 31 true).flag (Reg.CE_LOOP_CFG 63) 31 = true ∧ bitOf 0 31 = false) ∧
    (let s := State.reset.setFlag Reg.HOLD_STATUS 31 true
     s.holding = true ∧ s.hold.swapped = false ∧ ({ s with hold := { s.hold with swapped := true } } : State).hold.swapped = true) ∧
    (let s := ((ceOn [ceW 0x01 0 0 0 15, ceW 0x0D 0 0 0 0, ceW 0x0E 0 0 0 0] none).setFlag (Reg.CE_LOOP_CFG 0) 31 true).setFlag (Reg.ENC_CFG 15) 31 true
     let s := { s.setFld (Reg.ENC_CFG 15) 15 10 24 with ce := { s.ce with next := 1 }, raw := 1000 }
     let e := s.enc 15
     s.encOn 15 = true ∧ s.encQuad 15 = false ∧ e.busy = false ∧ e.word = none ∧ s.flag Reg.CE_CTRL 0 = true ∧ 15 ∈ s.portsAt s.ce.next ∧
       s.tickAt s.ce.next ≤ s.raw + 1000 * s.fld (Reg.ENC_CFG 15) 15 10 ∧ s.raw < s.tickAt s.ce.next) ∧
    (let s := { State.reset with field := { State.reset.field with enc := [(15, { EncSt.idle with busy := true })] } }
     (s.enc 15).busy = true) := by decide +kernel
/-- A solve descriptor at Home address 0 (kind 0, one unknown), with this many unknowns. -/
def solveAt (n : Nat) : State :=
  let s := State.reset.store homeSpace (leBytes 4 (n * 65536) ++ leBytes 4 0 ++ leBytes 4 0x100 ++ leBytes 2 1 ++ leBytes 2 1 ++ leBytes 4 0x200 ++
    leBytes 4 0x300 ++ leBytes 4 0 ++ leBytes 4 0x400 ++ leBytes 4 1 ++ leBytes 4 0x500 ++ leBytes 4 0x600 ++ leBytes 4 0x700)
  s.store (homeSpace + 48) (leBytes 4 0x3F800000 ++ leBytes 4 0x40000000 ++ leBytes 12 0 ++ leBytes 4 0x800)
/-- A solve of one unknown that has found 1.0; its map entry writes setpoint 255. -/
def solved : SolvRun :=
  { n := 1, out := 0x600, map := 0x700, status := some 0x800, deadline := 0, auto := true, strict := false, code := 0, flags := 0, reg := 0, iters := 0,
    xs := [0x3F800000], aborted := false }

theorem witness_SolverRunsAndCommits :
    (State.reset.setFlag Reg.SOLV_STATUS 31 true).flag Reg.SOLV_STATUS 31 = true ∧
    ((solveAt 1).flag Reg.SOLV_STATUS 31 = false ∧ (solveAt 1).fld Reg.SOLV_DESC 31 7 * 128 = 0 ∧ (solveAt 1).solvDescOk 0 = true ∧
      (solveAt 0).solvDescOk 0 = false ∧ 0xC0000 ≤ (State.reset.setFld Reg.SOLV_DESC 31 7 0x1800).fld Reg.SOLV_DESC 31 7 * 128) ∧
    (let s := { State.reset with solv := { State.reset.solv with run := some solved } }
     s.solv.run = some solved ∧ solved.status = some 0x800 ∧ solved.aborted = false ∧ solved.flags < 256 ∧ solved.code < 256 ∧
       solved.xs.length = solved.n ∧ solved.xs ≠ [] ∧ (0x800 + 16 ≤ solved.out ∨ solved.out + 4 * solved.n ≤ 0x800)) ∧
    ({ solved with aborted := true } : SolvRun).aborted = true ∧ ({ solved with xs := [] } : SolvRun).xs = [] ∧
    State.reset.solv.run = none ∧
    (let s := { State.reset.store (homeSpace + 0x700) (leBytes 4 0x3F000000 ++ [255, 1]) with solv := { State.reset.solv with commit := some (0, solved) } }
     let p := { s.setFlag Reg.CE_SPCOMMIT 31 true with raw := 25000 }
     s.solv.commit = some (0, solved) ∧ s.spPending = false ∧ solved.n = 1 ∧ solved.flags < 8 ∧
       s.solvSetpoint solved 0 = some (255, 0x40000000, false) ∧ p.solv.commit = some (0, solved) ∧ p.spPending = true ∧ 0 + 25000 ≤ p.raw ∧
       ({ p with raw := 24999 } : State).raw < 0 + 25000) := by decide +kernel
/-! ## Security, debug, power -/

theorem keccakRound_length (a : List Word) (rc : Nat) : (keccakRound a rc).length = 25 := by
  unfold keccakRound; simp only [List.length_mapIdx, List.length_map, List.length_range]

theorem keccakF_length {a : List Word} (h : a.length = 25) : (keccakF a).length = 25 := by
  have go : ∀ (l : List Nat) (b : List Word), b.length = 25 → (l.foldl keccakRound b).length = 25 := by
    intro l
    induction l with
    | nil => intro b h; exact h
    | cons x l ih => intro b _; rw [List.foldl_cons]; exact ih _ (keccakRound_length b x)
  unfold keccakF; exact go _ _ h

theorem absorbed_length (l : List (List (BitVec 8))) (b : List Word) (h : b.length = 25) : (l.foldl keccakAbsorb b).length = 25 := by
  induction l generalizing b with
  | nil => exact h
  | cons x l ih =>
    rw [List.foldl_cons]; apply ih; unfold keccakAbsorb; apply keccakF_length
    rw [List.length_map, List.length_range]

theorem leBytes_length (n v : Nat) : (leBytes n v).length = n := by
  induction n generalizing v with
  | zero => rfl
  | succ n ih => simp only [leBytes, List.length_cons, ih]

theorem flatMap_lanes (l : List Word) : (l.flatMap fun w => leBytes 8 w.toNat).length = 8 * l.length := by
  induction l with
  | nil => rfl
  | cons x l ih => rw [List.flatMap_cons, List.length_append, leBytes_length, ih, List.length_cons]; omega

theorem deviceId_length (e : Nat) : (deviceId e).length = 32 := by
  unfold deviceId shake256 sponge
  rw [List.length_take]
  show min 32 (keccakSqueeze _ 1).length = 32
  unfold keccakSqueeze
  rw [List.length_append, flatMap_lanes, List.length_take, absorbed_length _ _ (List.length_replicate ..)]
  omega

/-- Home firmware runs, a request of KIND `kind` and LEN `len` waits, and K_PUF is `puf`. -/
def mailed (kind len : Nat) (puf : Bool) (body : List (BitVec 8)) : State :=
  let s := (State.reset.setFld Reg.CPH_STATUS 31 24 0x10).setFld Reg.CPH_MBOX 15 0 1
  { s with sec := { s.sec with kPuf := puf } }.store reqBuf (leBytes 2 kind ++ leBytes 2 0 ++ leBytes 4 len ++ body)

theorem witness_KeysAttestationAndLifecycleRecords :
    ((mailed 1 32 true []).sec.kPuf = true ∧ (mailed 1 32 false []).sec.kPuf = false ∧ (State.reset.setFld Reg.SEC_LIFE 31 30 2).life = 2) ∧
    (∀ n ∈ [31, 32], (mailed 1 n true []).homeRuns = true ∧ (mailed 1 n true []).mailWaits = true ∧ (mailed 1 n true []).mailKind = 1 ∧
      (mailed 1 n true []).mailLen = n) ∧ (List.replicate 32 (0#8)).length = 32 ∧
    (∀ n ∈ [30047, 30048], (mailed 3 n true []).homeRuns = true ∧ (mailed 3 n true []).mailWaits = true ∧ (mailed 3 n true []).mailKind = 3 ∧
      (mailed 3 n true []).mailLen = n) ∧
    (let r : LifeRec := ⟨(mailed 3 30048 true []).load (reqBuf + 8) 256, 2, []⟩
     recSound r = false) := by decide +kernel

theorem load_store_below (s : State) (k a n : Nat) (bs : List (BitVec 8)) (h : a + n ≤ k) : (s.store k bs).load a n = s.load a n := by
  unfold State.load
  apply List.map_congr_left
  intro i hi
  have : i < n := List.mem_range.mp hi
  rw [State.loadByte_store]; unfold byteOver; rw [if_neg (by omega)]

/-- Fields of a PROVISIONED record for VERSION 1, EPOCH 0. -/
def lifeHead : List (BitVec 8) := leBytes 4 0x31434C4E ++ leBytes 4 1 ++ leBytes 4 1 ++ leBytes 4 0
/-- Such a record of this device. -/
def lifeBytes : List (BitVec 8) := lifeHead ++ deviceId 0 ++ List.replicate 208 0
/-- The device, blank, with that record in its request buffer. -/
def lifeReq : State := ((mailed 3 30048 true []).setFlag Reg.SEC_LIFE 28 true).store (reqBuf + 8) lifeBytes

theorem lifeHead_length : lifeHead.length = 16 := rfl

theorem lifeReq_bytes : lifeReq.load (reqBuf + 8) 256 = lifeBytes := by
  have hl : lifeBytes.length = 256 := by
    unfold lifeBytes
    rw [List.length_append, List.length_append, deviceId_length, List.length_replicate, lifeHead_length]
  rw [← hl]; exact State.load_store _ _ _

theorem lifeReq_mail : lifeReq.mailLen = 30048 ∧ lifeReq.mailKind = 3 ∧ lifeReq.homeRuns = true ∧ lifeReq.mailWaits = true ∧ lifeReq.life = 0 ∧
    lifeReq.epoch = 0 ∧ lifeReq.flash.version = 0 ∧ lifeReq.flag Reg.SEC_LIFE 28 = true := by
  have h4 : lifeReq.load (reqBuf + 4) 4 = ((mailed 3 30048 true []).setFlag Reg.SEC_LIFE 28 true).load (reqBuf + 4) 4 :=
    load_store_below _ _ _ _ _ (Nat.le_refl _)
  have h2 : lifeReq.load reqBuf 2 = ((mailed 3 30048 true []).setFlag Reg.SEC_LIFE 28 true).load reqBuf 2 :=
    load_store_below _ _ _ _ _ (by decide)
  unfold State.mailLen State.mailKind State.loadNat
  rw [h4, h2]
  decide +kernel

/-- Bytes of the record inside its first 16. -/
theorem life_field (o n : Nat) (h : o + n ≤ 16) : (lifeBytes.drop o).take n = (lifeHead.drop o).take n := by
  unfold lifeBytes
  rw [List.append_assoc, List.drop_append_of_le_length (by rw [lifeHead_length]; omega),
    List.take_append_of_le_length (by rw [List.length_drop, lifeHead_length]; omega)]

theorem life_id : (lifeBytes.drop 16).take 32 = deviceId 0 := by
  unfold lifeBytes
  have h : (lifeHead ++ deviceId 0).length = 48 := by rw [List.length_append, lifeHead_length, deviceId_length]
  rw [List.drop_append_of_le_length (by omega), List.take_append_of_le_length (by rw [List.length_drop, h])]
  show ((lifeHead ++ deviceId 0).drop lifeHead.length).take 32 = _
  rw [List.drop_left]
  exact List.take_of_length_le (by rw [deviceId_length])

theorem life_rest : (lifeBytes.drop 120).take 136 = List.replicate 136 0 := by
  unfold lifeBytes
  have h : (lifeHead ++ deviceId 0).length = 48 := by rw [List.length_append, lifeHead_length, deviceId_length]
  rw [List.drop_append, List.drop_of_length_le (by omega), h, List.nil_append]
  decide

/-- A record that the device takes: the last clause of `KeysAttestationAndLifecycleRecords`. -/
theorem witness_LifecycleRecordTaken :
    let r : LifeRec := { bytes := lifeReq.load (reqBuf + 8) 256, signer := 2, locks := [] }
    lifeReq.mailLen = 30048 ∧ lifeReq.mailKind = 3 ∧ lifeReq.homeRuns = true ∧ lifeReq.mailWaits = true ∧ recSound r = true ∧
      transitionOk lifeReq.life (recState r) = true ∧ signerAllowed (recState r) 2 = true ∧
      leNat ((r.bytes.drop 8).take 4) = lifeReq.flash.version + 1 ∧ leNat ((r.bytes.drop 12).take 4) = lifeReq.epoch % 2 ^ 32 ∧
      (r.bytes.drop 16).take 32 = deviceId (leNat ((r.bytes.drop 12).take 4)) ∧ lifeReq.flag Reg.SEC_LIFE 28 = true := by
  obtain ⟨h1, h2, h3, h4, h5, h6, h7, h8⟩ := lifeReq_mail
  have hn : lifeBytes.length = 256 := by
    unfold lifeBytes
    rw [List.length_append, List.length_append, deviceId_length, List.length_replicate, lifeHead_length]
  intro r
  have hb : r.bytes = lifeBytes := lifeReq_bytes
  have hs : recState r = 1 := by
    unfold recState recField; rw [hb, life_field 4 1 (by decide)]; decide
  refine ⟨h1, h2, h3, h4, ?_, ?_, ?_, ?_, ?_, ?_, h8⟩
  · unfold recSound recField
    rw [hs, hb, hn, life_field 0 4 (by decide), life_field 5 1 (by decide), life_rest]
    decide +kernel
  · rw [h5, hs]; decide
  · rw [hs]; decide
  · rw [hb, h7, life_field 8 4 (by decide)]; decide
  · rw [hb, h6, life_field 12 4 (by decide)]; decide
  · rw [hb, life_id, life_field 12 4 (by decide)]
    exact congrArg deviceId (by decide)

/-- Debug at a level, in lifecycle state `life`. -/
def debugAt (level life : Nat) : State := (State.reset.setFld Reg.SEC_DBGSTAT 31 30 level).setFld Reg.SEC_LIFE 31 30 life
/-- A verification of level `lvl` runs. -/
def verifyAt (lvl life : Nat) (stale : Bool) : State :=
  let s := (debugAt 0 life).setFlag Reg.SEC_DBGSTAT 29 true
  { s with sec := { s.sec with verifying := some lvl, stale := stale } }

theorem witness_DebugUnlocksHaltsAndRelocks :
    (∀ l ∈ [0, 1, 2, 3], ∀ v ∈ [1, 2], levelReachable (debugAt 0 v).life l = true ↔ l + v ≤ 3) ∧
    (let s := State.reset.setFlag Reg.SEC_DBGSTAT 28 true
     s.flag Reg.SEC_DBGSTAT 28 = true ∧ State.reset.flag Reg.SEC_DBGSTAT 28 = false ∧ State.reset.flag Reg.SEC_DBGSTAT 29 = false ∧
       (State.reset.setFlag Reg.SEC_DBGSTAT 29 true).flag Reg.SEC_DBGSTAT 28 = false) ∧
    (∀ l ∈ [1, 2, 3], ∀ v ∈ [0, 1, 2, 3], ∀ b ∈ [true, false], (verifyAt l v b).flag Reg.SEC_DBGSTAT 29 = true ∧ (verifyAt l v b).debugLevel ≠ 3 ∧
      (verifyAt l v b).sec.verifying = some l ∧ (verifyAt l v b).sec.stale = b ∧ (verifyAt l v b).life = v) ∧
    (unlockSigner 2 1 1 = true ∧ unlockSigner 2 1 2 = false ∧ unlockSigner 3 3 2 = true ∧ unlockSigner 3 3 1 = false) ∧
    (({ State.reset with sec := { State.reset.sec with d3 := true } } : State).sec.d3 = true ∧ State.reset.sec.d3 = false ∧
      (debugAt 3 0).debugLevel = 3 ∧ (debugAt 2 0).debugLevel = 2 ∧ (debugAt 1 0).debugLevel < 2) ∧
    (∀ u ∈ [0, 5, 6, 9, 10, 11], (debugAt 2 0).unitInReach u = true ∧ Map.get 0 (debugAt 2 0).sec.halts u = 0 ∧
      ((debugAt 2 0).setFld Reg.SEC_PSTATE 31 29 3).unitInReach u = decide (10 ≤ u) ∧ (debugAt 2 0).flag Reg.PERMIT_STATUS 31 = false ∧
      ((debugAt 2 0).setFlag Reg.PERMIT_STATUS 31 true).flag Reg.PERMIT_STATUS 31 = true) ∧
    (let s := { debugAt 3 0 with sec := { State.reset.sec with halts := [(9, 1), (10, 1)] } }
     2 ≤ s.debugLevel ∧ s.unitInReach 9 = true ∧ 0 < Map.get 0 s.sec.halts 9 ∧ (s.debugLevel ≠ 3 ∨ 9 < 10)) := by decide +kernel

/-- The compute side in state `c`, its transition of Home firmware under way or not, under a debug hold or not. -/
def computeIn (c : Nat) (busy hold : Bool) (p : Nat) : State :=
  (((State.reset.setFld Reg.HFLT_STATUS 31 29 c).setFlag Reg.SEC_PSTATE 25 busy).setFlag Reg.SEC_DBGSTAT 24 hold).setFld Reg.SEC_PSTATE 31 29 p
/-- Power's own fields. -/
def powered (s : State) (toHome toUlnal : Option Nat) (pg : Bool) : State :=
  { s with pwr := { s.pwr with toHome := toHome, toUlnal := toUlnal, pgCore := pg, coreEn := true } }

theorem witness_PowerStatesLimitsAndSupplies :
    ((computeIn 3 true false 0).flag Reg.SEC_PSTATE 25 = true ∧ (computeIn 3 false false 0).flag Reg.SEC_PSTATE 25 = false ∧ (2#3).toNat ≤ 2 ∧
      (1#3) ≠ 0 ∧ (5#3) ≠ 3 ∧ (7#3) ≠ 4) ∧
    (∀ p ∈ [0, 3, 4], ∀ v ∈ [3, 4], ∀ c ∈ [3, 4], ∀ h ∈ [true, false], (computeIn c false h p).flag Reg.SEC_DBGSTAT 24 = h ∧
      (computeIn c false h p).cstate = c ∧ (computeIn c false h p).flag Reg.SEC_PSTATE 25 = false ∧ (v ≠ (computeIn c false h p).pstate ↔ v ≠ p) ∧
      (3 ≤ (computeIn c false h p).pstate ↔ p ≠ 0)) ∧
    (∀ p ∈ [3, 4], (powered State.reset (some p) none true).pwr.toHome = some p ∧ ∀ f < 6, ((powered State.reset (some p) none true).face f).running = false) ∧
    (∀ p ∈ [3, 4], let s := powered (computeIn 0 true false p) (some 0) none true
      s.pwr.toHome = some 0 ∧ s.pwr.pgCore = true ∧ s.pstate = p) ∧
    (∀ p ∈ [0, 1, 2], let s := powered State.reset none (some p) true
      s.pwr.toHome = none ∧ s.pwr.toUlnal = some p ∧ ∀ f < 6, (s.face f).running = false) ∧
    (2#3).toNat ≤ 2 := by decide +kernel

theorem witness_PowerMailAndLimits :
    (∀ n ∈ [0, 1], let s := mailed 2 n true [3]
      s.homeRuns = true ∧ s.mailWaits = true ∧ s.mailKind = 2 ∧ s.mailLen = n ∧ s.loadNat (reqBuf + 8) 1 = 3 ∧ s.flag Reg.SEC_PSTATE 25 = false ∧
        s.pstate < 3 ∧ s.flag Reg.SEC_DBGSTAT 24 = false ∧ s.cstate ≠ 4) ∧
    (let s := { computeIn 3 false false 0 with raw := 1000000 }
     s.cstate = 3 ∧ s.pwr.tickAt + 1000000 ≤ s.raw ∧ (s.vcore ≠ 0 ∨ (s.pwr.history || decide (1000 ≤ s.pwr.ticks)) = false)) ∧
    (let s := State.reset.setFld Reg.PWR_STATUS 47 32 700
     s.vcore ≠ 0 ∧ (min 900 s.topMv).toNat ≠ s.pwr.voutMv) ∧
    (let s := { (powered State.reset none none false) with raw := 10000000 }
     s.pwr.coreEn = true ∧ s.pwr.pgCore = false ∧ s.pwr.coreEnAt + 10000000 ≤ s.raw ∧ s.pwr.acting < 512 ∧ bitOf s.pwr.acting 1 = false ∧
       (permitAt true 0).flag Reg.PERMIT_STATUS 31 = true) := by decide +kernel

theorem witness_PowerLimits : ∃ x y z : Int, tjMax ≤ x ∧ x < tjMax + 5 ∧ tjMax + 5 ≤ y ∧ tjMax + 10 ≤ z :=
  ⟨tjMax, tjMax + 5, tjMax + 10, by omega, by omega, by omega, by omega⟩

/-- A transition that waits for a Face that runs or for CORE's PG, states to and from which no request goes, and the supply conditions. -/
theorem witness_PowerTransitionsWait :
    (∀ p ∈ [3, 4], let s := powered work (some p) none true
      s.pwr.toHome = some p ∧ p ≠ 0 ∧ ∃ f < 6, (s.face f).running = true) ∧
    (powered State.reset (some 0) none false).pwr.pgCore = false ∧
    (∀ p ∈ [1, 2], let s := powered (State.reset.setFace 5 { FaceSt.idle with running := true, gated := true }) none (some p) true
      s.pwr.toHome = none ∧ s.pwr.toUlnal = some p ∧ ((∃ f ∈ s.gatedIn p, (s.face f).running = true) ↔ 5 ∈ s.gatedIn p)) ∧
    (let s := State.reset.setFlag Reg.SEC_PSTATE 25 false
     (0 : BitVec 3).toNat = s.pstate ∧ s.pstate < 3) ∧
    (let s := { powered State.reset none none false with raw := 10000000 }
     s.pwr.coreEn = true ∧ s.pwr.pgCore = false ∧ s.pwr.coreEnAt + 10000000 ≤ s.raw) ∧ (2#4).toNat < 3 ∧
    (let s := State.reset.setFld Reg.SCHED_CTRL 2 1 1
     s.acctFull = true ∧ s.pwr.vhomeOut = false ∧ shareBy 0 ≠ []) := by decide +kernel

/-- Energy to share: job 15 has gained since the last fold. -/
theorem witness_EnergyIsShared :
    let k := (shareBy 0).headD 0
    let s := (State.reset.setFld Reg.SCHED_CTRL 2 1 1).storeNat (devKey (0x7F80020000 + 15 * 0x400 + k)) 8 5
    shareBy 0 ≠ [] ∧ s.acctFull = true ∧ s.pwr.vhomeOut = false ∧ (List.range 16).foldl (fun m j => m + s.shareGain 0 j) 0 ≠ 0 := by decide +kernel
/-! ## Events, the command port, resets, register writes -/

/-- The gate is up. -/
def up : State :=
  let s := State.reset.setFld Reg.HFLT_STATUS 31 29 3
  { s with safe := { s.safe with boardOpen := true } }

theorem witness_EventsMailboxAndHostControls :
    (256 ≤ (256#64).toNat % 512 ∧ (255#64).toNat % 512 < 256 ∧ (767#64).toNat % 512 = 255) ∧ (up.gateDown = false ∧ State.reset.gateDown = true) ∧
    (∀ k ∈ [0, 127, 128, 255, 256, 511], let s := { up.wr (Reg.EVT_SRC k) 0xFFFF000000000000 with raised := [k] }
      s.raised = [k] ∧ k < 512 ∧ s.flag (Reg.EVT_SRC k) 63 = true ∧ s.flag (Reg.EVT_SRC k) 62 = true ∧ s.flag (Reg.EVT_SRC k) 61 = true ∧
        s.flag (Reg.EVT_SRC k) 60 = true ∧ s.cstate = 3) ∧
    (let s := State.reset.setFlag (Reg.EVH_HOST 3) 31 true
     s.flag (Reg.EVH_HOST ((255 - 128) / 32)) (255 % 32) = true ∧ s.cstate ≠ 3) ∧
    (List.replicate 65520 (0#8)).length ≤ 65520 ∧ (State.reset.setFlag Reg.CPH_CFG 0 true).flag Reg.CPH_CFG 0 = true ∧
    (State.reset.setFlag Reg.CPH_CFG 0 false).flag Reg.CPH_CFG 0 = false ∧ (permitAt true 0).flag Reg.PERMIT_STATUS 31 = true ∧ (permitAt false 0).flag Reg.PERMIT_STATUS 31 = false ∧
    (up.cstate = 3 ∧ State.reset.cstate ≠ 3) := by decide +kernel

/-- A request of the command port, with its CRC. -/
def ask (op tag space flags len addr : Nat) (data : List (BitVec 8)) : List (BitVec 8) :=
  let b := [BitVec.ofNat 8 op, BitVec.ofNat 8 tag, BitVec.ofNat 8 space, BitVec.ofNat 8 flags] ++ leBytes 2 len ++ leBytes 2 0 ++ leBytes 8 addr ++ data
  b ++ leBytes 4 (crc32c b)
/-- A device that serves the port, with a host window on the Board. -/
def serving : State :=
  let s := up.setFld Reg.CPH_STATUS 31 24 0x20
  (s.wr (Reg.CPB_WINA 0) (BitVec.ofNat 64 (2 ^ 63 + 2 ^ 62 + boardBase))).wr (Reg.CPB_WINB 0) 0x1000
/-- A sound request with this operation, space, length, address. -/
def asks (bs : List (BitVec 8)) (op space len addr : Nat) : Bool :=
  (cpParse bs).any fun r => r.crcOk && r.sound && r.op == op && r.space == space && r.len == len && r.addr == addr && decide (r.tag < 256)

/-- The CRC-32C check value of the nine digits. -/
theorem test_crc32c : crc32c (ascii "123456789") = 0xE3069283 := by decide +kernel

theorem witness_CommandPortAnswersRequests :
    (State.reset.portOn = false ∧ serving.portOn = true ∧ serving.romStage = false ∧ (State.reset.setFld Reg.CPH_STATUS 31 24 2).portOn = true ∧
      (State.reset.setFld Reg.CPH_STATUS 31 24 2).romStage = true ∧ serving.cpLast = none) ∧
    ((cpParse (listSet (ask 2 255 1 0 4 0x20000 [1, 2, 3, 4]) 16 7)).any fun r => !r.crcOk && r.op == 2) = true ∧
    ((cpParse (ask 1 255 1 0 4 0x20002 [])).any fun r => r.crcOk && !r.sound && r.op == 1) = true ∧
    asks (ask 3 255 0 0 0 0 []) 3 0 0 0 = true ∧
    (asks (ask 1 0 1 0 256 0x20F00 []) 1 1 256 0x20F00 = true ∧ ((cpParse (ask 1 0 1 0 256 0x20F00 [])).bind cpWords).isSome = true) ∧
    (asks (ask 1 0 1 0 4 0x28000 []) 1 1 4 0x28000 = true ∧ (cpParse (ask 1 0 1 0 4 0x28000 [])).bind cpWords = none) ∧
    (asks (ask 2 0 1 0 4 0x2004 [1, 2, 3, 4]) 2 1 4 0x2004 = true ∧
      (((cpParse (ask 2 0 1 0 4 0x2004 [1, 2, 3, 4])).bind cpWords).any fun ws => ws.any fun w => !w.write) = true) ∧
    (asks (ask 2 0 1 0 4 0x27FFC [1, 2, 3, 4]) 2 1 4 0x27FFC = true ∧
      ((cpParse (ask 2 0 1 0 4 0x27FFC [1, 2, 3, 4])).any fun r => r.data.length == 4) = true) ∧
    ((cpParse (ask 2 9 0 1 4 boardBase [1, 2, 3, 4])).any fun r => r.flags == 1 && r.tag == 9 && r.sound && r.crcOk) = true := by decide +kernel

/-- A request sent again, after itself and after another; one cut short; a Home read and write while ROM serves the port. -/
theorem witness_CommandPortAnswersRequests_repeats :
    let again := ask 2 9 0 1 4 boardBase [1, 2, 3, 4]
    cpParse (again.take 15) = none ∧ cpParse [] = none ∧
    (∀ tag ∈ [9, 8], (cpParse again).any fun r =>
      let s := { serving with cpLast := some { tag := tag, crc := r.crc, resp := List.replicate 8 0 } }
      s.portOn && r.crcOk && r.sound && r.flags == 1 && s.cpLast.any fun l => (l.tag == r.tag && l.crc == r.crc) == (tag == 9)) ∧
    (∀ op ∈ [1, 2], (cpParse (ask op 255 1 0 4 0x20000 (if op = 2 then [1, 2, 3, 4] else []))).any fun r =>
      r.crcOk && r.sound && r.op == op && r.space == 1 && r.addr == 0x20000) := by decide +kernel

theorem witness_DeviceSpaceOfThePort :
    (∀ op ∈ [1, 2], asks (ask op 0 0 0 4 (boardBase + 0xFFC) (if op = 2 then [1, 2, 3, 4] else [])) op 0 4 (boardBase + 0xFFC) = true ∧
      ((cpParse (ask op 0 0 0 4 (boardBase + 0xFFC) (if op = 2 then [1, 2, 3, 4] else []))).any fun r =>
        serving.deviceStatus r == 0 && !isRegPage r.addr) = true) ∧
    ((cpParse (ask 1 0 0 0 4 (boardBase + 0x1000) [])).any fun r => serving.deviceStatus r == 3) = true ∧
    ((cpParse (ask 1 0 0 0 4 boardBase [])).any fun r => State.reset.deviceStatus r == 4) = true := by decide +kernel

/-- Registers that the host reads, at both ends, the doorbell, and a region that waits for its scrub; the gate open, down, and the
compute side not UP. -/
theorem witness_DeviceSpaceOfThePort_registers :
    (∀ x ∈ [(1, Reg.SYS_ID, 8), (1, Reg.TIMEM_RAW, 64), (1, Reg.TIMEM_RAW + 60, 4), (2, Reg.CPB_DOORBELL, 4)],
      (cpParse (ask x.1 0 0 0 x.2.2 x.2.1 (if x.1 = 2 then [1, 2, 3, 4] else []))).any fun r =>
        r.op == x.1 && r.sound && r.crcOk && serving.hostMay r && !serving.unscrubbed r.addr r.len && isRegPage r.addr && r.addr == x.2.1) ∧
    (serving.cstate = 3 ∧ serving.gateDown = false) ∧
    (let s := { serving with place := { serving.place with scrub := [(boardBase + 64, 64, 16)] } }
     (cpParse (ask 1 0 0 0 4 (boardBase + 124) [])).any fun r => s.hostMay r && s.unscrubbed r.addr r.len) ∧
    (State.reset.cstate ≠ 3 ∧ (State.reset.setFld Reg.HFLT_STATUS 31 29 3).gateDown = true) := by decide +kernel

theorem witness_ResetsOfTheDeviceAndOfAFace :
    ((work.face 0).running = true ∧ (work.face 1).running = false ∧ bitOf (33#6).toNat 0 = true ∧ bitOf (33#6).toNat 5 = true ∧
      bitOf (33#6).toNat 1 = false) ∧
    ((work.setFace 5 { FaceSt.idle with resetting := true }).face 5).resetting = true ∧
    (∀ b ∈ [true, false], (State.reset.setFlag Reg.SYS_CTRL 15 b).flag Reg.SYS_CTRL 15 = b) := by decide +kernel

/-- The boot is at stage `g`. -/
def staged (g : Nat) : State := State.reset.setFld Reg.CPH_STATUS 31 24 g
/-- A restart is under way. -/
def booting (opened : Bool) (g : Nat) : State :=
  let s := (staged g).setFld Reg.HFLT_STATUS 31 29 2
  { s with safe := { s.safe with boardOpen := opened, resetDue := false } }

theorem witness_ComputeSideResetsRestartsAndBoots :
    (let s := { State.reset.setFld Reg.HFLT_CTRL 23 20 2 with safe := { State.reset.safe with resetDue := true, resets := [0] } }
     let f := { s with safe := { s.safe with resets := [0, 0] } }
     s.safe.resetDue = true ∧ (s.raw :: within10 s.raw s.safe.resets).length ≤ max 1 (s.fld Reg.HFLT_CTRL 23 20) ∧
       f.safe.resetDue = true ∧ max 1 (f.fld Reg.HFLT_CTRL 23 20) < (f.raw :: within10 f.raw f.safe.resets).length) ∧
    (let s := powered ((staged 0x12).setFld Reg.HFLT_STATUS 31 29 1) none none true
     s.cstate = 1 ∧ s.releasable = true ∧ s.stage = 0x12) ∧
    ((booting false 0x12).cstate = 2 ∧ (booting false 0x12).safe.boardOpen = false ∧ (booting true 0x12).cstate = 2 ∧
      (booting true 0x12).safe.boardOpen = true ∧ (booting true 0x12).kept.reload = [] ∧ (booting true 0x12).stage = 0x12 ∧
      (booting true 0x12).safe.resetDue = false ∧ (booting true 0x12).fld Reg.CPH_STATUS 19 19 = 0 ∧
      bitOf (booting true 0x12).sec.ulnTried 1 = false ∧ (booting true 0x12).sec.ulnTried < 4) ∧
    (let s := { State.reset with safe := { State.reset.safe with jobFaults := [15] } }
     s.safe.jobFaults.contains (15#4).toNat = true ∧ (s.kept.reload.find? fun r => r.1 == (15#4).toNat) = none) ∧
    (let s := { loaded with safe := { loaded.safe with jobFaults := [0] }, kept := { loaded.kept with reload := [(0, ringImg, ringPlan)] } }
     soundB s = true ∧ s.safe.jobFaults.contains (0#4).toNat = true ∧ (s.kept.reload.find? fun r => r.1 == (0#4).toNat).isSome = true ∧
       s.jobLive (0#4).toNat = true) ∧
    (∀ g ∈ [1, 2, 3, 4, 5], (staged g).stage = g) ∧ ((staged 4).sec.locks = [] ∧ (staged 4).recordInForce = none) ∧
    ((staged 5).pickImage none none 0 = none ∧
      (let h : ImageHdr := ⟨0, false, 0, true, true, true, true, []⟩
       (staged 5).pickImage none (some h) 0 = some (1, h))) := by decide +kernel

/-- A reload of job 0 whose plan is sound, and the link of its job; a boot from STAGE0, before the compute side is released. -/
theorem witness_ComputeSideResetsRestartsAndBoots_reload :
    (let r := clean parted
     let s := { (booting true 0x12) with regs := (r.setFld Reg.HFLT_STATUS 31 29 2).regs, place := r.place,
                                         kept := { State.reset.kept with reload := [(0, ringImg, ringPlan)] } }
     let pl' : LoadPlan := { ringPlan with seed := ringPlan.seed, jstep := BitVec.ofNat 64 (Map.get 0 s.kept.jstep 0) }
     s.cstate = 2 ∧ s.safe.boardOpen = true ∧ s.kept.reload = [(0, ringImg, ringPlan)] ∧ s.job 0 = none ∧ s.loadErr ringImg pl' = none ∧
       s.loadRefused ringImg pl' = false ∧ s.planOk ringImg pl' = true ∧ hbmRegions ringImg pl' = hbmRegions ringImg ringPlan) ∧
    (let s := powered ((staged 0x12).setFld Reg.HFLT_STATUS 31 29 0) none none true
     s.cstate ≤ 1 ∧ s.releasable = true ∧ s.stage = 0x12) := by decide +kernel

theorem witness_RegisterWritesFollowTheirAccessCodes :
    (let a := BitVec.ofNat 48 (Reg.ETH_GCLBASE 3)
     (regRow? a.toNat).isSome = true ∧ isRegPage a.toNat = true ∧ a.toNat % 4096 + 8 ≤ 4096 ∧ State.reset.devWrite a.toNat 5 = none ∧
       a.toNat ≠ Reg.TIMEM_NOW0 ∧ a.toNat ≠ Reg.TIMEM_NOW1 ∧ a.toNat ≠ Reg.TIMEM_RA ∧ stampReg a.toNat = none) ∧
    (let a := 0x80050FF8#32
     (regRow? (homeSpace + a.toNat)).isSome = true ∧ 0x41000000 ≤ a.toNat ∧ homeMapped a.toNat 8 = true ∧ canBufAt a.toNat = none ∧
       State.reset.homeWrite 1 (homeSpace + a.toNat) (5 % 2 ^ 64) = none) := by decide +kernel

/-- Accesses at the ends of 16 GiB of HBM and of the Board, at the hole after the Board, and in a region that waits for its scrub; at the ends of
Home memory and of the Board view, and past them. -/
theorem witness_RegisterWritesFollowTheirAccessCodes_memories :
    let s := clean up
    (∀ x ∈ [(0, 1), (0x3FFFFFFF8, 8), (boardBase, 8), (boardBase + 0xFFFFF8, 8)], isRegPage x.1 = false ∧ s.served x.1 x.2 = true) ∧
    (∀ x ∈ [(boardBase + 0xFFFFF9, 8), (2 ^ 48 - 1, 1)], isRegPage x.1 = false ∧ s.served x.1 x.2 = false) ∧ up.served 0 8 = false ∧
    (∀ x ∈ [(0, 1), (0xFFFF8, 8)], homeMapped x.1 x.2 = true) ∧
    (∀ x ∈ [(0xFFFF9, 8), (0x100000, 1), (0x3FFFFFFF, 1), (0x40FFFFF9, 8), (0x41000000, 1), (0xFFFFFFFF, 1)], homeMapped x.1 x.2 = false) ∧
    (homeMapped 0x40000000 8 = true ∧ homeMapped 0x40FFFFF8 8 = true ∧ up.gateDown = false ∧ State.reset.gateDown = true) := by decide +kernel

/-- A debug session at D0, D1, D2, and a Face out of reach. -/
theorem witness_RegisterWritesFollowTheirAccessCodes_debug :
    ∀ f : Fin 6, (∀ l ∈ [0, 1, 2, 3], (debugAt l 0).debugLevel = l ∧ (debugAt l 0).unitInReach f = true) ∧
      ((debugAt 2 0).setFld Reg.SEC_PSTATE 31 29 3).unitInReach f = false ∧
      (debugAt 0 0).debugMay (.file f 0 127) .read = false ∧ (debugAt 1 0).debugMay (.bank f 15 0xFFF8) .read = false := by decide +kernel

/-- A read of a register, one byte of memory, and a store past the Board. -/
def answerOf (c : Instr) (s : State) : Option (Resp × Nat) :=
  match exec c s with
  | .next t => some (t.out, (t.loadByte (devKey boardBase)).toNat)
  | _ => none

theorem test_store_past_board : answerOf (.registerWrite (.core 0) (.dev 0x4000FFFFF9) (.store (List.replicate 8 1))) up = some (.busError, 0) := by
  decide +kernel
theorem test_home_board_view : answerOf (.registerWrite (.home 0) (.home 0x40000000) (.store [7])) up = some (up.out, 7) ∧
    answerOf (.registerWrite (.home 0) (.home 0x40000000) (.load 1)) State.reset = some (.computeDown, 0) := by decide +kernel
/-! ## The spec's worked examples, and single steps -/

/-- The grasp-score layer (02): MULT 0x5A827999, SHIFT 8; −9,874 gives −27, and 52,317 gives 127 and is counted. -/
theorem test_rescale_example : rescale fINT8 0x000800005A827999 .rne true 0 (Num.ofInt (-9874)) = ⟨wrap 8 (-27), false, false⟩ ∧
    rescale fINT8 0x000800005A827999 .rne true 0 (Num.ofInt 52317) = ⟨127, true, false⟩ := by decide +kernel

/-- The proprioception row (02): the scale is 0x3D42, and the stored bytes are those of the table. -/
theorem test_row_example :
    let xs := ([320, -45, 110, -640, 2, 275, -130, 500] : List Int).map fun n => rne32 (.fin (mkRat n 100))
    let s := rowDynScale xs (mkRat 15 16) 127 0 false
    s.1 = 0x3D42 ∧ xs.map (fun x => (narrowTo fINT8 .rne true 0 (x.div s.2)).code) = [0x44, 0xF6, 0x17, 0x80, 0x00, 0x3A, 0xE5, 0x6A] := by
  decide +kernel

/-- Joint 2 of the picking arm (13): 0.45 on 8,000 counts is 3,600 counts. -/
theorem test_brake_example : highTime 966367642 8000 = 3600 := by decide +kernel

/-- SHAKE256 of no bytes begins with the published digest. -/
theorem test_shake256 : shake256 4 [] = [0x46, 0xB9, 0xDD, 0x2B] := by decide +kernel

/-- One step of a scalar instruction on g1 = 2^64 − 1, g2 = 0. -/
def stepG (i : Hdr → Instr) (r : Nat) : Option Word :=
  match exec (i hdr) (workOf fun fs => { fs with g := [(1, BitVec.allOnes 64)] }) with
  | .next t => some ((t.face 0).gReg r)
  | _ => none

theorem test_add_wraps : stepG (fun h => .add 0 h ⟨3, 1, 0, 1, 2⟩) 3 = some 1 := by decide +kernel
theorem test_divu_by_zero : stepG (fun h => .divu 0 h ⟨3, 1, 2, 0, 0⟩) 3 = some (BitVec.allOnes 64) := by decide +kernel
theorem test_mulhu : stepG (fun h => .mulhu 0 h ⟨1, 1, 1, 0, 0⟩) 1 = some 0xFFFFFFFFFFFFFFFE := by decide +kernel
theorem test_sra : stepG (fun h => .sra 0 h ⟨1, 1, 0, 1, 63⟩) 1 = some (BitVec.allOnes 64) := by decide +kernel
theorem test_g0 : stepG (fun h => .add 0 h ⟨0, 1, 0, 0, 0⟩) 0 = some 0 := by decide +kernel

end Sys2Proof.Tests
end

/-! # Accesses to registers and memories (R10, R16 to R18, R68, R468, R477, R533)

First the tables of registers with an effect of their own, then what one access does on each bus, then the clauses of the
statement about REGISTER_WRITE, one theorem per agent and kind of access. -/

namespace Sys2Proof.Machine

/-! ## Which register of a table an address names -/

@[simp] theorem one_self (a : Nat) (t : State) : one a a t = some t := if_pos rfl

/-- The register at a key of a table. -/
theorem many_hit {stride n i : Nat} (base : Nat) (hi : i < n) (hs : 0 < stride) (f : Nat → State) :
    many base stride n (base + stride * i) f = some (f i) := by
  have hlt : stride * i < stride * n := Nat.mul_lt_mul_of_pos_left hi hs
  simp [many, hlt, hs]

section
/-! An address between `lo` and `hi` names no register of a table that lies wholly below or above them. -/

variable {lo hi a : Nat} (ha : lo ≤ a ∧ a < hi)
include ha

theorem one_apart {r : Nat} (h : r < lo ∨ hi ≤ r) (t : State) : one r a t = none := by
  rw [one, if_neg (by omega)]

theorem many_apart {base stride n : Nat} (h : base + stride * n ≤ lo ∨ hi ≤ base) (f : Nat → State) :
    many base stride n a f = none := by
  rw [many, if_neg (by omega)]

theorem many2_apart {base s1 n s2 m : Nat} (h : (0 < s1 ∧ base + s1 * n ≤ lo) ∨ hi ≤ base) (f : Nat → Nat → State) :
    many2 base s1 n s2 m a f = none := by
  rw [many2, if_neg]
  rintro ⟨hb, hn, -⟩
  rcases h with ⟨hs, h⟩ | h
  · have := (Nat.div_lt_iff_lt_mul hs).mp hn
    rw [Nat.mul_comm] at this
    omega
  · omega

end

/-! ## Four registers with an effect of their own -/

theorem devWrite_syncSem (s : State) {m : Nat} (hm : m < 256) (v : Nat) :
    s.devWrite (Reg.SYNC_SEM m) v = some ((execSyncSemWrite (BitVec.ofNat 8 m) (BitVec.ofNat 64 v) s).state s) := by
  have ha : Reg.SYNC_SEM 0 ≤ Reg.SYNC_SEM m ∧ Reg.SYNC_SEM m < Reg.SYNC_SEM 256 := by simp only [Reg.SYNC_SEM]; omega
  have hit : ∀ f, many (Reg.SYNC_SEM 0) 8 256 (Reg.SYNC_SEM m) f = some (f m) := many_hit _ hm (by decide)
  simp (disch := decide) only [State.devWrite, one_apart ha, many_apart ha, hit, List.cons_append, List.findSome?_cons, id_eq]

theorem devWrite_sysCtrl (s : State) (v : Nat) : s.devWrite Reg.SYS_CTRL v = some (s.sysCtrlWrite v) := by
  have ha : Reg.SYS_CTRL ≤ Reg.SYS_CTRL ∧ Reg.SYS_CTRL < Reg.SYS_CTRL + 8 := by decide
  simp (disch := decide) only [State.devWrite, one_apart ha, many_apart ha, many2_apart ha, one_self, List.cons_append,
    List.nil_append, List.findSome?_cons, id_eq]

theorem devWrite_pwrTrim (s : State) {n : Nat} (hn : n < 6) (v : Nat) :
    s.devWrite (Reg.PWR_TRIM n) v = some (s.trimWrite n v) := by
  have ha : Reg.PWR_TRIM 0 ≤ Reg.PWR_TRIM n ∧ Reg.PWR_TRIM n < Reg.PWR_TRIM 6 := by simp only [Reg.PWR_TRIM]; omega
  have hit : ∀ f, many (Reg.PWR_TRIM 0) 8 6 (Reg.PWR_TRIM n) f = some (f n) := many_hit _ hn (by decide)
  simp (disch := decide) only [State.devWrite, one_apart ha, many_apart ha, many2_apart ha, hit, List.cons_append,
    List.nil_append, List.findSome?_cons, id_eq]

theorem homeWrite_ceSpw (s : State) (p : Nat) {k : Nat} (hk : k < 256) (v : Nat) :
    s.homeWrite p (Reg.CE_SPW k) v = some (s.spWrite k v) := by
  have ha : Reg.CE_SPW 0 ≤ Reg.CE_SPW k ∧ Reg.CE_SPW k < Reg.CE_SPW 256 := by simp only [Reg.CE_SPW]; omega
  have hit : ∀ f, many (Reg.CE_SPW 0) 4 256 (Reg.CE_SPW k) f = some (f k) := many_hit _ hk (by decide)
  simp (disch := decide) only [State.homeWrite, one_apart ha, many_apart ha, hit, List.cons_append, List.findSome?_cons, id_eq]

/-! ## A write by access code (R10) -/

theorem bitOf_eq_testBit (v k : Nat) : bitOf v k = v.testBit k := by
  rw [bitOf, Nat.testBit_eq_decide_div_mod_eq, ← beq_eq_decide]

/-- A bit outside a mask of 64 bits. -/
theorem testBit_complement {x k : Nat} (hx : x < 2 ^ 64) (hk : k < 64) : (2 ^ 64 - 1 - x).testBit k = !x.testBit k := by
  rw [show 2 ^ 64 - 1 - x = 2 ^ 64 - (x + 1) by omega, Nat.testBit_two_pow_sub_succ hx]
  simp [hk]

/-- Each bit of a register after a write: the written one where its code takes it, else the old one unless a 1 clears it. -/
theorem RegRow.bitOf_written {r : RegRow} {locked : Bool} {old v k : Nat} (hrw : r.rw < 2 ^ 64) (hrws : r.rws < 2 ^ 64)
    (hrwl : r.rwl < 2 ^ 64) (hv : v < 2 ^ 64) (hk : k < 64) :
    bitOf (r.written locked old v) k =
      if bitOf r.rw k || bitOf r.rws k || (!locked && bitOf r.rwl k) then bitOf v k
      else bitOf old k && !(bitOf r.w1c k && bitOf v k) := by
  have htake : r.rw ||| r.rws ||| (if locked then 0 else r.rwl) < 2 ^ 64 := by
    refine Nat.or_lt_two_pow (Nat.or_lt_two_pow hrw hrws) ?_
    split
    · decide
    · exact hrwl
  have hclear : r.w1c &&& v < 2 ^ 64 := Nat.and_lt_two_pow _ hv
  have hlock : (if locked then 0 else r.rwl).testBit k = (!locked && r.rwl.testBit k) := by cases locked <;> simp
  simp only [bitOf_eq_testBit, RegRow.written, Nat.testBit_or, Nat.testBit_and, testBit_complement htake hk,
    testBit_complement hclear hk, hlock]
  cases (r.rw.testBit k || r.rws.testBit k || (!locked && r.rwl.testBit k)) <;> simp

/-- Register `a` of row `r` holds what a write of `v` by its access codes leaves; every other register, every byte and every Face is
as before. -/
def WrittenByCode (r : RegRow) (a v : Nat) (s t : State) : Prop :=
  t.rd a = BitVec.ofNat 64 (r.written (s.life == 2) (s.rd a).toNat v) ∧ sameRegsBut [a] s t ∧ t.mem = s.mem ∧ t.faces = s.faces

theorem State.plainWrite_writtenByCode {s : State} {a : Nat} {r : RegRow} (hr : regRow? a = some r) (v : Nat) :
    WrittenByCode r a v s (s.plainWrite a v) := by
  have h : s.plainWrite a v = s.wr a (BitVec.ofNat 64 (r.written (s.life == 2) (s.rd a).toNat v)) := by
    simp only [State.plainWrite, hr]
  rw [h]
  refine ⟨by simp, fun b hb => ?_, rfl, rfl⟩
  have hne : b ≠ a := by simpa using hb
  simp [hne]

/-! ## Memory accesses -/

/-- The bytes stand from `key` on; every other byte, every register and the last answer are as before. -/
def Stored (s : State) (key : Nat) (bs : List Byte) (t : State) : Prop :=
  t.load key bs.length = bs ∧ sameMemBut [(key, bs.length)] s t ∧ t.regs = s.regs ∧ t.out = s.out

theorem State.store_stored (s : State) (key : Nat) (bs : List Byte) : Stored s key bs (s.store key bs) := by
  refine ⟨s.load_store key bs, fun k hk => ?_, rfl, rfl⟩
  have hout : ¬ (key ≤ k ∧ k < key + bs.length) := hk _ (List.mem_singleton_self _)
  rw [State.loadByte_store, byteOver, if_neg hout]

/-! ## The device bus (R16, R68, R101) -/

theorem regWidth_of_row {a : Nat} {r : RegRow} (hr : regRow? a = some r) : regWidth a = r.width := by
  simp only [regWidth, hr]

/-- A bound on the offsets of a row's registers from its base: its outermost count times that stride. -/
def RegRow.extent (r : RegRow) : Nat :=
  match r.strides with
  | [] => 1
  | (c, st) :: _ => c * st

/-- Does the row lie wholly below `lo`, or from `hi` on? -/
def RegRow.apart (lo hi : Nat) (r : RegRow) : Bool := decide (hi ≤ r.base) || decide (r.base + r.extent ≤ lo)

theorem RegRow.lt_of_hit {r : RegRow} {a : Nat} (h : r.hit a = true) : r.base ≤ a ∧ a < r.base + r.extent := by
  simp only [RegRow.hit, Bool.and_eq_true, decide_eq_true_eq] at h
  obtain ⟨hbase, hhit⟩ := h
  refine ⟨hbase, ?_⟩
  unfold RegRow.extent
  cases hs : r.strides with
  | nil =>
    rw [hs] at hhit
    cases hoff : a - r.base with
    | zero => simp only; omega
    | succ k => simp [hoff, strideHit] at hhit
  | cons e l =>
    rw [hs, strideHit] at hhit
    split at hhit
    · simp at hhit
    · simp only
      omega

theorem RegRow.hit_apart {r : RegRow} {lo hi a : Nat} (h : r.apart lo hi = true) (ha : lo ≤ a ∧ a < hi) : r.hit a = false := by
  simp only [RegRow.apart, Bool.or_eq_true, decide_eq_true_eq] at h
  refine Bool.eq_false_iff.mpr fun hhit => ?_
  have := RegRow.lt_of_hit hhit
  omega

/-- The width of every register of a table of `n`, where the first row that is not apart from the table is that of the table. -/
theorem regWidth_table {base st n w i : Nat}
    (h : ((regTable.find? fun r => !r.apart base (base + st * n)).any fun r =>
      r.base == base && r.strides == [(n, st)] && r.width == w) = true) (hi : i < n) (hst : 0 < st) :
    regWidth (base + st * i) = w := by
  have hlt : st * i < st * n := Nat.mul_lt_mul_of_pos_left hi hst
  obtain ⟨r, hfind, hr⟩ := (Option.any_eq_true _ _).mp h
  simp only [Bool.and_eq_true, beq_iff_eq] at hr
  obtain ⟨⟨hbase, hstrides⟩, hwidth⟩ := hr
  obtain ⟨-, before, after, htable, hapart⟩ := List.find?_eq_some_iff_append.mp hfind
  have hhit : r.hit (base + st * i) = true := by
    have hnot : ¬ n * st ≤ st * i := by rw [Nat.mul_comm n]; omega
    simp [RegRow.hit, hbase, hstrides, strideHit, hnot]
  have hrow : regRow? (base + st * i) = some r :=
    List.find?_eq_some_iff_append.mpr ⟨hhit, before, after, htable, fun q hq => by
      have hq := hapart q hq
      rw [RegRow.hit_apart (by simpa using hq) ⟨Nat.le_add_right _ _, by omega⟩]
      rfl⟩
  rw [regWidth_of_row hrow, hwidth]

theorem regWidth_syncSem {m : Nat} (hm : m < 256) : regWidth (Reg.SYNC_SEM m) = 8 :=
  regWidth_table (base := Reg.SYNC_SEM 0) (st := 8) (by decide +kernel) hm (by decide)

theorem regWidth_pwrTrim {f : Nat} (hf : f < 6) : regWidth (Reg.PWR_TRIM f) = 8 :=
  regWidth_table (base := Reg.PWR_TRIM 0) (st := 8) (by decide +kernel) hf (by decide)

theorem regWidth_ceSpw {k : Nat} (hk : k < 256) : regWidth (Reg.CE_SPW k) = 4 :=
  regWidth_table (base := Reg.CE_SPW 0) (st := 4) (by decide +kernel) hk (by decide)

section
variable {s : State} {q a : Nat} {held : Bool} (hpage : isRegPage a = true) (hfit : a % 4096 + regWidth a ≤ 4096)
include hpage hfit

theorem State.devBus_write_reg (v : Word) : s.devBus q a (.write v) held = s.regWrite 0 a v.toNat := by
  simp [State.devBus, accLen, hpage, hfit]

theorem State.devBus_read_reg :
    s.devBus q a .read held = (s.devRead q a).1.answer (.ok (leBytes (regWidth a) (s.devRead q a).2)) := by
  simp [State.devBus, accLen, hpage, hfit]

end

/-- A read that latches nothing shows the register. -/
theorem State.devRead_plain {s : State} {q a : Nat} (h0 : a ≠ Reg.TIMEM_NOW0) (h1 : a ≠ Reg.TIMEM_NOW1) (h2 : a ≠ Reg.TIMEM_RA)
    (h3 : stampReg a = none) : s.devRead q a = (s, s.regRead a) := by
  simp [State.devRead, h0, h1, h2, h3]

/-- Outside the register pages an access goes to the memory if every byte is served. -/
theorem State.devBus_memory {s : State} {q a : Nat} {x : AccOp} (hpage : isRegPage a = false) :
    s.devBus q a x false = if s.served a (accLen x a) then s.memAccess (devKey a) x else s.answer .busError := by
  have hserved : (!s.accessOk a (accLen x a) || s.awaitsScrub a (accLen x a) || s.isHeld a (accLen x a)) =
      !s.served a (accLen x a) := by
    simp [State.served, State.unscrubbed, Bool.or_assoc]
  simp only [State.devBus, hpage, Bool.false_and, Bool.not_false, Bool.and_true, hserved, Bool.not_eq_true']
  cases s.served a (accLen x a) <;> simp

/-! ## The Home bus (R17, R533) -/

theorem State.homeBus_unmapped {s : State} {p a : Nat} {x : AccOp} (h : homeMapped a (accLen x (homeSpace + a)) = false) :
    s.homeBus p a x = s.answer .busError := by
  simp [State.homeBus, h]

theorem homeMapped_homeMemory {a n : Nat} (h : a + n ≤ 0x100000) : homeMapped a n = true := by
  simp [homeMapped, homeRanges, h]

theorem homeMapped_board {a n : Nat} (hlo : 0x40000000 ≤ a) (h : a + n ≤ 0x41000000) : homeMapped a n = true := by
  simp [homeMapped, homeRanges, hlo, h]

theorem State.homeBus_homeMemory {s : State} {p a : Nat} {x : AccOp} (h : a + accLen x (homeSpace + a) ≤ 0x100000)
    (ha : a < 0x100000) : s.homeBus p a x = s.memAccess (homeSpace + a) x := by
  simp [State.homeBus, homeMapped_homeMemory h, ha]

/-- The Board through the gate: the gate's status comes first, then whether the Board serves the access. -/
theorem State.homeBus_board {s : State} {p a : Nat} {x : AccOp} (hlo : 0x40000000 ≤ a) (hhi : a < 0x41000000)
    (h : a + accLen x (homeSpace + a) ≤ 0x41000000) :
    s.homeBus p a x =
      if s.gateDown then s.answer .computeDown
      else if s.served (boardBase + (a - 0x40000000)) (accLen x (homeSpace + a)) then
        s.memAccess (boardBase + (a - 0x40000000)) x
      else s.answer .busError := by
  have hmem : ¬ a < 0x100000 := by omega
  simp only [State.homeBus, homeMapped_board hlo h, hmem, hhi, Bool.not_true, Bool.false_eq_true, if_true, if_false]
  cases s.served (boardBase + (a - 0x40000000)) (accLen x (homeSpace + a)) <;> simp

/-- A write of a register takes the register's own width of the value. -/
theorem State.homeBus_write_reg {s : State} {p a : Nat} (v : Word) (hlo : 0x41000000 ≤ a)
    (hmap : homeMapped a (regWidth (homeSpace + a)) = true) (hcan : canBufAt a = none) :
    s.homeBus p a (.write v) = s.regWrite p (homeSpace + a) (v.toNat % 2 ^ (8 * regWidth (homeSpace + a))) := by
  have hmem : ¬ a < 0x100000 := by omega
  have hboard : ¬ a < 0x41000000 := by omega
  have hpow : 256 ^ regWidth (homeSpace + a) = 2 ^ (8 * regWidth (homeSpace + a)) := by rw [Nat.pow_mul]
  simp [State.homeBus, accLen, hmap, hmem, hboard, State.homeStore, hcan, leNat_leBytes, hpow]

/-! ## Registers by key -/

theorem State.regWrite_dev {s : State} {p a v : Nat} (ha : a < homeSpace) :
    s.regWrite p a v = (s.devWrite a v).getD (s.plainWrite a v) := by
  rw [State.regWrite, if_pos ha]

theorem State.regWrite_home {s : State} {p a v : Nat} :
    s.regWrite p (homeSpace + a) v = (s.homeWrite p (homeSpace + a) v).getD (s.plainWrite (homeSpace + a) v) := by
  rw [State.regWrite, if_neg (by omega)]

/-! ## REGISTER_WRITE by a control core -/

theorem exec_core (n : Fin 8) (a : BitVec 48) (x : AccOp) (s : State) :
    exec (.registerWrite (.core n) (.dev a) x) s = .next (s.devBus n a.toNat x false) := rfl

section
variable {s : State} {n : Fin 8} {a : BitVec 48} {r : RegRow} (hr : regRow? a.toNat = some r) (hpage : isRegPage a.toNat = true)
  (hfit : a.toNat % 4096 + r.width ≤ 4096)
include hr hpage hfit

theorem core_write_by_code {v : Word} (hw : s.devWrite a.toNat v.toNat = none) :
    completes (.registerWrite (.core n) (.dev a) (.write v)) s (WrittenByCode r a.toNat v.toNat s) := by
  rw [← regWidth_of_row hr] at hfit
  have hbus : s.devBus n a.toNat (.write v) false = s.plainWrite a.toNat v.toNat := by
    rw [State.devBus_write_reg hpage hfit, State.regWrite_dev a.isLt, hw, Option.getD_none]
  exact ⟨_, by rw [exec_core, hbus], State.plainWrite_writtenByCode hr _⟩

theorem core_read (h0 : a.toNat ≠ Reg.TIMEM_NOW0) (h1 : a.toNat ≠ Reg.TIMEM_NOW1) (h2 : a.toNat ≠ Reg.TIMEM_RA)
    (h3 : stampReg a.toNat = none) :
    completes (.registerWrite (.core n) (.dev a) .read) s fun t =>
      t = { s with out := .ok (leBytes r.width (s.regRead a.toNat)) } := by
  rw [← regWidth_of_row hr] at hfit ⊢
  exact ⟨_, exec_core .., by rw [State.devBus_read_reg hpage hfit, State.devRead_plain h0 h1 h2 h3]; rfl⟩

end

/-- A write of a register whose table entry answers `t` leaves `t`. -/
theorem exec_core_write_effect {s t : State} {n : Fin 8} {k : Nat} {v : Word} (hk : k < 2 ^ 48)
    (hreg : isRegPage k = true ∧ k % 4096 + regWidth k ≤ 4096) (hw : s.devWrite k v.toNat = some t) :
    exec (.registerWrite (.core n) (.dev (BitVec.ofNat 48 k)) (.write v)) s = .next t := by
  obtain ⟨hpage, hfit⟩ := hreg
  rw [exec_core, BitVec.toNat_ofNat, Nat.mod_eq_of_lt hk, State.devBus_write_reg hpage hfit, State.regWrite_dev hk, hw,
    Option.getD_some]

theorem syncSem_inRegPage {m : Nat} (hm : m < 256) : isRegPage (Reg.SYNC_SEM m) = true ∧
    Reg.SYNC_SEM m % 4096 + regWidth (Reg.SYNC_SEM m) ≤ 4096 := by
  rw [regWidth_syncSem hm]
  revert m
  decide +kernel

theorem pwrTrim_inRegPage {f : Nat} (hf : f < 6) : isRegPage (Reg.PWR_TRIM f) = true ∧
    Reg.PWR_TRIM f % 4096 + regWidth (Reg.PWR_TRIM f) ≤ 4096 := by
  rw [regWidth_pwrTrim hf]
  revert f
  decide +kernel

theorem sysCtrl_inRegPage : isRegPage Reg.SYS_CTRL = true ∧ Reg.SYS_CTRL % 4096 + regWidth Reg.SYS_CTRL ≤ 4096 := by decide +kernel

theorem exec_core_write_syncSem (n : Fin 8) (m : BitVec 8) (v : Word) (s : State) :
    exec (.registerWrite (.core n) (.dev (BitVec.ofNat 48 (Reg.SYNC_SEM m.toNat))) (.write v)) s = exec (.syncSemWrite m v) s := by
  have hw := devWrite_syncSem s m.isLt v.toNat
  rw [BitVec.ofNat_toNat, BitVec.ofNat_toNat, BitVec.setWidth_eq, BitVec.setWidth_eq] at hw
  have hk : Reg.SYNC_SEM m.toNat < 2 ^ 48 := by have := m.isLt; simp only [Reg.SYNC_SEM]; omega
  exact exec_core_write_effect hk (syncSem_inRegPage m.isLt) hw

theorem exec_core_write_sysCtrl (n : Fin 8) (v : Word) (s : State) :
    exec (.registerWrite (.core n) (.dev (BitVec.ofNat 48 Reg.SYS_CTRL)) (.write v)) s = exec (.sysCtrlDoubleWrite v) s :=
  exec_core_write_effect (by decide) sysCtrl_inRegPage (devWrite_sysCtrl s v.toNat)

theorem exec_core_write_pwrTrim (n : Fin 8) (f : Fin 6) (v : Word) (s : State) :
    exec (.registerWrite (.core n) (.dev (BitVec.ofNat 48 (Reg.PWR_TRIM f))) (.write v)) s = exec (.pwrTrimWrite f v) s := by
  have hk : Reg.PWR_TRIM f < 2 ^ 48 := by have := f.isLt; simp only [Reg.PWR_TRIM]; omega
  exact exec_core_write_effect hk (pwrTrim_inRegPage f.isLt) (devWrite_pwrTrim s f.isLt v.toNat)

section
variable {s : State} {n : Fin 8} {a : BitVec 48} (hpage : isRegPage a.toNat = false)
include hpage

theorem core_store {bs : List Byte} (hs : s.served a.toNat bs.length = true) :
    completes (.registerWrite (.core n) (.dev a) (.store bs)) s (Stored s (devKey a.toNat) bs) := by
  have hbus : s.devBus n a.toNat (.store bs) false = s.store (devKey a.toNat) bs := by
    rw [State.devBus_memory hpage, accLen, if_pos hs]; rfl
  exact ⟨_, by rw [exec_core, hbus], s.store_stored _ _⟩

theorem core_store_not_served {bs : List Byte} (hs : s.served a.toNat bs.length = false) :
    completes (.registerWrite (.core n) (.dev a) (.store bs)) s fun t => t = { s with out := .busError } :=
  ⟨_, exec_core .., by rw [State.devBus_memory hpage, accLen, if_neg (by simp [hs])]; rfl⟩

theorem core_load (len : Nat) :
    completes (.registerWrite (.core n) (.dev a) (.load len)) s fun t =>
      t = { s with out := if s.served a.toNat len then .ok (s.load (devKey a.toNat) len) else .busError } := by
  refine ⟨_, exec_core .., ?_⟩
  rw [State.devBus_memory hpage, accLen]
  split <;> rfl

end

/-! ## REGISTER_WRITE by a Home core -/

theorem exec_home (p : Fin 2) (a : BitVec 32) (x : AccOp) (s : State) :
    exec (.registerWrite (.home p) (.home a) x) s = .next (s.homeBus p a.toNat x) := rfl

theorem home_write_by_code {s : State} {p : Fin 2} {a : BitVec 32} {r : RegRow} {v : Word}
    (hr : regRow? (homeSpace + a.toNat) = some r) (hlo : 0x41000000 ≤ a.toNat) (hmap : homeMapped a.toNat r.width = true)
    (hcan : canBufAt a.toNat = none) (hw : s.homeWrite p (homeSpace + a.toNat) (v.toNat % 2 ^ (8 * r.width)) = none) :
    completes (.registerWrite (.home p) (.home a) (.write v)) s
      (WrittenByCode r (homeSpace + a.toNat) (v.toNat % 2 ^ (8 * r.width)) s) := by
  rw [← regWidth_of_row hr] at hmap hw ⊢
  have hbus := State.homeBus_write_reg (s := s) (p := p) v hlo hmap hcan
  rw [State.regWrite_home, hw, Option.getD_none] at hbus
  exact ⟨_, by rw [exec_home, hbus], State.plainWrite_writtenByCode hr _⟩

/-- The setpoint registers lie in a block of the Home map that holds no CAN buffer. -/
theorem ceSpw_inHomeMap : ∀ k < 256, homeMapped (Reg.CE_SPW k - homeSpace) 4 = true ∧
    canBufAt (Reg.CE_SPW k - homeSpace) = none := by decide +kernel

theorem exec_home_write_ceSpw (p : Fin 2) (k : BitVec 8) (v : Word) (s : State) :
    exec (.registerWrite (.home p) (.home (BitVec.ofNat 32 (Reg.CE_SPW k.toNat - homeSpace))) (.write v)) s =
      exec (.ceSpwWrite k (v.setWidth 32)) s := by
  have hk := k.isLt
  obtain ⟨hmap, hcan⟩ := ceSpw_inHomeMap _ hk
  have hwidth := regWidth_ceSpw hk
  have hlo : 0x41000000 ≤ Reg.CE_SPW k.toNat - homeSpace := by simp only [Reg.CE_SPW, homeSpace]; omega
  have hhi : Reg.CE_SPW k.toNat - homeSpace < 2 ^ 32 := by simp only [Reg.CE_SPW, homeSpace]; omega
  have hkey : homeSpace + (Reg.CE_SPW k.toNat - homeSpace) = Reg.CE_SPW k.toNat := by simp only [Reg.CE_SPW, homeSpace]; omega
  have hbus := State.homeBus_write_reg (s := s) (p := p) v hlo (by rw [hkey, hwidth]; exact hmap) hcan
  rw [State.regWrite_home, hkey, hwidth, homeWrite_ceSpw s p hk, Option.getD_some] at hbus
  rw [exec_home, BitVec.toNat_ofNat, Nat.mod_eq_of_lt hhi, hbus, ← BitVec.toNat_setWidth]
  rfl

section
variable {s : State} {p : Fin 2} {a : BitVec 32}

theorem home_store {bs : List Byte} (h : a.toNat + bs.length ≤ 0x100000) (ha : a.toNat < 0x100000) :
    completes (.registerWrite (.home p) (.home a) (.store bs)) s (Stored s (homeSpace + a.toNat) bs) := by
  have hbus : s.homeBus p a.toNat (.store bs) = s.store (homeSpace + a.toNat) bs := State.homeBus_homeMemory h ha
  exact ⟨_, by rw [exec_home, hbus], s.store_stored _ _⟩

theorem home_load {len : Nat} (h : a.toNat + len ≤ 0x100000) (ha : a.toNat < 0x100000) :
    completes (.registerWrite (.home p) (.home a) (.load len)) s fun t =>
      t = { s with out := .ok (s.load (homeSpace + a.toNat) len) } :=
  ⟨_, exec_home .., State.homeBus_homeMemory h ha⟩

theorem home_load_unmapped {len : Nat} (h : homeMapped a.toNat len = false) :
    completes (.registerWrite (.home p) (.home a) (.load len)) s fun t => t = { s with out := .busError } :=
  ⟨_, exec_home .., State.homeBus_unmapped h⟩

theorem home_load_board {len : Nat} (hlo : 0x40000000 ≤ a.toNat) (hhi : a.toNat < 0x41000000)
    (h : a.toNat + len ≤ 0x41000000) :
    completes (.registerWrite (.home p) (.home a) (.load len)) s fun t =>
      t = { s with out := if s.gateDown then .computeDown
                          else if s.served (boardBase + (a.toNat - 0x40000000)) len then
                            .ok (s.load (boardBase + (a.toNat - 0x40000000)) len)
                          else .busError } := by
  refine ⟨_, exec_home .., ?_⟩
  rw [State.homeBus_board (x := .load len) hlo hhi h, accLen]
  split
  · rfl
  · split <;> rfl

end

/-! ## REGISTER_WRITE by a debug session (R468, R477) -/

theorem exec_debug (pl : Place) (x : AccOp) (s : State) :
    exec (.registerWrite .debug pl x) s = .next (if s.debugMay pl x then s.debugBus pl x else s.answer .denied) := rfl

theorem debug_denied {s : State} {pl : Place} {x : AccOp} (h : s.debugMay pl x = false) :
    completes (.registerWrite .debug pl x) s fun t => t = { s with out := .denied } :=
  ⟨_, exec_debug .., by rw [h]; rfl⟩

/-- A permitted access does what the debug bus does. -/
theorem exec_debug_permitted {s : State} {pl : Place} {x : AccOp} (h : s.debugMay pl x = true) :
    exec (.registerWrite .debug pl x) s = .next (s.debugBus pl x) := by
  rw [exec_debug, if_pos h]

/-- A Face file: within reach, and D1 for a read or D2 for any access. -/
theorem debugMay_file (s : State) (f : Fin 6) (k : Fin 4) (i : BitVec 7) (x : AccOp) :
    s.debugMay (.file f k i) x = (s.unitInReach f &&
      ((!accWrites x && decide (1 ≤ s.debugLevel)) || decide (2 ≤ s.debugLevel))) := by
  simp [State.debugMay, State.placeInReach, placeIsReg]

/-- A state bank: within reach, and D2. -/
theorem debugMay_bank (s : State) (f : Fin 6) (b : BitVec 4) (o : BitVec 16) (x : AccOp) :
    s.debugMay (.bank f b o) x = (s.unitInReach f && decide (2 ≤ s.debugLevel)) := by
  simp [State.debugMay, State.placeInReach, placeIsReg]

section
variable {s : State} {f : Fin 6}

theorem debug_read_g {i : BitVec 7} (hreach : s.unitInReach f = true) (hl : 1 ≤ s.debugLevel) :
    completes (.registerWrite .debug (.file f 0 i) .read) s fun t =>
      t = { s with out := .ok (leBytes 8 ((s.face f).gReg (i.toNat % 32)).toNat) } :=
  ⟨_, exec_debug_permitted (by simp [debugMay_file, accWrites, hreach, hl]), rfl⟩

theorem debug_write_g {i : BitVec 7} {v : Word} (hreach : s.unitInReach f = true) (hl : 2 ≤ s.debugLevel)
    (hi : i.toNat % 32 ≠ 0) :
    completes (.registerWrite .debug (.file f 0 i) (.write v)) s fun t =>
      (t.face f).gReg (i.toNat % 32) = v ∧ sameFacesBut f s t ∧ t.regs = s.regs ∧ t.mem = s.mem := by
  have hbus : s.debugBus (.file f 0 i) (.write v) = s.setFace f ((s.face f).setG (i.toNat % 32) v) := by
    simp [State.debugBus, State.fileWrite]
  refine ⟨_, exec_debug_permitted (by simp [debugMay_file, hreach, hl]), ?_⟩
  rw [hbus]
  refine ⟨by simp [FaceSt.gReg_setG, hi], fun g hg => ?_, rfl, rfl⟩
  simp [hg]

theorem debug_write_bank {b : BitVec 4} {o : BitVec 16} {v : Word} (hreach : s.unitInReach f = true) (hl : 2 ≤ s.debugLevel)
    (ho : o.toNat + 8 ≤ 0x10000) :
    completes (.registerWrite .debug (.bank f b o) (.write v)) s
      (Stored s (bankKey f b.toNat + o.toNat) (leBytes 8 v.toNat)) := by
  have hwidth : regWidth 0 = 8 := by decide +kernel
  have hbus : s.debugBus (.bank f b o) (.write v) = s.store (bankKey f b.toNat + o.toNat) (leBytes 8 v.toNat) := by
    simp [State.debugBus, accLen, hwidth, ho, State.memAccess]
  exact ⟨_, by rw [exec_debug_permitted (by simp [debugMay_bank, hreach, hl]), hbus], s.store_stored _ _⟩

end

/-! ## The statement -/

/-- Settles O58: each clause is what the device bus, the Home bus or the debug bus does with one kind of access. -/
theorem registerWritesFollowTheirAccessCodes : Obligations.RegisterWritesFollowTheirAccessCodes := by
  unfold Obligations.RegisterWritesFollowTheirAccessCodes
  intro s v
  refine ⟨?registers, ?homeRegisters, ?accessCodes, ?syncSem, ?sysCtrl, ?pwrTrim, ?ceSpw, ?deviceMemory, ?homeMemory, ?debug⟩
  case registers =>
    intro n a r hr hpage hfit
    exact ⟨core_write_by_code hr hpage hfit, core_read hr hpage hfit⟩
  case homeRegisters => exact fun p a r hr hlo hmap hcan hw => home_write_by_code hr hlo hmap hcan hw
  case accessCodes =>
    intro r old k hrw hrws hrwl _ hk locked
    exact RegRow.bitOf_written hrw hrws hrwl v.isLt hk
  case syncSem => exact fun n m => exec_core_write_syncSem n m v s
  case sysCtrl => exact fun n => exec_core_write_sysCtrl n v s
  case pwrTrim => exact fun n f => exec_core_write_pwrTrim n f v s
  case ceSpw => exact fun p k => exec_home_write_ceSpw p k v s
  case deviceMemory =>
    intro n a bs len hpage
    exact ⟨core_store hpage, core_store_not_served hpage, core_load hpage len⟩
  case homeMemory =>
    intro p a bs len
    exact ⟨home_store, home_load, home_load_unmapped, home_load_board⟩
  case debug =>
    intro f i pl x
    refine ⟨debug_denied, fun hl => ?_, fun hreach => ?_, fun hl => ?_, debug_read_g, debug_write_g,
      fun hreach hl b o => debug_write_bank hreach hl⟩
    · simp [debugMay_file, hl]
    · simp [debugMay_file, hreach]
    · simp [debugMay_file, accWrites, hl]

end Sys2Proof.Machine

/-! # Pace windows, arbiters, the gate and perturbation (R16, R17, R23, R24, R274, R276, R298 to R301) -/

namespace Sys2Proof.Machine

/-! ## Frames of register updates -/

section
variable {l : List Nat} {s t : State} {a : Nat}

theorem State.rd_congr (h : t.regs = s.regs) (a : Nat) : t.rd a = s.rd a := by rw [State.rd, h, State.rd]

theorem State.fld_congr {t s : State} {a : Nat} (h : t.rd a = s.rd a) (hi lo : Nat) : t.fld a hi lo = s.fld a hi lo := by
  rw [State.fld, h, State.fld]

theorem State.flag_congr {t s : State} {a : Nat} (h : t.rd a = s.rd a) (k : Nat) : t.flag a k = s.flag a k := by
  rw [State.flag, State.fld_congr h, State.flag]

theorem State.flag_eq_testBit (s : State) (a k : Nat) : s.flag a k = (s.rd a).toNat.testBit k := by
  simp [State.flag, State.fld, bits, Nat.testBit_eq_decide_div_mod_eq, ← beq_eq_decide]

theorem sameRegsBut_refl (l : List Nat) (s : State) : sameRegsBut l s s := fun _ _ => rfl

theorem sameRegsBut_of_regs (h : t.regs = s.regs) : sameRegsBut l s t := fun a _ => State.rd_congr h a

theorem sameRegsBut.trans {u : State} (h : sameRegsBut l s t) (h' : sameRegsBut l t u) : sameRegsBut l s u :=
  fun a ha => (h' a ha).trans (h a ha)

theorem sameRegsBut.mono {l' : List Nat} (h : sameRegsBut l s t) (hl : ∀ a ∈ l, a ∈ l') : sameRegsBut l' s t :=
  fun a ha => h a fun hin => ha (hl a hin)

theorem sameRegsBut.wr (h : sameRegsBut l s t) (ha : a ∈ l) (v : Word) : sameRegsBut l s (t.wr a v) := fun b hb => by
  have hne : b ≠ a := fun e => hb (e ▸ ha)
  rw [State.rd_wr, if_neg hne, h b hb]

theorem sameRegsBut.setFld (h : sameRegsBut l s t) (ha : a ∈ l) (hi lo x : Nat) : sameRegsBut l s (t.setFld a hi lo x) :=
  h.wr ha _

theorem sameRegsBut.setFlag (h : sameRegsBut l s t) (ha : a ∈ l) (k : Nat) (b : Bool) : sameRegsBut l s (t.setFlag a k b) :=
  h.wr ha _

theorem sameRegsBut.countReg (h : sameRegsBut l s t) (ha : a ∈ l) (n : Nat) : sameRegsBut l s (t.countReg a n) := h.wr ha _

end

/-! ## Pace monitors (R23, R24) -/

/-- Does the monitor of domain `d` close windows: the domain runs (R23)? -/
def State.paceRuns (s : State) (d : BitVec 3) : Prop :=
  d = 7 ∨ ((s.cstate = 2 ∨ s.cstate = 3) ∧ s.fld Reg.SEC_PSTATE 31 29 < 3 ∧
    (d = 6 ∨ ((s.face d.toNat).gated = false ∧ (s.face d.toNat).resetting = false)))

/-- What PACE_WINDOW does to a domain that runs. -/
def State.paceClose (s : State) (d n : Nat) : State :=
  let t := s.wr (Reg.PACE_FACE d)
    (BitVec.ofNat 64 (2 ^ 31 + (if decide (n < s.fld Reg.PACE_LOW 13 0) then 2 ^ 30 else 0) + n))
  let t := if d < 6 then { t with sched := { t.sched with
      paceSum := Map.put 0 t.sched.paceSum d (Map.get 0 t.sched.paceSum d + n)
      paceN := Map.put 0 t.sched.paceN d (Map.get 0 t.sched.paceN d + 1) } } else t
  if decide (n < s.fld Reg.PACE_LOW 13 0) && s.flag (Reg.PACE_FACE d) 30 then t.raiseEv 12 else t

theorem State.paceRuns_iff (s : State) (d : BitVec 3) :
    (d.toNat == 7 || ((s.cstate == 2 || s.cstate == 3) && decide (s.fld Reg.SEC_PSTATE 31 29 < 3)
      && (d.toNat == 6 || (!(s.face d.toNat).gated && !(s.face d.toNat).resetting)))) = true ↔ s.paceRuns d := by
  simp [State.paceRuns, ← BitVec.toNat_inj, and_assoc]

theorem exec_paceWindow_off {s : State} {d : BitVec 3} (n : BitVec 14) (h : ¬ s.paceRuns d) :
    exec (.paceWindow d n) s = .next s := by
  rw [← s.paceRuns_iff, Bool.not_eq_true, ← Bool.not_eq_true'] at h
  exact if_pos h

theorem exec_paceWindow_on {s : State} {d : BitVec 3} (n : BitVec 14) (h : s.paceRuns d) :
    exec (.paceWindow d n) s = .next (s.paceClose d.toNat n.toNat) := by
  rw [← s.paceRuns_iff] at h
  exact if_neg (by simp [h])

theorem State.paceClose_regs (s : State) (d n : Nat) :
    (s.paceClose d n).regs = (s.wr (Reg.PACE_FACE d)
      (BitVec.ofNat 64 (2 ^ 31 + (if decide (n < s.fld Reg.PACE_LOW 13 0) then 2 ^ 30 else 0) + n))).regs := by
  unfold State.paceClose
  dsimp only
  split <;> split <;> rfl

theorem State.paceClose_mem (s : State) (d n : Nat) : (s.paceClose d n).mem = s.mem := by
  unfold State.paceClose
  dsimp only
  split <;> split <;> rfl

theorem State.paceClose_raised (s : State) (d n : Nat) : (s.paceClose d n).raised = s.raised ++
    (if decide (n < s.fld Reg.PACE_LOW 13 0) && s.flag (Reg.PACE_FACE d) 30 then [12] else []) := by
  unfold State.paceClose
  dsimp only
  split
  · split <;> rfl
  · split <;> exact (List.append_nil _).symm

/-- The value that a window shows: cycles in bits 13:0, LOW in bit 30, VALID in bit 31 (R23). -/
theorem paceWord_fields {n : Nat} (hn : n < 2 ^ 14) (low : Bool) :
    let v := (BitVec.ofNat 64 (2 ^ 31 + (if low then 2 ^ 30 else 0) + n)).toNat
    bits v 13 0 = n ∧ (bits v 30 30 == 1) = low ∧ (bits v 31 31 == 1) = true := by
  cases low <;> simp only [bits, BitVec.toNat_ofNat, beq_iff_eq, beq_eq_false_iff_ne, if_true, if_false, Bool.false_eq_true] <;> omega

theorem paceWindow_completes {s : State} {d : BitVec 3} (n : BitVec 14) (h : s.paceRuns d) :
    completes (.paceWindow d n) s fun t =>
      let low := decide (n.toNat < s.fld Reg.PACE_LOW 13 0)
      t.fld (Reg.PACE_FACE d.toNat) 13 0 = n.toNat ∧ t.flag (Reg.PACE_FACE d.toNat) 30 = low ∧
      t.flag (Reg.PACE_FACE d.toNat) 31 = true ∧
      t.raised = s.raised ++ (if low && s.flag (Reg.PACE_FACE d.toNat) 30 then [12] else []) ∧
      sameRegsBut [Reg.PACE_FACE d.toNat] s t ∧ t.mem = s.mem := by
  have hregs := s.paceClose_regs d.toNat n.toNat
  have hrd : (s.paceClose d.toNat n.toNat).rd (Reg.PACE_FACE d.toNat) = BitVec.ofNat 64 (2 ^ 31 +
      (if decide (n.toNat < s.fld Reg.PACE_LOW 13 0) then 2 ^ 30 else 0) + n.toNat) :=
    (State.rd_congr hregs _).trans (by rw [State.rd_wr, if_pos rfl])
  obtain ⟨hcycles, hlow, hvalid⟩ := paceWord_fields n.isLt (decide (n.toNat < s.fld Reg.PACE_LOW 13 0))
  refine ⟨_, exec_paceWindow_on n h, ?_, ?_, ?_, s.paceClose_raised _ _, ?_, s.paceClose_mem _ _⟩
  · rw [State.fld, hrd, hcycles]
  · rw [State.flag, State.fld, hrd, hlow]
  · rw [State.flag, State.fld, hrd, hvalid]
  · exact ((sameRegsBut_refl _ s).wr (List.mem_singleton_self _) _).trans (sameRegsBut_of_regs hregs)

/-! ## Arbiters (R274, R276) -/

section
variable {s : State} {k : BitVec 5} {q : ArbWait}

theorem exec_arbStarve_square (hk : k.toNat < 6) (hc : q.cls = 3) : exec (.arbStarve k q) s = .next s :=
  if_pos (by simp [hk, hc])

/-- A request that has waited beyond the limit at a point that watches its class. -/
theorem exec_arbStarve_late (hen : s.flag Reg.ARB_CTRL 0 = true) (hk : k.toNat < 24)
    (hus : max 1 (s.fld Reg.ARB_CTRL 31 16) < q.us) (hw : 6 ≤ k.toNat ∨ q.cls ≠ 3) :
    exec (.arbStarve k q) s = if s.flag Reg.ARB_STARVE k.toNat then .next s
      else .next ((s.setFlag Reg.ARB_STARVE k.toNat true).raiseEv 18) := by
  have hwatched : ¬ ((decide (k.toNat < 6) && q.cls == 3) = true) := by
    simp only [Bool.and_eq_true, decide_eq_true_eq, beq_iff_eq]
    rcases hw with h | h
    · omega
    · exact fun x => h x.2
  have hlate : (s.flag Reg.ARB_CTRL 0 && decide (k.toNat < 24) && decide (max 1 (s.fld Reg.ARB_CTRL 31 16) < q.us)) = true := by
    simp only [hen, hk, hus, decide_true, Bool.and_self]
  exact (if_neg hwatched).trans (if_pos hlate)

end

/-! ## The Home gate (R16, R17) -/

section
variable {s : State}

theorem exec_gateRead_down (a n : Nat) (w : Option (List Byte)) (h : s.gateDown = true) :
    exec (.gateRead a n w) s = .next { s with out := .computeDown } := if_pos h

section
variable {a n : Nat} (h : s.gateDown = false) (hlo : isBoard a = true) (hhi : isBoard (a + n - 1) = true)
  (hs : s.unscrubbed a n = false)
include h hlo hhi hs

theorem exec_gateRead_read : exec (.gateRead a n none) s = .next (s.answer (.ok (s.load a n))) :=
  (if_neg (by simp [h])).trans (if_neg (by simp [hlo, hhi, hs]))

theorem exec_gateRead_write (bs : List Byte) :
    exec (.gateRead a n (some bs)) s = .next ((s.store a (bs.take n)).answer (.ok [])) :=
  (if_neg (by simp [h])).trans (if_neg (by simp [hlo, hhi, hs]))

end

end

/-! ## Perturbation (R298 to R301) -/

section
variable {s : State}

theorem State.pertWrite_denied (h : s.pertAllowed = false) (a v : Nat) :
    s.pertWrite a v = s.setFlag Reg.PERT_STATUS 0 true := by simp [State.pertWrite, h, State.pertDenied]

theorem State.pertDelayWrite_denied (h : s.pertAllowed = false) (v : Nat) :
    s.pertDelayWrite v = s.setFlag Reg.PERT_STATUS 0 true := by simp [State.pertDelayWrite, h, State.pertDenied]

theorem State.pertWrite_allowed (h : s.pertAllowed = true) {a : Nat} {r : RegRow} (hr : regRow? a = some r) (v : Nat) :
    s.pertWrite a v = (s.wr a (BitVec.ofNat 64 (r.written false (s.rd a).toNat v))).pertRefresh := by
  simp [State.pertWrite, h, hr]

/-- Bringing ACTIVE up to date changes that bit and nothing else. -/
theorem State.pertRefresh_eq (t : State) : ∃ b, t.pertRefresh = t.setFlag Reg.PERT_STATUS 1 b := ⟨_, rfl⟩

theorem exec_pertWrite {k : BitVec 3} (hk : k ≠ 3) (v : Word) :
    exec (.pertWrite k v) s = .next (s.pertWrite (Reg.PERT_CTRL + 8 * k.toNat) v.toNat) :=
  congrArg Host.Outcome.next (if_neg hk)

/-- A refused write sets DENIED and nothing else. -/
theorem pert_denied {c : Instr} (h : exec c s = .next (s.setFlag Reg.PERT_STATUS 0 true)) :
    completes c s fun t => t.flag Reg.PERT_STATUS 0 = true ∧ sameRegsBut [Reg.PERT_STATUS] s t ∧ t.pertDelay = s.pertDelay :=
  ⟨_, h, s.flag_setFlag_same _ _ _ (by decide), (sameRegsBut_refl _ s).setFlag (List.mem_singleton_self _) _ _, rfl⟩

/-- The channels that a write of PERT_DELAY sets (R301). -/
def State.pertSelected (s : State) : List Nat :=
  (if s.flag Reg.PERT_CHSEL 12 then (List.range 256).map fun k => s.fld Reg.PERT_CHSEL 11 0 / 256 * 256 + k
    else [s.fld Reg.PERT_CHSEL 11 0]).filter pertChannel

theorem State.mem_pertSelected (c : Nat) :
    c ∈ s.pertSelected ↔ pertChannel c = true ∧ (c = s.fld Reg.PERT_CHSEL 11 0 ∨
      (s.flag Reg.PERT_CHSEL 12 = true ∧ c / 256 = s.fld Reg.PERT_CHSEL 11 0 / 256)) := by
  rw [State.pertSelected, List.mem_filter, and_comm]
  refine and_congr_right fun _ => ?_
  cases s.flag Reg.PERT_CHSEL 12 with
  | false => simp
  | true =>
    simp only [if_true, List.mem_map, List.mem_range, true_and]
    constructor
    · rintro ⟨k, hk, rfl⟩
      omega
    · exact fun h => ⟨c % 256, by omega, by omega⟩

/-- A value put at every key of a list. -/
theorem Map.get_foldl_put {α : Type} [DecidableEq α] (d v : α) (l : List Nat) (m : Map α) (c : Nat) :
    Map.get d (l.foldl (fun m k => Map.put d m k v) m) c = if c ∈ l then v else Map.get d m c := by
  induction l generalizing m with
  | nil => simp
  | cons k l ih =>
    rw [List.foldl_cons, ih, Map.get_put]
    by_cases hl : c ∈ l <;> by_cases hk : c = k <;> simp [hl, hk]

theorem exec_pertDelayWrite (h : s.pertAllowed = true) (v : Word) :
    exec (.pertDelayWrite v) s = .next { s with
      pertDelay := s.pertSelected.foldl (fun m k => Map.put 0 m k (v.toNat % 64)) s.pertDelay }.pertRefresh :=
  congrArg Host.Outcome.next (if_neg (by simp [h]))

theorem pertDelayWrite_completes (h : s.pertAllowed = true) (v : Word) :
    completes (.pertDelayWrite v) s fun t =>
      (∀ c, Map.get 0 t.pertDelay c = if pertChannel c = true ∧ (c = s.fld Reg.PERT_CHSEL 11 0 ∨
        (s.flag Reg.PERT_CHSEL 12 = true ∧ c / 256 = s.fld Reg.PERT_CHSEL 11 0 / 256)) then v.toNat % 64
        else Map.get 0 s.pertDelay c) ∧ sameRegsBut [Reg.PERT_STATUS] s t ∧ t.mem = s.mem := by
  refine ⟨_, exec_pertDelayWrite h v, fun c => ?_, (sameRegsBut_refl _ s).setFlag (List.mem_singleton_self _) _ _, rfl⟩
  refine (Map.get_foldl_put 0 _ _ _ c).trans ?_
  simp only [State.mem_pertSelected]

/-- A register all of whose writable bits are RW takes them from the value written (R10). -/
theorem RegRow.written_rw {r : RegRow} (hrws : r.rws = 0) (hrwl : r.rwl = 0) (hw1c : r.w1c = 0) {m : Word} (hrw : r.rw = m.toNat)
    (old v : Word) : BitVec.ofNat 64 (r.written false old.toNat v.toNat) = (old &&& ~~~ m) ||| (v &&& m) := by
  have hm : r.rw < 2 ^ 64 := hrw ▸ m.isLt
  apply BitVec.eq_of_getLsbD_eq
  intro i hi
  have h := RegRow.bitOf_written (r := r) (locked := false) (old := old.toNat) hm (by simp [hrws]) (by simp [hrwl]) v.isLt hi
  simp only [bitOf_eq_testBit, hrws, hrwl, hw1c, hrw, Nat.zero_testBit] at h
  simp only [BitVec.getLsbD_ofNat, h, BitVec.getLsbD_or, BitVec.getLsbD_and, BitVec.getLsbD_not, hi, BitVec.testBit_toNat]
  cases m.getLsbD i <;> simp

/-- A register of the block whose writable bits are those of a mask. -/
theorem pertWrite_masked (h : s.pertAllowed = true) {k : BitVec 3} {a : Nat} {m : Word} {r : RegRow} (hk : k ≠ 3)
    (ha : Reg.PERT_CTRL + 8 * k.toNat = a) (hne : a ≠ Reg.PERT_STATUS) (hr : regRow? a = some r)
    (hm : r.rw = m.toNat ∧ r.rws = 0 ∧ r.rwl = 0 ∧ r.w1c = 0) (v : Word) :
    completes (.pertWrite k v) s fun t => t.rd a = (s.rd a &&& ~~~ m) ||| (v &&& m) ∧
      sameRegsBut [a, Reg.PERT_STATUS] s t ∧ t.mem = s.mem := by
  obtain ⟨hrw, hrws, hrwl, hw1c⟩ := hm
  have hexec := exec_pertWrite (s := s) hk v
  rw [ha, State.pertWrite_allowed h hr, RegRow.written_rw hrws hrwl hw1c hrw] at hexec
  refine ⟨_, hexec, ?_, (((sameRegsBut_refl _ s).wr ?_ _).setFlag ?_ _ _), rfl⟩
  · obtain ⟨b, hb⟩ := (s.wr a ((s.rd a &&& ~~~ m) ||| (v &&& m))).pertRefresh_eq
    rw [hb, State.rd_setFlag_ne _ _ _ hne, State.rd_wr, if_pos rfl]
  all_goals simp

/-- The rows of the block's registers other than PERT_STATUS and PERT_DELAY. -/
theorem pertRows : ∀ x ∈ [((0 : BitVec 3), Reg.PERT_CTRL, (0xFFFFFFFF00000003 : Word)), (2, Reg.PERT_CHSEL, 0x1FFF),
      (4, Reg.PERT_BP, 0xFF7F), (5, Reg.PERT_HBM, 0x1FFF), (6, Reg.PERT_LINK, 0x3FF03FF)],
    x.1 ≠ 3 ∧ Reg.PERT_CTRL + 8 * x.1.toNat = x.2.1 ∧ x.2.1 ≠ Reg.PERT_STATUS ∧ ∃ r ∈ regRow? x.2.1,
      r.rw = x.2.2.toNat ∧ r.rws = 0 ∧ r.rwl = 0 ∧ r.w1c = 0 := by decide +kernel

/-- PERT_STATUS is written by its W1C bit: DENIED is cleared by a 1. -/
theorem pertWrite_status (h : s.pertAllowed = true) (v : Word) :
    completes (.pertWrite 1 v) s fun t => t.flag Reg.PERT_STATUS 0 = (s.flag Reg.PERT_STATUS 0 && !bitOf v.toNat 0) ∧
      sameRegsBut [Reg.PERT_STATUS] s t ∧ t.mem = s.mem := by
  have hrow : ∃ r ∈ regRow? Reg.PERT_STATUS, r.rw = 0 ∧ r.rws = 0 ∧ r.rwl = 0 ∧ r.w1c = 1 := by decide +kernel
  obtain ⟨r, hr, hrw, hrws, hrwl, hw1c⟩ := hrow
  have hexec := exec_pertWrite (s := s) (k := 1) (by decide) v
  rw [show Reg.PERT_CTRL + 8 * (1 : BitVec 3).toNat = Reg.PERT_STATUS from rfl, State.pertWrite_allowed h hr] at hexec
  refine ⟨_, hexec, ?_, (((sameRegsBut_refl _ s).wr ?_ _).setFlag ?_ _ _), rfl⟩
  · obtain ⟨b, hb⟩ := (s.wr Reg.PERT_STATUS (BitVec.ofNat 64 (r.written false (s.rd Reg.PERT_STATUS).toNat v.toNat))).pertRefresh_eq
    have hbit := RegRow.bitOf_written (r := r) (locked := false) (old := (s.rd Reg.PERT_STATUS).toNat) (by simp [hrw])
      (by simp [hrws]) (by simp [hrwl]) v.isLt (k := 0) (by decide)
    simp only [hrw, hrws, hrwl, hw1c, bitOf_eq_testBit] at hbit
    rw [hb, State.flag_setFlag_ne _ _ _ _ _ (by decide) (by decide)]
    simpa [State.flag_eq_testBit, bitOf_eq_testBit] using hbit
  all_goals simp

/-- Settles O37: each clause is the equation of its instruction, with the frame of the registers it writes. -/
theorem paceAndPerturbation : Obligations.PaceAndPerturbation := by
  refine ⟨fun s => ⟨?pace, ?starve, ?revoke, ?gateDown, ?gateUp⟩, fun v s => ⟨?denied, ?allowed⟩⟩
  case pace => exact fun d n => ⟨exec_paceWindow_off n, paceWindow_completes n⟩
  case starve =>
    intro k c us hen hk hus
    refine ⟨fun h hc => exec_arbStarve_square h hc, fun hw => ⟨fun hset => ?_, fun hclear => ?_⟩⟩
    · rw [exec_arbStarve_late hen hk hus hw, if_pos hset]
    · rw [completes, exec_arbStarve_late hen hk hus hw, if_neg (by simp [hclear])]
      exact ⟨_, rfl, s.flag_setFlag_same _ _ _ (by omega), rfl, (sameRegsBut_refl _ s).setFlag (List.mem_singleton_self _) _ _, rfl⟩
  case revoke =>
    exact ⟨_, rfl, by rw [State.rd_countReg, if_pos rfl], (sameRegsBut_refl _ s).countReg (List.mem_singleton_self _) _, rfl⟩
  case gateDown => exact fun a n w h => ⟨_, exec_gateRead_down a n w h, rfl⟩
  case gateUp =>
    intro a bs h hlo hhi hs
    have hwrite := exec_gateRead_write h hlo hhi hs bs
    rw [List.take_length] at hwrite
    obtain ⟨hload, hmem, hregs, -⟩ := s.store_stored a bs
    exact ⟨⟨_, exec_gateRead_read h hlo hhi hs, rfl⟩, _, hwrite, hload, hmem, rfl, hregs, rfl⟩
  case denied =>
    intro h k hk
    exact ⟨pert_denied (by rw [exec_pertWrite hk, State.pertWrite_denied h]),
      pert_denied (congrArg Host.Outcome.next (State.pertDelayWrite_denied h _))⟩
  case allowed =>
    refine fun h => ⟨pertDelayWrite_completes h v, pertWrite_status h v, fun x hx => ?_⟩
    obtain ⟨hk, ha, hne, r, hr, hm⟩ := pertRows x hx
    exact pertWrite_masked h hk ha hne hr hm v

end

end Sys2Proof.Machine

/-! # Power: states, trims, the governor, limits and supplies (R18, R20, R271, R473 to R486, R498, R520 to R522) -/

namespace Sys2Proof.Machine

/-! ## Updates of power's own state -/

/-- `t` differs from `s` in registers, in power's own fields and in the events raised only. -/
def powerOnly (s t : State) : Prop := ∃ r p e, t = { s with
  regs := r
  pwr := p
  raised := e }

section
variable {s t : State}

theorem powerOnly.refl (s : State) : powerOnly s s := ⟨s.regs, s.pwr, s.raised, rfl⟩

theorem powerOnly.trans {u : State} (h : powerOnly s t) (h' : powerOnly t u) : powerOnly s u := by
  obtain ⟨_, _, _, rfl⟩ := h
  obtain ⟨_, _, _, rfl⟩ := h'
  exact ⟨_, _, _, rfl⟩

theorem powerOnly.wr (h : powerOnly s t) (a : Nat) (v : Word) : powerOnly s (t.wr a v) := by
  obtain ⟨_, _, _, rfl⟩ := h
  exact ⟨_, _, _, rfl⟩

theorem powerOnly.setFld (h : powerOnly s t) (a hi lo x : Nat) : powerOnly s (t.setFld a hi lo x) := h.wr _ _

theorem powerOnly.setFlag (h : powerOnly s t) (a k : Nat) (b : Bool) : powerOnly s (t.setFlag a k b) := h.wr _ _

theorem powerOnly.raiseEv (h : powerOnly s t) (k : Nat) : powerOnly s (t.raiseEv k) := by
  obtain ⟨_, _, _, rfl⟩ := h
  exact ⟨_, _, _, rfl⟩

theorem powerOnly.withPwr (h : powerOnly s t) (p : PwrSt) : powerOnly s { t with pwr := p } := by
  obtain ⟨_, _, _, rfl⟩ := h
  exact ⟨_, _, _, rfl⟩

theorem powerOnly.mem (h : powerOnly s t) : t.mem = s.mem := by obtain ⟨_, _, _, rfl⟩ := h; rfl

theorem powerOnly.faces (h : powerOnly s t) : t.faces = s.faces := by obtain ⟨_, _, _, rfl⟩ := h; rfl

end

/-! ## Clamp reasons (R481) -/

section
variable (s : State)

/-- The reasons that act. -/
def State.clampMask (s : State) : Nat := s.hardReasons ||| s.pwr.soft

/-- The reasons that act are noted. -/
def State.clampNoted : State := { s with pwr := { s.pwr with acting := s.clampMask } }

/-- The registers show the reasons of a mask: CLAMPED, REASON, and the clamp log with the acting ones added. -/
def State.clampShown (m : Nat) : State :=
  let t := (s.setFlag Reg.PWR_STATUS 63 (m != 0)).setFld Reg.PWR_STATUS 62 56 (lowestReason m)
  t.setFld Reg.PWR_CLAMPLOG 8 1 (t.fld Reg.PWR_CLAMPLOG 8 1 ||| m / 2)

theorem State.clampShown_pwr (m : Nat) : (s.clampShown m).pwr = s.pwr := by
  rw [State.clampShown, State.setFld_pwr, State.setFld_pwr, State.setFlag_pwr]

theorem State.clampShown_raised (m : Nat) : (s.clampShown m).raised = s.raised := by
  rw [State.clampShown, State.setFld_raised, State.setFld_raised, State.setFlag_raised]

theorem State.clampRefresh_eq : s.clampRefresh =
    if s.clampMask &&& (2 ^ 9 - 1 - s.pwr.acting) = 0 then s.clampNoted.clampShown s.clampMask
    else (s.clampNoted.clampShown s.clampMask).raiseEv 19 := rfl

theorem State.clampRefresh_powerOnly : powerOnly s s.clampRefresh := by
  have h := ((((powerOnly.refl s).withPwr { s.pwr with acting := s.clampMask }).setFlag Reg.PWR_STATUS 63 (s.clampMask != 0)).setFld
    Reg.PWR_STATUS 62 56 (lowestReason s.clampMask)).setFld Reg.PWR_CLAMPLOG 8 1
    (((s.clampNoted.setFlag Reg.PWR_STATUS 63 (s.clampMask != 0)).setFld Reg.PWR_STATUS 62 56 (lowestReason s.clampMask)).fld
      Reg.PWR_CLAMPLOG 8 1 ||| s.clampMask / 2)
  rw [State.clampRefresh_eq]
  split
  · exact h
  · exact h.raiseEv 19

theorem State.clampRefresh_pwr : s.clampRefresh.pwr = { s.pwr with acting := s.clampMask } := by
  rw [State.clampRefresh_eq]
  split
  · rw [State.clampShown_pwr]; rfl
  · rw [State.raiseEv_pwr, State.clampShown_pwr]; rfl

theorem State.clampRefresh_raised : s.clampRefresh.raised =
    if s.clampMask &&& (2 ^ 9 - 1 - s.pwr.acting) = 0 then s.raised else s.raised ++ [19] := by
  rw [State.clampRefresh_eq]
  split
  · rw [State.clampShown_raised]; rfl
  · rw [State.raiseEv, State.clampShown_raised]; rfl

theorem State.clampRefresh_rd (a : Nat) : s.clampRefresh.rd a = (s.clampNoted.clampShown s.clampMask).rd a := by
  rw [State.clampRefresh_eq]
  split
  · rfl
  · rw [State.raiseEv_rd]

theorem State.clampRefresh_frame : sameRegsBut [Reg.PWR_STATUS, Reg.PWR_CLAMPLOG] s s.clampRefresh :=
  ((((sameRegsBut_refl _ s.clampNoted).setFlag (by simp) _ _).setFld (by simp) _ _ _).setFld (by simp) _ _ _).trans
    fun a _ => s.clampRefresh_rd a

theorem State.clampRefresh_rd_ne {a : Nat} (h : a ≠ Reg.PWR_STATUS) (h' : a ≠ Reg.PWR_CLAMPLOG) :
    s.clampRefresh.rd a = s.rd a := s.clampRefresh_frame a (by simp [h, h'])

/-- The fields of PWR_STATUS below REASON stay. -/
theorem State.clampRefresh_status {hi lo : Nat} (h : hi < 56) :
    s.clampRefresh.fld Reg.PWR_STATUS hi lo = s.fld Reg.PWR_STATUS hi lo := by
  rw [State.fld_congr (s.clampRefresh_rd _), State.clampShown, State.fld_setFld_ne _ _ _ _ _ _ (by decide),
    State.fld_setFld_disjoint _ _ _ _ _ _ _ (by decide) (by decide) (.inl h), State.setFlag,
    State.fld_setFld_disjoint _ _ _ _ _ _ _ (by decide) (by decide) (.inl (by omega))]
  rfl

theorem State.clampRefresh_clamped (h : s.clampMask ≠ 0) : s.clampRefresh.flag Reg.PWR_STATUS 63 = true := by
  have hother : (s.clampNoted.clampShown s.clampMask).fld Reg.PWR_STATUS 63 63 =
      (s.clampNoted.setFlag Reg.PWR_STATUS 63 (s.clampMask != 0)).fld Reg.PWR_STATUS 63 63 := by
    rw [State.clampShown, State.fld_setFld_ne _ _ _ _ _ _ (by decide),
      State.fld_setFld_disjoint _ _ _ _ _ _ _ (by decide) (by decide) (.inr (by decide))]
  rw [State.flag_congr (s.clampRefresh_rd _), State.flag, hother, ← State.flag,
    State.flag_setFlag_same _ _ _ _ (by decide)]
  simpa using h

/-- A flag inside a field that was set. -/
theorem State.flag_setFld_inside {a hi lo x k : Nat} (hlo : lo ≤ k) (hhi : k ≤ hi) (h : hi < 64) :
    (s.setFld a hi lo x).flag a k = x.testBit (k - lo) := by
  rw [State.flag_eq_testBit, State.toNat_setFld s a hi lo x (by omega) h, testBit_putBits _ _ _ _ _ (by omega), if_pos ⟨hlo, hhi⟩]

theorem State.clampRefresh_logged {k : Nat} (hlo : 1 ≤ k) (hhi : k ≤ 8) (h : s.clampMask.testBit k = true) :
    s.clampRefresh.flag Reg.PWR_CLAMPLOG k = true := by
  have hbit : (s.clampMask / 2).testBit (k - 1) = true := by
    rw [Nat.testBit_div_two, show k - 1 + 1 = k by omega, h]
  rw [State.flag_congr (s.clampRefresh_rd _), State.clampShown, State.flag_setFld_inside _ hlo hhi (by decide),
    Nat.testBit_or, hbit, Bool.or_true]

/-- A reason that begins to act raises PWR_CLAMP (19). -/
theorem State.clampRefresh_raises {k : Nat} (hk : k < 9) (h : s.clampMask.testBit k = true) (ha : s.pwr.acting < 512)
    (hk' : bitOf s.pwr.acting k = false) : s.clampRefresh.raised = s.raised ++ [19] := by
  rw [State.clampRefresh_raised, if_neg]
  have hfresh : (s.clampMask &&& (2 ^ 9 - 1 - s.pwr.acting)).testBit k = true := by
    rw [bitOf_eq_testBit] at hk'
    rw [Nat.testBit_and, h, show 2 ^ 9 - 1 - s.pwr.acting = 2 ^ 9 - (s.pwr.acting + 1) by omega,
      Nat.testBit_two_pow_sub_succ ha, hk']
    simp [hk]
  intro h0
  rw [h0, Nat.zero_testBit] at hfresh
  exact Bool.false_ne_true hfresh

end

/-- Which reasons the hardware throttles give. -/
theorem State.testBit_hardReasons (s : State) : s.hardReasons.testBit 1 = !s.pwr.junction.isEmpty ∧
    s.hardReasons.testBit 2 = s.pwr.droop ∧ s.hardReasons.testBit 3 = s.pwr.icc := by
  unfold State.hardReasons
  cases s.pwr.junction.isEmpty <;> cases s.pwr.droop <;> cases s.pwr.icc <;> decide

/-- A hardware throttle acts: it clamps, is logged, and raises the event if it has just begun (R480, R481). -/
def clampedBy (k : Nat) (s t : State) : Prop :=
  t.flag Reg.PWR_STATUS 63 = true ∧ t.flag Reg.PWR_CLAMPLOG k = true ∧
    (s.pwr.acting < 512 → bitOf s.pwr.acting k = false → t.raised = s.raised ++ [19]) ∧
    sameRegsBut [Reg.PWR_STATUS, Reg.PWR_CLAMPLOG] s t ∧ t.mem = s.mem

theorem clampedBy_throttle {s : State} {p : PwrSt} {k : Nat} (hp : p.acting = s.pwr.acting) (hlo : 1 ≤ k) (hhi : k ≤ 8)
    (h : { s with pwr := p }.hardReasons.testBit k = true) : clampedBy k s { s with pwr := p }.clampRefresh := by
  have hm : { s with pwr := p }.clampMask.testBit k = true := by rw [State.clampMask, Nat.testBit_or, h, Bool.true_or]
  refine ⟨State.clampRefresh_clamped _ fun h0 => ?_, State.clampRefresh_logged _ hlo hhi hm, fun ha hk => ?_,
    State.clampRefresh_frame { s with pwr := p }, (State.clampRefresh_powerOnly { s with pwr := p }).mem⟩
  · rw [h0, Nat.zero_testBit] at hm
    exact Bool.false_ne_true hm
  · exact State.clampRefresh_raises { s with pwr := p } (by omega) hm (hp ▸ ha) (hp ▸ hk)

/-! ## Hardware limits (R480) -/

theorem Map.put_ne_nil {α : Type} [DecidableEq α] {d v : α} (m : Map α) (k : Nat) (h : v ≠ d) : (Map.put d m k v).isEmpty = false := by
  rw [Map.put, if_neg h]
  cases m with
  | nil => rfl
  | cons e m =>
    rw [Map.insert]
    split
    · rfl
    · split <;> rfl

section
variable {s : State}

theorem junctionThrottle_completes (d : Fin 7) {x : Int} (h : tjMax ≤ x) :
    completes (.junctionThrottle d x) s fun t => clampedBy 1 s t ∧
      Map.get 0 t.pwr.junction d = if tjMax + 5 ≤ x then 2 else 1 := by
  refine ⟨_, if_pos h, clampedBy_throttle rfl (by decide) (by decide) ?_, ?_⟩
  · rw [(State.testBit_hardReasons _).1, Map.put_ne_nil _ _ (by split <;> decide)]
    rfl
  · rw [State.clampRefresh_pwr, Map.get_put, if_pos rfl]

theorem droop_completes : completes .droop s fun t => clampedBy 2 s t ∧ t.pwr.droop = true :=
  ⟨_, rfl, clampedBy_throttle rfl (by decide) (by decide) (State.testBit_hardReasons _).2.1, by rw [State.clampRefresh_pwr]⟩

theorem icc_completes : completes .icc s fun t => clampedBy 3 s t ∧ t.pwr.icc = true :=
  ⟨_, rfl, clampedBy_throttle rfl (by decide) (by decide) (State.testBit_hardReasons _).2.2, by rw [State.clampRefresh_pwr]⟩

theorem throttleRelease_junction (d : Fin 7) : completes (.throttleRelease 0 d) s fun t =>
    Map.get 0 t.pwr.junction d = 0 ∧ t.pwr.droop = s.pwr.droop ∧ t.pwr.icc = s.pwr.icc ∧ t.mem = s.mem :=
  ⟨_, rfl, by simp [State.clampRefresh_pwr], by simp [State.clampRefresh_pwr], by simp [State.clampRefresh_pwr], (State.clampRefresh_powerOnly _).mem⟩

theorem throttleRelease_droop (d : Fin 7) : completes (.throttleRelease 1 d) s fun t =>
    t.pwr.droop = false ∧ t.pwr.junction = s.pwr.junction ∧ t.mem = s.mem :=
  ⟨_, rfl, by simp [State.clampRefresh_pwr], by simp [State.clampRefresh_pwr], (State.clampRefresh_powerOnly _).mem⟩

theorem throttleRelease_current (d : Fin 7) : completes (.throttleRelease 2 d) s fun t =>
    t.pwr.icc = false ∧ t.pwr.junction = s.pwr.junction ∧ t.mem = s.mem :=
  ⟨_, rfl, by simp [State.clampRefresh_pwr], by simp [State.clampRefresh_pwr], (State.clampRefresh_powerOnly _).mem⟩

end

end Sys2Proof.Machine

namespace Sys2Proof.Machine

/-! ## Trims (R20, R486) -/

theorem signed_wrap_trim {x : Int} (h : -10 ≤ x) (h' : x ≤ 10) : signed 8 (wrap 8 x % 2 ^ 8) = x := by
  simp only [signed, wrap]
  norm_num
  split <;> omega

theorem clampInt_mem {lo hi : Int} (h : lo ≤ hi) (x : Int) : lo ≤ clampInt lo hi x ∧ clampInt lo hi x ≤ hi := by
  unfold clampInt
  omega

section
variable (s : State)

theorem State.setTrim_rd_ne {a n : Nat} (t : Int) (h : a ≠ Reg.PWR_TRIM n) : (s.setTrim n t).rd a = s.rd a :=
  State.rd_setFld_ne _ _ _ _ h

theorem State.trim_setTrim (n : Nat) (t : Int) : (s.setTrim n t).trim n = clampInt (-10) 10 t := by
  obtain ⟨hlo, hhi⟩ := clampInt_mem (lo := -10) (hi := 10) (by decide) t
  rw [State.trim, State.setTrim, State.fld_setFld_same _ _ _ _ _ (by decide) (by decide)]
  exact signed_wrap_trim hlo hhi

theorem State.pinned_setTrim (n : Nat) (t : Int) : (s.setTrim n t).pinned n = s.pinned n := by
  rw [State.pinned, State.setTrim, State.flag, State.fld_setFld_disjoint _ _ _ _ _ _ _ (by decide) (by decide) (.inr (by decide))]
  rfl

/-- Looking at the reasons that the trims give changes no register. -/
theorem State.trimRange_rd (a : Nat) : s.trimRange.rd a = s.rd a := rfl

theorem State.trimRange_frame (l : List Nat) : sameRegsBut l s s.trimRange := fun a _ => s.trimRange_rd a

theorem State.trimRange_powerOnly : powerOnly s s.trimRange := (powerOnly.refl s).withPwr _

end

theorem trim_ne_status (n : Nat) : Reg.PWR_TRIM n ≠ Reg.PWR_STATUS := by simp only [Reg.PWR_TRIM, Reg.PWR_STATUS]; omega

theorem trim_ne_clampLog (n : Nat) : Reg.PWR_TRIM n ≠ Reg.PWR_CLAMPLOG := by simp only [Reg.PWR_TRIM, Reg.PWR_CLAMPLOG]; omega

theorem pwrTrimWrite_completes (n : Fin 6) (v : Word) (s : State) : completes (.pwrTrimWrite n v) s fun t =>
    t.trim n = max (-10) (min 10 (signed 8 (v.toNat % 256))) ∧ t.pinned n = bitOf v.toNat 8 ∧
      sameRegsBut [Reg.PWR_TRIM n, Reg.PWR_STATUS, Reg.PWR_CLAMPLOG] s t ∧ t.mem = s.mem := by
  let u := (s.setFlag (Reg.PWR_TRIM n) 8 (bitOf v.toNat 8)).setTrim n (signed 8 (v.toNat % 256))
  have hrd : u.trimRange.clampRefresh.rd (Reg.PWR_TRIM n) = u.rd (Reg.PWR_TRIM n) :=
    State.clampRefresh_rd_ne _ (trim_ne_status n) (trim_ne_clampLog n)
  have hu : powerOnly s u := ((powerOnly.refl s).setFlag _ _ _).setFld _ _ _ _
  refine ⟨u.trimRange.clampRefresh, rfl, ?_, ?_, ?_, ?_⟩
  · rw [State.trim, State.fld_congr hrd]
    exact State.trim_setTrim _ _ _
  · rw [State.pinned, State.flag_congr hrd]
    exact (State.pinned_setTrim _ _ _).trans (State.flag_setFlag_same _ _ _ _ (by decide))
  · have hset : sameRegsBut [Reg.PWR_TRIM n, Reg.PWR_STATUS, Reg.PWR_CLAMPLOG] s u :=
      ((sameRegsBut_refl _ s).setFlag (by simp) _ _).setFld (by simp) _ _ _
    exact hset.trans ((u.trimRange_frame _).trans (u.trimRange.clampRefresh_frame.mono (by simp)))
  · exact (hu.trans (u.trimRange_powerOnly.trans u.trimRange.clampRefresh_powerOnly)).mem

/-! ## The governor (R482, R483) -/

/-- Registers that a tick of the governor may write. -/
def governorRegs : List Nat := [Reg.PWR_STATUS, Reg.PWR_CAP, Reg.PWR_CLAMPLOG] ++ (List.range 6).map Reg.PWR_TRIM

/-- What the HBM share and the trims of one tick keep: VCORE and the rest of PWR_STATUS, PWR_CAP but for HBMPCT, the tick's time, the
thermal history. -/
structure GovernorKeeps (s t : State) : Prop where
  regs : sameRegsBut governorRegs s t
  status : t.rd Reg.PWR_STATUS = s.rd Reg.PWR_STATUS
  cap : ∀ hi lo, 8 ≤ lo → t.fld Reg.PWR_CAP hi lo = s.fld Reg.PWR_CAP hi lo
  only : powerOnly s t
  tickAt : t.pwr.tickAt = s.pwr.tickAt
  history : t.pwr.history = s.pwr.history

theorem GovernorKeeps.trans {s t u : State} (h : GovernorKeeps s t) (h' : GovernorKeeps t u) : GovernorKeeps s u where
  regs := h.regs.trans h'.regs
  status := h'.status.trans h.status
  cap hi lo hlo := (h'.cap hi lo hlo).trans (h.cap hi lo hlo)
  only := h.only.trans h'.only
  tickAt := h'.tickAt.trans h.tickAt
  history := h'.history.trans h.history

section
variable (s : State)

theorem GovernorKeeps.refl : GovernorKeeps s s :=
  ⟨sameRegsBut_refl _ s, rfl, fun _ _ _ => rfl, powerOnly.refl s, rfl, rfl⟩

/-- Power's own fields change, the tick's time and the history aside. -/
theorem GovernorKeeps.withPwr {p : PwrSt} (ht : p.tickAt = s.pwr.tickAt) (hh : p.history = s.pwr.history) :
    GovernorKeeps s { s with pwr := p } :=
  ⟨sameRegsBut_refl _ s, rfl, fun _ _ _ => rfl, (powerOnly.refl s).withPwr p, ht, hh⟩

/-- So they do while HBMPCT is set. -/
theorem GovernorKeeps.setPct {p : PwrSt} (ht : p.tickAt = s.pwr.tickAt) (hh : p.history = s.pwr.history) (x : Nat) :
    GovernorKeeps s ({ s with pwr := p }.setFld Reg.PWR_CAP 7 0 x) where
  regs := sameRegsBut.setFld (t := { s with pwr := p }) (sameRegsBut_refl _ s) (by simp [governorRegs]) _ _ _
  status := State.rd_setFld_ne _ _ _ _ (by decide)
  cap hi lo h := State.fld_setFld_disjoint _ _ _ _ _ _ _ (by decide) (by decide) (.inr (by omega))
  only := ((powerOnly.refl s).withPwr p).setFld _ _ _ _
  tickAt := by rw [State.setFld_pwr]; exact ht
  history := by rw [State.setFld_pwr]; exact hh

theorem State.hbmPct_keeps : GovernorKeeps s s.hbmPct := by
  unfold State.hbmPct
  dsimp only
  split
  · split
    · refine .setPct s ?_ ?_ _ <;> rfl
    · exact .refl s
  · split
    · refine .setPct s ?_ ?_ _ <;> rfl
    · split
      · exact .withPwr s rfl rfl
      · split
        · refine .setPct s ?_ ?_ _ <;> rfl
        · exact .refl s

theorem GovernorKeeps.setTrim {n : Nat} (hn : n < 6) (x : Int) : GovernorKeeps s (s.setTrim n x) where
  regs := (sameRegsBut_refl _ s).setFld (List.mem_append_right _ (List.mem_map_of_mem (List.mem_range.mpr hn))) _ _ _
  status := State.setTrim_rd_ne _ _ (trim_ne_status n).symm
  cap hi lo _ := State.fld_congr (State.setTrim_rd_ne _ _ (by simp only [Reg.PWR_CAP, Reg.PWR_TRIM]; omega)) _ _
  only := (powerOnly.refl s).setFld _ _ _ _
  tickAt := by rw [State.setTrim, State.setFld_pwr]
  history := by rw [State.setTrim, State.setFld_pwr]

/-- A relation that every single change keeps is kept by a change for each element of a list. -/
theorem State.each_rel {β : Type} {R : State → State → Prop} (hrefl : ∀ t, R t t) (htrans : ∀ {t u v}, R t u → R u v → R t v)
    {f : State → β → State} (l : List β) (hf : ∀ t, ∀ x ∈ l, R t (f t x)) (s : State) : R s (s.each l f) := by
  induction l generalizing s with
  | nil => exact hrefl s
  | cons x l ih =>
    exact htrans (hf s x List.mem_cons_self) (ih (fun t y hy => hf t y (List.mem_cons_of_mem _ hy)) _)

theorem State.trimTick_keeps (tj : List Int) : GovernorKeeps s (s.trimTick tj) := by
  unfold State.trimTick
  refine (State.each_rel (R := GovernorKeeps) .refl .trans _ (fun t f hf => ?_) s).trans (.withPwr _ rfl rfl)
  dsimp only
  split
  · exact .refl t
  · exact .setTrim t (List.mem_range.mp hf) _

end

/-- The state on which a tick sets VCORE: the tick is counted, the HBM share and the trims are brought up to date. -/
def State.governed (s : State) (tj : List Int) : State :=
  ({ s with
    fresh := s.fresh + 1
    pwr := { s.pwr with
      tickAt := s.raw
      ticks := if s.pwr.history then s.pwr.ticks else s.pwr.ticks + 1
      history := s.pwr.history || decide (1000 ≤ s.pwr.ticks) } }.hbmPct).trimTick tj

/-- The voltage from which a tick steps: the present one, or where there is none 700 mV or, with thermal history, a free one. -/
def State.governorStart (s : State) (f : Nat) : Int :=
  if s.vcore != 0 then s.vcore else if s.pwr.history then 600 + 5 * ((Config.freeWord f).toNat % 61 : Nat) else 700

/-- The hottest sensor. -/
def hottestOf (tj : List Int) (common : Int) : Int := (List.range 6).foldl (fun m k => max m (tj.getD k 0)) common

/-- The step that a power limit asks for. -/
def State.governorStep (s : State) (lim mw : Nat) (tj : List Int) (common : Int) : Int :=
  vStep lim mw (decide (tjSoft ≤ common)) (decide (hottestOf tj common < tjSoft - 3) && s.pwr.history)

/-- The target before it is held in range: a step from the start, or 700 mV without thermal history (R482, R483). -/
def State.governorTarget (s : State) (f mw : Nat) (tj : List Int) (common : Int) : Int :=
  if s.pwr.history then s.governorStart f + s.governorStep (min s.envelopeMw s.wcapMw) mw tj common else 700

/-- The target held in the range of PWR_CAP and in 600 to 900 mV. -/
def State.governorVolts (s : State) (v : Int) : Int :=
  clampInt 600 900 (clampInt (s.fld Reg.PWR_CAP 31 16) (s.fld Reg.PWR_CAP 47 32) v)

/-- The reasons that the limits of PWR_CAP give (R481). -/
def State.governorReasons (s : State) (v : Int) (mw : Nat) (tj : List Int) (common : Int) : State :=
  ((s.softReason 4 (decide ((s.fld Reg.PWR_CAP 47 32 : Int) < v))).softReason 5 (decide (v < (s.fld Reg.PWR_CAP 31 16 : Int)))).softReason 6
    (decide (s.wcapMw < s.envelopeMw) &&
      s.governorStep s.envelopeMw mw tj common != s.governorStep (min s.envelopeMw s.wcapMw) mw tj common)

/-- VCORE, the hottest sensor and the history are shown. -/
def State.governorSet (s : State) (v hottest : Int) : State :=
  ((s.setFld Reg.PWR_STATUS 47 32 v.toNat).setFld Reg.PWR_STATUS 31 24 (wrap 8 hottest)).setFlag Reg.PWR_STATUS 54 s.pwr.history

/-- They are shown, and the reasons brought up to date. -/
def State.governorShown (s : State) (v hottest : Int) : State := (s.governorSet v hottest).trimRange.clampRefresh

section
variable {mw : Nat} {tj : List Int} {common : Int} {s : State}

theorem exec_governorTick_not (h : s.cstate ≠ 3 ∨ s.raw < s.pwr.tickAt + 1000000) :
    exec (.governorTick mw tj common) s = .next s := if_pos (by simpa using h)

theorem exec_governorTick (hup : s.cstate = 3) (hdue : s.pwr.tickAt + 1000000 ≤ s.raw) :
    exec (.governorTick mw tj common) s =
      let u := s.governed tj
      let v := u.governorTarget s.fresh mw tj common
      .next ((u.governorReasons v mw tj common).governorShown (u.governorVolts v) (hottestOf tj common)) :=
  if_neg (by simp [hup, hdue])

end

section
variable (s : State) (v hottest : Int)

theorem State.governorSet_powerOnly : powerOnly s (s.governorSet v hottest) :=
  (((powerOnly.refl s).setFld _ _ _ _).setFld _ _ _ _).setFlag _ _ _

theorem State.governorSet_pwr : (s.governorSet v hottest).pwr = s.pwr := by
  rw [State.governorSet, State.setFlag_pwr, State.setFld_pwr, State.setFld_pwr]

theorem State.governorSet_frame : sameRegsBut [Reg.PWR_STATUS, Reg.PWR_CLAMPLOG] s (s.governorSet v hottest) :=
  (((sameRegsBut_refl _ s).setFld (by simp) _ _ _).setFld (by simp) _ _ _).setFlag (by simp) _ _

theorem State.governorSet_history : (s.governorSet v hottest).flag Reg.PWR_STATUS 54 = s.pwr.history := by
  rw [State.governorSet, State.flag_setFlag_same _ _ _ _ (by decide)]

theorem State.governorSet_vcore : (s.governorSet v hottest).vcore = v.toNat % 2 ^ 16 := by
  rw [State.vcore, State.governorSet, State.setFlag,
    State.fld_setFld_disjoint _ _ _ _ _ _ _ (by decide) (by decide) (.inl (by decide)),
    State.fld_setFld_disjoint _ _ _ _ _ _ _ (by decide) (by decide) (.inr (by decide)),
    State.fld_setFld_same _ _ _ _ _ (by decide) (by decide)]

theorem State.governorShown_powerOnly : powerOnly s (s.governorShown v hottest) :=
  (s.governorSet_powerOnly v hottest).trans ((State.trimRange_powerOnly _).trans (State.clampRefresh_powerOnly _))

theorem State.governorShown_frame : sameRegsBut [Reg.PWR_STATUS, Reg.PWR_CLAMPLOG] s (s.governorShown v hottest) :=
  (s.governorSet_frame v hottest).trans (((s.governorSet v hottest).trimRange_frame _).trans (State.clampRefresh_frame _))

theorem State.governorShown_status {hi lo : Nat} (h : hi < 56) :
    (s.governorShown v hottest).fld Reg.PWR_STATUS hi lo = (s.governorSet v hottest).fld Reg.PWR_STATUS hi lo :=
  (State.clampRefresh_status (s.governorSet v hottest).trimRange h).trans (State.fld_congr (State.trimRange_rd _ _) _ _)

theorem State.governorShown_vcore : (s.governorShown v hottest).vcore = v.toNat % 2 ^ 16 :=
  (s.governorShown_status v hottest (by decide)).trans (s.governorSet_vcore v hottest)

theorem State.governorShown_history : (s.governorShown v hottest).flag Reg.PWR_STATUS 54 = s.pwr.history := by
  rw [State.flag, s.governorShown_status v hottest (by decide)]
  exact s.governorSet_history v hottest

theorem State.governorShown_pwr : (s.governorShown v hottest).pwr.tickAt = s.pwr.tickAt ∧
    (s.governorShown v hottest).pwr.history = s.pwr.history := by
  have h : ∀ t : State, t.trimRange.clampRefresh.pwr.tickAt = t.pwr.tickAt ∧ t.trimRange.clampRefresh.pwr.history = t.pwr.history :=
    fun t => by rw [State.clampRefresh_pwr]; exact ⟨rfl, rfl⟩
  have := h (s.governorSet v hottest)
  rwa [State.governorSet_pwr] at this

end

/-- What a tick starts from: its time and the history are noted; VCORE, PWR_CTRL and the limits of PWR_CAP are as they were. -/
theorem State.governed_keeps (s : State) (tj : List Int) : sameRegsBut governorRegs s (s.governed tj) ∧
    (s.governed tj).vcore = s.vcore ∧ (∀ hi lo, 8 ≤ lo → (s.governed tj).fld Reg.PWR_CAP hi lo = s.fld Reg.PWR_CAP hi lo) ∧
    (s.governed tj).mem = s.mem ∧ (s.governed tj).faces = s.faces ∧ (s.governed tj).pwr.tickAt = s.raw ∧
    (s.governed tj).pwr.history = (s.pwr.history || decide (1000 ≤ s.pwr.ticks)) := by
  have h := (State.hbmPct_keeps { s with
    fresh := s.fresh + 1
    pwr := { s.pwr with
      tickAt := s.raw
      ticks := if s.pwr.history then s.pwr.ticks else s.pwr.ticks + 1
      history := s.pwr.history || decide (1000 ≤ s.pwr.ticks) } }).trans (State.trimTick_keeps _ tj)
  exact ⟨h.regs, State.fld_congr h.status _ _, h.cap, h.only.mem, h.only.faces, h.tickAt, h.history⟩

theorem State.governorStart_mem (s : State) (f : Nat) : (s.vcore ≠ 0 → s.governorStart f = s.vcore) ∧
    (s.vcore = 0 → 600 ≤ s.governorStart f ∧ s.governorStart f ≤ 900) := by
  unfold State.governorStart
  refine ⟨fun h => if_pos (by simpa using h), fun h => ?_⟩
  rw [if_neg (by simp [h])]
  split
  · omega
  · decide

theorem State.governorVolts_mem (s : State) (v : Int) : 600 ≤ s.governorVolts v ∧ s.governorVolts v ≤ 900 :=
  clampInt_mem (by decide) _

theorem governorTick_completes {mw : Nat} {tj : List Int} {common : Int} {s : State} (hup : s.cstate = 3)
    (hdue : s.pwr.tickAt + 1000000 ≤ s.raw) : completes (.governorTick mw tj common) s fun t =>
      let hist := s.pwr.history || decide (1000 ≤ s.pwr.ticks)
      let hottest := (List.range 6).foldl (fun m k => max m (tj.getD k 0)) common
      t.pwr.tickAt = s.raw ∧ t.pwr.history = hist ∧ t.flag Reg.PWR_STATUS 54 = hist ∧ t.mem = s.mem ∧ t.faces = s.faces ∧
      sameRegsBut governorRegs s t ∧
      ∃ v0 : Int, (s.vcore ≠ 0 → v0 = s.vcore) ∧ (s.vcore = 0 → 600 ≤ v0 ∧ v0 ≤ 900) ∧
        let v := if hist then v0 + vStep (min s.envelopeMw s.wcapMw) mw (decide (tjSoft ≤ common)) (decide (hottest < tjSoft - 3))
          else 700
        (t.vcore : Int) = max 600 (min 900 (max (s.fld Reg.PWR_CAP 31 16 : Int) (min (s.fld Reg.PWR_CAP 47 32 : Int) v))) := by
  obtain ⟨hregs, hvcore, hcap, hmem, hfaces, htick, hhist⟩ := s.governed_keeps tj
  obtain ⟨hstart, hfree⟩ := (s.governed tj).governorStart_mem s.fresh
  have hctrl : (s.governed tj).rd Reg.PWR_CTRL = s.rd Reg.PWR_CTRL := hregs _ (by decide)
  have henv : (s.governed tj).envelopeMw = s.envelopeMw := by rw [State.envelopeMw, State.fld_congr hctrl, State.envelopeMw]
  have hwcap : (s.governed tj).wcapMw = s.wcapMw := by rw [State.wcapMw, hcap _ _ (by decide), State.wcapMw]
  refine ⟨_, exec_governorTick hup hdue, ?_⟩
  generalize s.governed tj = u at *
  have hv := u.governorVolts_mem (u.governorTarget s.fresh mw tj common)
  have honly : powerOnly u (u.governorReasons (u.governorTarget s.fresh mw tj common) mw tj common) :=
    (((powerOnly.refl u).withPwr _).withPwr _).withPwr _
  have hreasons : ∀ a, (u.governorReasons (u.governorTarget s.fresh mw tj common) mw tj common).rd a = u.rd a := fun _ => rfl
  have hpwr : (u.governorReasons (u.governorTarget s.fresh mw tj common) mw tj common).pwr.tickAt = u.pwr.tickAt ∧
      (u.governorReasons (u.governorTarget s.fresh mw tj common) mw tj common).pwr.history = u.pwr.history := ⟨rfl, rfl⟩
  dsimp only
  generalize u.governorReasons (u.governorTarget s.fresh mw tj common) mw tj common = w at *
  obtain ⟨hwt, hwh⟩ := w.governorShown_pwr (u.governorVolts (u.governorTarget s.fresh mw tj common)) (hottestOf tj common)
  have hshown := honly.trans (w.governorShown_powerOnly (u.governorVolts (u.governorTarget s.fresh mw tj common)) (hottestOf tj common))
  refine ⟨hwt.trans (hpwr.1.trans htick), hwh.trans (hpwr.2.trans hhist), ?_, hshown.mem.trans hmem, hshown.faces.trans hfaces, ?_,
    u.governorStart s.fresh, ?_, ?_, ?_⟩
  · rw [State.governorShown_history, hpwr.2, hhist]
  · refine hregs.trans (sameRegsBut.trans (fun a _ => hreasons a) ((w.governorShown_frame _ _).mono ?_))
    simp [governorRegs]
  · rwa [← hvcore]
  · rwa [← hvcore]
  · have hvolts : ((w.governorShown (u.governorVolts (u.governorTarget s.fresh mw tj common)) (hottestOf tj common)).vcore : Int) =
        u.governorVolts (u.governorTarget s.fresh mw tj common) := by
      rw [State.governorShown_vcore]
      omega
    rw [hvolts, State.governorVolts, hcap _ _ (by decide), hcap _ _ (by decide), State.governorTarget, State.governorStep, hhist, henv, hwcap]
    cases (s.pwr.history || decide (1000 ≤ s.pwr.ticks))
    · rfl
    · rw [Bool.and_true]
      rfl

end Sys2Proof.Machine

namespace Sys2Proof.Machine

/-! ## Recording a device fault (R449, R457) -/

/-- `t` differs from `s` in its jobs only. -/
def jobsOnly (s t : State) : Prop := ∃ js, t = { s with jobs := js }

theorem jobsOnly.rd {s t : State} (h : jobsOnly s t) (a : Nat) : t.rd a = s.rd a := by obtain ⟨_, rfl⟩ := h; rfl

theorem jobsOnly.raised {s t : State} (h : jobsOnly s t) : t.raised = s.raised := by obtain ⟨_, rfl⟩ := h; rfl

theorem State.modJob_jobsOnly (s : State) (j : Nat) (f : JobSt → JobSt) : jobsOnly s (s.modJob j f) := by
  unfold State.modJob
  split
  · exact ⟨_, rfl⟩
  · exact ⟨s.jobs, rfl⟩

theorem State.latchFault_jobsOnly (s : State) (src : Nat) (face : Option Nat) : jobsOnly s (s.latchFault src face) := by
  refine State.each_rel (R := jobsOnly) (fun t => ⟨t.jobs, rfl⟩) ?_ _ (fun t j _ => t.modJob_jobsOnly j _) s
  rintro t _ _ ⟨_, rfl⟩ ⟨_, rfl⟩
  exact ⟨_, rfl⟩

section
variable (s : State) (src face job flags detail : Nat)

theorem hfltLog_ne {i j k : Nat} (h : j ≠ k) : Reg.HFLT_LOG i j ≠ Reg.HFLT_LOG i k := by
  simp only [Reg.HFLT_LOG]
  omega

theorem hfltLog_ne_logSeq (i j : Nat) : Reg.HFLT_LOG i j ≠ Reg.HFLT_LOGSEQ := by
  simp only [Reg.HFLT_LOG, Reg.HFLT_LOGSEQ]
  omega

theorem hfltLog_ne_status (i j : Nat) : Reg.HFLT_LOG i j ≠ Reg.HFLT_STATUS := by
  simp only [Reg.HFLT_LOG, Reg.HFLT_STATUS]
  omega

/-- The four words of the next log entry. -/
def State.logWords : State :=
  let i := s.fld Reg.HFLT_LOGSEQ 31 0 % 16
  (((s.wr (Reg.HFLT_LOG i 0) (BitVec.ofNat 64 (s.raw % 2 ^ 32))).wr (Reg.HFLT_LOG i 1)
    (BitVec.ofNat 64 (s.raw / 2 ^ 32 % 2 ^ 32))).wr (Reg.HFLT_LOG i 2)
    (BitVec.ofNat 64 (src + face * 2 ^ 8 + job * 2 ^ 16 + flags * 2 ^ 24))).wr (Reg.HFLT_LOG i 3) (BitVec.ofNat 64 (detail % 2 ^ 32))

/-- The entry's copy in the compute window. -/
def State.logCopy (t : State) : State :=
  let k := homeSpace + 0xFE000 + 16 * (s.fld Reg.HFLT_LOGSEQ 31 0 % 16)
  ((t.storeNat k 8 t.raw).storeNat (k + 8) 4 (src + face * 2 ^ 8 + job * 2 ^ 16 + flags * 2 ^ 24)).storeNat (k + 12) 4 detail

theorem State.logFault_eq : s.logFault src face job flags detail =
    (s.logCopy src face job flags detail (s.logWords src face job flags detail)).seqFld Reg.HFLT_LOGSEQ 31 0 := rfl

theorem State.logCopy_rd (t : State) (a : Nat) : (s.logCopy src face job flags detail t).rd a = t.rd a := by
  rw [State.logCopy, State.storeNat, State.store_rd, State.storeNat, State.store_rd, State.storeNat, State.store_rd]

theorem State.logFault_logSeq : (s.logFault src face job flags detail).fld Reg.HFLT_LOGSEQ 31 0 =
    (s.fld Reg.HFLT_LOGSEQ 31 0 + 1) % 2 ^ 32 := by
  have h : (s.logCopy src face job flags detail (s.logWords src face job flags detail)).rd Reg.HFLT_LOGSEQ =
      s.rd Reg.HFLT_LOGSEQ := by
    simp only [State.logCopy_rd, State.logWords, State.rd_wr, (hfltLog_ne_logSeq _ _).symm, if_false]
  rw [State.logFault_eq, State.seqFld, State.fld_setFld_same _ _ _ _ _ (by decide) (by decide), State.fld_congr h]

theorem State.logFault_word2 : (s.logFault src face job flags detail).rd (Reg.HFLT_LOG (s.fld Reg.HFLT_LOGSEQ 31 0 % 16) 2) =
    BitVec.ofNat 64 (src + face * 2 ^ 8 + job * 2 ^ 16 + flags * 2 ^ 24) := by
  rw [State.logFault_eq, State.seqFld, State.rd_setFld_ne _ _ _ _ (hfltLog_ne_logSeq _ _), State.logCopy_rd, State.logWords]
  simp only [State.rd_wr, hfltLog_ne (j := 2) (k := 3) (by decide), if_false, if_true]

theorem State.logFault_raised : (s.logFault src face job flags detail).raised = s.raised := by
  rw [State.logFault_eq, State.seqFld, State.setFld_raised, State.logCopy, State.storeNat, State.store_raised, State.storeNat,
    State.store_raised, State.storeNat, State.store_raised, State.logWords, State.wr_raised, State.wr_raised, State.wr_raised,
    State.wr_raised]

theorem State.logFault_status : (s.logFault src face job flags detail).rd Reg.HFLT_STATUS = s.rd Reg.HFLT_STATUS := by
  rw [State.logFault_eq, State.seqFld, State.rd_setFld_ne _ _ _ _ (by decide), State.logCopy_rd, State.logWords]
  simp only [State.rd_wr, (hfltLog_ne_status _ _).symm, if_false]

end

/-- A device fault without a Face is logged, its event raised, and latched by every job; it is the last fault. -/
def State.faultNoted (s : State) (src detail : Nat) : State :=
  (((s.logFault src 0xFF 0xFF 0 detail).raiseEv 146).latchFault src none).setFld Reg.HFLT_STATUS 7 0 src

/-- A compute-side reset becomes due, unless one is under way or due already, or CSTATE is FAILED (R449). -/
def State.startReset (t : State) : State :=
  if t.cstate = 1 ∨ t.safe.resetDue ∨ t.cstate = 4 then t else { t with safe := { t.safe with
    resetDue := true
    faultAt := t.raw } }

section
variable (s : State) (src detail : Nat)

theorem State.fault_device (h : faultKind src = .device) :
    s.fault src none none false detail = (s.faultNoted src detail).startReset := by
  simp only [State.fault, ite_self, Option.isSome_none, Option.getD_none, Bool.and_false, Bool.false_and,
    Bool.false_eq_true, if_false, Nat.add_zero, h]
  rfl

/-- Before the last fault is noted, its log entry and its event are there. -/
theorem State.faultNoted_spec : ∃ u : State, s.faultNoted src detail = u.setFld Reg.HFLT_STATUS 7 0 src ∧
    (∀ a, u.rd a = (s.logFault src 0xFF 0xFF 0 detail).rd a) ∧ u.raised = s.raised ++ [146] := by
  have h := ((s.logFault src 0xFF 0xFF 0 detail).raiseEv 146).latchFault_jobsOnly src none
  refine ⟨_, rfl, fun a => ?_, ?_⟩
  · rw [h.rd, State.raiseEv_rd]
  · rw [h.raised, State.raiseEv, s.logFault_raised]

theorem State.faultNoted_logged (hsrc : src < 256) : faultLogged src s (s.faultNoted src detail) ∧
    (s.faultNoted src detail).fld Reg.HFLT_STATUS 7 0 = src ∧ (s.faultNoted src detail).cstate = s.cstate := by
  obtain ⟨u, heq, hrd, hraised⟩ := s.faultNoted_spec src detail
  rw [heq]
  refine ⟨⟨?_, ?_, ?_⟩, ?_, ?_⟩
  · rw [State.fld_setFld_ne _ _ _ _ _ _ (by decide), State.fld_congr (hrd _), State.logFault_logSeq]
  · rw [State.fld_setFld_ne _ _ _ _ _ _ (hfltLog_ne_status _ _), State.fld_congr (hrd _), State.fld, State.logFault_word2]
    simp only [bits, BitVec.toNat_ofNat]
    omega
  · rw [State.setFld_raised, hraised]
    exact List.mem_append_right _ (List.mem_singleton_self _)
  · rw [State.fld_setFld_same _ _ _ _ _ (by decide) (by decide)]
    exact Nat.mod_eq_of_lt hsrc
  · rw [State.cstate, State.fld_setFld_disjoint _ _ _ _ _ _ _ (by decide) (by decide) (.inr (by decide)), State.fld_congr (hrd _),
      State.fld_congr (s.logFault_status _ _ _ _ _), State.cstate]

theorem State.fault_deviceFault (h : faultKind src = .device) (hsrc : src < 256) :
    deviceFault src s (s.fault src none none false detail) := by
  obtain ⟨hlog, hlast, hcstate⟩ := s.faultNoted_logged src detail hsrc
  rw [State.fault_device _ _ _ h, State.startReset, hcstate]
  generalize s.faultNoted src detail = u at *
  split
  case isTrue hno =>
    refine ⟨hlog, hlast, fun h1 h4 => ?_⟩
    rcases hno with h | h | h
    · exact absurd h h1
    · exact h
    · exact absurd h h4
  case isFalse => exact ⟨hlog, hlast, fun _ _ => rfl⟩

end

/-! ## Supplies and trips (R18, R480, R520 to R522) -/

section
variable {s : State}

theorem State.supplyFault_deviceFault (s : State) (detail : Nat) : deviceFault 0x0D s (s.supplyFault detail) :=
  s.fault_deviceFault _ _ (by decide) (by decide)

theorem junctionTrip_completes (d : Fin 7) {x : Int} (h : tjMax + 10 ≤ x) :
    completes (.junctionTrip d x) s (deviceFault 0x0D s) :=
  ⟨_, if_pos ⟨h, d.isLt⟩, s.fault_deviceFault _ _ (by decide) (by decide)⟩

theorem supply_fault {c : BitVec 4} (h : c.toNat < 3 ∨ (c = 3 ∧ s.pwr.coreEn = true) ∨
    (c = 4 ∧ s.pwr.coreEn = true ∧ s.pwr.pgCore = false ∧ s.pwr.coreEnAt + 10000000 ≤ s.raw)) :
    completes (.supply c) s (deviceFault 0x0D s) := by
  rcases h with h | ⟨rfl, hen⟩ | ⟨rfl, hen, hpg, hlate⟩
  · have hc : c = 0 ∨ c = 1 ∨ c = 2 := by bv_omega
    rcases hc with rfl | rfl | rfl
    · exact ⟨_, rfl, s.supplyFault_deviceFault 1⟩
    · exact ⟨_, rfl, s.supplyFault_deviceFault 3⟩
    · exact ⟨_, rfl, s.supplyFault_deviceFault 4⟩
  · exact ⟨_, if_pos hen, State.supplyFault_deviceFault { s with pwr := { s.pwr with pgCore := false } } 5⟩
  · exact ⟨_, if_pos (by simp [hen, hpg, hlate]), s.supplyFault_deviceFault 6⟩

/-- `t` differs from `s` in registers, in the permit's own fields and in the events raised only. -/
def permitOnly (s t : State) : Prop := ∃ r p e, t = { s with
  regs := r
  permit := p
  raised := e }

/-- The permit no longer toggles, nor is it armed. -/
def State.permitOff (s : State) : State :=
  { s with permit := { s.permit with
    armedAt := none
    keyAt := none } }.setFlag Reg.PERMIT_STATUS 31 false

theorem State.permitOff_frame (s : State) : sameRegsBut [Reg.PERMIT_STATUS] s s.permitOff :=
  sameRegsBut.setFlag (t := { s with permit := { s.permit with
    armedAt := none
    keyAt := none } }) (sameRegsBut_refl _ s) (List.mem_singleton_self _) _ _

theorem permitOnly.setFld {s t : State} (h : permitOnly s t) (a hi lo x : Nat) : permitOnly s (t.setFld a hi lo x) := by
  obtain ⟨_, _, _, rfl⟩ := h
  exact ⟨_, _, _, rfl⟩

theorem State.permitOff_permitOnly (s : State) : permitOnly s s.permitOff := by
  have h : permitOnly s { s with permit := { s.permit with
      armedAt := none
      keyAt := none } } := ⟨s.regs, _, s.raised, rfl⟩
  exact h.setFld _ _ _ _

theorem permitOnly.mem {s t : State} (h : permitOnly s t) : t.mem = s.mem := by obtain ⟨_, _, _, rfl⟩ := h; rfl

theorem permitOnly.pwr {s t : State} (h : permitOnly s t) : t.pwr = s.pwr := by obtain ⟨_, _, _, rfl⟩ := h; rfl

theorem permitOnly.raiseEv {s t : State} (h : permitOnly s t) (k : Nat) : permitOnly s (t.raiseEv k) := by
  obtain ⟨_, _, _, rfl⟩ := h
  exact ⟨_, _, _, rfl⟩

theorem State.permitStop_permitOnly (s : State) (cause : Nat) : permitOnly s (s.permitStop cause) := by
  unfold State.permitStop
  dsimp only
  split
  · split
    · exact (s.permitOff_permitOnly.setFld _ _ _ _).raiseEv 145
    · exact s.permitOff_permitOnly.setFld _ _ _ _
  · split
    · exact s.permitOff_permitOnly.setFld _ _ _ _
    · exact ⟨s.regs, s.permit, s.raised, rfl⟩

theorem State.mem_raised_raiseEv (s : State) (k : Nat) : k ∈ (s.raiseEv k).raised :=
  List.mem_append_right _ (List.mem_singleton_self _)

theorem State.permitStop_of_toggling (h : s.flag Reg.PERMIT_STATUS 31 = true) (cause : Nat) :
    s.permitStop cause = (s.permitOff.setFld Reg.PERMIT_STATUS 30 28 cause).raiseEv 145 := by
  simp only [State.permitStop, h, Bool.true_or, if_true]
  rfl

/-- A permit that toggles is stopped: it no longer toggles, shows the cause, and its event is raised (R402). -/
theorem State.permitStop_toggling (h : s.flag Reg.PERMIT_STATUS 31 = true) (cause : Nat) :
    (s.permitStop cause).flag Reg.PERMIT_STATUS 31 = false ∧ (s.permitStop cause).fld Reg.PERMIT_STATUS 30 28 = cause % 2 ^ 3 ∧
      145 ∈ (s.permitStop cause).raised ∧ sameRegsBut [Reg.PERMIT_STATUS] s (s.permitStop cause) := by
  rw [State.permitStop_of_toggling h]
  refine ⟨?_, ?_, State.mem_raised_raiseEv _ _, ?_⟩
  · rw [State.raiseEv_flag, State.flag, State.fld_setFld_disjoint _ _ _ _ _ _ _ (by decide) (by decide) (.inr (by decide)),
      ← State.flag, State.permitOff, State.flag_setFlag_same _ _ _ _ (by decide)]
  · rw [State.raiseEv_fld, State.fld_setFld_same _ _ _ _ _ (by decide) (by decide)]
  · exact (s.permitOff_frame.setFld (List.mem_singleton_self _) _ _ _).trans fun a _ => State.raiseEv_rd _ _ _

/-- What a supply condition that stops a toggling permit leaves (R402, R522). -/
theorem supply_stops_permit {c : BitVec 4} (hc : c = 5 ∨ c = 7) (h : s.flag Reg.PERMIT_STATUS 31 = true) :
    completes (.supply c) s fun t => t.flag Reg.PERMIT_STATUS 31 = false ∧
      t.fld Reg.PERMIT_STATUS 30 28 = (if c = 5 then 4 else 6) ∧ 145 ∈ t.raised ∧ sameRegsBut [Reg.PERMIT_STATUS] s t ∧
      t.mem = s.mem := by
  rcases hc with rfl | rfl
  · obtain ⟨hflag, hcause, hev, hframe⟩ := State.permitStop_toggling (s := { s with pwr := { s.pwr with vhomeOut := true } }) h 4
    exact ⟨_, rfl, hflag, hcause, hev, hframe, (State.permitStop_permitOnly _ 4).mem⟩
  · obtain ⟨hflag, hcause, hev, hframe⟩ := State.permitStop_toggling h 6
    exact ⟨_, rfl, hflag, hcause, List.mem_append_left _ hev, hframe, (s.permitStop_permitOnly 6).mem⟩

/-- Without VHOME no access to the Home window is served (R18). -/
theorem supply_vhome : completes (.supply 5) s fun t =>
    t.pwr.vhomeOut = true ∧ ∀ a, isHomeWindow a = true → t.mapped a = false := by
  have hpwr := (State.permitStop_permitOnly { s with pwr := { s.pwr with vhomeOut := true } } 4).pwr
  have hout := congrArg PwrSt.vhomeOut hpwr
  exact ⟨_, rfl, hout, fun a ha => by simp [State.mapped, ha, hout]⟩

theorem supply_vfield : completes (.supply 7) s fun t => 144 ∈ t.raised :=
  ⟨_, rfl, List.mem_append_right _ (List.mem_singleton_self _)⟩

theorem pgCore_completes (h : s.pwr.coreEn = true) :
    completes .pgCore s fun t => t.pwr.pgCore = true ∧ t.regs = s.regs ∧ t.mem = s.mem :=
  ⟨_, if_pos h, rfl, rfl, rfl⟩

theorem pmbusVoutWrite_completes (hon : s.vcore ≠ 0) (hnew : (min 900 s.topMv).toNat ≠ s.pwr.voutMv) :
    completes .pmbusVoutWrite s fun t => t.pwr.voutMv = (min 900 s.topMv).toNat ∧
      (t.pwr.vout = (min 900 s.topMv).toNat * 4096 / 1000 ∨ ((min 900 s.topMv).toNat * 4096 % 1000 ≠ 0 ∧
        t.pwr.vout = (min 900 s.topMv).toNat * 4096 / 1000 + 1)) ∧ t.regs = s.regs ∧ t.mem = s.mem := by
  refine ⟨_, if_neg (not_or.mpr ⟨hon, hnew⟩), rfl, ?_, rfl, rfl⟩
  dsimp only
  split
  · exact .inl rfl
  · next hfrac =>
    rcases Nat.mod_two_eq_zero_or_one (Config.freeWord (s.take 1).1).toNat with h | h
    · exact .inl (congrArg (_ + ·) h)
    · exact .inr ⟨hfrac, congrArg (_ + ·) h⟩

end

end Sys2Proof.Machine

namespace Sys2Proof.Machine

/-! ## Frames of stores -/

section
variable {l : List (Nat × Nat)} {s t : State}

theorem sameMemBut_of_mem (h : t.mem = s.mem) : sameMemBut l s t := fun k _ => by rw [State.loadByte, h, State.loadByte]

theorem sameMemBut.trans {u : State} (h : sameMemBut l s t) (h' : sameMemBut l t u) : sameMemBut l s u :=
  fun k hk => (h' k hk).trans (h k hk)

theorem sameMemBut.mono {l' : List (Nat × Nat)} (h : sameMemBut l s t) (hl : ∀ x ∈ l, x ∈ l') : sameMemBut l' s t :=
  fun k hk => h k fun x hx => hk x (hl x hx)

/-- Bytes that lie apart from every span. -/
theorem sameMemBut.load (h : sameMemBut l s t) {k n : Nat} (hl : ∀ x ∈ l, k + n ≤ x.1 ∨ x.1 + x.2 ≤ k) : t.load k n = s.load k n := by
  refine List.map_congr_left fun i hi => h _ fun x hx => ?_
  have := hl x hx
  have := List.mem_range.mp hi
  omega

theorem sameMemBut.loadNat (h : sameMemBut l s t) {k n : Nat} (hl : ∀ x ∈ l, k + n ≤ x.1 ∨ x.1 + x.2 ≤ k) :
    t.loadNat k n = s.loadNat k n := by rw [State.loadNat, h.load hl, State.loadNat]

theorem State.sameMemBut_storeNat (s : State) (k n v : Nat) : sameMemBut [(k, n)] s (s.storeNat k n v) := by
  have h := (s.store_stored k (leBytes n v)).2.1
  rwa [leBytes_length] at h

end

/-! ## Accounting fields (R270, R271) -/

/-- Key of the field at `off` of job `j`'s accounting record: in the Home window, from Home memory's offset 0xE0000 on (R304). -/
theorem acctKey_eq {j off : Nat} (hj : j < 16) (ho : off < 0x400) :
    devKey (0x7F80020000 + j * 0x400 + off) = homeSpace + 0xE0000 + j * 0x400 + off := by
  rw [devKey, if_pos (by simp only [isHomeWindow, Bool.and_eq_true, decide_eq_true_eq]; omega)]
  omega

/-- The key of ENERGY_UJ of job `j`. -/
def energyKey (j : Nat) : Nat := devKey (0x7F80020000 + j * 0x400 + 0x90)

theorem energyKey_apart {i j : Nat} (hi : i < 16) (hj : j < 16) (h : i ≠ j) :
    energyKey i + 8 ≤ energyKey j ∨ energyKey j + 8 ≤ energyKey i := by
  rw [energyKey, energyKey, acctKey_eq hi (by decide), acctKey_eq hj (by decide)]
  omega

section
variable (s : State) (j n : Nat)

theorem State.account_energy (h : s.pwr.vhomeOut = false) :
    s.account j 0x90 n = s.storeNat (energyKey j) 8 (min (2 ^ 64 - 1) (s.loadNat (energyKey j) 8 + n)) := by
  simp only [State.account, h, Bool.false_eq_true, if_false, energyKey]

theorem State.account_cases (off : Nat) : s.account j off n = s ∨
    ∃ v, s.account j off n = s.storeNat (devKey (0x7F80020000 + j * 0x400 + off)) 8 v := by
  unfold State.account
  dsimp only
  split
  · exact .inl rfl
  · exact .inr ⟨_, rfl⟩

/-- What job `j`'s part of an amount of energy adds to its record. -/
def State.addEnergy (s : State) (part : Nat → Nat) (j : Nat) : State := if part j = 0 then s else s.account j 0x90 (part j)

end

theorem State.addEnergy_vhomeOut (s : State) (part : Nat → Nat) (j : Nat) : (s.addEnergy part j).pwr.vhomeOut = s.pwr.vhomeOut := by
  unfold State.addEnergy
  split
  · rfl
  · rcases s.account_cases j (part j) 0x90 with h | ⟨v, h⟩
    · rw [h]
    · rw [h]
      rfl

theorem State.addEnergy_memBut (s : State) (part : Nat → Nat) (j : Nat) : sameMemBut [(energyKey j, 8)] s (s.addEnergy part j) := by
  unfold State.addEnergy
  split
  · exact sameMemBut_of_mem rfl
  · rcases s.account_cases j (part j) 0x90 with h | ⟨v, h⟩ <;> rw [h]
    · exact sameMemBut_of_mem rfl
    · exact s.sameMemBut_storeNat _ _ _

theorem State.addEnergy_regs (s : State) (part : Nat → Nat) (j : Nat) : (s.addEnergy part j).regs = s.regs := by
  unfold State.addEnergy
  split
  · rfl
  · rcases s.account_cases j (part j) 0x90 with h | ⟨v, h⟩
    · rw [h]
    · rw [h]
      rfl

/-- The record's field after its job's part has been added. -/
def energyAfter (old part : Nat) : Nat := if part = 0 then old else min (2 ^ 64 - 1) (old + part)

theorem State.loadNat_addEnergy (s : State) (part : Nat → Nat) (j : Nat) (h : s.pwr.vhomeOut = false) :
    (s.addEnergy part j).loadNat (energyKey j) 8 = energyAfter (s.loadNat (energyKey j) 8) (part j) := by
  unfold State.addEnergy energyAfter
  split
  · rfl
  · rw [s.account_energy _ _ h, State.loadNat_storeNat]
    omega

/-- Each job of a list gets its part, and no other job's record changes. -/
theorem State.loadNat_each_addEnergy (part : Nat → Nat) (l : List Nat) (hl : ∀ i ∈ l, i < 16) (hnd : l.Nodup) {j : Nat} (hj : j < 16)
    (s : State) (h : s.pwr.vhomeOut = false) : (s.each l (State.addEnergy · part)).loadNat (energyKey j) 8 =
      if j ∈ l then energyAfter (s.loadNat (energyKey j) 8) (part j) else s.loadNat (energyKey j) 8 := by
  induction l generalizing s with
  | nil => rfl
  | cons i l ih =>
    obtain ⟨hi, hl⟩ := List.forall_mem_cons.mp hl
    obtain ⟨hil, hnd⟩ := List.nodup_cons.mp hnd
    have hrest := ih hl hnd (s.addEnergy part i) ((s.addEnergy_vhomeOut part i).trans h)
    rw [State.each, List.foldl_cons, ← State.each, hrest]
    by_cases hij : j = i
    · subst hij
      rw [if_neg hil, if_pos List.mem_cons_self, State.loadNat_addEnergy _ _ _ h]
    · rw [(s.addEnergy_memBut part i).loadNat (by simpa using energyKey_apart hj hi hij)]
      simp only [List.mem_cons, hij, false_or]

/-- What job `j` gets of the energy that is due. -/
def State.energyPart (s : State) (d uj j : Nat) : Nat :=
  (Map.get 0 s.pwr.shareDue d + uj) * s.shareGain d j / (List.range 16).foldl (fun m j => m + s.shareGain d j) 0

/-- Sharing a domain's energy changes power's own fields, and the jobs' records where it is shared in proportion. -/
theorem State.shareEnergy_cases (s : State) (d uj : Nat) : (∃ p, s.shareEnergy d uj = { s with pwr := p }) ∨
    (s.acctFull = true ∧ ∃ p, s.shareEnergy d uj =
      { s.each (List.range 16) (State.addEnergy · (s.energyPart d uj)) with pwr := p }) := by
  unfold State.shareEnergy
  dsimp only
  split
  · exact .inl ⟨s.pwr, rfl⟩
  · split
    · exact .inl ⟨_, rfl⟩
    · next hfull =>
      split
      · exact .inl ⟨_, rfl⟩
      · exact .inr ⟨by simpa using hfull, _, rfl⟩

theorem State.shareEnergy_shared {s : State} {d : Nat} (uj : Nat) (hby : shareBy d ≠ []) (hfull : s.acctFull = true)
    (htotal : (List.range 16).foldl (fun m j => m + s.shareGain d j) 0 ≠ 0) :
    ∃ p, s.shareEnergy d uj = { s.each (List.range 16) (State.addEnergy · (s.energyPart d uj)) with pwr := p } := by
  rw [State.shareEnergy, if_neg hby, if_neg (by simp [hfull]), if_neg htotal]
  exact ⟨_, rfl⟩

theorem State.loadNat_shareEnergy {s : State} {d : Nat} (uj : Nat) (hby : shareBy d ≠ []) (hfull : s.acctFull = true)
    (hv : s.pwr.vhomeOut = false) (htotal : (List.range 16).foldl (fun m j => m + s.shareGain d j) 0 ≠ 0) {j : Nat} (hj : j < 16) :
    (s.shareEnergy d uj).loadNat (energyKey j) 8 = energyAfter (s.loadNat (energyKey j) 8) (s.energyPart d uj j) := by
  obtain ⟨p, hp⟩ := State.shareEnergy_shared uj hby hfull htotal
  rw [hp]
  refine (State.loadNat_each_addEnergy _ _ (fun i hi => List.mem_range.mp hi) List.nodup_range hj s hv).trans ?_
  rw [if_pos (List.mem_range.mpr hj)]

/-! ## The energy counters (R484) -/

/-- The spans of ENERGY_UJ of every job. -/
def energySpans : List (Nat × Nat) := (List.range 16).map fun j => (energyKey j, 8)

theorem State.each_addEnergy_regs (part : Nat → Nat) (l : List Nat) (s : State) : (s.each l (State.addEnergy · part)).regs = s.regs :=
  State.each_rel (R := fun s t => t.regs = s.regs) (fun _ => rfl) (fun h h' => h'.trans h) l
    (fun t j _ => t.addEnergy_regs part j) s

theorem State.each_addEnergy_memBut (part : Nat → Nat) (s : State) :
    sameMemBut energySpans s (s.each (List.range 16) (State.addEnergy · part)) :=
  State.each_rel (R := sameMemBut energySpans) (fun _ => sameMemBut_of_mem rfl) sameMemBut.trans _
    (fun t j hj => (t.addEnergy_memBut part j).mono (by simpa [energySpans] using ⟨j, List.mem_range.mp hj, rfl⟩)) s

theorem State.shareEnergy_rd (s : State) (d uj a : Nat) : (s.shareEnergy d uj).rd a = s.rd a := by
  rcases s.shareEnergy_cases d uj with ⟨p, h⟩ | ⟨-, p, h⟩ <;> rw [h]
  · rfl
  · exact State.rd_congr (State.each_addEnergy_regs _ _ s) a

theorem State.shareEnergy_memBut (s : State) (d uj : Nat) : sameMemBut energySpans s (s.shareEnergy d uj) := by
  rcases s.shareEnergy_cases d uj with ⟨p, h⟩ | ⟨-, p, h⟩ <;> rw [h]
  · exact sameMemBut_of_mem rfl
  · exact s.each_addEnergy_memBut _

theorem State.shareEnergy_mem {s : State} (hfull : s.acctFull = false) (d uj : Nat) : (s.shareEnergy d uj).mem = s.mem := by
  rcases s.shareEnergy_cases d uj with ⟨p, h⟩ | ⟨hf, -⟩
  · rw [h]
  · exact absurd hf (by simp [hfull])

/-- The energy of domain `d` goes into its counter and to the jobs. -/
def State.foldEnergy (uj : List Nat) (s : State) (d : Nat) : State :=
  (s.wr (Reg.PWR_ENERGY d) (s.rd (Reg.PWR_ENERGY d) + BitVec.ofNat 64 (uj.getD d 0))).shareEnergy d (uj.getD d 0)

theorem State.foldEnergy_rd (uj : List Nat) (s : State) (d a : Nat) : (s.foldEnergy uj d).rd a =
    if a = Reg.PWR_ENERGY d then s.rd a + BitVec.ofNat 64 (uj.getD d 0) else s.rd a := by
  rw [State.foldEnergy, State.shareEnergy_rd, State.rd_wr]
  split
  · next h => rw [h]
  · rfl

theorem pwrEnergy_inj {d e : Nat} (h : Reg.PWR_ENERGY d = Reg.PWR_ENERGY e) : d = e := by
  simp only [Reg.PWR_ENERGY] at h
  omega

theorem State.each_foldEnergy_rd (uj : List Nat) (l : List Nat) (hnd : l.Nodup) (d : Nat) (s : State) :
    (s.each l (State.foldEnergy uj)).rd (Reg.PWR_ENERGY d) = if d ∈ l then
      s.rd (Reg.PWR_ENERGY d) + BitVec.ofNat 64 (uj.getD d 0) else s.rd (Reg.PWR_ENERGY d) := by
  induction l generalizing s with
  | nil => rfl
  | cons i l ih =>
    obtain ⟨hil, hnd⟩ := List.nodup_cons.mp hnd
    rw [State.each, List.foldl_cons, ← State.each, ih hnd, State.foldEnergy_rd]
    by_cases hij : d = i
    · subst hij
      rw [if_neg hil, if_pos rfl, if_pos List.mem_cons_self]
    · rw [if_neg fun h => hij (pwrEnergy_inj h)]
      simp only [List.mem_cons, hij, false_or]

/-- Full accounting depends on the scheduler's registers alone. -/
theorem State.acctFull_congr {s t : State} (hctrl : t.rd Reg.SCHED_CTRL = s.rd Reg.SCHED_CTRL)
    (hpart : ∀ p < 8, t.rd (Reg.SCHED_PARTA p) = s.rd (Reg.SCHED_PARTA p)) : t.acctFull = s.acctFull := by
  have hparts : ((List.range 8).filter fun p => t.flag (Reg.SCHED_PARTA p) 63) =
      (List.range 8).filter fun p => s.flag (Reg.SCHED_PARTA p) 63 :=
    List.filter_congr fun p hp => State.flag_congr (hpart p (List.mem_range.mp hp)) 63
  rw [State.acctFull, State.fld_congr hctrl, hparts, State.acctFull]

theorem State.wr_energy_acctFull (s : State) (d : Nat) (v : Word) : (s.wr (Reg.PWR_ENERGY d) v).acctFull = s.acctFull := by
  refine State.acctFull_congr ?_ fun p hp => ?_
  all_goals
    rw [State.rd_wr, if_neg]
    simp only [Reg.SCHED_CTRL, Reg.SCHED_PARTA, Reg.PWR_ENERGY]
    omega

theorem State.foldEnergy_acctFull (uj : List Nat) (s : State) (d : Nat) : (s.foldEnergy uj d).acctFull = s.acctFull :=
  (State.acctFull_congr (State.shareEnergy_rd _ _ _ _) fun _ _ => State.shareEnergy_rd _ _ _ _).trans (s.wr_energy_acctFull _ _)

/-- What folding one domain's energy keeps. -/
theorem State.foldEnergy_keeps (uj : List Nat) (s : State) {d : Nat} (hd : d < 11) :
    sameRegsBut ((List.range 11).map Reg.PWR_ENERGY) s (s.foldEnergy uj d) ∧ sameMemBut energySpans s (s.foldEnergy uj d) ∧
      (s.acctFull = false → (s.foldEnergy uj d).mem = s.mem) := by
  refine ⟨fun a ha => ?_, State.shareEnergy_memBut (s.wr _ _) _ _, fun hfull => ?_⟩
  · rw [State.foldEnergy_rd, if_neg]
    rintro rfl
    exact ha (List.mem_map_of_mem (List.mem_range.mpr hd))
  · exact State.shareEnergy_mem ((s.wr_energy_acctFull d _).trans hfull) _ _

theorem energyFold_completes (uj : List Nat) (s : State) : completes (.energyFold uj) s fun t =>
    (∀ d < 11, t.rd (Reg.PWR_ENERGY d) = s.rd (Reg.PWR_ENERGY d) + BitVec.ofNat 64 (uj.getD d 0)) ∧
      (∀ a, (∀ d < 11, a ≠ Reg.PWR_ENERGY d) → t.rd a = s.rd a) ∧ (s.acctFull = false → t.mem = s.mem) ∧
      sameMemBut energySpans s t := by
  refine ⟨s.each (List.range 11) (State.foldEnergy uj), rfl, fun d hd => ?_, fun a ha => ?_, fun hfull => ?_, ?_⟩
  · rw [State.each_foldEnergy_rd uj _ List.nodup_range, if_pos (List.mem_range.mpr hd)]
  · refine State.each_rel (R := sameRegsBut ((List.range 11).map Reg.PWR_ENERGY)) (sameRegsBut_refl _) sameRegsBut.trans _
      (fun t d hd => (t.foldEnergy_keeps uj (List.mem_range.mp hd)).1) s a ?_
    simpa using fun d hd => (ha d hd).symm
  · exact State.each_rel (R := fun s t => s.acctFull = false → t.acctFull = false ∧ t.mem = s.mem) (fun _ h => ⟨h, rfl⟩)
      (fun h h' hs => ⟨(h' (h hs).1).1, (h' (h hs).1).2.trans (h hs).2⟩) _
      (fun t d hd ht => ⟨(t.foldEnergy_acctFull uj d).trans ht, (t.foldEnergy_keeps uj (List.mem_range.mp hd)).2.2 ht⟩) s hfull |>.2
  · exact State.each_rel (R := sameMemBut energySpans) (fun _ => sameMemBut_of_mem rfl) sameMemBut.trans _
      (fun t d hd => (t.foldEnergy_keeps uj (List.mem_range.mp hd)).2.1) s

end Sys2Proof.Machine

namespace Sys2Proof.Machine

/-! ## Power states asked by Ulnal (R473, R474) -/

section
variable {s : State}

theorem pwrState_busy {v : BitVec 3} (h : s.flag Reg.SEC_PSTATE 25 = true) :
    completes (.pwrStateWrite v) s fun t => t.flag Reg.PWR_STATUS 55 = true ∧ t.pwr = s.pwr ∧ t.faces = s.faces ∧
      sameRegsBut [Reg.PWR_STATUS] s t := by
  have hexec : exec (.pwrStateWrite v) s = .next (s.setFlag Reg.PWR_STATUS 55 true) := congrArg Host.Outcome.next (if_pos h)
  exact ⟨_, hexec, s.flag_setFlag_same _ _ _ (by decide), s.setFlag_pwr _ _ _, s.setFlag_faces _ _ _,
    (sameRegsBut_refl _ s).setFlag (List.mem_singleton_self _) _ _⟩

theorem exec_pwrStateWrite_reserved {v : BitVec 3} (h : s.flag Reg.SEC_PSTATE 25 = false) (hv : 2 < v.toNat) :
    exec (.pwrStateWrite v) s = .next s :=
  congrArg Host.Outcome.next ((if_neg (by simp [h])).trans (if_pos hv))

/-- No command starts on the Faces of a list any more. -/
def State.gateFaces (s : State) (l : List Nat) : State := s.each l fun s f => s.setFace f { s.face f with gated := true }

theorem State.gateFaces_gated (l : List Nat) (f : Nat) (s : State) :
    ((s.gateFaces l).face f).gated = ((s.face f).gated || l.contains f) := by
  induction l generalizing s with
  | nil => simp [State.gateFaces, State.each]
  | cons g l ih =>
    rw [State.gateFaces, State.each, List.foldl_cons, ← State.each, ← State.gateFaces, ih, State.face_setFace, List.contains_cons]
    by_cases h : f = g
    · subst h
      simp
    · have hne : (f == g) = false := by simpa using h
      rw [if_neg h, hne, Bool.false_or]

/-- `t` differs from `s` in its Faces only. -/
def facesOnly (s t : State) : Prop := ∃ fs, t = { s with faces := fs }

theorem State.gateFaces_facesOnly (s : State) (l : List Nat) : facesOnly s (s.gateFaces l) := by
  refine State.each_rel (R := facesOnly) (fun t => ⟨t.faces, rfl⟩) ?_ l (fun t f _ => ⟨_, rfl⟩) s
  rintro t _ _ ⟨_, rfl⟩ ⟨_, rfl⟩
  exact ⟨_, rfl⟩

theorem facesOnly.regs {s t : State} (h : facesOnly s t) : t.regs = s.regs := by obtain ⟨_, rfl⟩ := h; rfl

theorem facesOnly.mem {s t : State} (h : facesOnly s t) : t.mem = s.mem := by obtain ⟨_, rfl⟩ := h; rfl

/-- The Faces that a power state gates follow from the slot table. -/
theorem State.gatedIn_congr {s t : State} (h : ∀ i < 64, t.rd (Reg.SCHED_SLOT i) = s.rd (Reg.SCHED_SLOT i)) (p : Nat) :
    t.gatedIn p = s.gatedIn p := by
  refine List.filter_congr fun f _ => ?_
  have hany : ((List.range 64).any fun i => t.flag (Reg.SCHED_SLOT i) 63 && bitOf (t.slotFaces i) f) =
      (List.range 64).any fun i => s.flag (Reg.SCHED_SLOT i) 63 && bitOf (s.slotFaces i) f := by
    refine Bool.eq_iff_iff.mpr ?_
    simp only [List.any_eq_true, List.mem_range]
    refine exists_congr fun i => and_congr_right fun hi => ?_
    rw [State.flag_congr (h i hi), State.slotFaces, State.fld_congr (h i hi), State.slotFaces]
  rw [hany]

theorem exec_pwrStateWrite {v : BitVec 3} (h : s.flag Reg.SEC_PSTATE 25 = false) (hv : v.toNat ≤ 2) :
    exec (.pwrStateWrite v) s = .next { (s.setFld Reg.PWR_CTRL 6 4 v.toNat).gateFaces (s.gatedIn v.toNat) with
      pwr := { ((s.setFld Reg.PWR_CTRL 6 4 v.toNat).gateFaces (s.gatedIn v.toNat)).pwr with toUlnal := some v.toNat } } := by
  have hgated : (s.setFld Reg.PWR_CTRL 6 4 v.toNat).gatedIn v.toNat = s.gatedIn v.toNat :=
    State.gatedIn_congr (fun i _ => State.rd_setFld_ne _ _ _ _ (by simp only [Reg.SCHED_SLOT, Reg.PWR_CTRL]; omega)) _
  have hexec : s.pwrState v.toNat = { (s.setFld Reg.PWR_CTRL 6 4 v.toNat).gateFaces ((s.setFld Reg.PWR_CTRL 6 4 v.toNat).gatedIn v.toNat) with
      pwr := { ((s.setFld Reg.PWR_CTRL 6 4 v.toNat).gateFaces ((s.setFld Reg.PWR_CTRL 6 4 v.toNat).gatedIn v.toNat)).pwr with
        toUlnal := some v.toNat } } := (if_neg (by simp [h])).trans (if_neg (by omega))
  rw [hgated] at hexec
  exact congrArg Host.Outcome.next hexec

theorem pwrState_starts {v : BitVec 3} (h : s.flag Reg.SEC_PSTATE 25 = false) (hv : v.toNat ≤ 2) :
    completes (.pwrStateWrite v) s fun t => t.pwr.toUlnal = some v.toNat ∧ t.fld Reg.PWR_CTRL 6 4 = v.toNat ∧
      (∀ f < 6, (t.face f).gated = ((s.face f).gated || (s.gatedIn v.toNat).contains f)) ∧ sameRegsBut [Reg.PWR_CTRL] s t ∧
      t.mem = s.mem := by
  have honly := (s.setFld Reg.PWR_CTRL 6 4 v.toNat).gateFaces_facesOnly (s.gatedIn v.toNat)
  have hrd := State.rd_congr honly.regs
  have hgated := fun f => State.gateFaces_gated (s.gatedIn v.toNat) f (s.setFld Reg.PWR_CTRL 6 4 v.toNat)
  have hmem := honly.mem
  refine ⟨_, exec_pwrStateWrite h hv, ?_⟩
  generalize (s.setFld Reg.PWR_CTRL 6 4 v.toNat).gateFaces (s.gatedIn v.toNat) = u at *
  refine ⟨rfl, (State.fld_congr (hrd _) _ _).trans ?_, fun f _ => hgated f, ?_, hmem.trans (State.setFld_mem _ _ _ _ _)⟩
  · rw [State.fld_setFld_same _ _ _ _ _ (by decide) (by decide)]
    exact Nat.mod_eq_of_lt v.isLt
  · exact fun a ha => (hrd a).trans ((sameRegsBut_refl _ s).setFld (List.mem_singleton_self _) _ _ _ a ha)

end

/-! ## Power states asked by Home firmware (R474, R475) -/

/-- A refused request: REFUSED with its reason. -/
def State.pstateRefused (s : State) (r : Nat) : State := (s.setFlag Reg.SEC_PSTATE 24 true).setFld Reg.SEC_PSTATE 7 0 r

/-- TARGET and BUSY of a request under way. -/
def State.pstateTargeted (s : State) (v : Nat) : State := (s.setFld Reg.SEC_PSTATE 28 25 (2 * v + 1)).setFld Reg.SEC_PSTATE 7 0 0

/-- A request under way. -/
def State.pstateStarted (s : State) (v : Nat) : State :=
  { s.pstateTargeted v with pwr := { (s.pstateTargeted v).pwr with toHome := some v } }

theorem State.pstateStarted_regs (s : State) (v : Nat) : (s.pstateStarted v).regs = (s.pstateTargeted v).regs := rfl

section
variable {s : State} {v : Nat}

theorem State.pstateWrite_ignored (h : (v ≠ 0 ∧ v ≠ 3 ∧ v ≠ 4) ∨ s.flag Reg.SEC_PSTATE 25 = true ∨ v = s.pstate ∨
    (v = 0 ∧ s.pstate < 3)) : s.pstateWrite v = s := by
  unfold State.pstateWrite
  dsimp only
  split
  · rfl
  · next hv => 
    refine if_pos ?_
    simp only [Bool.or_eq_true, Bool.and_eq_true, beq_iff_eq, decide_eq_true_eq]
    rcases h with ⟨h0, h3, h4⟩ | h | h | h
    · simp [h0, h3, h4] at hv
    · exact .inl (.inl h)
    · exact .inr h
    · exact .inl (.inr h)

section
variable (hv : v = 0 ∨ v = 3 ∨ v = 4) (hfree : s.flag Reg.SEC_PSTATE 25 = false) (hnew : v ≠ s.pstate) (hwake : v = 0 → 3 ≤ s.pstate)
include hv hfree hnew hwake

theorem State.pstateWrite_acts : s.pstateWrite v = if (v != 0 && s.flag Reg.SEC_DBGSTAT 24) = true then s.pstateRefused 1
    else if s.cstate = 4 then s.pstateRefused 2
    else if v = 0 then (s.pstateStarted v).supplyOn else s.pstateStarted v := by
  have hkind : ¬ ((v != 0 && v != 3 && v != 4) = true) := by
    rcases hv with rfl | rfl | rfl <;> decide
  have hidle : ¬ ((s.flag Reg.SEC_PSTATE 25 || (v == 0 && decide (s.pstate < 3)) || v == s.pstate) = true) := by
    simp only [hfree, Bool.false_or, Bool.or_eq_true, Bool.and_eq_true, beq_iff_eq, decide_eq_true_eq, not_or, not_and]
    exact ⟨fun h0 => not_lt.mpr (hwake h0), hnew⟩
  rw [State.pstateWrite, if_neg hkind]
  exact if_neg hidle

theorem State.pstateWrite_held (h0 : v ≠ 0) (hdbg : s.flag Reg.SEC_DBGSTAT 24 = true) : s.pstateWrite v = s.pstateRefused 1 := by
  rw [State.pstateWrite_acts hv hfree hnew hwake, if_pos (by simp [h0, hdbg])]

theorem State.pstateWrite_failed (hdbg : v ≠ 0 → s.flag Reg.SEC_DBGSTAT 24 = false) (hc : s.cstate = 4) :
    s.pstateWrite v = s.pstateRefused 2 := by
  rw [State.pstateWrite_acts hv hfree hnew hwake, if_neg (by simpa using hdbg), if_pos hc]

theorem State.pstateWrite_starts (hdbg : v ≠ 0 → s.flag Reg.SEC_DBGSTAT 24 = false) (hc : s.cstate ≠ 4) :
    s.pstateWrite v = if v = 0 then (s.pstateStarted v).supplyOn else s.pstateStarted v := by
  rw [State.pstateWrite_acts hv hfree hnew hwake, if_neg (by simpa using hdbg), if_neg hc]

end

theorem State.pstateRefused_spec (s : State) {r : Nat} (hr : r < 256) : (s.pstateRefused r).flag Reg.SEC_PSTATE 24 = true ∧
    (s.pstateRefused r).fld Reg.SEC_PSTATE 7 0 = r ∧ (s.pstateRefused r).pwr = s.pwr ∧
    sameRegsBut [Reg.SEC_PSTATE] s (s.pstateRefused r) := by
  refine ⟨?_, ?_, ?_, ?_⟩
  · rw [State.pstateRefused, State.flag, State.fld_setFld_disjoint _ _ _ _ _ _ _ (by decide) (by decide) (.inr (by decide)),
      ← State.flag, State.flag_setFlag_same _ _ _ _ (by decide)]
  · rw [State.pstateRefused, State.fld_setFld_same _ _ _ _ _ (by decide) (by decide)]
    exact Nat.mod_eq_of_lt hr
  · rw [State.pstateRefused, State.setFld_pwr, State.setFlag_pwr]
  · exact ((sameRegsBut_refl _ s).setFlag (List.mem_singleton_self _) _ _).setFld (List.mem_singleton_self _) _ _ _

theorem State.pstateStarted_powerOnly (s : State) (v : Nat) : powerOnly s (s.pstateStarted v) :=
  (((powerOnly.refl s).setFld _ _ _ _).setFld _ _ _ _).withPwr _

theorem State.pstateStarted_frame (s : State) (v : Nat) : sameRegsBut [Reg.SEC_PSTATE] s (s.pstateStarted v) := fun a ha =>
  (State.rd_congr (s.pstateStarted_regs v) a).trans <|
    ((sameRegsBut_refl _ s).setFld (List.mem_singleton_self _) _ _ _).setFld (List.mem_singleton_self _) _ _ _ a ha

/-- A part of a field after a write of the field. -/
theorem State.fld_setFld_inside (s : State) {a hi lo x hi' lo' : Nat} (hlo : lo ≤ lo') (hhi : hi' ≤ hi) (hle : lo' ≤ hi') (h : hi < 64) :
    (s.setFld a hi lo x).fld a hi' lo' = bits x (hi' - lo) (lo' - lo) := by
  apply Nat.eq_of_testBit_eq
  intro i
  rw [State.fld, State.toNat_setFld s a hi lo x (by omega) h, testBit_bits, testBit_bits, testBit_putBits _ _ _ _ _ (by omega)]
  by_cases hi'' : i < hi' + 1 - lo'
  · rw [if_pos ⟨by omega, by omega⟩, show lo' + i - lo = lo' - lo + i by omega]
    simp only [decide_eq_true hi'', decide_eq_true (show i < hi' - lo + 1 - (lo' - lo) by omega)]
  · simp only [decide_eq_false hi'', decide_eq_false (show ¬ i < hi' - lo + 1 - (lo' - lo) by omega), Bool.false_and]

theorem State.pstateStarted_fields (s : State) {v : Nat} (hv : v < 8) : (s.pstateStarted v).flag Reg.SEC_PSTATE 25 = true ∧
    (s.pstateStarted v).fld Reg.SEC_PSTATE 28 26 = v ∧ (s.pstateStarted v).flag Reg.SEC_PSTATE 24 = s.flag Reg.SEC_PSTATE 24 := by
  have hfld : ∀ hi lo, 7 < lo → (s.pstateStarted v).fld Reg.SEC_PSTATE hi lo = (s.setFld Reg.SEC_PSTATE 28 25 (2 * v + 1)).fld Reg.SEC_PSTATE hi lo :=
    fun hi lo h => (State.fld_congr (State.rd_congr (s.pstateStarted_regs v) _) _ _).trans
      (State.fld_setFld_disjoint _ _ _ _ _ _ _ (by decide) (by decide) (.inr h))
  refine ⟨?_, ?_, ?_⟩
  · rw [State.flag, hfld _ _ (by decide), State.fld_setFld_inside _ (by decide) (by decide) (by decide) (by decide)]
    simp only [bits, beq_iff_eq]
    omega
  · rw [hfld _ _ (by decide), State.fld_setFld_inside _ (by decide) (by decide) (by decide) (by decide)]
    simp only [bits]
    omega
  · rw [State.flag, hfld _ _ (by decide), State.fld_setFld_disjoint _ _ _ _ _ _ _ (by decide) (by decide) (.inl (by decide)), State.flag]

end

end Sys2Proof.Machine

namespace Sys2Proof.Machine

section
variable {s : State} {v : BitVec 3}

theorem exec_secPstateWrite_ignored
    (h : (v ≠ 0 ∧ v ≠ 3 ∧ v ≠ 4) ∨ s.flag Reg.SEC_PSTATE 25 = true ∨ v.toNat = s.pstate ∨ (v = 0 ∧ s.pstate < 3)) :
    exec (.secPstateWrite v) s = .next s := by
  refine congrArg Host.Outcome.next (State.pstateWrite_ignored ?_)
  refine h.imp (fun ⟨h0, h3, h4⟩ => ⟨fun e => h0 (BitVec.eq_of_toNat_eq e), fun e => h3 (BitVec.eq_of_toNat_eq e),
    fun e => h4 (BitVec.eq_of_toNat_eq e)⟩) (.imp_right (.imp_right fun ⟨h0, hp⟩ => ⟨by rw [h0]; rfl, hp⟩))

theorem secPstateWrite_refused {r : Nat} (hr : r < 256) (h : s.pstateWrite v.toNat = s.pstateRefused r) :
    completes (.secPstateWrite v) s fun t => t.flag Reg.SEC_PSTATE 24 = true ∧ t.fld Reg.SEC_PSTATE 7 0 = r ∧ t.pwr = s.pwr ∧
      sameRegsBut [Reg.SEC_PSTATE] s t :=
  ⟨_, congrArg Host.Outcome.next h, s.pstateRefused_spec hr⟩

theorem secPstateWrite_sleeps (hv : v = 3 ∨ v = 4) (hfree : s.flag Reg.SEC_PSTATE 25 = false) (hnew : v.toNat ≠ s.pstate) :
    (s.flag Reg.SEC_DBGSTAT 24 = true → completes (.secPstateWrite v) s fun t => t.flag Reg.SEC_PSTATE 24 = true ∧
      t.fld Reg.SEC_PSTATE 7 0 = 1 ∧ t.pwr = s.pwr ∧ sameRegsBut [Reg.SEC_PSTATE] s t) ∧
    (s.flag Reg.SEC_DBGSTAT 24 = false → s.cstate = 4 → completes (.secPstateWrite v) s fun t =>
      t.flag Reg.SEC_PSTATE 24 = true ∧ t.fld Reg.SEC_PSTATE 7 0 = 2 ∧ t.pwr = s.pwr ∧ sameRegsBut [Reg.SEC_PSTATE] s t) ∧
    (s.flag Reg.SEC_DBGSTAT 24 = false → s.cstate ≠ 4 → completes (.secPstateWrite v) s fun t =>
      t.flag Reg.SEC_PSTATE 25 = true ∧ t.fld Reg.SEC_PSTATE 28 26 = v.toNat ∧ t.pwr.toHome = some v.toNat ∧ t.mem = s.mem ∧
      sameRegsBut [Reg.SEC_PSTATE] s t) := by
  have hnat : v.toNat = 0 ∨ v.toNat = 3 ∨ v.toNat = 4 := .inr (hv.imp (congrArg BitVec.toNat) (congrArg BitVec.toNat))
  have h0 : v.toNat ≠ 0 := by rcases hv with rfl | rfl <;> decide
  have hwake : v.toNat = 0 → 3 ≤ s.pstate := fun h => absurd h h0
  refine ⟨fun hdbg => secPstateWrite_refused (by decide) (State.pstateWrite_held hnat hfree hnew hwake h0 hdbg),
    fun hdbg hc => secPstateWrite_refused (by decide) (State.pstateWrite_failed hnat hfree hnew hwake (fun _ => hdbg) hc),
    fun hdbg hc => ⟨_, congrArg Host.Outcome.next
      ((State.pstateWrite_starts hnat hfree hnew hwake (fun _ => hdbg) hc).trans (if_neg h0)), ?_⟩⟩
  obtain ⟨hbusy, htarget, -⟩ := s.pstateStarted_fields v.isLt
  exact ⟨hbusy, htarget, rfl, (s.pstateStarted_powerOnly _).mem, s.pstateStarted_frame _⟩

theorem State.supplyOn_regs (s : State) : s.supplyOn.regs = s.regs := by
  rw [State.supplyOn]
  split <;> rfl

theorem State.supplyOn_toHome (s : State) : s.supplyOn.pwr.toHome = s.pwr.toHome := by
  rw [State.supplyOn]
  split <;> rfl

theorem State.supplyOn_coreEn (s : State) : s.supplyOn.pwr.coreEn = true := by
  rw [State.supplyOn]
  split
  · assumption
  · rfl

theorem secPstateWrite_wakes (hfree : s.flag Reg.SEC_PSTATE 25 = false) (hp : 3 ≤ s.pstate) :
    (s.cstate = 4 → completes (.secPstateWrite 0) s fun t => t.flag Reg.SEC_PSTATE 24 = true ∧ t.fld Reg.SEC_PSTATE 7 0 = 2 ∧
      t.pwr = s.pwr ∧ sameRegsBut [Reg.SEC_PSTATE] s t) ∧
    (s.cstate ≠ 4 → completes (.secPstateWrite 0) s fun t => t.flag Reg.SEC_PSTATE 25 = true ∧ t.pwr.toHome = some 0 ∧
      t.pwr.coreEn = true) := by
  have hnew : 0 ≠ s.pstate := by omega
  refine ⟨fun hc => secPstateWrite_refused (by decide)
      (State.pstateWrite_failed (.inl rfl) hfree hnew (fun _ => hp) (absurd rfl) hc),
    fun hc => ⟨_, congrArg Host.Outcome.next ((State.pstateWrite_starts (.inl rfl) hfree hnew (fun _ => hp) (absurd rfl) hc).trans
      (if_pos rfl)), ?_⟩⟩
  obtain ⟨hbusy, -, -⟩ := s.pstateStarted_fields (v := 0) (by decide)
  exact ⟨(State.flag_congr (State.rd_congr (State.supplyOn_regs _) _) _).trans hbusy, State.supplyOn_toHome _, State.supplyOn_coreEn _⟩

end

end Sys2Proof.Machine

namespace Sys2Proof.Machine

/-! ## Replies in the mailbox (R498) -/

/-- A part of the bytes just stored. -/
theorem State.load_store_part (s : State) (k : Nat) (pre mid post : List Byte) :
    (s.store k (pre ++ mid ++ post)).load (k + pre.length) mid.length = mid := by
  apply List.ext_getElem
  · simp [State.load]
  · intro i h1 h2
    simp [State.load, byteOver, List.getD_eq_getElem?_getD, List.getElem?_append, h2, Nat.add_assoc]
    omega

theorem State.loadNat_store_part (s : State) (k : Nat) (pre : List Byte) (n v : Nat) (post : List Byte) :
    (s.store k (pre ++ leBytes n v ++ post)).loadNat (k + pre.length) n = v % 256 ^ n := by
  have h := s.load_store_part k pre (leBytes n v) post
  rw [leBytes_length] at h
  rw [State.loadNat, h, leNat_leBytes]

theorem State.mailReply_spec (s : State) {status : Nat} (hst : status < 2 ^ 32) {payload : List Byte} (hlen : payload.length < 2 ^ 64) :
    mailReplied status payload.length s (s.mailReply status payload) ∧
      (s.mailReply status payload).load (replyBuf + 16) payload.length = payload := by
  have hseq := s.loadNat_store_part replyBuf [] 4 (s.fld Reg.CPH_MBOX 15 0) (leBytes 4 status ++ leBytes 8 payload.length ++ payload)
  have hstatus := s.loadNat_store_part replyBuf (leBytes 4 (s.fld Reg.CPH_MBOX 15 0)) 4 status (leBytes 8 payload.length ++ payload)
  have hcount := s.loadNat_store_part replyBuf (leBytes 4 (s.fld Reg.CPH_MBOX 15 0) ++ leBytes 4 status) 8 payload.length payload
  have hload := s.load_store_part replyBuf (leBytes 4 (s.fld Reg.CPH_MBOX 15 0) ++ leBytes 4 status ++ leBytes 8 payload.length) payload []
  have hframe := (s.store_stored replyBuf (leBytes 4 (s.fld Reg.CPH_MBOX 15 0) ++ leBytes 4 status ++ leBytes 8 payload.length ++ payload)).2.1
  simp only [List.nil_append, List.append_nil, List.length_nil, List.length_append, leBytes_length, ← List.append_assoc, Nat.add_zero,
    Nat.reduceAdd] at hseq hstatus hcount hload hframe
  rw [Nat.mod_eq_of_lt (show status < 256 ^ 4 from hst)] at hstatus
  rw [Nat.mod_eq_of_lt (show payload.length < 256 ^ 8 from hlen)] at hcount
  have hfld : s.fld Reg.CPH_MBOX 15 0 < 256 ^ 4 := (bits_lt _ 15 0).trans (by decide)
  rw [Nat.mod_eq_of_lt hfld] at hseq
  exact ⟨⟨hseq, hstatus, hcount, hframe⟩, hload⟩

theorem mailReplied_congr {status n : Nat} {s t u : State} (hseq : t.rd Reg.CPH_MBOX = s.rd Reg.CPH_MBOX) (hmem : t.mem = s.mem)
    (h : mailReplied status n t u) : mailReplied status n s u := by
  obtain ⟨h0, h4, h8, hframe⟩ := h
  exact ⟨h0.trans (State.fld_congr hseq _ _), h4, h8, (sameMemBut_of_mem hmem).trans hframe⟩

/-! ## The mailbox request for a power state (R498) -/

theorem State.pstateWrite_cases (s : State) (v : Nat) : s.pstateWrite v = s ∨ (∃ r, s.pstateWrite v = s.pstateRefused r) ∨
    s.pstateWrite v = s.pstateStarted v ∨ s.pstateWrite v = (s.pstateStarted v).supplyOn := by
  unfold State.pstateWrite
  dsimp only
  split_ifs
  · exact .inl rfl
  · exact .inl rfl
  · exact .inr (.inl ⟨1, rfl⟩)
  · exact .inr (.inl ⟨2, rfl⟩)
  · exact .inr (.inr (.inr rfl))
  · exact .inr (.inr (.inl rfl))

theorem State.pstateRefused_mem (s : State) (r : Nat) : (s.pstateRefused r).mem = s.mem := by
  rw [State.pstateRefused, State.setFld_mem, State.setFlag_mem]

theorem State.pstateRefused_frame (s : State) (r : Nat) : sameRegsBut [Reg.SEC_PSTATE] s (s.pstateRefused r) :=
  ((sameRegsBut_refl _ s).setFlag (List.mem_singleton_self _) _ _).setFld (List.mem_singleton_self _) _ _ _

theorem State.supplyOn_mem (s : State) : s.supplyOn.mem = s.mem := by
  rw [State.supplyOn]
  split <;> rfl

theorem State.pstateWrite_keeps (s : State) (v : Nat) : (s.pstateWrite v).mem = s.mem ∧ sameRegsBut [Reg.SEC_PSTATE] s (s.pstateWrite v) := by
  obtain h | ⟨r, h⟩ | h | h := s.pstateWrite_cases v <;> rw [h]
  · exact ⟨rfl, sameRegsBut_refl _ s⟩
  · exact ⟨s.pstateRefused_mem r, s.pstateRefused_frame r⟩
  · exact ⟨(s.pstateStarted_powerOnly v).mem, s.pstateStarted_frame v⟩
  · exact ⟨(State.supplyOn_mem _).trans (s.pstateStarted_powerOnly v).mem,
      fun a ha => (State.rd_congr (State.supplyOn_regs _) a).trans (s.pstateStarted_frame v a ha)⟩

/-- Home firmware's write of SEC_PSTATE for a request: REFUSED is cleared first, so that it then tells of this request. -/
def State.powerTried (s : State) (v : Nat) : State :=
  if v = 0 ∨ v = 3 ∨ v = 4 then (s.setFlag Reg.SEC_PSTATE 24 false).pstateWrite v else s

/-- The state after the request, with the REFUSED that stood before it, and whether the request is refused. -/
def State.powerAsked (s : State) (v : Nat) : State × Bool :=
  (if s.flag Reg.SEC_PSTATE 24 then (s.powerTried v).setFlag Reg.SEC_PSTATE 24 true else s.powerTried v,
    !(v == 0 || v == 3 || v == 4) || (s.powerTried v).flag Reg.SEC_PSTATE 24)

theorem State.powerAsked_fst (s : State) (v : Nat) : (s.powerAsked v).1 =
    if s.flag Reg.SEC_PSTATE 24 then (s.powerTried v).setFlag Reg.SEC_PSTATE 24 true else s.powerTried v := rfl

theorem State.powerTried_keeps (s : State) (v : Nat) : (s.powerTried v).mem = s.mem ∧ sameRegsBut [Reg.SEC_PSTATE] s (s.powerTried v) := by
  rw [State.powerTried]
  split
  · obtain ⟨hmem, hregs⟩ := (s.setFlag Reg.SEC_PSTATE 24 false).pstateWrite_keeps v
    exact ⟨hmem.trans (s.setFlag_mem _ _ _), ((sameRegsBut_refl _ s).setFlag (List.mem_singleton_self _) _ _).trans hregs⟩
  · exact ⟨rfl, sameRegsBut_refl _ s⟩

theorem State.powerAsked_keeps (s : State) (v : Nat) :
    (s.powerAsked v).1.mem = s.mem ∧ (s.powerAsked v).1.pwr = (s.powerTried v).pwr ∧ sameRegsBut [Reg.SEC_PSTATE] s (s.powerAsked v).1 := by
  obtain ⟨hmem, hregs⟩ := s.powerTried_keeps v
  rw [State.powerAsked_fst]
  split
  · exact ⟨(State.setFlag_mem _ _ _ _).trans hmem, State.setFlag_pwr _ _ _ _, hregs.setFlag (List.mem_singleton_self _) _ _⟩
  · exact ⟨hmem, rfl, hregs⟩

section
variable {s : State} (hruns : s.homeRuns = true) (hwaits : s.mailWaits = true) (hkind : s.mailKind = 2)
include hruns hwaits hkind

theorem exec_power : exec .power s = .next (if (s.mailLen != 1) = true then s.mailReply 2 [] else
    (s.powerAsked (s.loadNat (reqBuf + 8) 1)).1.mailReply (if (s.powerAsked (s.loadNat (reqBuf + 8) 1)).2 then 3 else 0)
      (leBytes 4 ((s.powerAsked (s.loadNat (reqBuf + 8) 1)).1.rd Reg.SEC_PSTATE).toNat)) := by
  have hserved : ¬ ((!s.homeRuns || !s.mailWaits || s.mailKind != 2) = true) := by
    simp [hruns, hwaits, hkind]
  have hexec : exec .power s = _ := if_neg hserved
  rw [hexec]
  split <;> rfl

theorem power_malformed (hlen : s.mailLen ≠ 1) :
    completes .power s fun t => mailReplied 2 0 s t ∧ t.regs = s.regs ∧ t.pwr = s.pwr := by
  have hexec := exec_power hruns hwaits hkind
  rw [if_pos (by simpa using hlen)] at hexec
  exact ⟨_, hexec, (s.mailReply_spec (by decide) (by decide)).1, State.store_regs _ _ _, State.store_pwr _ _ _⟩

/-- The reply is SEC_PSTATE after the request. -/
theorem power_replies (hlen : s.mailLen = 1) : completes .power s fun t =>
    mailReplied (if (s.powerAsked (s.loadNat (reqBuf + 8) 1)).2 then 3 else 0) 4 s t ∧
      t.loadNat (replyBuf + 16) 4 = (t.rd Reg.SEC_PSTATE).toNat % 2 ^ 32 ∧ sameRegsBut [Reg.SEC_PSTATE] s t ∧
      t.pwr = (s.powerTried (s.loadNat (reqBuf + 8) 1)).pwr := by
  have hexec := exec_power hruns hwaits hkind
  rw [if_neg (by simp [hlen])] at hexec
  refine ⟨_, hexec, ?_⟩
  obtain ⟨hmem, hpwr, hregs⟩ := s.powerAsked_keeps (s.loadNat (reqBuf + 8) 1)
  generalize s.powerAsked (s.loadNat (reqBuf + 8) 1) = u at *
  have hst : (if u.2 = true then 3 else 0) < 2 ^ 32 := by split <;> decide
  obtain ⟨hreply, hload⟩ := u.1.mailReply_spec hst (payload := leBytes 4 (u.1.rd Reg.SEC_PSTATE).toNat) (by rw [leBytes_length]; decide)
  rw [leBytes_length] at hreply hload
  refine ⟨mailReplied_congr (hregs _ (by decide)) hmem hreply, ?_, fun a ha => hregs a ha, hpwr⟩
  rw [State.loadNat, hload, leNat_leBytes]
  rfl

end

theorem power_replies_unless {s : State} (hruns : s.homeRuns = true) (hwaits : s.mailWaits = true) (hkind : s.mailKind = 2)
    (hlen : s.mailLen = 1) : completes .power s fun t => ∃ st, (st = 0 ∨ st = 3) ∧ mailReplied st 4 s t ∧
        t.loadNat (replyBuf + 16) 4 = (t.rd Reg.SEC_PSTATE).toNat % 2 ^ 32 ∧ sameRegsBut [Reg.SEC_PSTATE] s t ∧
        ((s.loadNat (reqBuf + 8) 1 ≠ 0 ∧ s.loadNat (reqBuf + 8) 1 ≠ 3 ∧ s.loadNat (reqBuf + 8) 1 ≠ 4) → st = 3 ∧ t.pwr = s.pwr) := by
  obtain ⟨t, hexec, hreply, hload, hregs, hpwr⟩ := power_replies hruns hwaits hkind hlen
  refine ⟨t, hexec, _, by split <;> simp, hreply, hload, hregs, fun ⟨h0, h3, h4⟩ => ⟨if_pos ?_, hpwr.trans ?_⟩⟩
  · simp [State.powerAsked, h0, h3, h4]
  · rw [State.powerTried, if_neg (by tauto)]

theorem State.pstateStarted_toHome (s : State) (v : Nat) : (s.pstateStarted v).pwr.toHome = some v := rfl

/-- The write of TARGET = Retain that finds nothing in its way. -/
theorem State.pstateWrite_retain {s : State} (hfree : s.flag Reg.SEC_PSTATE 25 = false) (hp : s.pstate < 3)
    (hdbg : s.flag Reg.SEC_DBGSTAT 24 = false) (hc : s.cstate ≠ 4) : s.pstateWrite 3 = s.pstateStarted 3 := by
  rw [State.pstateWrite_starts (.inr (.inl rfl)) hfree (by omega) (absurd · (by decide)) (fun _ => hdbg) hc, if_neg (by decide)]

theorem State.powerTried_retain {s : State} (hfree : s.flag Reg.SEC_PSTATE 25 = false) (hp : s.pstate < 3)
    (hdbg : s.flag Reg.SEC_DBGSTAT 24 = false) (hc : s.cstate ≠ 4) :
    s.powerTried 3 = (s.setFlag Reg.SEC_PSTATE 24 false).pstateStarted 3 := by
  rw [State.powerTried, if_pos (by decide)]
  refine State.pstateWrite_retain ?_ ?_ ?_ ?_
  · rw [State.flag_setFlag_ne _ _ _ _ _ (by decide) (by decide), hfree]
  · rw [State.pstate, State.setFlag, State.fld_setFld_disjoint _ _ _ _ _ _ _ (by decide) (by decide) (.inr (by decide))]
    exact hp
  · rw [State.flag_setFlag_other _ _ _ _ (by decide), hdbg]
  · rw [State.cstate, State.setFlag, State.fld_setFld_ne _ _ _ _ _ _ (by decide)]
    exact hc

/-- The request for Retain that finds nothing in its way. -/
theorem power_retains {s : State} (hruns : s.homeRuns = true) (hwaits : s.mailWaits = true) (hkind : s.mailKind = 2)
    (hlen : s.mailLen = 1) (hv : s.loadNat (reqBuf + 8) 1 = 3) (hfree : s.flag Reg.SEC_PSTATE 25 = false) (hp : s.pstate < 3)
    (hdbg : s.flag Reg.SEC_DBGSTAT 24 = false) (hc : s.cstate ≠ 4) : completes .power s fun t => mailReplied 0 4 s t ∧
      t.pwr.toHome = some 3 ∧ t.loadNat (replyBuf + 16) 4 = (t.rd Reg.SEC_PSTATE).toNat % 2 ^ 32 := by
  obtain ⟨t, hexec, hreply, hload, -, hpwr⟩ := power_replies hruns hwaits hkind hlen
  have htried := State.powerTried_retain hfree hp hdbg hc
  obtain ⟨-, -, hrefused⟩ := (s.setFlag Reg.SEC_PSTATE 24 false).pstateStarted_fields (v := 3) (by decide)
  rw [← htried, State.flag_setFlag_same _ _ _ _ (by decide)] at hrefused
  have hasked : (s.powerAsked 3).2 = false := by
    rw [State.powerAsked, hrefused]
    rfl
  rw [hv, hasked, if_neg (by decide)] at hreply
  rw [hv, htried] at hpwr
  exact ⟨t, hexec, hreply, (congrArg PwrSt.toHome hpwr).trans (State.pstateStarted_toHome _ _), hload⟩

end Sys2Proof.Machine

namespace Sys2Proof.Machine

/-! ## Showing a new power state and a new CSTATE (R457, R473) -/

/-- `t` differs from `s` in registers, in the hold controller, in the events raised and in power's own fields only. -/
def statusOnly (s t : State) : Prop := ∃ r h e p, t = { s with
  regs := r
  hold := h
  raised := e
  pwr := p }

section
variable {s t : State}

theorem statusOnly.refl (s : State) : statusOnly s s := ⟨s.regs, s.hold, s.raised, s.pwr, rfl⟩

theorem statusOnly.trans {u : State} (h : statusOnly s t) (h' : statusOnly t u) : statusOnly s u := by
  obtain ⟨_, _, _, _, rfl⟩ := h
  obtain ⟨_, _, _, _, rfl⟩ := h'
  exact ⟨_, _, _, _, rfl⟩

theorem statusOnly.wr (h : statusOnly s t) (a : Nat) (v : Word) : statusOnly s (t.wr a v) := by
  obtain ⟨_, _, _, _, rfl⟩ := h
  exact ⟨_, _, _, _, rfl⟩

theorem statusOnly.setFld (h : statusOnly s t) (a hi lo x : Nat) : statusOnly s (t.setFld a hi lo x) := h.wr _ _

theorem statusOnly.setFlag (h : statusOnly s t) (a k : Nat) (b : Bool) : statusOnly s (t.setFlag a k b) := h.wr _ _

theorem statusOnly.raiseEv (h : statusOnly s t) (k : Nat) : statusOnly s (t.raiseEv k) := by
  obtain ⟨_, _, _, _, rfl⟩ := h
  exact ⟨_, _, _, _, rfl⟩

theorem statusOnly.withPwr (h : statusOnly s t) (p : PwrSt) : statusOnly s { t with pwr := p } := by
  obtain ⟨_, _, _, _, rfl⟩ := h
  exact ⟨_, _, _, _, rfl⟩

theorem statusOnly.holdCause (h : statusOnly s t) (c : Nat) : statusOnly s (t.holdCause c) := by
  obtain ⟨_, _, _, _, rfl⟩ := h
  unfold State.holdCause
  split_ifs
  · exact ⟨_, _, _, _, rfl⟩
  · exact ⟨_, _, _, _, rfl⟩
  · exact ⟨_, _, _, _, rfl⟩

theorem statusOnly.watchGate (h : statusOnly s t) (old : State) : statusOnly s (old.watchGate t) := by
  rw [State.watchGate]
  split
  · exact h.holdCause 3
  · exact h

theorem statusOnly.setPstate (h : statusOnly s t) (p : Nat) : statusOnly s (t.setPstate p) := ((h.setFld _ _ _ _).setFld _ _ _ _).watchGate _

theorem statusOnly.setCstate (h : statusOnly s t) (c : Nat) : statusOnly s (t.setCstate c) := ((h.setFld _ _ _ _).raiseEv _).watchGate _

theorem statusOnly.mem (h : statusOnly s t) : t.mem = s.mem := by obtain ⟨_, _, _, _, rfl⟩ := h; rfl

theorem statusOnly.face (h : statusOnly s t) (f : Nat) : t.face f = s.face f := by obtain ⟨_, _, _, _, rfl⟩ := h; rfl

theorem State.holdCause_regs (s : State) (c : Nat) : (s.holdCause c).regs = s.regs := by
  unfold State.holdCause
  split_ifs
  · rfl
  · rfl
  · rfl

theorem State.holdCause_pwr (s : State) (c : Nat) : (s.holdCause c).pwr = s.pwr := by
  unfold State.holdCause
  split_ifs
  · rfl
  · rfl
  · rfl

theorem State.watchGate_regs (old s : State) : (old.watchGate s).regs = s.regs := by
  rw [State.watchGate]
  split
  · exact s.holdCause_regs 3
  · rfl

theorem State.watchGate_pwr (old s : State) : (old.watchGate s).pwr = s.pwr := by
  rw [State.watchGate]
  split
  · exact s.holdCause_pwr 3
  · rfl

theorem State.rd_setPstate (s : State) (p a : Nat) :
    (s.setPstate p).rd a = ((s.setFld Reg.SEC_PSTATE 31 29 p).setFld Reg.PWR_STATUS 2 0 p).rd a :=
  State.rd_congr (State.watchGate_regs _ _) a

theorem State.setPstate_pwr (s : State) (p : Nat) : (s.setPstate p).pwr = s.pwr := by
  rw [State.setPstate, State.watchGate_pwr, State.setFld_pwr, State.setFld_pwr]

theorem State.setPstate_pstate (s : State) {p : Nat} (hp : p < 8) : (s.setPstate p).pstate = p := by
  rw [State.pstate, State.fld_congr (s.rd_setPstate p _), State.fld_setFld_ne _ _ _ _ _ _ (by decide),
    State.fld_setFld_same _ _ _ _ _ (by decide) (by decide)]
  exact Nat.mod_eq_of_lt hp

theorem State.setPstate_status (s : State) {p : Nat} (hp : p < 8) : (s.setPstate p).fld Reg.PWR_STATUS 2 0 = p := by
  rw [State.fld_congr (s.rd_setPstate p _), State.fld_setFld_same _ _ _ _ _ (by decide) (by decide)]
  exact Nat.mod_eq_of_lt hp

theorem State.setPstate_frame (s : State) (p : Nat) : sameRegsBut [Reg.SEC_PSTATE, Reg.PWR_STATUS] s (s.setPstate p) := fun a ha =>
  (s.rd_setPstate p a).trans
    (((sameRegsBut_refl _ s).setFld (List.mem_cons_self ..) _ _ _).setFld (List.mem_cons_of_mem _ (List.mem_singleton_self _)) _ _ _ a ha)

theorem State.rd_setCstate (s : State) (c a : Nat) : (s.setCstate c).rd a = (s.setFld Reg.HFLT_STATUS 31 29 c).rd a :=
  (State.rd_congr (State.watchGate_regs _ _) a).trans (State.raiseEv_rd _ _ _)

theorem State.setCstate_cstate (s : State) {c : Nat} (hc : c < 8) : (s.setCstate c).cstate = c := by
  rw [State.cstate, State.fld_congr (s.rd_setCstate c _), State.fld_setFld_same _ _ _ _ _ (by decide) (by decide)]
  exact Nat.mod_eq_of_lt hc

theorem State.setCstate_frame (s : State) (c : Nat) : sameRegsBut [Reg.HFLT_STATUS] s (s.setCstate c) := fun a ha =>
  (s.rd_setCstate c a).trans ((sameRegsBut_refl _ s).setFld (List.mem_singleton_self _) _ _ _ a ha)

theorem State.setCstate_pwr (s : State) (c : Nat) : (s.setCstate c).pwr = s.pwr := by
  rw [State.setCstate, State.watchGate_pwr, State.raiseEv_pwr, State.setFld_pwr]

end

/-! ## The end of Home firmware's transition -/

/-- Home firmware's transition to `p` has completed. -/
def State.homeDone (s : State) (p : Nat) : State :=
  ({ s with pwr := { s.pwr with toHome := none } }.setPstate p).setFlag Reg.SEC_PSTATE 25 false

section
variable (s : State) {p : Nat}

theorem State.homeDone_pwr (p : Nat) : (s.homeDone p).pwr = { s.pwr with toHome := none } := by
  rw [State.homeDone, State.setFlag_pwr, State.setPstate_pwr]

theorem State.homeDone_idle (p : Nat) : (s.homeDone p).flag Reg.SEC_PSTATE 25 = false := State.flag_setFlag_same _ _ _ _ (by decide)

theorem State.homeDone_pstate (hp : p < 8) : (s.homeDone p).pstate = p := by
  rw [State.pstate, State.homeDone, State.setFlag, State.fld_setFld_disjoint _ _ _ _ _ _ _ (by decide) (by decide) (.inr (by decide))]
  exact State.setPstate_pstate _ hp

theorem State.homeDone_status (hp : p < 8) : (s.homeDone p).fld Reg.PWR_STATUS 2 0 = p := by
  rw [State.homeDone, State.setFlag, State.fld_setFld_ne _ _ _ _ _ _ (by decide)]
  exact State.setPstate_status _ hp

theorem statusOnly.homeDone {s t : State} (h : statusOnly s t) (p : Nat) : statusOnly s (t.homeDone p) :=
  ((h.withPwr _).setPstate p).setFlag _ _ _

theorem State.homeDone_frame (p : Nat) : sameRegsBut [Reg.SEC_PSTATE, Reg.PWR_STATUS] s (s.homeDone p) := by
  refine sameRegsBut.setFlag (fun a ha => ?_) (List.mem_cons_self ..) _ _
  exact State.setPstate_frame { s with pwr := { s.pwr with toHome := none } } p a ha

end

/-! ## Out of Retain or Watch -/

section
variable {s : State}

theorem State.homeTransition_wakes (h : s.pwr.pgCore = true) : s.homeTransition 0 =
    if s.pstate = 4 then (s.homeDone 0).setFld Reg.CPH_STATUS 31 24 0x11
    else ((s.homeDone 0).setCstate 1).setFld Reg.CPH_STATUS 31 24 0x12 := by
  rw [State.homeTransition]
  dsimp only
  rw [if_pos rfl, if_neg (by simp [h])]
  rfl

theorem State.setFld_stage (s : State) {x : Nat} (hx : x < 256) : (s.setFld Reg.CPH_STATUS 31 24 x).stage = x := by
  rw [State.stage, State.fld_setFld_same _ _ _ _ _ (by decide) (by decide)]
  exact Nat.mod_eq_of_lt hx

theorem powerTransitionDone_wakes (hto : s.pwr.toHome = some 0) (h : s.pwr.pgCore = true) :
    completes .powerTransitionDone s fun t => t.pstate = 0 ∧ t.flag Reg.SEC_PSTATE 25 = false ∧ t.pwr.toHome = none ∧
      (s.pstate = 4 → t.stage = 0x11) ∧ (s.pstate ≠ 4 → t.cstate = 1 ∧ t.stage = 0x12) := by
  have hexec : exec .powerTransitionDone s = .next (s.homeTransition 0) := by
    show execPowerTransitionDone s = _
    rw [execPowerTransitionDone, hto]
  have hpwr := congrArg PwrSt.toHome (s.homeDone_pwr 0)
  have hidle := s.homeDone_idle 0
  have hpstate := s.homeDone_pstate (p := 0) (by decide)
  rw [State.homeTransition_wakes h] at hexec
  refine ⟨_, hexec, ?_⟩
  generalize s.homeDone 0 = u at *
  have hapart : Reg.SEC_PSTATE ≠ Reg.CPH_STATUS := by decide
  split
  · next h4 =>
    refine ⟨?_, ?_, ?_, fun _ => State.setFld_stage _ (by decide), absurd h4⟩
    · rw [State.pstate, State.fld_setFld_ne _ _ _ _ _ _ hapart]
      exact hpstate
    · rw [State.flag, State.fld_setFld_ne _ _ _ _ _ _ hapart]
      exact hidle
    · rw [State.setFld_pwr]
      exact hpwr
  · next h4 =>
    have hrd := u.setCstate_frame 1 Reg.SEC_PSTATE (by decide)
    refine ⟨?_, ?_, ?_, fun h => absurd h h4, fun _ => ⟨?_, State.setFld_stage _ (by decide)⟩⟩
    · rw [State.pstate, State.fld_setFld_ne _ _ _ _ _ _ hapart, State.fld_congr hrd]
      exact hpstate
    · rw [State.flag, State.fld_setFld_ne _ _ _ _ _ _ hapart, State.fld_congr hrd]
      exact hidle
    · rw [State.setFld_pwr, State.setCstate_pwr]
      exact hpwr
    · rw [State.cstate, State.fld_setFld_ne _ _ _ _ _ _ (by decide)]
      exact u.setCstate_cstate (by decide)

end

/-! ## Ulnal's transition -/

section
variable {s : State}

theorem State.each_wakeFace_gated (l : List Nat) (f : Nat) (s : State) :
    ((s.each l State.wakeFace).face f).gated = ((s.face f).gated && !l.contains f) := by
  induction l generalizing s with
  | nil => simp [State.each]
  | cons g l ih =>
    rw [State.each, List.foldl_cons, ← State.each, ih, State.wakeFace, State.face_setFace, List.contains_cons]
    by_cases h : f = g
    · subst h
      simp
    · have hne : (f == g) = false := by simpa using h
      rw [if_neg h, hne, Bool.false_or, State.zero_face]

theorem powerTransitionDone_ulnal {p : Nat} (hhome : s.pwr.toHome = none) (hto : s.pwr.toUlnal = some p) (hp : p ≤ 2)
    (hidle : ∀ f ∈ s.gatedIn p, (s.face f).running = false) : completes .powerTransitionDone s fun t => t.pstate = p ∧
      t.pwr.toUlnal = none ∧ ∀ f < 6, (s.face f).gated = true → f ∉ s.gatedIn p → (t.face f).gated = false := by
  have hexec : exec .powerTransitionDone s = .next (s.ulnalTransition p) := by
    show execPowerTransitionDone s = _
    rw [execPowerTransitionDone, hhome, hto]
  have hnone : ¬ ((s.gatedIn p).any fun f => (s.face f).running) = true := by simpa using hidle
  refine ⟨_, hexec.trans (congrArg _ (if_neg hnone)), State.setPstate_pstate _ (by omega), by rw [State.setPstate_pwr], fun f hf hgated hoff => ?_⟩
  rw [((statusOnly.refl _).setPstate p).face]
  refine (State.each_wakeFace_gated _ f _).trans ?_
  have hwake : ((List.range 6).filter fun f => (s.face f).gated && !(s.gatedIn p).contains f).contains f = true := by
    simpa [hf, hgated] using hoff
  rw [hwake, Bool.not_true, Bool.and_false]

end

/-! ## A transition that waits -/

theorem powerTransitionDone_waits {s : State} (h : (∃ p, s.pwr.toHome = some p ∧ ((p ≠ 0 ∧ ∃ f < 6, (s.face f).running = true) ∨
      (p = 0 ∧ s.pwr.pgCore = false))) ∨
      (s.pwr.toHome = none ∧ ∃ p, s.pwr.toUlnal = some p ∧ ∃ f ∈ s.gatedIn p, (s.face f).running = true)) :
    exec .powerTransitionDone s = .next s := by
  show execPowerTransitionDone s = _
  rw [execPowerTransitionDone]
  obtain ⟨p, hto, ⟨hp, f, hf, hrun⟩ | ⟨rfl, hpg⟩⟩ | ⟨hhome, p, hto, f, hf, hrun⟩ := h
  · have hany : ((List.range 6).any fun f => (s.face f).running) = true := List.any_eq_true.mpr ⟨f, List.mem_range.mpr hf, hrun⟩
    rw [hto]
    exact congrArg _ ((if_neg hp).trans (if_pos hany))
  · have hwait : s.homeTransition 0 = s := by
      rw [State.homeTransition]
      dsimp only
      rw [if_pos rfl, hpg]
      rfl
    rw [hto]
    exact congrArg Host.Outcome.next hwait
  · have hany : ((s.gatedIn p).any fun f => (s.face f).running) = true := List.any_eq_true.mpr ⟨f, hf, hrun⟩
    rw [hhome, hto]
    exact congrArg _ (if_pos hany)

end Sys2Proof.Machine

namespace Sys2Proof.Machine

/-! ## Into Retain or Watch: the compute side goes off (R449, R473) -/

/-- `t` differs from `s` in registers only. -/
def regsOnly (s t : State) : Prop := ∃ r, t = { s with regs := r }

section
variable {s t u : State}

theorem regsOnly.refl (s : State) : regsOnly s s := ⟨s.regs, rfl⟩

theorem regsOnly.trans (h : regsOnly s t) (h' : regsOnly t u) : regsOnly s u := by
  obtain ⟨_, rfl⟩ := h
  obtain ⟨_, rfl⟩ := h'
  exact ⟨_, rfl⟩

theorem regsOnly.wr (h : regsOnly s t) (a : Nat) (v : Word) : regsOnly s (t.wr a v) := by
  obtain ⟨_, rfl⟩ := h
  exact ⟨_, rfl⟩

theorem regsOnly.setFld (h : regsOnly s t) (a hi lo x : Nat) : regsOnly s (t.setFld a hi lo x) := h.wr _ _

theorem regsOnly.setFlag (h : regsOnly s t) (a k : Nat) (b : Bool) : regsOnly s (t.setFlag a k b) := h.wr _ _

theorem regsOnly.ite (c : Prop) [Decidable c] (h : regsOnly s t) (h' : regsOnly s u) : regsOnly s (if c then t else u) := by
  split
  · exact h
  · exact h'

theorem regsOnly.mem (h : regsOnly s t) : t.mem = s.mem := by obtain ⟨_, rfl⟩ := h; rfl

theorem State.applyLocks_regsOnly (s : State) (home : Bool) : regsOnly s (s.applyLocks home) := by
  refine State.each_rel (R := regsOnly) regsOnly.refl regsOnly.trans _ (fun t l _ => ?_) s
  split
  · exact (regsOnly.refl t).wr _ _
  · exact regsOnly.refl t

theorem State.freeBytes_memBut (s : State) (k n : Nat) : sameMemBut [(k, n)] s (s.freeBytes k n) := by
  have h := ((s.take n).2.store_stored k ((List.range n).map fun i => Config.freeByte ((s.take n).1 + i))).2.1
  rw [List.length_map, List.length_range] at h
  exact fun x hx => h x hx

end

/-- What a compute-side reset clears, but for memory. -/
structure ComputeCleared (s t : State) : Prop where
  faces : t.faces = []
  jobs : t.jobs = []
  vfs : t.vfs = []
  bufs : t.bufs = []
  routed : t.routed = []
  waiters : t.waiters = []
  resetDue : t.safe.resetDue = false
  boardOpen : t.safe.boardOpen = false
  flash : t.flash = s.flash

section
variable {s t u : State}

theorem ComputeCleared.regs (h : ComputeCleared s t) (h' : regsOnly t u) : ComputeCleared s u := by
  obtain ⟨_, rfl⟩ := h'
  exact ⟨h.faces, h.jobs, h.vfs, h.bufs, h.routed, h.waiters, h.resetDue, h.boardOpen, h.flash⟩

theorem ComputeCleared.freeBytes (h : ComputeCleared s t) (k n : Nat) : ComputeCleared s (t.freeBytes k n) :=
  ⟨h.faces, h.jobs, h.vfs, h.bufs, h.routed, h.waiters, h.resetDue, h.boardOpen, h.flash⟩

theorem ComputeCleared.status (h : ComputeCleared s t) (h' : statusOnly t u) : ComputeCleared s u := by
  obtain ⟨_, _, _, _, rfl⟩ := h'
  exact ⟨h.faces, h.jobs, h.vfs, h.bufs, h.routed, h.waiters, h.resetDue, h.boardOpen, h.flash⟩

end

/-- A compute-side reset: what it clears, then registers, then the PCIe mailbox RAM. -/
theorem State.computeReset_eq (s : State) (lost : Bool) : ∃ v u, ComputeCleared s v ∧ v.mem = computeMem lost s.mem ∧ regsOnly v u ∧
    s.computeReset lost = s.watchGate ((u.freeBytes 0x7F00181000 0x1000).applyLocks false) := by
  refine ⟨_, _, ?_, ?_, .ite _ ((((regsOnly.refl _).setFlag _ _ _).setFlag _ _ _).setFld _ _ _ _)
    (((regsOnly.refl _).setFlag _ _ _).setFlag _ _ _), rfl⟩
  · exact ⟨rfl, rfl, rfl, rfl, rfl, rfl, rfl, rfl, rfl⟩
  · rfl

theorem State.computeReset_cleared (s : State) (lost : Bool) : ComputeCleared s (s.computeReset lost) := by
  obtain ⟨v, u, hv, -, hu, heq⟩ := s.computeReset_eq lost
  rw [heq]
  exact (((hv.regs hu).freeBytes _ _).regs (State.applyLocks_regsOnly _ _)).status ((statusOnly.refl _).watchGate _)

theorem State.computeReset_loadByte (s : State) (lost : Bool) {k : Nat} (hk : k < 0x7F00181000 ∨ 0x7F00182000 ≤ k) :
    (s.computeReset lost).loadByte k = Map.get 0 (computeMem lost s.mem) k := by
  obtain ⟨v, u, -, hv, hu, heq⟩ := s.computeReset_eq lost
  have hfree := u.freeBytes_memBut 0x7F00181000 0x1000 k (by simp only [List.forall_mem_singleton]; omega)
  rw [heq, State.loadByte, ((statusOnly.refl _).watchGate s).mem, (State.applyLocks_regsOnly _ _).mem, ← State.loadByte, hfree,
    State.loadByte, hu.mem, hv]

theorem computeMem_hbm (lost : Bool) (m : List Host.Cell) {k : Nat} (hk : k < 0x600000000) :
    Map.get 0 (computeMem lost m) k = if lost then 0 else Map.get 0 m k := by
  have hapart : ¬ (storeBase 0 ≤ k) ∧ ¬ (boardBase ≤ k) ∧ ¬ (bankKey 0 0 ≤ k) := by
    simp only [storeBase, boardBase, bankKey]
    omega
  obtain ⟨hstore, hboard, hbank⟩ := hapart
  cases lost
  · simp [computeMem, hstore, hboard, hbank]
  · simp [computeMem, hk]

theorem computeMem_cleared (lost : Bool) (m : List Host.Cell) {k : Nat} (h : (boardBase ≤ k ∧ k < boardBase + 0x1000000) ∨
    (storeBase 0 ≤ k ∧ k < storeBase 6) ∨ (bankKey 0 0 ≤ k ∧ k < peerKey 0)) : Map.get 0 (computeMem lost m) k = 0 := by
  have hclear : Map.get 0 (Map.clear (storeBase 0) (storeBase 6) (Map.clear boardBase (boardBase + 0x1000000)
      (Map.clear (bankKey 0 0) (peerKey 0) m))) k = 0 := by
    simp only [Map.get_clear]
    obtain h | h | h := h <;> simp [h]
  cases lost
  · exact hclear
  · rw [computeMem, if_pos rfl, Map.get_clear, hclear, ite_self]

theorem State.computeReset_off (s : State) (lost : Bool) : computeOff s (s.computeReset lost) := by
  have h := s.computeReset_cleared lost
  refine ⟨h.faces, h.jobs, h.vfs, h.bufs, h.routed, h.waiters, h.resetDue, h.boardOpen, h.flash, fun k hlo hhi => ?_,
    fun k hlo hhi => ?_, fun k hlo hhi => ?_⟩
  · rw [State.computeReset_loadByte s lost (.inl (by simp only [boardBase] at hhi; omega)), computeMem_cleared _ _ (.inl ⟨hlo, hhi⟩)]
  · rw [State.computeReset_loadByte s lost (.inl (by simp only [storeBase] at hhi; omega)), computeMem_cleared _ _ (.inr (.inl ⟨hlo, hhi⟩))]
  · rw [State.computeReset_loadByte s lost (.inr (by simp only [bankKey] at hlo; omega)), computeMem_cleared]
    exact .inr (.inr ⟨hlo, by simp only [bankKey, peerKey] at *; omega⟩)

theorem computeOff.status {s t u : State} (h : computeOff s t) (h' : statusOnly t u) : computeOff s u := by
  obtain ⟨_, _, _, _, rfl⟩ := h'
  exact h

end Sys2Proof.Machine

namespace Sys2Proof.Machine

/-- The compute side without its supply: in Watch HBM has lost its bytes too, and the governor its history. -/
def State.asleep (s : State) (p : Nat) : State :=
  let t := (s.computeReset (p == 4)).supplyOff (p == 4)
  if p = 4 then { t with pwr := { t.pwr with
    history := false
    ticks := 0 } } else t

section
variable {s : State} {p : Nat}

theorem State.homeTransition_sleeps (hp : p ≠ 0) (hidle : ∀ f < 6, (s.face f).running = false) :
    s.homeTransition p = (((s.asleep p).setCstate 0).homeDone p).setFld Reg.CPH_STATUS 31 24 0x10 := by
  have hnone : ¬ ((List.range 6).any fun f => (s.face f).running) = true := by simpa using hidle
  rw [State.homeTransition]
  dsimp only
  rw [if_neg hp, if_neg hnone]
  rfl

theorem State.asleep_statusOnly (s : State) (p : Nat) : statusOnly (s.computeReset (p == 4)) (s.asleep p) := by
  rw [State.asleep]
  split
  · exact (statusOnly.refl _).withPwr _
  · exact (statusOnly.refl _).withPwr _

theorem State.asleep_coreEn (s : State) (p : Nat) : (s.asleep p).pwr.coreEn = false := by
  rw [State.asleep]
  split
  · rfl
  · rfl

theorem State.asleep_hbmEn (s : State) : (s.asleep 4).pwr.hbmEn = false :=
  Bool.and_false _

theorem powerTransitionDone_sleeps (hto : s.pwr.toHome = some p) (hp : p = 3 ∨ p = 4) (hidle : ∀ f < 6, (s.face f).running = false) :
    completes .powerTransitionDone s fun t =>
      t.pstate = p ∧ t.fld Reg.PWR_STATUS 2 0 = p ∧ t.flag Reg.SEC_PSTATE 25 = false ∧ t.cstate = 0 ∧ computeOff s t ∧
      t.pwr.coreEn = false ∧ t.pwr.toHome = none ∧ (p = 4 → t.pwr.hbmEn = false) ∧
      ∀ k < 0x600000000, t.loadByte k = if p = 4 then 0 else s.loadByte k := by
  have hexec : exec .powerTransitionDone s = .next (s.homeTransition p) := by
    show execPowerTransitionDone s = _
    rw [execPowerTransitionDone, hto]
  rw [State.homeTransition_sleeps (by omega) hidle] at hexec
  refine ⟨_, hexec, ?_⟩
  have hp8 : p < 8 := by omega
  have hcstate := (s.asleep p).setCstate_cstate (c := 0) (by decide)
  have honly := (s.asleep_statusOnly p).trans (((statusOnly.refl _).setCstate 0).homeDone p)
  have hpwr := (((s.asleep p).setCstate 0).homeDone_pwr p).trans (by rw [State.setCstate_pwr])
  have hcore := s.asleep_coreEn p
  have hhbm : p = 4 → (s.asleep p).pwr.hbmEn = false := fun h => by rw [h, s.asleep_hbmEn]
  generalize s.asleep p = a at *
  have hpstate := (a.setCstate 0).homeDone_pstate hp8
  have hstatus := (a.setCstate 0).homeDone_status hp8
  have hbusy := (a.setCstate 0).homeDone_idle p
  have hframe := (a.setCstate 0).homeDone_frame p Reg.HFLT_STATUS (by decide)
  generalize (a.setCstate 0).homeDone p = u at *
  have hrd : ∀ b, b ≠ Reg.CPH_STATUS → (u.setFld Reg.CPH_STATUS 31 24 0x10).rd b = u.rd b := fun b hb => State.rd_setFld_ne _ _ _ _ hb
  have hoff := (s.computeReset_off (p == 4)).status honly
  refine ⟨(State.fld_congr (hrd _ (by decide)) _ _).trans hpstate, (State.fld_congr (hrd _ (by decide)) _ _).trans hstatus,
    (State.flag_congr (hrd _ (by decide)) _).trans hbusy, ?_, hoff.status ((statusOnly.refl u).setFld _ _ _ _), ?_, ?_, ?_, ?_⟩
  · rw [State.cstate, State.fld_congr (hrd _ (by decide)), State.fld_congr hframe]
    exact hcstate
  · rw [State.setFld_pwr, hpwr]
    exact hcore
  · rw [State.setFld_pwr, hpwr]
  · rw [State.setFld_pwr, hpwr]
    exact hhbm
  · intro k hk
    rw [State.setFld_loadByte, State.loadByte, honly.mem, ← State.loadByte, State.computeReset_loadByte s _ (.inl (by omega)),
      computeMem_hbm _ _ hk]
    simp only [beq_iff_eq]
    rfl

end

/-! ## The statement -/

theorem pmbAlert_fault (s : State) : completes .pmbAlert s (deviceFault 0x0D s) := ⟨_, rfl, s.supplyFault_deviceFault 7⟩

/-- Settles O53: each state and supply command by the lemma above that says once what it does; the transitions through the fields that
each of their steps leaves as they were. -/
theorem powerStatesLimitsAndSupplies : Obligations.PowerStatesLimitsAndSupplies := by
  refine ⟨fun s => ⟨fun _ => ⟨pwrState_busy, pwrState_starts, exec_pwrStateWrite_reserved⟩, fun v => ⟨exec_secPstateWrite_ignored,
      secPstateWrite_sleeps, ?_, ?_⟩, fun _ => powerTransitionDone_sleeps, powerTransitionDone_wakes,
      fun _ => powerTransitionDone_ulnal, powerTransitionDone_waits, fun hruns hwaits hkind => ⟨power_malformed hruns hwaits hkind,
        power_replies_unless hruns hwaits hkind, power_retains hruns hwaits hkind⟩⟩,
    fun s => ⟨fun n v => pwrTrimWrite_completes n v s, fun _ _ _ => ⟨exec_governorTick_not, governorTick_completes⟩,
      pmbusVoutWrite_completes, ⟨fun d _ => junctionThrottle_completes d, droop_completes, icc_completes⟩,
      fun d => ⟨throttleRelease_junction d, throttleRelease_droop d, throttleRelease_current d, fun _ => junctionTrip_completes d⟩,
      fun uj => energyFold_completes uj s, fun _ uj hby hfull hv htotal _ hj => State.loadNat_shareEnergy uj hby hfull hv htotal hj,
      fun c => ⟨supply_fault, supply_stops_permit, ?_, ?_, ?_, ?_⟩, pmbAlert_fault s, pgCore_completes⟩⟩
  · rintro rfl hfree hp
    exact (secPstateWrite_wakes hfree hp).1
  · rintro rfl hfree hp
    exact (secPstateWrite_wakes hfree hp).2
  · rintro rfl
    exact supply_vhome
  · rintro rfl
    exact supply_vfield
  · rintro rfl
    exact ⟨_, rfl, rfl⟩
  · rintro rfl
    rfl

end Sys2Proof.Machine

/-! # Camera ports and Ethernet controls (R34, R359, R368 to R373, R378) -/

namespace Sys2Proof.Machine

/-! ## Updates of the edge units -/

/-- `t` differs from `s` in registers other than window registers, in memory and in the edge units only. -/
def edgeOnly (s t : State) : Prop :=
  (∃ r m b e, t = { s with
    regs := r
    mem := m
    bad := b
    edge := e }) ∧ ∀ i < 64, t.rd (Reg.WINA i) = s.rd (Reg.WINA i)

section
variable {s t u : State}

theorem edgeOnly.refl (s : State) : edgeOnly s s := ⟨⟨s.regs, s.mem, s.bad, s.edge, rfl⟩, fun _ _ => rfl⟩

theorem edgeOnly.trans (h : edgeOnly s t) (h' : edgeOnly t u) : edgeOnly s u := by
  obtain ⟨⟨_, _, _, _, rfl⟩, hw⟩ := h
  obtain ⟨⟨_, _, _, _, rfl⟩, hw'⟩ := h'
  exact ⟨⟨_, _, _, _, rfl⟩, fun i hi => (hw' i hi).trans (hw i hi)⟩

theorem edgeOnly_wr {s : State} {a : Nat} (ha : ∀ i < 64, Reg.WINA i ≠ a) (v : Word) : edgeOnly s (s.wr a v) :=
  ⟨⟨_, s.mem, s.bad, s.edge, rfl⟩, fun i hi => (s.rd_wr _ _ _).trans (if_neg (ha i hi))⟩

theorem edgeOnly_store (s : State) (k : Nat) (bs : List Byte) : edgeOnly s (s.store k bs) :=
  ⟨⟨s.regs, _, _, s.edge, rfl⟩, fun _ _ => rfl⟩

theorem edgeOnly_setCsi (s : State) (p f : Nat) (c : CsiSt) : edgeOnly s (s.setCsi p f c) :=
  ⟨⟨s.regs, s.mem, s.bad, _, rfl⟩, fun _ _ => rfl⟩

theorem edgeOnly_storeDev (s : State) (a : Nat) (bs : List Byte) : edgeOnly s (s.storeDev a bs) := by
  rw [State.storeDev]
  split
  · exact edgeOnly_store s _ _
  · exact edgeOnly.refl s

/-- Whether an access is served follows from the map and from what waits for its scrub. -/
theorem edgeOnly.served (h : edgeOnly s t) (a n : Nat) : t.served a n = s.served a n := by
  obtain ⟨⟨r, m, b, e, rfl⟩, hw⟩ := h
  have hclosing : ∀ j, State.closing { s with regs := r, mem := m, bad := b, edge := e } j = s.closing j := by
    intro j
    refine Bool.eq_iff_iff.mpr ?_
    simp only [State.closing, State.windowsOf, List.any_eq_true, List.mem_filter, List.mem_range]
    refine exists_congr fun i => ?_
    rw [and_assoc, and_assoc]
    refine and_congr_right fun hi => ?_
    rw [State.fld_congr (hw i hi), State.flag_congr (hw i hi)]
  have hover : ∀ j, State.jobOver { s with regs := r, mem := m, bad := b, edge := e } j = s.jobOver j := fun j =>
    congrArg (s.jobEnding j && !s.jobRuns j && !s.pipRuns j && !·) (hclosing j)
  have hscrub : State.awaitsScrub { s with regs := r, mem := m, bad := b, edge := e } a n = s.awaitsScrub a n := by
    unfold State.awaitsScrub
    simp only [hover]
    rfl
  exact congrArg (fun x => s.accessOk a n && !(x || s.isHeld a n)) hscrub

end

/-! ## Streams of a camera port -/

section
variable (s : State)

theorem State.csi_setCsi (p f k : Nat) (c : CsiSt) :
    (s.setCsi p f c).csi p k = if k = f then c else s.csi p k := by
  rw [State.csi, State.setCsi, Map.get_put, State.csi]
  exact if_congr (by omega) rfl rfl

theorem State.setCsi_regs (p f : Nat) (c : CsiSt) : (s.setCsi p f c).regs = s.regs := rfl

theorem State.setCsi_mem (p f : Nat) (c : CsiSt) : (s.setCsi p f c).mem = s.mem := rfl

theorem State.setCsi_raised (p f : Nat) (c : CsiSt) : (s.setCsi p f c).raised = s.raised := rfl

theorem State.raised_raiseEv (k : Nat) : (s.raiseEv k).raised = s.raised ++ [k] := rfl

theorem State.storeDev_served {a : Nat} {bs : List Byte} (h : s.served a bs.length = true) : s.storeDev a bs = s.store (devKey a) bs :=
  if_pos h

theorem State.storeDev_regs (a : Nat) (bs : List Byte) : (s.storeDev a bs).regs = s.regs := by
  rw [State.storeDev]
  split
  · exact s.store_regs _ _
  · rfl

theorem State.storeDev_raised (a : Nat) (bs : List Byte) : (s.storeDev a bs).raised = s.raised := by
  rw [State.storeDev]
  split
  · exact s.store_raised _ _
  · rfl

theorem State.storeDev_edge (a : Nat) (bs : List Byte) : (s.storeDev a bs).edge = s.edge := by
  rw [State.storeDev]
  split
  · exact s.store_edge _ _
  · rfl

theorem State.storeDev_memBut (a : Nat) (bs : List Byte) : sameMemBut [(devKey a, bs.length)] s (s.storeDev a bs) := by
  rw [State.storeDev]
  split
  · exact (s.store_stored _ _).2.1
  · exact sameMemBut_of_mem rfl

theorem State.csi_congr {s t : State} (h : t.edge = s.edge) (p f : Nat) : t.csi p f = s.csi p f := by rw [State.csi, h, State.csi]

theorem State.store_loadByte_first (k : Nat) (b : Byte) : (s.store k [b]).loadByte k = b := by
  simp [byteOver]

end

end Sys2Proof.Machine

namespace Sys2Proof.Machine

/-! ## Registers of a camera port -/

section
variable (p f : Nat)

theorem csiRctl_ne_nobuf : Reg.CSI_RCTL p f ≠ Reg.CSI_NOBUF p := by simp only [Reg.CSI_RCTL, Reg.CSI_NOBUF]; omega

theorem csiRctl_ne_status : Reg.CSI_RCTL p f ≠ Reg.CSI_STATUS p := by simp only [Reg.CSI_RCTL, Reg.CSI_STATUS]; omega

theorem csiRctl_ne_drop : Reg.CSI_RCTL p f ≠ Reg.CSI_DROP p := by simp only [Reg.CSI_RCTL, Reg.CSI_DROP]; omega

theorem csiStatus_ne_drop : Reg.CSI_STATUS p ≠ Reg.CSI_DROP p := by simp only [Reg.CSI_STATUS, Reg.CSI_DROP]; omega

theorem csiStatus_ne_nobuf : Reg.CSI_STATUS p ≠ Reg.CSI_NOBUF p := by simp only [Reg.CSI_STATUS, Reg.CSI_NOBUF]; omega

theorem csiRbase_ne_rctl : Reg.CSI_RBASE p f ≠ Reg.CSI_RCTL p f := by simp only [Reg.CSI_RBASE, Reg.CSI_RCTL]; omega

theorem wina_ne_drop (hp : p < 12) {i : Nat} (hi : i < 64) : Reg.WINA i ≠ Reg.CSI_DROP p := by
  simp only [Reg.WINA, Reg.CSI_DROP]; omega

end

/-! ## A frame closes (R369 to R371) -/

/-- Bytes 0 to 15 of a frame's status; `extra`: more FLAGS. -/
def CsiFrame.statusBytes (g : CsiFrame) (extra : Nat) : List Byte :=
  leBytes 4 g.seq ++ leBytes 1 g.vc ++ leBytes 1 g.dt ++ leBytes 2 g.fnum ++ leBytes 2 g.lines
    ++ leBytes 2 g.dropped ++ leBytes 2 (min 65535 g.crcErr) ++ leBytes 1 (g.flags ||| extra) ++ leBytes 1 0

theorem CsiFrame.statusBytes_length (g : CsiFrame) (extra : Nat) : (g.statusBytes extra).length = 16 := by
  simp only [CsiFrame.statusBytes, List.length_append, leBytes_length]

/-- The status of a closed frame is written and its descriptor's OWN cleared. -/
def State.csiWritten (s : State) (g : CsiFrame) (extra : Nat) : State :=
  (s.storeDev g.status (g.statusBytes extra)).storeDev (g.desc + 24) [0]

/-- NEXT and CLOSED advance. -/
def State.csiAdvanced (s : State) (p f : Nat) : State :=
  (s.setFld (Reg.CSI_RCTL p f) 10 8 ((s.fld (Reg.CSI_RCTL p f) 10 8 + 1) % (s.fld (Reg.CSI_RCTL p f) 2 0 + 1))).seqFld (Reg.CSI_RCTL p f) 23 16

/-- The stream without its open frame `g`, whose stamps are still to be written. -/
def CsiSt.closed (c : CsiSt) (g : CsiFrame) (extra raw : Nat) : CsiSt :=
  { c with
    frame := none
    unstamped := c.unstamped ++ [(g.status, g.startAt, if extra % 2 = 1 then 0 else raw)] }

/-- What a frame writes of memory as it closes: the status' first bytes and its descriptor's OWN. -/
def CsiFrame.spans (g : CsiFrame) : List (Nat × Nat) := [(devKey g.status, 16), (devKey (g.desc + 24), 1)]

section
variable {s : State} {p f : Nat} {g : CsiFrame} (extra : Nat)

theorem State.csiClose_none (h : (s.csi p f).frame = none) : s.csiClose p f extra = s := by rw [State.csiClose, h]

theorem State.csiClose_some (h : (s.csi p f).frame = some g) : s.csiClose p f extra =
    (((s.csiWritten g extra).csiAdvanced p f).setCsi p f
      ((((s.csiWritten g extra).csiAdvanced p f).csi p f).closed g extra ((s.csiWritten g extra).csiAdvanced p f).raw)).raiseEv (32 + p) := by
  rw [State.csiClose, h]
  rfl

theorem State.csiWritten_memBut (s : State) (g : CsiFrame) : sameMemBut g.spans s (s.csiWritten g extra) := by
  have h := s.storeDev_memBut g.status (g.statusBytes extra)
  rw [g.statusBytes_length] at h
  exact (h.mono (by simp [CsiFrame.spans])).trans (((s.storeDev _ _).storeDev_memBut (g.desc + 24) [0]).mono (by simp [CsiFrame.spans]))

theorem State.csiWritten_regs (s : State) (g : CsiFrame) : (s.csiWritten g extra).regs = s.regs := by
  rw [State.csiWritten, State.storeDev_regs, State.storeDev_regs]

theorem State.csiWritten_raised (s : State) (g : CsiFrame) : (s.csiWritten g extra).raised = s.raised := by
  rw [State.csiWritten, State.storeDev_raised, State.storeDev_raised]

theorem State.csiWritten_edge (s : State) (g : CsiFrame) : (s.csiWritten g extra).edge = s.edge := by
  rw [State.csiWritten, State.storeDev_edge, State.storeDev_edge]

theorem State.csiWritten_edgeOnly (s : State) (g : CsiFrame) : edgeOnly s (s.csiWritten g extra) :=
  (edgeOnly_storeDev s _ _).trans (edgeOnly_storeDev _ _ _)

/-- What stands in memory once a frame has closed, where the port is served and the two spans lie apart. -/
theorem State.csiWritten_loads (s : State) {g : CsiFrame} (hstatus : s.served g.status 16 = true) (hown : s.served (g.desc + 24) 1 = true)
    (hapart : devKey (g.desc + 24) < devKey g.status ∨ devKey g.status + 16 ≤ devKey (g.desc + 24)) :
    (s.csiWritten g extra).loadByte (devKey (g.desc + 24)) = 0 ∧
      (s.csiWritten g extra).load (devKey g.status) 16 = g.statusBytes extra := by
  have hstatus' : s.served g.status (g.statusBytes extra).length = true := by rw [g.statusBytes_length, hstatus]
  have hown' : (s.storeDev g.status (g.statusBytes extra)).served (g.desc + 24) [(0 : Byte)].length = true :=
    ((edgeOnly_storeDev s _ _).served _ _).trans hown
  rw [State.csiWritten, State.storeDev_served _ hown', State.storeDev_served _ hstatus']
  refine ⟨State.store_loadByte_first _ _ _, ?_⟩
  have hload := s.load_store (devKey g.status) (g.statusBytes extra)
  rw [g.statusBytes_length] at hload
  rw [(State.store_stored _ _ _).2.1.load ?_, hload]
  intro x hx
  rw [List.mem_singleton.mp hx]
  exact hapart.symm

theorem State.csiAdvanced_frame (s : State) (p f : Nat) : sameRegsBut [Reg.CSI_RCTL p f] s (s.csiAdvanced p f) :=
  ((sameRegsBut_refl _ s).setFld (List.mem_singleton_self _) _ _ _).setFld (List.mem_singleton_self _) _ _ _

theorem State.csiAdvanced_next (s : State) (p f : Nat) : (s.csiAdvanced p f).fld (Reg.CSI_RCTL p f) 10 8 =
    (s.fld (Reg.CSI_RCTL p f) 10 8 + 1) % (s.fld (Reg.CSI_RCTL p f) 2 0 + 1) := by
  rw [State.csiAdvanced, State.seqFld, State.fld_setFld_disjoint _ _ _ _ _ _ _ (by decide) (by decide) (.inl (by decide)),
    State.fld_setFld_same _ _ _ _ _ (by decide) (by decide)]
  have hsize : s.fld (Reg.CSI_RCTL p f) 2 0 < 8 := bits_lt _ 2 0
  have hmod := Nat.mod_lt (s.fld (Reg.CSI_RCTL p f) 10 8 + 1) (show 0 < s.fld (Reg.CSI_RCTL p f) 2 0 + 1 by omega)
  exact Nat.mod_eq_of_lt (by omega)

theorem State.csiAdvanced_closed (s : State) (p f : Nat) :
    (s.csiAdvanced p f).fld (Reg.CSI_RCTL p f) 23 16 = (s.fld (Reg.CSI_RCTL p f) 23 16 + 1) % 256 := by
  rw [State.csiAdvanced, State.seqFld, State.fld_setFld_same _ _ _ _ _ (by decide) (by decide),
    State.fld_setFld_disjoint _ _ _ _ _ _ _ (by decide) (by decide) (.inr (by decide))]
  simp only [Nat.reduceAdd, Nat.reduceSub, Nat.reducePow]

theorem State.csiAdvanced_mem (s : State) (p f : Nat) : (s.csiAdvanced p f).mem = s.mem := by
  rw [State.csiAdvanced, State.seqFld, State.setFld_mem, State.setFld_mem]

theorem State.csiAdvanced_edge (s : State) (p f : Nat) : (s.csiAdvanced p f).edge = s.edge := by
  rw [State.csiAdvanced, State.seqFld, State.setFld_edge, State.setFld_edge]

theorem State.csiAdvanced_raised (s : State) (p f : Nat) : (s.csiAdvanced p f).raised = s.raised := by
  rw [State.csiAdvanced, State.seqFld, State.setFld_raised, State.setFld_raised]

theorem State.csiAdvanced_raw (s : State) (p f : Nat) : (s.csiAdvanced p f).raw = s.raw := by
  rw [State.csiAdvanced, State.seqFld, State.setFld_raw, State.setFld_raw]

theorem State.csiClose_rd (h : (s.csi p f).frame = some g) (a : Nat) :
    (s.csiClose p f extra).rd a = ((s.csiWritten g extra).csiAdvanced p f).rd a := by
  rw [State.csiClose_some extra h, State.raiseEv_rd, State.rd_congr (State.setCsi_regs _ _ _ _)]

theorem State.csiClose_mem (h : (s.csi p f).frame = some g) : (s.csiClose p f extra).mem = (s.csiWritten g extra).mem := by
  rw [State.csiClose_some extra h, State.raiseEv_mem, State.setCsi_mem, State.csiAdvanced_mem]

theorem State.csiClose_csi (h : (s.csi p f).frame = some g) (k : Nat) : (s.csiClose p f extra).csi p k =
    if k = f then (s.csi p f).closed g extra s.raw else s.csi p k := by
  have hcsi : ∀ k, ((s.csiWritten g extra).csiAdvanced p f).csi p k = s.csi p k := fun k =>
    State.csi_congr ((State.csiAdvanced_edge _ p f).trans (s.csiWritten_edge extra g)) p k
  have hraw : ((s.csiWritten g extra).csiAdvanced p f).raw = s.raw := by
    obtain ⟨⟨_, _, _, _, hu⟩, -⟩ := s.csiWritten_edgeOnly extra g
    rw [State.csiAdvanced_raw, hu]
  rw [State.csiClose_some extra h, hcsi, hraw, State.csi_congr (State.raiseEv_edge _ _), State.csi_setCsi, hcsi]

theorem State.csiClose_raised (h : (s.csi p f).frame = some g) : (s.csiClose p f extra).raised = s.raised ++ [32 + p] := by
  rw [State.csiClose_some extra h]
  refine congrArg (· ++ [32 + p]) ?_
  rw [State.setCsi_raised, State.csiAdvanced_raised, State.csiWritten_raised]

theorem State.csiClose_frame (s : State) (p f : Nat) : sameRegsBut [Reg.CSI_RCTL p f] s (s.csiClose p f extra) := by
  cases h : (s.csi p f).frame with
  | none =>
    rw [State.csiClose_none extra h]
    exact sameRegsBut_refl _ s
  | some g =>
    intro a ha
    rw [State.csiClose_rd extra h, State.csiAdvanced_frame _ _ _ a ha, State.rd_congr (s.csiWritten_regs extra g)]

/-- What shows that frame `g` of stream `f` of port `p` has closed. -/
structure CsiClosed (p f : Nat) (g : CsiFrame) (extra : Nat) (s t : State) : Prop where
  own : t.loadByte (devKey (g.desc + 24)) = 0
  status : t.load (devKey g.status) 16 = g.statusBytes extra
  next : t.fld (Reg.CSI_RCTL p f) 10 8 = (s.fld (Reg.CSI_RCTL p f) 10 8 + 1) % (s.fld (Reg.CSI_RCTL p f) 2 0 + 1)
  closed : t.fld (Reg.CSI_RCTL p f) 23 16 = (s.fld (Reg.CSI_RCTL p f) 23 16 + 1) % 256
  raised : t.raised = s.raised ++ [32 + p]

theorem State.csiClose_closed (h : (s.csi p f).frame = some g) (hstatus : s.served g.status 16 = true)
    (hown : s.served (g.desc + 24) 1 = true)
    (hapart : devKey (g.desc + 24) < devKey g.status ∨ devKey g.status + 16 ≤ devKey (g.desc + 24)) :
    CsiClosed p f g extra s (s.csiClose p f extra) := by
  obtain ⟨hbyte, hload⟩ := s.csiWritten_loads extra hstatus hown hapart
  have hmem := State.csiClose_mem extra h
  have hrd := State.rd_congr (s.csiWritten_regs extra g) (Reg.CSI_RCTL p f)
  refine ⟨?_, ?_, ?_, ?_, State.csiClose_raised extra h⟩
  · rw [State.loadByte, hmem]
    exact hbyte
  · rw [(sameMemBut_of_mem (l := []) hmem).load (by simp), hload]
  · rw [State.fld_congr (State.csiClose_rd extra h _), State.csiAdvanced_next, State.fld_congr hrd, State.fld_congr hrd]
  · rw [State.fld_congr (State.csiClose_rd extra h _), State.csiAdvanced_closed, State.fld_congr hrd]

theorem State.csiClose_memBut (h : (s.csi p f).frame = some g) : sameMemBut g.spans s (s.csiClose p f extra) :=
  (s.csiWritten_memBut extra g).trans (sameMemBut_of_mem (State.csiClose_mem extra h))

end

end Sys2Proof.Machine

namespace Sys2Proof.Machine

/-! ## Packets that no stream takes (R368) -/

section
variable {s : State} {p : Fin 12} {vc : BitVec 4} (hruns : s.csiRuns p = true)
include hruns

theorem exec_csiFrameStart_none (hon : s.csiOn p vc.toNat = []) (fnum : BitVec 16) :
    exec (.csiFrameStart p vc fnum) s = .next (s.countReg (Reg.CSI_UNSEL p) 1) := by
  show execCsiFrameStart p vc fnum s = _
  rw [execCsiFrameStart, hruns, hon]
  rfl

theorem exec_csiFrameStart (hon : s.csiOn p vc.toNat ≠ []) (fnum : BitVec 16) : exec (.csiFrameStart p vc fnum) s =
    .next (s.each (s.csiOn p vc.toNat) fun s f => s.csiOpen p f vc.toNat fnum.toNat) := by
  show execCsiFrameStart p vc fnum s = _
  rw [execCsiFrameStart, hruns]
  cases h : s.csiOn p vc.toNat with
  | nil => exact absurd h hon
  | cons f l => rfl

theorem exec_csiFrameEnd_none (hon : s.csiOn p vc.toNat = []) :
    exec (.csiFrameEnd p vc) s = .next (s.countReg (Reg.CSI_UNSEL p) 1) := by
  show execCsiFrameEnd p vc s = _
  rw [execCsiFrameEnd, hruns, hon]
  rfl

theorem exec_csiFrameEnd (hon : s.csiOn p vc.toNat ≠ []) :
    exec (.csiFrameEnd p vc) s = .next (s.each (s.csiOn p vc.toNat) fun s f => s.csiClose p f 0) := by
  show execCsiFrameEnd p vc s = _
  rw [execCsiFrameEnd, hruns]
  cases h : s.csiOn p vc.toNat with
  | nil => exact absurd h hon
  | cons f l => rfl

theorem exec_csiFrameStart_one {f : Nat} (hon : s.csiOn p vc.toNat = [f]) (fnum : BitVec 16) :
    exec (.csiFrameStart p vc fnum) s = .next (s.csiOpen p f vc.toNat fnum.toNat) := by
  rw [exec_csiFrameStart hruns (by simp [hon]), hon, State.each, List.foldl_cons, List.foldl_nil]

theorem exec_csiFrameEnd_one {f : Nat} (hon : s.csiOn p vc.toNat = [f]) : exec (.csiFrameEnd p vc) s = .next (s.csiClose p f 0) := by
  rw [exec_csiFrameEnd hruns (by simp [hon]), hon, State.each, List.foldl_cons, List.foldl_nil]

end

theorem State.countReg_counts (s : State) (a n : Nat) :
    (s.countReg a n).rd a = Ctr.add (s.rd a) n ∧ sameRegsBut [a] s (s.countReg a n) ∧ (s.countReg a n).mem = s.mem :=
  ⟨(s.rd_countReg _ _ _).trans (if_pos rfl), (sameRegsBut_refl _ s).countReg (List.mem_singleton_self _) _, rfl⟩

theorem csiUnselected {s : State} {p : Fin 12} {vc : BitVec 4} (hruns : s.csiRuns p = true) (hon : s.csiOn p vc.toNat = [])
    (fnum : BitVec 16) :
    completes (.csiFrameStart p vc fnum) s (fun t => t.rd (Reg.CSI_UNSEL p) = Ctr.add (s.rd (Reg.CSI_UNSEL p)) 1 ∧
      sameRegsBut [Reg.CSI_UNSEL p] s t ∧ t.mem = s.mem) ∧
    completes (.csiFrameEnd p vc) s fun t => t.rd (Reg.CSI_UNSEL p) = Ctr.add (s.rd (Reg.CSI_UNSEL p)) 1 ∧
      sameRegsBut [Reg.CSI_UNSEL p] s t ∧ t.mem = s.mem :=
  ⟨⟨_, exec_csiFrameStart_none hruns hon fnum, s.countReg_counts _ _⟩, _, exec_csiFrameEnd_none hruns hon, s.countReg_counts _ _⟩

/-! ## A frame closes: frame end, timeout, lost lane synchronisation (R370 to R372) -/

section
variable {s : State} {p : Fin 12} {f : Nat} {g : CsiFrame} (h : (s.csi p f).frame = some g)
include h

theorem State.csiClose_stream (extra : Nat) : ((s.csiClose p f extra).csi p f).frame = none ∧
    ((s.csiClose p f extra).csi p f).unstamped =
      (s.csi p f).unstamped ++ [(g.status, g.startAt, if extra % 2 = 1 then 0 else s.raw)] := by
  rw [State.csiClose_csi extra h, if_pos rfl]
  exact ⟨rfl, rfl⟩

theorem exec_csiFrameTimeout {q : Fin 4} (hq : q = f) (hlate : g.lastAt + 1000 * s.fld (Reg.CSI_CTRL p) 63 32 ≤ s.raw) :
    exec (.csiFrameTimeout p q) s = .next (s.csiClose p f 1) := by
  show execCsiFrameTimeout p q s = _
  rw [execCsiFrameTimeout, hq, h]
  exact if_pos hlate

end

/-- The lines that were still to come count as dropped. -/
def State.csiDropped (s : State) (p rest f : Nat) (g : CsiFrame) : State :=
  (s.setCsi p f { s.csi p f with frame := some { g with dropped := g.dropped + rest } }).countReg (Reg.CSI_DROP p) rest

/-- One stream of a port that loses its lane synchronisation. -/
def State.csiCut (s : State) (p rest f : Nat) : State :=
  match (s.csi p f).frame with
  | some g => (s.csiDropped p rest f g).csiClose p f 1
  | none => s

/-- A port that has lost its lane synchronisation, its frames still open. -/
def State.csiUnsynced (s : State) (p : Nat) : State :=
  (s.setFlag (Reg.CSI_STATUS p) 0 false).setFlag (Reg.CSI_STATUS p) 1 true

theorem exec_csiSyncLost {s : State} {p : Fin 12} (hruns : s.csiRuns p = true) (rest : Nat) :
    exec (.csiSyncLost p rest) s = .next ((s.csiUnsynced p).each (List.range 4) fun s f => s.csiCut p rest f) := by
  have hexec : exec (.csiSyncLost p rest) s = _ := if_neg (by rw [hruns]; decide)
  exact hexec

theorem State.csiUnsynced_frame (s : State) (p : Nat) : sameRegsBut [Reg.CSI_STATUS p] s (s.csiUnsynced p) :=
  ((sameRegsBut_refl _ s).setFlag (List.mem_singleton_self _) _ _).setFlag (List.mem_singleton_self _) _ _

theorem State.csiUnsynced_status (s : State) (p : Nat) : (s.csiUnsynced p).flag (Reg.CSI_STATUS p) 0 = false ∧
    (s.csiUnsynced p).flag (Reg.CSI_STATUS p) 1 = true := by
  refine ⟨?_, State.flag_setFlag_same _ _ _ _ (by decide)⟩
  rw [State.csiUnsynced, State.flag_setFlag_ne _ _ _ _ _ (by decide) (by decide), State.flag_setFlag_same _ _ _ _ (by decide)]

theorem State.csiUnsynced_mem (s : State) (p : Nat) : (s.csiUnsynced p).mem = s.mem := by
  rw [State.csiUnsynced, State.setFlag_mem, State.setFlag_mem]

theorem State.csiUnsynced_raised (s : State) (p : Nat) : (s.csiUnsynced p).raised = s.raised := by
  rw [State.csiUnsynced, State.setFlag_raised, State.setFlag_raised]

theorem State.csiUnsynced_csi (s : State) (p k : Nat) : (s.csiUnsynced p).csi p k = s.csi p k := by
  rw [State.csiUnsynced, State.csi_congr (State.setFlag_edge _ _ _ _), State.csi_congr (State.setFlag_edge _ _ _ _)]

theorem wina_ne_status {p i : Nat} (hp : p < 12) (hi : i < 64) : Reg.WINA i ≠ Reg.CSI_STATUS p := by
  simp only [Reg.WINA, Reg.CSI_STATUS]; omega

theorem State.csiUnsynced_edgeOnly (s : State) {p : Nat} (hp : p < 12) : edgeOnly s (s.csiUnsynced p) :=
  (edgeOnly_wr (fun _ hi => wina_ne_status hp hi) _).trans (edgeOnly_wr (fun _ hi => wina_ne_status hp hi) _)

section
variable {s : State} {p rest f : Nat} {g : CsiFrame}

theorem State.csiCut_none (h : (s.csi p f).frame = none) : s.csiCut p rest f = s := by rw [State.csiCut, h]

theorem State.csiCut_some (h : (s.csi p f).frame = some g) : s.csiCut p rest f = (s.csiDropped p rest f g).csiClose p f 1 := by
  rw [State.csiCut, h]

theorem State.csiDropped_csi (s : State) (p rest f : Nat) (g : CsiFrame) (k : Nat) : (s.csiDropped p rest f g).csi p k =
    if k = f then { s.csi p f with frame := some { g with dropped := g.dropped + rest } } else s.csi p k :=
  State.csi_setCsi s p f k _

theorem State.csiDropped_frame (s : State) (p rest f : Nat) (g : CsiFrame) : sameRegsBut [Reg.CSI_DROP p] s (s.csiDropped p rest f g) :=
  (sameRegsBut_of_regs (s.setCsi_regs p f _)).countReg (List.mem_singleton_self _) _

theorem State.csiDropped_edgeOnly (s : State) {p : Nat} (hp : p < 12) (rest f : Nat) (g : CsiFrame) : edgeOnly s (s.csiDropped p rest f g) :=
  (edgeOnly_setCsi s p f _).trans (edgeOnly_wr (fun _ hi => wina_ne_drop p hp hi) _)

theorem State.csiDropped_mem (s : State) (p rest f : Nat) (g : CsiFrame) : (s.csiDropped p rest f g).mem = s.mem := by
  rw [State.csiDropped, State.countReg, State.wr_mem, State.setCsi_mem]

theorem State.csiDropped_raised (s : State) (p rest f : Nat) (g : CsiFrame) : (s.csiDropped p rest f g).raised = s.raised := by
  rw [State.csiDropped, State.countReg, State.wr_raised, State.setCsi_raised]

/-- After the cut no frame of the stream is open; the other streams are as before. -/
theorem State.csiCut_streams (s : State) (p rest f k : Nat) :
    ((s.csiCut p rest f).csi p k).frame = if k = f then none else (s.csi p k).frame := by
  cases h : (s.csi p f).frame with
  | none =>
    rw [State.csiCut_none h]
    split
    · next hk => rw [hk, h]
    · rfl
  | some g =>
    have hframe : ((s.csiDropped p rest f g).csi p f).frame = some { g with dropped := g.dropped + rest } := by
      rw [State.csiDropped_csi, if_pos rfl]
    rw [State.csiCut_some h, State.csiClose_csi 1 hframe]
    split
    · rfl
    · next hk => rw [State.csiDropped_csi, if_neg hk]

theorem State.each_csiCut_streams (p rest : Nat) (l : List Nat) (k : Nat) (s : State) :
    ((s.each l fun s f => s.csiCut p rest f).csi p k).frame = if k ∈ l then none else (s.csi p k).frame := by
  induction l generalizing s with
  | nil => simp [State.each]
  | cons f l ih =>
    rw [State.each, List.foldl_cons, ← State.each, ih, State.csiCut_streams]
    by_cases hk : k = f <;> simp [hk]

theorem State.csiCut_frame (s : State) (p rest f : Nat) : sameRegsBut [Reg.CSI_RCTL p f, Reg.CSI_DROP p] s (s.csiCut p rest f) := by
  cases h : (s.csi p f).frame with
  | none =>
    rw [State.csiCut_none h]
    exact sameRegsBut_refl _ s
  | some g =>
    rw [State.csiCut_some h]
    exact ((s.csiDropped_frame p rest f g).mono (by simp)).trans ((State.csiClose_frame 1 _ p f).mono (by simp))

theorem State.each_csiCut_status (p rest : Nat) (l : List Nat) (s : State) :
    (s.each l fun s f => s.csiCut p rest f).rd (Reg.CSI_STATUS p) = s.rd (Reg.CSI_STATUS p) :=
  State.each_rel (R := fun s t => t.rd (Reg.CSI_STATUS p) = s.rd (Reg.CSI_STATUS p)) (fun _ => rfl) (fun h h' => h'.trans h) l
    (fun t f _ => t.csiCut_frame p rest f _ (by
      simp [(csiRctl_ne_status p f).symm, csiStatus_ne_drop p])) s

/-- An update of each of a list leaves a state as it is where each of them does. -/
theorem State.each_fixed {β : Type} {op : State → β → State} {s : State} {l : List β} (h : ∀ x ∈ l, op s x = s) : s.each l op = s := by
  induction l with
  | nil => rfl
  | cons x l ih =>
    rw [State.each, List.foldl_cons, h x (List.mem_cons_self ..)]
    exact ih fun y hy => h y (List.mem_cons_of_mem _ hy)

/-- Of the streams of a port only `f` has an open frame. -/
theorem State.each_csiCut_one (hf : f < 4) (hone : ∀ k < 4, k ≠ f → (s.csi p k).frame = none) :
    (s.each (List.range 4) fun s f => s.csiCut p rest f) = s.csiCut p rest f := by
  obtain ⟨l, l', hl⟩ := List.append_of_mem (List.mem_range.mpr hf)
  have hnodup : (l ++ f :: l').Nodup := hl ▸ List.nodup_range
  have hmem : ∀ k, k ∈ l ∨ k ∈ l' → k < 4 ∧ k ≠ f := fun k hk => by
    rw [List.nodup_append, List.nodup_cons] at hnodup
    obtain ⟨-, ⟨hf', -⟩, hapart⟩ := hnodup
    have hk4 : k ∈ List.range 4 := by
      rw [hl]
      rcases hk with hk | hk <;> simp [hk]
    refine ⟨List.mem_range.mp hk4, ?_⟩
    rcases hk with hk | hk
    · exact hapart k hk f (List.mem_cons_self ..)
    · rintro rfl
      exact hf' hk
  have hbefore : (s.each l fun s f => s.csiCut p rest f) = s :=
    State.each_fixed fun k hk => State.csiCut_none (hone k (hmem k (.inl hk)).1 (hmem k (.inl hk)).2)
  have hafter : ((s.csiCut p rest f).each l' fun s f => s.csiCut p rest f) = s.csiCut p rest f :=
    State.each_fixed fun k hk => State.csiCut_none <| by
      obtain ⟨hk4, hne⟩ := hmem k (.inr hk)
      rw [State.csiCut_streams, if_neg hne, hone k hk4 hne]
  rw [State.each] at hbefore hafter ⊢
  rw [hl, List.foldl_append, hbefore, List.foldl_cons, hafter]

end

theorem csiSyncLost_closes {s : State} {p : Fin 12} (hruns : s.csiRuns p = true) (rest : Nat) :
    completes (.csiSyncLost p rest) s fun t => t.flag (Reg.CSI_STATUS p) 0 = false ∧ t.flag (Reg.CSI_STATUS p) 1 = true ∧
      ∀ k < 4, (t.csi p k).frame = none := by
  obtain ⟨hsync, hlost⟩ := s.csiUnsynced_status p
  have hrd := State.each_csiCut_status p rest (List.range 4) (s.csiUnsynced p)
  refine ⟨_, exec_csiSyncLost hruns rest, (State.flag_congr hrd _).trans hsync, (State.flag_congr hrd _).trans hlost, fun k hk => ?_⟩
  rw [State.each_csiCut_streams, if_pos (List.mem_range.mpr hk)]

theorem CsiClosed.unpack {p f : Nat} {g : CsiFrame} {extra : Nat} {s t : State} (h : CsiClosed p f g extra s t) :
    t.loadByte (devKey (g.desc + 24)) = 0 ∧ t.load (devKey g.status) 16 = g.statusBytes extra ∧
      t.fld (Reg.CSI_RCTL p f) 10 8 = (s.fld (Reg.CSI_RCTL p f) 10 8 + 1) % (s.fld (Reg.CSI_RCTL p f) 2 0 + 1) ∧
      t.fld (Reg.CSI_RCTL p f) 23 16 = (s.fld (Reg.CSI_RCTL p f) 23 16 + 1) % 256 ∧ t.raised = s.raised ++ [32 + p] :=
  ⟨h.own, h.status, h.next, h.closed, h.raised⟩

/-- What a close shows may be told from an earlier state too. -/
theorem CsiClosed.since {p f : Nat} {g : CsiFrame} {extra : Nat} {s u t : State} (h : CsiClosed p f g extra u t)
    (hrd : u.rd (Reg.CSI_RCTL p f) = s.rd (Reg.CSI_RCTL p f)) (hev : u.raised = s.raised) : CsiClosed p f g extra s t :=
  ⟨h.own, h.status, by rw [h.next, State.fld_congr hrd, State.fld_congr hrd], by rw [h.closed, State.fld_congr hrd], by rw [h.raised, hev]⟩

section
variable {s : State} {p : Fin 12} {f : Nat} {g : CsiFrame} (h : (s.csi p f).frame = some g) (hstatus : s.served g.status 16 = true)
  (hown : s.served (g.desc + 24) 1 = true) (hapart : devKey (g.desc + 24) < devKey g.status ∨ devKey g.status + 16 ≤ devKey (g.desc + 24))
include h hstatus hown hapart

theorem csiSyncLost_closes_one (hf : f < 4) (hruns : s.csiRuns p = true) (hone : ∀ k < 4, k ≠ f → (s.csi p k).frame = none) (rest : Nat) :
    completes (.csiSyncLost p rest) s fun t => CsiClosed p f { g with dropped := g.dropped + rest } 1 s t ∧
      t.rd (Reg.CSI_DROP p) = Ctr.add (s.rd (Reg.CSI_DROP p)) rest ∧
      sameRegsBut [Reg.CSI_RCTL p f, Reg.CSI_DROP p, Reg.CSI_STATUS p] s t ∧ sameMemBut g.spans s t := by
  have hexec := exec_csiSyncLost hruns rest
  rw [State.each_csiCut_one hf fun k hk hne => by rw [State.csiUnsynced_csi, hone k hk hne],
    State.csiCut_some (by rw [State.csiUnsynced_csi, h])] at hexec
  refine ⟨_, hexec, ?_⟩
  have hunsynced := s.csiUnsynced_frame p
  have hmem := s.csiUnsynced_mem p
  have hev := s.csiUnsynced_raised p
  have honly := s.csiUnsynced_edgeOnly p.isLt
  generalize s.csiUnsynced p = u at *
  have hframe : ((u.csiDropped p rest f g).csi p f).frame = some { g with dropped := g.dropped + rest } := by
    rw [State.csiDropped_csi, if_pos rfl]
  have honly' := honly.trans (u.csiDropped_edgeOnly p.isLt rest f g)
  have hregs := u.csiDropped_frame p rest f g
  have hclosed := State.csiClose_closed 1 hframe ((honly'.served _ _).trans hstatus) ((honly'.served _ _).trans hown) hapart
  refine ⟨hclosed.since ?_ ?_, ?_, ?_, ?_⟩
  · rw [hregs _ (by simp [csiRctl_ne_drop]), hunsynced _ (by simp [csiRctl_ne_status])]
  · rw [State.csiDropped_raised, hev]
  · rw [State.csiClose_frame 1 _ p f _ (by simp [(csiRctl_ne_drop p f).symm]), State.csiDropped, State.rd_countReg, if_pos rfl,
      State.rd_congr (State.setCsi_regs _ _ _ _), hunsynced _ (by simp [(csiStatus_ne_drop p).symm])]
  · exact ((hunsynced.mono (by simp)).trans (hregs.mono (by simp))).trans ((State.csiClose_frame 1 _ p f).mono (by simp))
  · have hspans := State.csiClose_memBut 1 hframe
    exact (sameMemBut_of_mem ((u.csiDropped_mem p rest f g).trans hmem)).trans hspans

end

end Sys2Proof.Machine

namespace Sys2Proof.Machine

/-! ## A frame opens (R369) -/

/-- The frame that a good descriptor at `a` describes. -/
def State.csiFrameAt (s : State) (a vc fnum seq : Nat) : CsiFrame :=
  { desc := a, data := s.loadNat (devKey a) 8, stride := s.loadNat (devKey a + 8) 4, lineBytes := s.loadNat (devKey a + 12) 2
    maxLines := s.loadNat (devKey a + 14) 2, status := s.loadNat (devKey a + 16) 8, vc := vc, dt := 0, fnum := fnum, seq := seq
    met := 0, lines := 0, dropped := 0, crcErr := 0, flags := 0, startAt := s.raw, lastAt := s.raw }

theorem State.csiRead_some {s : State} {a vc fnum seq : Nat} {g : CsiFrame} (h : s.csiRead a vc fnum seq = some g) :
    g = s.csiFrameAt a vc fnum seq := by
  unfold State.csiRead at h
  dsimp only at h
  split at h
  · exact (Option.some.inj h).symm
  · cases h

/-- Does stream `f` of port `p` find a descriptor that it may take? -/
def State.csiOffered (s : State) (p f : Nat) : Prop :=
  s.served (s.csiDesc p f) 32 = true ∧ s.loadNat (devKey (s.csiDesc p f) + 24) 1 % 2 = 1

/-- A descriptor that breaks the table is handed back. -/
def State.csiReturned (s : State) (p f : Nat) : State :=
  ((s.storeDev (s.csiDesc p f + 24) [0]).setFlag (Reg.CSI_STATUS p) 2 true).countReg (Reg.CSI_NOBUF p) 1

/-- The stream with the frame of its next descriptor open. -/
def State.csiOpened (s : State) (p f vc fnum : Nat) : CsiSt :=
  { s.csi p f with
    opened := (s.csi p f).opened + 1
    frame := some { s.csiFrameAt (s.csiDesc p f) vc fnum ((s.csi p f).opened + 1) with dt := s.fld (Reg.CSI_STREAM p f) 5 0 } }

/-- The stream's next descriptor is taken if it is owned and in order; no frame is open. -/
def State.csiTakes (s : State) (p f vc fnum : Nat) : State :=
  if !s.served (s.csiDesc p f) 32 || s.loadNat (devKey (s.csiDesc p f) + 24) 1 % 2 == 0 then s.countReg (Reg.CSI_NOBUF p) 1
  else if (s.csiRead (s.csiDesc p f) vc fnum ((s.csi p f).opened + 1)).isSome then s.setCsi p f (s.csiOpened p f vc fnum)
  else s.csiReturned p f

section
variable {s : State} {p f vc fnum : Nat}

theorem State.csiOpen_eq (s : State) (p f vc fnum : Nat) : s.csiOpen p f vc fnum = (s.csiClose p f 1).csiTakes p f vc fnum := by
  unfold State.csiOpen State.csiTakes
  generalize s.csiClose p f 1 = u
  dsimp only
  refine if_congr Iff.rfl rfl ?_
  cases hread : u.csiRead (u.csiDesc p f) vc fnum ((u.csi p f).opened + 1) with
  | none => rfl
  | some g =>
    rw [State.csiRead_some hread]
    rfl

theorem State.csiTakes_nobuf (h : ¬ s.csiOffered p f) : s.csiTakes p f vc fnum = s.countReg (Reg.CSI_NOBUF p) 1 := by
  rw [State.csiOffered, not_and_or] at h
  rw [State.csiTakes, if_pos]
  rw [Bool.or_eq_true, Bool.not_eq_true', beq_iff_eq]
  exact h.imp (by simp) (by omega)

theorem State.csiTakes_offered (h : s.csiOffered p f) : s.csiTakes p f vc fnum =
    if (s.csiRead (s.csiDesc p f) vc fnum ((s.csi p f).opened + 1)).isSome then s.setCsi p f (s.csiOpened p f vc fnum)
    else s.csiReturned p f := by
  obtain ⟨hserved, hown⟩ := h
  have hoffer : ¬ ((!s.served (s.csiDesc p f) 32 || s.loadNat (devKey (s.csiDesc p f) + 24) 1 % 2 == 0) = true) := by
    simp [hserved, hown]
  rw [State.csiTakes, if_neg hoffer]

theorem State.csiReturned_mem (s : State) (p f : Nat) : (s.csiReturned p f).mem = (s.storeDev (s.csiDesc p f + 24) [0]).mem := by
  rw [State.csiReturned, State.countReg, State.wr_mem, State.setFlag_mem]

theorem State.csiReturned_edge (s : State) (p f : Nat) : (s.csiReturned p f).edge = s.edge := by
  rw [State.csiReturned, State.countReg, State.wr_edge, State.setFlag_edge, State.storeDev_edge]

theorem State.csiReturned_raised (s : State) (p f : Nat) : (s.csiReturned p f).raised = s.raised := by
  rw [State.csiReturned, State.countReg, State.wr_raised, State.setFlag_raised, State.storeDev_raised]

theorem State.csiReturned_frame (s : State) (p f : Nat) : sameRegsBut [Reg.CSI_NOBUF p, Reg.CSI_STATUS p] s (s.csiReturned p f) :=
  ((sameRegsBut_of_regs (s.storeDev_regs _ _)).setFlag (by simp) _ _).countReg (by simp) _

theorem State.csiReturned_memBut (s : State) (p f : Nat) : sameMemBut [(devKey (s.csiDesc p f + 24), 1)] s (s.csiReturned p f) :=
  (s.storeDev_memBut _ _).trans (sameMemBut_of_mem (s.csiReturned_mem p f))

theorem State.csiReturned_nobuf (s : State) (p f : Nat) : (s.csiReturned p f).rd (Reg.CSI_NOBUF p) = Ctr.add (s.rd (Reg.CSI_NOBUF p)) 1 := by
  rw [State.csiReturned, State.rd_countReg, if_pos rfl, State.rd_setFlag_ne _ _ _ (csiStatus_ne_nobuf p).symm,
    State.rd_congr (s.storeDev_regs _ _)]

theorem State.csiReturned_status (s : State) (p f : Nat) : (s.csiReturned p f).flag (Reg.CSI_STATUS p) 2 = true := by
  rw [State.csiReturned, State.flag_congr ((State.rd_countReg _ _ _ _).trans (if_neg (csiStatus_ne_nobuf p))),
    State.flag_setFlag_same _ _ _ _ (by decide)]

/-- A frame starts on a stream that has none open, and finds no free descriptor. -/
theorem csiFrameStart_nobuf {s : State} {p : Fin 12} {vc : BitVec 4} {f : Nat} (hruns : s.csiRuns p = true)
    (hon : s.csiOn p vc.toNat = [f]) (hframe : (s.csi p f).frame = none) (fnum : BitVec 16) (h : ¬ s.csiOffered p f) :
    completes (.csiFrameStart p vc fnum) s fun t => (t.csi p f).frame = none ∧
      t.rd (Reg.CSI_NOBUF p) = Ctr.add (s.rd (Reg.CSI_NOBUF p)) 1 ∧ sameRegsBut [Reg.CSI_NOBUF p] s t ∧ t.mem = s.mem := by
  have hexec := exec_csiFrameStart_one hruns hon fnum
  rw [State.csiOpen_eq, State.csiClose_none 1 hframe, State.csiTakes_nobuf h] at hexec
  obtain ⟨hcount, hregs, hmem⟩ := s.countReg_counts (Reg.CSI_NOBUF p) 1
  exact ⟨_, hexec, hframe, hcount, hregs, hmem⟩

/-- A frame starts on a stream that has none open, and finds a descriptor that breaks the table. -/
theorem csiFrameStart_bad {s : State} {p : Fin 12} {vc : BitVec 4} {f : Nat} (hruns : s.csiRuns p = true)
    (hon : s.csiOn p vc.toNat = [f]) (hframe : (s.csi p f).frame = none) (fnum : BitVec 16) (h : s.csiOffered p f)
    (hown : s.served (s.csiDesc p f + 24) 1 = true)
    (hread : s.csiRead (s.csiDesc p f) vc.toNat fnum.toNat ((s.csi p f).opened + 1) = none) :
    completes (.csiFrameStart p vc fnum) s fun t => (t.csi p f).frame = none ∧ t.loadByte (devKey (s.csiDesc p f + 24)) = 0 ∧
      t.flag (Reg.CSI_STATUS p) 2 = true ∧ t.rd (Reg.CSI_NOBUF p) = Ctr.add (s.rd (Reg.CSI_NOBUF p)) 1 ∧
      sameRegsBut [Reg.CSI_NOBUF p, Reg.CSI_STATUS p] s t ∧ sameMemBut [(devKey (s.csiDesc p f + 24), 1)] s t := by
  have hexec := exec_csiFrameStart_one hruns hon fnum
  rw [State.csiOpen_eq, State.csiClose_none 1 hframe, State.csiTakes_offered h, hread] at hexec
  refine ⟨_, hexec, ?_, ?_, s.csiReturned_status p f, s.csiReturned_nobuf p f, s.csiReturned_frame p f, s.csiReturned_memBut p f⟩
  · rw [if_neg (by simp), State.csi_congr (s.csiReturned_edge p f), hframe]
  · rw [if_neg (by simp), State.loadByte, s.csiReturned_mem p f, State.storeDev_served _ hown]
    exact s.store_loadByte_first _ _

/-! ## Streams open together -/

/-- Stream `f` has no frame open and a good descriptor next. -/
structure CsiGood (s : State) (p vc fnum f : Nat) : Prop where
  frame : (s.csi p f).frame = none
  offered : s.csiOffered p f
  read : (s.csiRead (s.csiDesc p f) vc fnum ((s.csi p f).opened + 1)).isSome = true

theorem State.csiOpen_good (h : CsiGood s p vc fnum f) : s.csiOpen p f vc fnum = s.setCsi p f (s.csiOpened p f vc fnum) := by
  rw [State.csiOpen_eq, State.csiClose_none 1 h.frame, State.csiTakes_offered h.offered, if_pos h.read]

/-- What another stream does as it opens changes nothing that this one looks at. -/
theorem CsiGood.setCsi {k : Nat} (h : CsiGood s p vc fnum k) (hk : k ≠ f) (c : CsiSt) :
    CsiGood (s.setCsi p f c) p vc fnum k ∧ (s.setCsi p f c).csiOpened p k vc fnum = s.csiOpened p k vc fnum := by
  have hcsi : (s.setCsi p f c).csi p k = s.csi p k := (s.csi_setCsi p f k c).trans (if_neg hk)
  have hopened : (s.setCsi p f c).csiOpened p k vc fnum = s.csiOpened p k vc fnum := by
    unfold State.csiOpened
    rw [hcsi]
    rfl
  refine ⟨⟨?_, ⟨((edgeOnly_setCsi s p f c).served _ _).trans h.offered.1, h.offered.2⟩, ?_⟩, hopened⟩
  · rw [hcsi]
    exact h.frame
  · rw [hcsi]
    exact h.read

theorem State.each_csiOpen (p vc fnum : Nat) (l : List Nat) (hnd : l.Nodup) (s : State) (hgood : ∀ k ∈ l, CsiGood s p vc fnum k) :
    (∃ e, (s.each l fun s f => s.csiOpen p f vc fnum) = { s with edge := e }) ∧
      ∀ k, (s.each l fun s f => s.csiOpen p f vc fnum).csi p k = if k ∈ l then s.csiOpened p k vc fnum else s.csi p k := by
  induction l generalizing s with
  | nil => exact ⟨⟨s.edge, rfl⟩, fun k => by simp [State.each]⟩
  | cons f l ih =>
    rw [List.nodup_cons] at hnd
    obtain ⟨hf, hnd⟩ := hnd
    have hstep : (s.each (f :: l) fun s f => s.csiOpen p f vc fnum) =
        (s.setCsi p f (s.csiOpened p f vc fnum)).each l fun s f => s.csiOpen p f vc fnum := by
      rw [State.each, List.foldl_cons, State.csiOpen_good (hgood f (List.mem_cons_self ..)), State.each]
    have hne : ∀ k ∈ l, k ≠ f := fun k hk h => hf (h ▸ hk)
    obtain ⟨⟨e, he⟩, hcsi⟩ := ih hnd (s.setCsi p f (s.csiOpened p f vc fnum)) fun k hk =>
      ((hgood k (List.mem_cons_of_mem _ hk)).setCsi (hne k hk) _).1
    rw [hstep]
    refine ⟨⟨e, he⟩, fun k => ?_⟩
    rw [hcsi]
    by_cases hk : k ∈ l
    · rw [if_pos hk, if_pos (List.mem_cons_of_mem _ hk), ((hgood k (List.mem_cons_of_mem _ hk)).setCsi (hne k hk) _).2]
    · rw [if_neg hk, State.csi_setCsi]
      by_cases hkf : k = f
      · rw [if_pos hkf, if_pos (hkf ▸ List.mem_cons_self ..), hkf]
      · rw [if_neg hkf, if_neg (by simp [hkf, hk])]

end

theorem csiFrameStart_opens {s : State} {p : Fin 12} {vc : BitVec 4} {f : Nat} (hruns : s.csiRuns p = true) (fnum : BitVec 16)
    (hf : f ∈ s.csiOn p vc.toNat) (hgood : ∀ k ∈ s.csiOn p vc.toNat, CsiGood s p vc.toNat fnum.toNat k) :
    completes (.csiFrameStart p vc fnum) s fun t => t.regs = s.regs ∧ t.mem = s.mem ∧
      t.csi p f = s.csiOpened p f vc.toNat fnum.toNat := by
  have hnd : (s.csiOn p vc.toNat).Nodup := List.nodup_range.filter _
  obtain ⟨⟨e, he⟩, hcsi⟩ := State.each_csiOpen p vc.toNat fnum.toNat _ hnd s hgood
  refine ⟨_, exec_csiFrameStart hruns (List.ne_nil_of_mem hf) fnum, ?_, ?_, (hcsi f).trans (if_pos hf)⟩
  · rw [he]
  · rw [he]

end Sys2Proof.Machine

namespace Sys2Proof.Machine

/-! ## A frame start on an open frame (R372) -/

theorem State.storeDev_keeps_zero {s : State} {k : Nat} (h : s.loadByte k = 0) (a : Nat) : (s.storeDev a [0]).loadByte k = 0 := by
  rw [State.storeDev]
  split
  · rw [State.loadByte_store, byteOver]
    split
    · next hk =>
      have : k - devKey a = 0 := by
        simp only [List.length_singleton] at hk
        omega
      rw [this]
      rfl
    · exact h
  · exact h

theorem CsiClosed.later {p f : Nat} {g : CsiFrame} {extra : Nat} {s t u : State} (h : CsiClosed p f g extra s t)
    (hrd : u.rd (Reg.CSI_RCTL p f) = t.rd (Reg.CSI_RCTL p f)) (hev : u.raised = t.raised)
    (hown : u.loadByte (devKey (g.desc + 24)) = 0) (hload : u.load (devKey g.status) 16 = t.load (devKey g.status) 16) :
    CsiClosed p f g extra s u :=
  ⟨hown, hload.trans h.status, (State.fld_congr hrd _ _).trans h.next, (State.fld_congr hrd _ _).trans h.closed, hev.trans h.raised⟩

theorem State.csiTakes_cases (s : State) (p f vc fnum : Nat) : s.csiTakes p f vc fnum = s.countReg (Reg.CSI_NOBUF p) 1 ∨
    s.csiTakes p f vc fnum = s.setCsi p f (s.csiOpened p f vc fnum) ∨ s.csiTakes p f vc fnum = s.csiReturned p f := by
  by_cases h : s.csiOffered p f
  · rw [State.csiTakes_offered h]
    split
    · exact .inr (.inl rfl)
    · exact .inr (.inr rfl)
  · exact .inl (State.csiTakes_nobuf h)

section
variable {s : State} {p : Fin 12} {vc : BitVec 4} {f : Nat} {g : CsiFrame}

/-- Address of the descriptor after the one in use. -/
def State.csiNextDesc (s : State) (p f : Nat) : Nat := s.fld (Reg.CSI_RBASE p f) 47 5 * 32 +
  32 * ((s.fld (Reg.CSI_RCTL p f) 10 8 + 1) % (s.fld (Reg.CSI_RCTL p f) 2 0 + 1))

theorem CsiClosed.desc {extra : Nat} {t : State} (h : CsiClosed p f g extra s t) (hrd : sameRegsBut [Reg.CSI_RCTL p f] s t) :
    t.csiDesc p f = s.csiNextDesc p f := by
  rw [State.csiDesc, h.next, State.fld_congr (hrd (Reg.CSI_RBASE p f) (by simp [csiRbase_ne_rctl]))]
  rfl

theorem csiFrameStart_again (h : (s.csi p f).frame = some g) (hstatus : s.served g.status 16 = true)
    (hown : s.served (g.desc + 24) 1 = true)
    (hapart : devKey (g.desc + 24) < devKey g.status ∨ devKey g.status + 16 ≤ devKey (g.desc + 24))
    (hruns : s.csiRuns p = true) (hon : s.csiOn p vc.toNat = [f]) (fnum : BitVec 16)
    (hnext : devKey (s.csiNextDesc p f + 24) < devKey g.status ∨ devKey g.status + 16 ≤ devKey (s.csiNextDesc p f + 24)) :
    completes (.csiFrameStart p vc fnum) s fun t => CsiClosed p f g 1 s t ∧
      ((t.csi p f).frame = none ∨ ∃ g', (t.csi p f).frame = some g' ∧ g'.desc = s.csiNextDesc p f ∧ g'.fnum = fnum.toNat) ∧
      sameRegsBut [Reg.CSI_RCTL p f, Reg.CSI_NOBUF p, Reg.CSI_STATUS p] s t ∧
      sameMemBut ((devKey (s.csiNextDesc p f + 24), 1) :: g.spans) s t := by
  have hexec := exec_csiFrameStart_one hruns hon fnum
  rw [State.csiOpen_eq] at hexec
  refine ⟨_, hexec, ?_⟩
  have hclosed := State.csiClose_closed 1 h hstatus hown hapart
  have hregs := s.csiClose_frame 1 p f
  have hmem := State.csiClose_memBut 1 h
  obtain ⟨hframe, -⟩ := State.csiClose_stream h 1
  generalize s.csiClose p f 1 = u at *
  have hdesc := hclosed.desc hregs
  have hregs' : sameRegsBut [Reg.CSI_RCTL p f, Reg.CSI_NOBUF p, Reg.CSI_STATUS p] s u := hregs.mono (by simp)
  have hmem' : sameMemBut ((devKey (s.csiNextDesc p f + 24), 1) :: g.spans) s u := hmem.mono fun _ => List.mem_cons_of_mem _
  obtain hu | hu | hu := u.csiTakes_cases p f vc.toNat fnum.toNat <;> rw [hu]
  · obtain ⟨-, hcount, -⟩ := u.countReg_counts (Reg.CSI_NOBUF p) 1
    refine ⟨hclosed.later (hcount _ (by simp [csiRctl_ne_nobuf])) rfl hclosed.own rfl, .inl hframe, hregs'.trans (hcount.mono (by simp)), hmem'⟩
  · refine ⟨hclosed.later rfl rfl hclosed.own rfl, .inr ⟨{ u.csiFrameAt (u.csiDesc p f) vc.toNat fnum.toNat ((u.csi p f).opened + 1) with
        dt := u.fld (Reg.CSI_STREAM p f) 5 0 }, ?_, hdesc, rfl⟩, hregs', hmem'⟩
    rw [State.csi_setCsi, if_pos rfl]
    rfl
  · have hret := u.csiReturned_memBut p f
    rw [hdesc] at hret
    refine ⟨hclosed.later (u.csiReturned_frame p f _ (by simp [csiRctl_ne_nobuf, csiRctl_ne_status])) (u.csiReturned_raised p f) ?_ ?_,
      .inl ((congrArg CsiSt.frame (State.csi_congr (u.csiReturned_edge p f) p f)).trans hframe),
      hregs'.trans ((u.csiReturned_frame p f).mono (by simp)), hmem'.trans (hret.mono (by simp))⟩
    · rw [State.loadByte, u.csiReturned_mem]
      exact State.storeDev_keeps_zero hclosed.own _
    · refine hret.load fun x hx => ?_
      rw [List.mem_singleton.mp hx]
      exact hnext.symm

end

/-! ## Lines (R370, R372) -/

section
variable {s : State} {p : Fin 12} {vc : BitVec 4} {dt : BitVec 6} {bs : List Byte} {lost bad fixed : Bool} {f : Nat} {g : CsiFrame}

/-- The open frame after a line that is written. -/
def CsiFrame.withLine (g : CsiFrame) (len : Nat) (bad fixed : Bool) (raw : Nat) : CsiFrame :=
  { g with
    met := g.met + 1
    lines := g.lines + 1
    crcErr := g.crcErr + (if bad then 1 else 0)
    lastAt := raw
    flags := g.flags ||| (if g.lineBytes < len then 2 else 0) ||| (if fixed then 8 else 0) }

/-- The open frame after a line that is dropped. -/
def CsiFrame.withoutLine (g : CsiFrame) (fixed : Bool) (raw : Nat) : CsiFrame :=
  { g with
    met := g.met + 1
    dropped := g.dropped + 1
    lastAt := raw
    flags := g.flags ||| (if g.maxLines ≤ g.met then 4 else 0) ||| (if fixed then 8 else 0) }

theorem csiLine_written {len : Nat} (h : g.met < g.maxLines) :
    (csiLine g len false bad fixed).lines = g.lines + 1 ∧
      { csiLine g len false bad fixed with lastAt := s.raw } = g.withLine len bad fixed s.raw := by
  have hlarge : ¬ g.maxLines ≤ g.met := by omega
  cases bad <;> simp [csiLine, CsiFrame.withLine, hlarge]

theorem csiLine_dropped {len : Nat} (h : lost = true ∨ g.maxLines ≤ g.met) :
    (csiLine g len lost bad fixed).lines = g.lines ∧
      { csiLine g len lost bad fixed with lastAt := s.raw } = g.withoutLine fixed s.raw := by
  have hno : (!lost && !decide (g.maxLines ≤ g.met)) = false := by
    rcases h with rfl | h
    · rfl
    · simp [h]
  simp [csiLine, CsiFrame.withoutLine, hno]

/-- Memory and the counters after a line that is written. -/
def State.csiLineStored (s : State) (p : Nat) (g : CsiFrame) (bs : List Byte) (bad : Bool) : State :=
  let t := s.storeDev (g.data + g.met * g.stride) (bs.take g.lineBytes)
  if bad then t.countReg (Reg.CSI_CRCERR p) 1 else t

theorem State.csiLineStored_edge (s : State) (p : Nat) (g : CsiFrame) (bs : List Byte) (bad : Bool) :
    (s.csiLineStored p g bs bad).edge = s.edge := by
  cases bad
  · exact s.storeDev_edge _ _
  · exact s.storeDev_edge _ _

theorem State.csiLineStored_mem (s : State) (p : Nat) (g : CsiFrame) (bs : List Byte) (bad : Bool) :
    (s.csiLineStored p g bs bad).mem = (s.storeDev (g.data + g.met * g.stride) (bs.take g.lineBytes)).mem := by
  cases bad
  · rfl
  · rfl

theorem State.csiLineStored_counts (s : State) (p : Nat) (g : CsiFrame) (bs : List Byte) (bad : Bool) :
    (s.csiLineStored p g bs bad).rd (Reg.CSI_CRCERR p) = Ctr.add (s.rd (Reg.CSI_CRCERR p)) (if bad then 1 else 0) ∧
      sameRegsBut [Reg.CSI_CRCERR p] s (s.csiLineStored p g bs bad) := by
  have hregs : sameRegsBut [Reg.CSI_CRCERR p] s (s.storeDev (g.data + g.met * g.stride) (bs.take g.lineBytes)) :=
    sameRegsBut_of_regs (s.storeDev_regs _ _)
  have hrd := State.rd_congr (s.storeDev_regs (g.data + g.met * g.stride) (bs.take g.lineBytes)) (Reg.CSI_CRCERR p)
  cases bad
  · exact ⟨hrd, hregs⟩
  · refine ⟨?_, hregs.countReg (List.mem_singleton_self _) _⟩
    rw [← hrd]
    exact (State.rd_countReg _ _ _ _).trans (if_pos rfl)

section
variable (hruns : s.csiRuns p = true)
include hruns

theorem exec_csiLine_unselected
    (hnone : ((s.csiOn p vc.toNat).find? fun f => s.fld (Reg.CSI_STREAM p f) 5 0 == dt.toNat) = none) :
    exec (.csiLine p vc dt bs lost bad fixed) s = .next (s.countReg (Reg.CSI_UNSEL p) 1) := by
  show execCsiLine p vc dt bs lost bad fixed s = _
  rw [execCsiLine, hruns, hnone]
  rfl

variable (hsel : ((s.csiOn p vc.toNat).find? fun f => s.fld (Reg.CSI_STREAM p f) 5 0 == dt.toNat) = some f)
include hsel

theorem exec_csiLine_idle (h : (s.csi p f).frame = none) : exec (.csiLine p vc dt bs lost bad fixed) s = .next s := by
  show execCsiLine p vc dt bs lost bad fixed s = _
  rw [execCsiLine, hruns, hsel]
  dsimp only
  rw [h]
  rfl

theorem exec_csiLine_written (h : (s.csi p f).frame = some g) (hroom : g.met < g.maxLines) :
    exec (.csiLine p vc dt bs false bad fixed) s = .next ((s.csiLineStored p g bs bad).setCsi p f
      { s.csi p f with frame := some (g.withLine bs.length bad fixed s.raw) }) := by
  obtain ⟨hlines, hframe⟩ := csiLine_written (s := s) (bad := bad) (fixed := fixed) (len := bs.length) hroom
  have hcsi := State.csi_congr (s.csiLineStored_edge p g bs bad) p f
  have hwr : ((csiLine g bs.length false bad fixed).lines != g.lines) = true := by simp [hlines]
  show execCsiLine p vc dt bs false bad fixed s = _
  rw [execCsiLine, hruns, hsel]
  dsimp only
  rw [h, ← hframe, ← hcsi]
  dsimp only
  rw [hwr]
  rfl

theorem exec_csiLine_dropped (h : (s.csi p f).frame = some g) (hdrop : lost = true ∨ g.maxLines ≤ g.met) :
    exec (.csiLine p vc dt bs lost bad fixed) s = .next ((s.countReg (Reg.CSI_DROP p) 1).setCsi p f
      { s.csi p f with frame := some (g.withoutLine fixed s.raw) }) := by
  obtain ⟨hlines, hframe⟩ := csiLine_dropped (s := s) (bad := bad) (fixed := fixed) (len := bs.length) hdrop
  have hwr : ((csiLine g bs.length lost bad fixed).lines != g.lines) = false := by simp [hlines]
  show execCsiLine p vc dt bs lost bad fixed s = _
  rw [execCsiLine, hruns, hsel]
  dsimp only
  rw [h, ← hframe]
  dsimp only
  rw [hwr]
  rfl

end

theorem csiLine_unselected (hruns : s.csiRuns p = true)
    (hnone : ((s.csiOn p vc.toNat).find? fun f => s.fld (Reg.CSI_STREAM p f) 5 0 == dt.toNat) = none) :
    completes (.csiLine p vc dt bs lost bad fixed) s fun t => t.rd (Reg.CSI_UNSEL p) = Ctr.add (s.rd (Reg.CSI_UNSEL p)) 1 ∧
      sameRegsBut [Reg.CSI_UNSEL p] s t ∧ t.mem = s.mem :=
  ⟨_, exec_csiLine_unselected hruns hnone, s.countReg_counts _ _⟩

theorem csiLine_writes (hruns : s.csiRuns p = true)
    (hsel : ((s.csiOn p vc.toNat).find? fun f => s.fld (Reg.CSI_STREAM p f) 5 0 == dt.toNat) = some f)
    (h : (s.csi p f).frame = some g) (hroom : g.met < g.maxLines)
    (hserved : s.served (g.data + g.met * g.stride) (min g.lineBytes bs.length) = true) :
    completes (.csiLine p vc dt bs false bad fixed) s fun t =>
      t.load (devKey (g.data + g.met * g.stride)) (min g.lineBytes bs.length) = bs.take g.lineBytes ∧
      sameMemBut [(devKey (g.data + g.met * g.stride), min g.lineBytes bs.length)] s t ∧
      t.rd (Reg.CSI_CRCERR p) = Ctr.add (s.rd (Reg.CSI_CRCERR p)) (if bad then 1 else 0) ∧
      sameRegsBut [Reg.CSI_CRCERR p] s t ∧ (t.csi p f).frame = some (g.withLine bs.length bad fixed s.raw) := by
  refine ⟨_, exec_csiLine_written hruns hsel h hroom, ?_⟩
  obtain ⟨hcount, hregs⟩ := s.csiLineStored_counts p g bs bad
  have hmem := s.csiLineStored_mem p g bs bad
  rw [← List.length_take] at hserved ⊢
  rw [State.storeDev_served _ hserved] at hmem
  obtain ⟨hload, hbut, -⟩ := s.store_stored (devKey (g.data + g.met * g.stride)) (bs.take g.lineBytes)
  generalize s.csiLineStored p g bs bad = u at *
  refine ⟨?_, hbut.trans (sameMemBut_of_mem hmem), hcount, hregs, ?_⟩
  · exact ((sameMemBut_of_mem (l := []) hmem).load (by simp)).trans hload
  · rw [State.csi_setCsi, if_pos rfl]

theorem csiLine_drops (hruns : s.csiRuns p = true)
    (hsel : ((s.csiOn p vc.toNat).find? fun f => s.fld (Reg.CSI_STREAM p f) 5 0 == dt.toNat) = some f)
    (h : (s.csi p f).frame = some g) (hdrop : lost = true ∨ g.maxLines ≤ g.met) :
    completes (.csiLine p vc dt bs lost bad fixed) s fun t =>
      t.rd (Reg.CSI_DROP p) = Ctr.add (s.rd (Reg.CSI_DROP p)) 1 ∧ sameRegsBut [Reg.CSI_DROP p] s t ∧ t.mem = s.mem ∧
      (t.csi p f).frame = some (g.withoutLine fixed s.raw) := by
  obtain ⟨hcount, hregs, hmem⟩ := s.countReg_counts (Reg.CSI_DROP p) 1
  refine ⟨_, exec_csiLine_dropped hruns hsel h hdrop, hcount, hregs, hmem, ?_⟩
  rw [State.csi_setCsi, if_pos rfl]

end

end Sys2Proof.Machine

namespace Sys2Proof.Machine

/-! ## Lane synchronisation and CSI_RCTL (R373) -/

section
variable {s : State}

theorem csiLaneSync_completes {p : Fin 12} (h : s.flag (Reg.CSI_CTRL p) 0 = true) : completes (.csiLaneSync p) s fun t =>
    t.flag (Reg.CSI_STATUS p) 0 = true ∧ sameRegsBut [Reg.CSI_STATUS p] s t ∧ t.mem = s.mem :=
  ⟨_, if_pos h, s.flag_setFlag_same _ _ _ (by decide), (sameRegsBut_refl _ s).setFlag (List.mem_singleton_self _) _ _, rfl⟩

theorem exec_csiRctlWrite_inUse {p : Fin 12} {f : Fin 4} {v : Word} (h : s.flag (Reg.CSI_STREAM p f) 15 = true) :
    exec (.csiRctlWrite p f v) s = .next s := congrArg Host.Outcome.next (if_pos h)

theorem csiRctlWrite_completes {p : Fin 12} {f : Fin 4} {v : Word} (h : s.flag (Reg.CSI_STREAM p f) 15 = false) :
    completes (.csiRctlWrite p f v) s fun t => t.fld (Reg.CSI_RCTL p f) 2 0 = bits v.toNat 2 0 ∧ t.fld (Reg.CSI_RCTL p f) 10 8 = 0 ∧
      sameRegsBut [Reg.CSI_RCTL p f] s t ∧ t.mem = s.mem := by
  have hexec : s.rctlWrite p f v.toNat = (s.setFld (Reg.CSI_RCTL p f) 2 0 v.toNat).setFld (Reg.CSI_RCTL p f) 10 8 0 := by
    rw [State.rctlWrite, h]
    rfl
  refine ⟨_, congrArg Host.Outcome.next hexec, ?_, State.fld_setFld_same _ _ _ _ _ (by decide) (by decide),
    ((sameRegsBut_refl _ s).setFld (List.mem_singleton_self _) _ _ _).setFld (List.mem_singleton_self _) _ _ _, rfl⟩
  rw [State.fld_setFld_disjoint _ _ _ _ _ _ _ (by decide) (by decide) (.inl (by decide)),
    State.fld_setFld_same _ _ _ _ _ (by decide) (by decide), bits, Nat.pow_zero, Nat.div_one]

/-! ## Stamps (R359, R371) -/

/-- The stamps of the closed frame whose status is at `a` are written, and the granted source raised. -/
def State.csiStamped (s : State) (p f a fs fe k : Nat) (rest : List (Nat × Nat × Nat)) : State :=
  ((s.storeDev (a + 16) (leBytes 8 fs ++ leBytes 8 fe)).setCsi p f { s.csi p f with unstamped := rest }).raiseEv k

theorem State.csiStamped_regs (s : State) (p f a fs fe k : Nat) (rest : List (Nat × Nat × Nat)) :
    (s.csiStamped p f a fs fe k rest).regs = s.regs := by
  rw [State.csiStamped, State.raiseEv_regs, State.setCsi_regs, State.storeDev_regs]

/-- The stamped state in terms of the one before: the two stamps, the stream, the event, and nothing else. -/
theorem State.csiStamped_spec (p f : Nat) {a : Nat} (fs fe : Word) (k : Nat) (rest : List (Nat × Nat × Nat))
    (hserved : s.served (a + 16) 16 = true) (t : State) (ht : t = s.csiStamped p f a fs.toNat fe.toNat k rest) :
    t.loadNat (devKey (a + 16)) 8 = fs.toNat ∧ t.loadNat (devKey (a + 16) + 8) 8 = fe.toNat ∧ (t.csi p f).unstamped = rest ∧
      t.raised = s.raised ++ [k] ∧ sameMemBut [(devKey (a + 16), 16)] s t := by
  have hlen : (leBytes 8 fs.toNat ++ leBytes 8 fe.toNat).length = 16 := by
    rw [List.length_append, leBytes_length, leBytes_length]
  have hmem : t.mem = (s.store (devKey (a + 16)) (leBytes 8 fs.toNat ++ leBytes 8 fe.toNat)).mem := by
    rw [ht, State.csiStamped, State.raiseEv_mem, State.setCsi_mem, State.storeDev_served _ (by rw [hlen, hserved])]
  have hload : ∀ k n, t.loadNat k n = (s.store (devKey (a + 16)) (leBytes 8 fs.toNat ++ leBytes 8 fe.toNat)).loadNat k n := fun _ _ =>
    (sameMemBut_of_mem (l := []) hmem).loadNat (by simp)
  have hfs := s.loadNat_store_part (devKey (a + 16)) [] 8 fs.toNat (leBytes 8 fe.toNat)
  have hfe := s.loadNat_store_part (devKey (a + 16)) (leBytes 8 fs.toNat) 8 fe.toNat []
  have hbut := (s.store_stored (devKey (a + 16)) (leBytes 8 fs.toNat ++ leBytes 8 fe.toNat)).2.1
  rw [hlen] at hbut
  rw [List.nil_append, List.length_nil, Nat.add_zero, Nat.mod_eq_of_lt (show fs.toNat < 256 ^ 8 from fs.isLt)] at hfs
  rw [List.append_nil, leBytes_length, Nat.mod_eq_of_lt (show fe.toNat < 256 ^ 8 from fe.isLt)] at hfe
  refine ⟨(hload _ _).trans hfs, (hload _ _).trans hfe, ?_, ?_, hbut.trans (sameMemBut_of_mem hmem)⟩
  · rw [ht, State.csiStamped, State.csi_congr (State.raiseEv_edge _ _), State.csi_setCsi, if_pos rfl]
  · rw [ht, State.csiStamped, State.raised_raiseEv, State.setCsi_raised, State.storeDev_raised]

theorem exec_csiStamp {p : Fin 12} {f : Fin 4} {a x y : Nat} {rest : List (Nat × Nat × Nat)} {fs fe : Word} {k : BitVec 9}
    (hun : (s.csi p f).unstamped = (a, x, y) :: rest) (hk : 256 ≤ k.toNat) (hgrant : s.flag (Reg.EVT_SRC k.toNat) 48 = true)
    (hup : s.gateDown = false) (hfs : s.stampOk x fs.toNat = true) (hfe : y = 0 ∨ s.stampOk y fe.toNat = true) (room : Bool) :
    exec (.csiStamp p f ⟨fs, fe⟩ k room) s = .next (if room then
      (s.csiStamped p f a fs.toNat fe.toNat k.toNat rest).csiOverwrite p f (s.fld (Reg.EVT_SRC k.toNat) 47 44)
      else s.csiStamped p f a fs.toNat fe.toNat k.toNat rest) := by
  have hsrc := State.fld_congr (State.rd_congr (s.csiStamped_regs p f a fs.toNat fe.toNat k.toNat rest) (Reg.EVT_SRC k.toNat)) 47 44
  show execCsiStamp p f ⟨fs, fe⟩ k room s = _
  rw [execCsiStamp, hun]
  dsimp only
  rw [if_pos ⟨hk, hgrant, hup, hfs, hfe⟩, ← hsrc]
  rfl

theorem csiStamp_completes {p : Fin 12} {f : Fin 4} {a x y : Nat} {rest : List (Nat × Nat × Nat)} {fs fe : Word} {k : BitVec 9}
    (hun : (s.csi p f).unstamped = (a, x, y) :: rest) (hk : 256 ≤ k.toNat) (hgrant : s.flag (Reg.EVT_SRC k.toNat) 48 = true)
    (hup : s.gateDown = false) (hfs : s.stampOk x fs.toNat = true) (hfe : y = 0 ∨ s.stampOk y fe.toNat = true)
    (hserved : s.served (a + 16) 16 = true) : ∃ u,
      exec (.csiStamp p f ⟨fs, fe⟩ k false) s = .next u ∧ u.loadNat (devKey (a + 16)) 8 = fs.toNat ∧
      u.loadNat (devKey (a + 16) + 8) 8 = fe.toNat ∧ (u.csi p f).unstamped = rest ∧ u.raised = s.raised ++ [k.toNat] ∧
      sameMemBut [(devKey (a + 16), 16)] s u ∧ u.regs = s.regs ∧
      exec (.csiStamp p f ⟨fs, fe⟩ k true) s = .next (u.csiOverwrite p f (s.fld (Reg.EVT_SRC k.toNat) 47 44)) := by
  have hplain := exec_csiStamp hun hk hgrant hup hfs hfe false
  have hroom := exec_csiStamp hun hk hgrant hup hfs hfe true
  rw [if_neg Bool.false_ne_true] at hplain
  rw [if_pos rfl] at hroom
  obtain ⟨hload, hload', hrest, hev, hmem⟩ := s.csiStamped_spec p f fs fe k.toNat rest hserved _ rfl
  exact ⟨_, hplain, hload, hload', hrest, hev, hmem, State.csiStamped_regs .., hroom⟩

end

/-! ## Room for the next capture (R34, R372) -/

/-- Does the ring of the stream hold a descriptor that the port may still take? -/
def State.csiFree (s : State) (p f : Nat) : Prop := ∃ i ≤ s.fld (Reg.CSI_RCTL p f) 2 0,
  s.loadNat (devKey (s.fld (Reg.CSI_RBASE p f) 47 5 * 32 + 32 * i) + 24) 1 % 2 = 1

/-- Does the Pip engine read the buffer of the stream's next descriptor? -/
def State.csiPassed (s : State) (p f : Nat) : Bool := s.pipReads (s.loadNat (devKey (s.csiDesc p f)) 8)
  (s.loadNat (devKey (s.csiDesc p f) + 8) 4 * s.loadNat (devKey (s.csiDesc p f) + 14) 2)

/-- The same as `csiFree`, as the model finds it. -/
def State.csiFreeB (s : State) (p f : Nat) : Bool := (List.range (s.fld (Reg.CSI_RCTL p f) 2 0 + 1)).any fun i =>
  s.loadNat (devKey (s.fld (Reg.CSI_RBASE p f) 47 5 * 32 + 32 * i) + 24) 1 % 2 == 1

section
variable (s : State) (p f j : Nat)

theorem State.csiFreeB_iff : s.csiFreeB p f = true ↔ s.csiFree p f := by
  simp only [State.csiFreeB, State.csiFree, List.any_eq_true, List.mem_range, beq_iff_eq, Nat.lt_succ_iff]

theorem State.csiOverwrite_eq : s.csiOverwrite p f j =
    if (s.csiFreeB p f || (s.csi p f).frame.isSome || s.csiPassed p f || !s.served (s.csiDesc p f) 32) = true then s
    else (s.storeDev (s.csiDesc p f + 24) [1]).account j 0x28 1 := rfl

theorem State.csiOverwrite_none (h : s.csiFree p f ∨ (s.csi p f).frame.isSome = true ∨ s.csiPassed p f = true) :
    s.csiOverwrite p f j = s := by
  rw [State.csiOverwrite_eq, if_pos]
  simp only [Bool.or_eq_true, s.csiFreeB_iff]
  tauto

/-- A field of a job's accounting record after its event. -/
theorem State.account_counts (s : State) (j off n : Nat) (h : s.pwr.vhomeOut = false) :
    (s.account j off n).loadNat (devKey (0x7F80020000 + j * 0x400 + off)) 8 =
      min (2 ^ 64 - 1) (s.loadNat (devKey (0x7F80020000 + j * 0x400 + off)) 8 + n) ∧
    sameMemBut [(devKey (0x7F80020000 + j * 0x400 + off), 8)] s (s.account j off n) ∧ (s.account j off n).regs = s.regs := by
  have heq : s.account j off n = s.storeNat (devKey (0x7F80020000 + j * 0x400 + off)) 8
      (min (2 ^ 64 - 1) (s.loadNat (devKey (0x7F80020000 + j * 0x400 + off)) 8 + n)) := by
    simp only [State.account, h, Bool.false_eq_true, if_false]
  rw [heq]
  refine ⟨?_, s.sameMemBut_storeNat _ _ _, rfl⟩
  rw [State.loadNat_storeNat]
  omega

theorem State.csiOverwrite_hands (hfree : ¬ s.csiFree p f) (hframe : (s.csi p f).frame = none) (hpip : s.csiPassed p f = false)
    (hserved : s.served (s.csiDesc p f) 32 = true) : s.csiOverwrite p f j = (s.storeDev (s.csiDesc p f + 24) [1]).account j 0x28 1 := by
  rw [← s.csiFreeB_iff] at hfree
  rw [State.csiOverwrite_eq, if_neg]
  simp [hfree, hframe, hpip, hserved]

theorem State.csiOverwrite_spec (hfree : ¬ s.csiFree p f) (hframe : (s.csi p f).frame = none) (hpip : s.csiPassed p f = false)
    (hserved : s.served (s.csiDesc p f) 32 = true) (hown : s.served (s.csiDesc p f + 24) 1 = true) (hv : s.pwr.vhomeOut = false)
    (hapart : devKey (s.csiDesc p f + 24) < devKey (0x7F80020000 + j * 0x400 + 0x28) ∨
      devKey (0x7F80020000 + j * 0x400 + 0x28) + 8 ≤ devKey (s.csiDesc p f + 24)) :
    (s.csiOverwrite p f j).loadByte (devKey (s.csiDesc p f + 24)) = 1 ∧
    (s.csiOverwrite p f j).loadNat (devKey (0x7F80020000 + j * 0x400 + 0x28)) 8 =
      min (2 ^ 64 - 1) (s.loadNat (devKey (0x7F80020000 + j * 0x400 + 0x28)) 8 + 1) ∧
    sameMemBut [(devKey (s.csiDesc p f + 24), 1), (devKey (0x7F80020000 + j * 0x400 + 0x28), 8)] s (s.csiOverwrite p f j) ∧
    (s.csiOverwrite p f j).regs = s.regs := by
  rw [State.csiOverwrite_hands s p f j hfree hframe hpip hserved, State.storeDev_served s (bs := [1]) hown]
  generalize devKey (s.csiDesc p f + 24) = k at *
  obtain ⟨hcount, hbut, hregs⟩ := (s.store k [1]).account_counts j 0x28 1 hv
  have hstore : sameMemBut [(k, 1)] s (s.store k [1]) := (s.store_stored k [1]).2.1
  generalize devKey (0x7F80020000 + j * 0x400 + 0x28) = key at *
  refine ⟨?_, ?_, (hstore.mono (by simp)).trans (hbut.mono (by simp)), hregs⟩
  · rw [hbut k (by simp only [List.forall_mem_singleton]; omega), State.store_loadByte_first]
  · rw [hcount, hstore.loadNat (by simp only [List.forall_mem_singleton]; omega)]

end

end Sys2Proof.Machine

namespace Sys2Proof.Machine

/-! ## Time stamps of an Ethernet port (R378) -/

section
variable {s : State} {n : BitVec 2}

theorem State.eth_setEth (s : State) (n : Nat) (e : EthSt) : (s.setEth n e).eth n = e :=
  (Map.get_put _ _ _ _ _).trans (if_pos rfl)

theorem State.answer_eth (s : State) (n : Nat) (e : EthSt) (r : Resp) : ((s.setEth n e).answer r).eth n = e := s.eth_setEth n e

/-- The stamps of one direction, oldest first. -/
def EthSt.stamps (e : EthSt) (tx : Bool) : List EthStamp := if tx then e.tx else e.rx

/-- The latched stamp of one direction. -/
def EthSt.latch (e : EthSt) (tx : Bool) : Option EthStamp := if tx then e.txLatch else e.rxLatch

/-- Latch a stamp, or none. -/
def EthSt.latched (e : EthSt) (tx : Bool) (x : Option EthStamp) : EthSt := if tx then { e with txLatch := x } else { e with rxLatch := x }

theorem EthSt.latched_spec (e : EthSt) (tx : Bool) (x : Option EthStamp) :
    (e.latched tx x).latch tx = x ∧ (e.latched tx x).tx = e.tx ∧ (e.latched tx x).rx = e.rx := by
  cases tx
  · exact ⟨rfl, rfl, rfl⟩
  · exact ⟨rfl, rfl, rfl⟩

/-- The latched stamp, the oldest one, leaves. -/
def EthSt.unlatched (e : EthSt) (tx : Bool) (rest : List EthStamp) : EthSt :=
  if tx then { e with
    txLatch := none
    tx := rest }
  else { e with
    rxLatch := none
    rx := rest }

theorem EthSt.unlatched_stamps (e : EthSt) (tx : Bool) (rest : List EthStamp) : (e.unlatched tx rest).stamps tx = rest := by
  cases tx
  · rfl
  · rfl

theorem State.tsRead0_eq (s : State) (n : Nat) (tx : Bool) : s.tsRead0 n tx =
    (s.setEth n ((s.eth n).latched tx ((s.eth n).stamps tx).head?), (((s.eth n).stamps tx).head?.map EthStamp.raw).getD 0) := by
  unfold State.tsRead0
  generalize s.eth n = e
  cases tx with
  | true =>
    refine Prod.ext rfl ?_
    cases h : e.tx <;> simp [EthSt.stamps, h]
  | false =>
    refine Prod.ext rfl ?_
    cases h : e.rx <;> simp [EthSt.stamps, h]

theorem exec_ethTsRead0 (n : BitVec 2) (tx : Bool) (s : State) : exec (.ethTsRead0 n tx) s =
    .next ((s.setEth n.toNat ((s.eth n.toNat).latched tx ((s.eth n.toNat).stamps tx).head?)).answer
      (.ok (leBytes 8 ((((s.eth n.toNat).stamps tx).head?.map EthStamp.raw).getD 0)))) := by
  show execEthTsRead0 n tx s = _
  rw [execEthTsRead0, State.tsRead0_eq]
  rfl

theorem ethTsRead0_some {tx : Bool} {x : EthStamp} {rest : List EthStamp} (h : (s.eth n.toNat).stamps tx = x :: rest) :
    completes (.ethTsRead0 n tx) s fun t => t.out = .ok (leBytes 8 x.raw) ∧ (t.eth n.toNat).latch tx = some x ∧
      (t.eth n.toNat).tx = (s.eth n.toNat).tx ∧ (t.eth n.toNat).rx = (s.eth n.toNat).rx ∧ t.regs = s.regs ∧ t.mem = s.mem := by
  have hexec := exec_ethTsRead0 n tx s
  rw [h] at hexec
  refine ⟨_, hexec, rfl, ?_⟩
  rw [State.answer_eth]
  obtain ⟨hlatch, htx, hrx⟩ := (s.eth n.toNat).latched_spec tx (some x)
  exact ⟨hlatch, htx, hrx, rfl, rfl⟩

theorem ethTsRead0_none {tx : Bool} (h : (s.eth n.toNat).stamps tx = []) :
    completes (.ethTsRead0 n tx) s fun t => t.out = .ok (leBytes 8 0) ∧ (t.eth n.toNat).latch tx = none ∧ t.regs = s.regs ∧
      t.mem = s.mem := by
  have hexec := exec_ethTsRead0 n tx s
  rw [h] at hexec
  refine ⟨_, hexec, rfl, ?_⟩
  rw [State.answer_eth]
  exact ⟨((s.eth n.toNat).latched_spec tx none).1, rfl, rfl⟩

theorem State.tsRead1_none {s : State} {n : Nat} {tx : Bool} (h : (s.eth n).latch tx = none) : s.tsRead1 n tx = (s, 0) := by
  have h : (if tx then (s.eth n).txLatch else (s.eth n).rxLatch) = none := h
  rw [State.tsRead1]
  dsimp only
  rw [h]

theorem State.tsRead1_some {s : State} {n : Nat} {tx : Bool} {x : EthStamp} {rest : List EthStamp}
    (hstamps : (s.eth n).stamps tx = x :: rest) (h : (s.eth n).latch tx = some x) :
    s.tsRead1 n tx = (s.setEth n ((s.eth n).unlatched tx rest), 2 ^ 63 + x.mtype * 2 ^ 32 + x.domain * 2 ^ 24 + x.seqId) := by
  have h : (if tx then (s.eth n).txLatch else (s.eth n).rxLatch) = some x := h
  rw [State.tsRead1]
  dsimp only
  rw [h]
  cases tx with
  | true =>
    have htx : (s.eth n).tx = x :: rest := hstamps
    simp [htx, EthSt.unlatched]
  | false =>
    have hrx : (s.eth n).rx = x :: rest := hstamps
    simp [hrx, EthSt.unlatched]

theorem ethTsRead1_some {tx : Bool} {x : EthStamp} {rest : List EthStamp} (hstamps : (s.eth n.toNat).stamps tx = x :: rest)
    (h : (s.eth n.toNat).latch tx = some x) : completes (.ethTsRead1 n tx) s fun t =>
      t.out = .ok (leBytes 8 (2 ^ 63 + x.mtype * 2 ^ 32 + x.domain * 2 ^ 24 + x.seqId)) ∧ (t.eth n.toNat).stamps tx = rest ∧
      t.regs = s.regs ∧ t.mem = s.mem := by
  have hexec : exec (.ethTsRead1 n tx) s = .next ((s.tsRead1 n.toNat tx).1.answer (okNat 8 (s.tsRead1 n.toNat tx).2)) := rfl
  rw [State.tsRead1_some hstamps h] at hexec
  refine ⟨_, hexec, rfl, ?_, rfl, rfl⟩
  rw [State.answer_eth, EthSt.unlatched_stamps]

theorem ethTsRead1_none {tx : Bool} (h : (s.eth n.toNat).latch tx = none) :
    completes (.ethTsRead1 n tx) s fun t => t = { s with out := .ok (leBytes 8 0) } := by
  have hexec : exec (.ethTsRead1 n tx) s = .next ((s.tsRead1 n.toNat tx).1.answer (okNat 8 (s.tsRead1 n.toNat tx).2)) := rfl
  rw [State.tsRead1_none h] at hexec
  exact ⟨_, hexec, rfl⟩

end

/-! ## Gate cycles (R378) -/

theorem le_gclPoint (b T t : Nat) : b ≤ gclPoint b T t := by
  rw [gclPoint]
  split
  · exact le_rfl
  · exact Nat.le_add_right _ _

theorem gclPoint_grid {b T t : Nat} (h : b ≤ t) :
    ∃ k, gclPoint b T t = b + k * T ∧ b + k * T ≤ t ∧ (T ≠ 0 → t < b + (k + 1) * T) := by
  by_cases hT : T = 0
  · exact ⟨0, by simp [gclPoint, hT], by omega, fun h => absurd hT h⟩
  · have hdiv := Nat.div_mul_le_self (t - b) T
    have hlt := Nat.lt_div_mul_add (a := t - b) (Nat.pos_of_ne_zero hT)
    refine ⟨(t - b) / T, ?_, by omega, fun _ => ?_⟩
    · rw [gclPoint, if_neg]
      omega
    · rw [Nat.add_one_mul]
      omega

section
variable {s : State} {n : BitVec 2}

theorem State.base_le_gclNext (s : State) (n : Nat) : (s.rd (Reg.ETH_GCLBASE n)).toNat ≤ s.gclNext n := by
  unfold State.gclNext
  dsimp only
  split
  · exact le_rfl
  · split
    · exact le_rfl
    · exact (le_gclPoint _ _ _).trans (Nat.le_add_right _ _)

theorem State.setFlag_eth (s : State) (a k : Nat) (b : Bool) (n : Nat) : (s.setFlag a k b).eth n = s.eth n := rfl

theorem exec_ethGclCycle (hon : s.flag (Reg.ETH_CTRL n.toNat) 0 = true) (hdue : s.gclNext n.toNat ≤ s.raw) :
    exec (.ethGclCycle n) s = .next ((s.setEth n.toNat { s.eth n.toNat with
      gcl := s.gclOf n.toNat
      cycle := some (gclPoint (s.rd (Reg.ETH_GCLBASE n.toNat)).toNat (s.gclStep n.toNat) s.raw) }).setFlag
        (Reg.ETH_GCLCTL n.toNat) 9 false) := by
  show execEthGclCycle n s = _
  rw [execEthGclCycle]
  exact if_pos ⟨hon, hdue⟩

theorem ethGclCycle_completes (hon : s.flag (Reg.ETH_CTRL n.toNat) 0 = true) (hdue : s.gclNext n.toNat ≤ s.raw) :
    completes (.ethGclCycle n) s fun t =>
      (t.eth n.toNat).gcl = s.gclOf n.toNat ∧ t.flag (Reg.ETH_GCLCTL n.toNat) 9 = false ∧
      (∃ k, (t.eth n.toNat).cycle = some ((s.rd (Reg.ETH_GCLBASE n.toNat)).toNat + k * s.gclStep n.toNat) ∧
        (s.rd (Reg.ETH_GCLBASE n.toNat)).toNat + k * s.gclStep n.toNat ≤ s.raw ∧
        (s.gclStep n.toNat ≠ 0 → s.raw < (s.rd (Reg.ETH_GCLBASE n.toNat)).toNat + (k + 1) * s.gclStep n.toNat)) ∧
      sameRegsBut [Reg.ETH_GCLCTL n.toNat] s t ∧ t.mem = s.mem := by
  obtain ⟨k, hk, hle, hlt⟩ := gclPoint_grid (T := s.gclStep n.toNat) ((s.base_le_gclNext n.toNat).trans hdue)
  refine ⟨_, exec_ethGclCycle hon hdue, ?_, State.flag_setFlag_same _ _ _ _ (by decide), ⟨k, ?_, hle, hlt⟩, ?_, rfl⟩
  · rw [State.setFlag_eth, State.eth_setEth]
  · rw [State.setFlag_eth, State.eth_setEth, hk]
  · exact (sameRegsBut_of_regs rfl).setFlag (List.mem_singleton_self _) _ _

/-! ## The link of a port (R378, R504) -/

/-- What a port shows of its link; a link that has gone down is latched too. -/
def State.ethLinkShown (s : State) (n : Nat) (up : Bool) : State :=
  if up then s.setFlag (Reg.ETH_STATUS n) 0 up else (s.setFlag (Reg.ETH_STATUS n) 0 up).setFlag (Reg.ETH_STATUS n) 1 true

theorem State.ethLinkShown_spec (s : State) (n : Nat) (up : Bool) : (s.ethLinkShown n up).flag (Reg.ETH_STATUS n) 0 = up ∧
    (up = false → (s.ethLinkShown n up).flag (Reg.ETH_STATUS n) 1 = true) ∧ (s.ethLinkShown n up).raised = s.raised ∧
    sameRegsBut [Reg.ETH_STATUS n] s (s.ethLinkShown n up) ∧ (s.ethLinkShown n up).mem = s.mem := by
  have hregs : sameRegsBut [Reg.ETH_STATUS n] s (s.setFlag (Reg.ETH_STATUS n) 0 up) :=
    (sameRegsBut_refl _ s).setFlag (List.mem_singleton_self _) _ _
  have hflag := s.flag_setFlag_same (Reg.ETH_STATUS n) 0 up (by decide)
  cases up with
  | true =>
    rw [State.ethLinkShown, if_pos rfl]
    exact ⟨hflag, fun h => absurd h (by decide), State.setFlag_raised .., hregs, State.setFlag_mem ..⟩
  | false =>
    rw [State.ethLinkShown, if_neg (by decide)]
    refine ⟨?_, fun _ => State.flag_setFlag_same _ _ _ _ (by decide), ?_, hregs.setFlag (List.mem_singleton_self _) _ _, ?_⟩
    · rw [State.flag_setFlag_ne _ _ _ _ _ (by decide) (by decide), hflag]
    · rw [State.setFlag_raised, State.setFlag_raised]
    · rw [State.setFlag_mem, State.setFlag_mem]

theorem ethLink_completes {up : Bool} (hon : s.flag (Reg.ETH_CTRL n.toNat) 0 = true) (hnew : s.flag (Reg.ETH_STATUS n.toNat) 0 ≠ up) :
    completes (.ethLink n up) s fun t => t.flag (Reg.ETH_STATUS n.toNat) 0 = up ∧
      (up = false → t.flag (Reg.ETH_STATUS n.toNat) 1 = true) ∧ t.raised = s.raised ++ [28 + n.toNat] ∧
      sameRegsBut [Reg.ETH_STATUS n.toNat] s t ∧ t.mem = s.mem := by
  have hexec : exec (.ethLink n up) s = .next ((s.ethLinkShown n.toNat up).raiseEv (28 + n.toNat)) := by
    show execEthLink n up s = _
    rw [execEthLink]
    dsimp only
    rw [if_pos ⟨hon, hnew⟩, State.ethLinkShown]
  obtain ⟨hup, hdown, hev, hregs, hmem⟩ := s.ethLinkShown_spec n.toNat up
  refine ⟨_, hexec, ?_⟩
  generalize s.ethLinkShown n.toNat up = u at *
  exact ⟨hup, hdown, congrArg (· ++ [28 + n.toNat]) hev, hregs, hmem⟩

end

end Sys2Proof.Machine

namespace Sys2Proof.Machine

/-! ## The statement -/

/-- Settles O42: a camera frame's life by one lemma per event, each stated of the state in which the event comes; Ethernet by one lemma
per command. -/
theorem camerasAndEthernetControls : Obligations.CamerasAndEthernetControls := by
  refine ⟨fun p vc f s hf => ⟨csiUnselected, ?opens, ?together, ?line, ?closes, fun rest hruns => csiSyncLost_closes hruns rest⟩,
    fun p f v s => ⟨csiLaneSync_completes, exec_csiRctlWrite_inUse, csiRctlWrite_completes, ?stamp, ?room⟩, fun n tx s => ?ethernet⟩
  case opens =>
    intro hruns hon hframe fnum
    refine ⟨fun h => csiFrameStart_nobuf hruns hon hframe fnum ?_, fun hserved hown' hown hread =>
      csiFrameStart_bad hruns hon hframe fnum ⟨hserved, hown⟩ hown' hread⟩
    rintro ⟨hserved, hown⟩
    rcases h with h | h
    · rw [h] at hserved
      exact absurd hserved (by decide)
    · exact h hown
  case together =>
    intro hruns fnum hf hgood
    obtain ⟨t, hexec, hregs, hmem, hcsi⟩ := csiFrameStart_opens hruns fnum hf fun k hk => by
      obtain ⟨hframe, hserved, hown, hread⟩ := hgood k hk
      exact ⟨hframe, ⟨hserved, hown⟩, hread⟩
    refine ⟨t, hexec, hregs, hmem, ?_⟩
    rw [hcsi]
    exact ⟨rfl, _, rfl, rfl, rfl, rfl, rfl, rfl, rfl, rfl, rfl, rfl, rfl, rfl, rfl, rfl, rfl⟩
  case line =>
    intro dt bs lost bad fixed hruns
    refine ⟨csiLine_unselected hruns, fun hsel => ⟨exec_csiLine_idle hruns hsel, fun g h => ⟨?_, csiLine_drops hruns hsel h⟩⟩⟩
    rintro rfl hroom hserved
    exact csiLine_writes hruns hsel h hroom hserved
  case closes =>
    intro g h hstatus hown hapart
    refine ⟨fun hruns hon => ?_, fun q hq hlate => ?_, fun rest hruns hone => ?_, fun fnum hruns hon hnext => ?_⟩
    · obtain ⟨hframe, hun⟩ := State.csiClose_stream h 0
      exact ⟨_, exec_csiFrameEnd_one hruns hon, (State.csiClose_closed 0 h hstatus hown hapart).unpack, hframe, hun,
        s.csiClose_frame 0 p f, State.csiClose_memBut 0 h⟩
    · obtain ⟨hframe, hun⟩ := State.csiClose_stream h 1
      exact ⟨_, exec_csiFrameTimeout h hq hlate, (State.csiClose_closed 1 h hstatus hown hapart).unpack, hframe, hun,
        s.csiClose_frame 1 p f, State.csiClose_memBut 1 h⟩
    · obtain ⟨t, hexec, hclosed, hdrop, hregs, hmem⟩ := csiSyncLost_closes_one h hstatus hown hapart hf hruns hone rest
      exact ⟨t, hexec, hclosed.unpack, hdrop, hregs, hmem⟩
    · obtain ⟨t, hexec, hclosed, hframe, hregs, hmem⟩ := csiFrameStart_again h hstatus hown hapart hruns hon fnum hnext
      exact ⟨t, hexec, hclosed.unpack, hframe, hregs, hmem⟩
  case stamp =>
    exact fun a x y rest fs fe k hun hk hgrant hup hfs hfe hserved => csiStamp_completes hun hk hgrant hup hfs hfe hserved
  case room =>
    exact fun j _ => ⟨s.csiOverwrite_none p f j, s.csiOverwrite_spec p f j⟩
  case ethernet =>
    exact ⟨fun _ _ => ethTsRead0_some, ethTsRead0_none, fun _ _ => ethTsRead1_some, ethTsRead1_none, ethGclCycle_completes,
      fun _ => ethLink_completes⟩

end Sys2Proof.Machine

/-! # Counter snapshots and clears (R66, R199, R226) -/

namespace Sys2Proof.Machine

section
variable (s : State)

/-- The first `n` counters of Face `f` go to their snapshots and are zeroed. -/
def State.qsatSnapFirst (f n : Nat) : State :=
  s.each (List.range n) fun s d => (s.wr (Reg.QSAT_SNAP f d) (s.rd (Reg.QSAT_CNT f d))).wr (Reg.QSAT_CNT f d) 0

theorem State.qsatSnapFirst_succ (f n : Nat) : s.qsatSnapFirst f (n + 1) =
    ((s.qsatSnapFirst f n).wr (Reg.QSAT_SNAP f n) ((s.qsatSnapFirst f n).rd (Reg.QSAT_CNT f n))).wr (Reg.QSAT_CNT f n) 0 := by
  simp only [State.qsatSnapFirst, State.each, List.range_succ, List.foldl_append, List.foldl_cons, List.foldl_nil]

theorem State.qsatSnapFirst_frame (f n a : Nat) (ha : ∀ d < n, a ≠ Reg.QSAT_SNAP f d ∧ a ≠ Reg.QSAT_CNT f d) :
    (s.qsatSnapFirst f n).rd a = s.rd a := by
  induction n with
  | zero => rfl
  | succ n ih =>
    obtain ⟨hsnap, hcnt⟩ := ha n n.lt_succ_self
    rw [State.qsatSnapFirst_succ, State.rd_wr, if_neg hcnt, State.rd_wr, if_neg hsnap, ih fun d hd => ha d (by omega)]

/-- The two blocks of 64 registers lie apart, and each register has its own key. -/
theorem State.qsatSnapFirst_counter (f : Nat) {n : Nat} (hn : n ≤ 64) {d : Nat} (hd : d < n) :
    (s.qsatSnapFirst f n).rd (Reg.QSAT_SNAP f d) = s.rd (Reg.QSAT_CNT f d) ∧ (s.qsatSnapFirst f n).rd (Reg.QSAT_CNT f d) = 0 := by
  induction n with
  | zero => omega
  | succ n ih =>
    have hkey : Reg.QSAT_SNAP f d ≠ Reg.QSAT_CNT f n ∧ Reg.QSAT_CNT f d ≠ Reg.QSAT_SNAP f n := by
      simp only [Reg.QSAT_SNAP, Reg.QSAT_CNT]; omega
    rw [State.qsatSnapFirst_succ]
    simp only [State.rd_wr, hkey, if_false]
    rcases Nat.lt_succ_iff_lt_or_eq.mp hd with hlt | rfl
    · have hne : Reg.QSAT_SNAP f d ≠ Reg.QSAT_SNAP f n ∧ Reg.QSAT_CNT f d ≠ Reg.QSAT_CNT f n := by
        simp only [Reg.QSAT_SNAP, Reg.QSAT_CNT]; omega
      simpa only [hne, if_false] using ih (by omega) hlt
    · refine ⟨?_, if_pos rfl⟩
      rw [if_pos rfl]
      exact s.qsatSnapFirst_frame f d _ fun i hi => by simp only [Reg.QSAT_SNAP, Reg.QSAT_CNT]; omega

theorem State.qsatSnap_regsOnly (f : Nat) : regsOnly s (s.qsatSnap f) :=
  State.each_rel (R := regsOnly) .refl .trans _ (fun t _ _ => ((regsOnly.refl t).wr _ _).wr _ _) s

theorem regsOnly.faces {s t : State} (h : regsOnly s t) : t.faces = s.faces := by obtain ⟨_, rfl⟩ := h; rfl

theorem qsatSnap_completes (f : Fin 6) : completes (.qsatSnap f) s fun t =>
    (∀ d < 64, t.rd (Reg.QSAT_SNAP f d) = s.rd (Reg.QSAT_CNT f d) ∧ t.rd (Reg.QSAT_CNT f d) = 0) ∧
    (∀ a, (∀ d < 64, a ≠ Reg.QSAT_SNAP f d ∧ a ≠ Reg.QSAT_CNT f d) → t.rd a = s.rd a) ∧ t.mem = s.mem ∧ t.faces = s.faces :=
  ⟨s.qsatSnap f, rfl, fun _ hd => s.qsatSnapFirst_counter f le_rfl hd, s.qsatSnapFirst_frame f 64,
    (s.qsatSnap_regsOnly f).mem, (s.qsatSnap_regsOnly f).faces⟩

/-- The registers of a list are zeroed. -/
def State.wrZeros (l : List Nat) : State := s.each l fun s a => s.wr a 0

theorem State.wrZeros_rd (l : List Nat) (a : Nat) : (s.wrZeros l).rd a = if a ∈ l then 0 else s.rd a := by
  induction l generalizing s with
  | nil => rfl
  | cons b l ih =>
    have hstep : s.wrZeros (b :: l) = (s.wr b 0).wrZeros l := rfl
    rw [hstep, ih, State.rd_wr]
    by_cases hl : a ∈ l <;> by_cases hb : a = b <;> simp [hl, hb]

theorem State.wrZeros_regsOnly (l : List Nat) : regsOnly s (s.wrZeros l) :=
  State.each_rel (R := regsOnly) .refl .trans _ (fun t _ _ => (regsOnly.refl t).wr _ _) s

/-- A command that zeroes a list of registers and does nothing else. -/
theorem clear_completes {c : Instr} {l : List Nat} (h : exec c s = .next (s.wrZeros l)) : completes c s fun t =>
    (∀ a ∈ l, t.rd a = 0) ∧ sameRegsBut l s t ∧ t.mem = s.mem ∧ t.faces = s.faces :=
  ⟨_, h, fun a ha => by rw [State.wrZeros_rd, if_pos ha], fun a ha => by rw [State.wrZeros_rd, if_neg ha],
    (s.wrZeros_regsOnly l).mem, (s.wrZeros_regsOnly l).faces⟩

end

/-- Settles O22: QSAT_SNAP counter by counter, each in registers of its own; the two clears are lists of writes of 0. -/
theorem counterSnapshotsAndClears : Obligations.CounterSnapshotsAndClears := fun f s =>
  ⟨qsatSnap_completes s f, clear_completes s rfl, clear_completes s rfl⟩

end Sys2Proof.Machine

/-! # Tensor instructions on a Face with nothing in flight (R111 to R113, R142, R431)

What such an instruction leaves as it issues, and what its completion then does: its effects, and no other change of memory but an
entry of the Home fault log. -/

namespace Sys2Proof.Machine

/-! ## Checks that pass (R108, R142) -/

theorem Chk.and_eq_pass {a b : Chk} : a.and b = .pass ↔ a = .pass ∧ b = .pass := by
  cases a <;> simp [Chk.and]

theorem Chk.all_eq_pass {l : List Chk} : Chk.all l = .pass ↔ ∀ c ∈ l, c = .pass := by
  induction l with
  | nil => simp [Chk.all]
  | cons c l ih => rw [Chk.all, Chk.and_eq_pass, ih, List.forall_mem_cons]

theorem Chk.need_eq_pass {b : Bool} : Chk.need b = .pass ↔ b = true := by
  cases b <;> simp [Chk.need]

theorem checkDesc_pass {s : State} {f n opnd : Nat} {legal : Desc → Bool} (h : checkDesc s f n opnd legal = .pass) :
    (s.desc f n).shapeOk = true ∧ legal (s.desc f n) = true := by
  unfold checkDesc at h
  dsimp only at h
  split at h
  · cases h
  · split at h
    · cases h
    · next hlegal => simpa using hlegal

/-- A tensor of rank 2 has its rows along its extent 1. -/
theorem Desc.rows_of_rank_two {d : Desc} (h : d.shapeOk = true) (hr : d.rank = 2) : d.rows = d.e1 := by
  simp only [Desc.shapeOk, hr, Bool.and_eq_true, Bool.or_eq_true, decide_eq_true_eq, beq_iff_eq] at h
  obtain ⟨⟨_, h2⟩, h3⟩ := h
  have he2 : d.e2 = 1 := h2.resolve_left (by decide)
  have he3 : d.e3 = 1 := h3.resolve_left (by decide)
  rw [Desc.rows, he2, he3, Nat.one_mul]

/-! ## A Face with nothing in flight (R111, R113, R115) -/

section
variable {s : State} {f : Nat}

theorem State.beginIssue_accMixed (s : State) (f : Nat) : ((s.beginIssue f).face f).accMixed = (s.face f).accMixed := by
  obtain ⟨_, _, h⟩ := s.beginIssue_face f
  rw [h]

theorem State.beginIssue_accInt (s : State) (f : Nat) : ((s.beginIssue f).face f).accInt = (s.face f).accInt := by
  obtain ⟨_, _, h⟩ := s.beginIssue_face f
  rw [h]

theorem State.beginIssue_desc (s : State) (f n : Nat) : (s.beginIssue f).desc f n = s.desc f n := by
  rw [State.desc, State.beginIssue_dReg, State.desc]

theorem State.beginIssue_scale (s : State) (f n : Nat) : (s.beginIssue f).scale f n = s.scale f n := by
  rw [State.scale, State.beginIssue_sReg, State.scale]

theorem State.beginIssue_findBuf (s : State) (f j id : Nat) : (s.beginIssue f).findBuf j id = s.findBuf j id := by
  rw [State.findBuf, State.beginIssue_bufs, State.findBuf]

theorem State.beginIssue_tref (s : State) (f n : Nat) : (s.beginIssue f).tref f n = s.tref f n := by
  simp only [State.tref, State.trefAt, State.beginIssue_desc, State.beginIssue_findBuf, State.beginIssue_job, State.beginIssue_vf]

/-- A row of a tensor is what memory holds. -/
theorem TRef.row_congr {u : State} (h : u.mem = s.mem) (t : TRef) (r : Nat) : t.row u r = t.row s r := by
  have hload : u.load = s.load := by
    funext k n
    simp only [State.load, State.loadByte, h]
  have hcodes : u.codesAt = s.codesAt := by
    funext k fmt n
    rw [State.codesAt, hload, State.codesAt]
  have hpage : pageEntry u = pageEntry s := by
    funext pt i j
    rw [pageEntry, State.loadNat, hload, pageEntry, State.loadNat]
  rw [TRef.row, TRef.pieces, hcodes, hpage, TRef.row, TRef.pieces]

theorem State.statusWords_congr {u : State} (hj : u.jobs = s.jobs) (hb : u.bufs = s.bufs) (j : Nat) :
    u.statusWords j = s.statusWords j := by
  simp only [State.statusWords, State.job, State.findBuf, hj, hb]

/-- What is in flight does not depend on the Face's other fields. -/
theorem State.jobEntries_setFace {x : FaceSt} (hr : x.running = (s.face f).running) (hj : x.job = (s.face f).job)
    (hw : x.window = (s.face f).window) : (s.setFace f x).jobEntries f = s.jobEntries f := by
  have hface : ∀ g, ((s.setFace f x).face g).running = (s.face g).running ∧ ((s.setFace f x).face g).job = (s.face g).job ∧
      ((s.setFace f x).face g).window = (s.face g).window := fun g => by
    by_cases hg : g = f <;> simp [hg, hr, hj, hw]
  simp only [State.jobEntries, hface]

theorem State.beginIssue_quiet (h : quiet s f) : quiet (s.beginIssue f) f := by
  rcases s.beginIssue_cases f with hu | hu <;> rw [hu]
  · exact h
  · rw [quiet, State.jobEntries_setFace]
    · exact h
    all_goals rfl

theorem State.raceView_quiet (h : quiet s f) (r : List (Nat × Nat)) (o : TileOrder) : s.raceView f r o = s := by
  rw [State.raceView, State.racedSpans, h]
  rfl

/-- The entry `e` as it stands in a window that was empty. -/
def Entry.alone (e : Entry) (fs : FaceSt) (h : Hdr) : Entry :=
  { e with seq := fs.seq, pc := fs.pc, started := true, sig := sigOf h, lost := [], redo := none }

theorem State.enter_quiet (hq : quiet s f) (hw : (s.face f).window = []) (h : Hdr) (e : Entry) :
    s.enter f h e = s.setFace f { s.face f with
      window := [e.alone (s.face f) h], seq := (s.face f).seq + 1, pc := (s.face f).pc + 1 } := by
  have hnone : ∀ n, ({ s with fresh := n } : State).unordered f e = [] := fun n => by
    rw [State.unordered, show ({ s with fresh := n } : State).jobEntries f = [] from hq]; rfl
  have hidle : unitIdle (s.face f) e.unit = true := by simp [unitIdle, hw]
  have hold : ∀ n, ({ s with fresh := n } : State).raceOld f e = { s with fresh := n } := fun n => by
    rw [State.raceOld, hnone]; rfl
  have hfree : s.unordered f e = [] := hnone s.fresh
  simp only [State.enter, hfree, State.take, hold, List.flatMap_nil, List.foldl_nil, Nat.add_zero, hidle, hw, List.isEmpty_nil,
    if_true, List.nil_append]
  rfl

/-- `t` differs from `s` in free values taken, in Faces and in the counts of buffers only. -/
def issueOnly (s t : State) : Prop := ∃ n fs bs, t = { s with
  fresh := n
  faces := fs
  bufs := bs }

theorem issueOnly.trans {t u : State} (h : issueOnly s t) (h' : issueOnly t u) : issueOnly s u := by
  obtain ⟨_, _, _, rfl⟩ := h
  obtain ⟨_, _, _, rfl⟩ := h'
  exact ⟨_, _, _, rfl⟩

theorem issueOnly.setFace {t : State} (h : issueOnly s t) (g : Nat) (x : FaceSt) : issueOnly s (t.setFace g x) := by
  obtain ⟨_, _, _, rfl⟩ := h
  exact ⟨_, _, _, rfl⟩

theorem State.beginIssue_issueOnly (s : State) (f : Nat) : issueOnly s (s.beginIssue f) := by
  rcases s.beginIssue_cases f with h | h <;> rw [h]
  · exact ⟨_, _, _, rfl⟩
  · exact ⟨_, _, _, rfl⟩

theorem FaceSt.foldl_setD {β : Type} (n : β → Nat) (v : FaceSt → β → BitVec 256) (l : List β) (x : FaceSt) :
    ∃ d, l.foldl (fun (x : FaceSt) p => x.setD (n p) (v x p)) x = { x with d := d } := by
  induction l generalizing x with
  | nil => exact ⟨x.d, rfl⟩
  | cons p l ih => exact (ih (x.setD (n p) (v x p))).imp fun _ h => h

theorem State.each_countBuf (l : List (Nat × Bool)) (s : State) :
    ∃ bs, (s.each l fun s p => s.countBuf p.1 p.2) = { s with bufs := bs } := by
  refine State.each_rel (R := fun t u => ∃ bs, u = { t with bufs := bs }) (fun t => ⟨t.bufs, rfl⟩) ?_ l (fun t p _ => ⟨_, rfl⟩) s
  rintro t _ _ ⟨_, rfl⟩ ⟨_, rfl⟩
  exact ⟨_, rfl⟩

/-- Using descriptors changes their TIER bits, what the command has referenced and the counts of buffers (R87, R106). -/
theorem State.useDescs_eq (s : State) (f : Nat) (l : List (Nat × Bool)) : ∃ d refs bs,
    s.useDescs f l = { s.setFace f { s.face f with
      d := d
      refs := refs } with bufs := bs } := by
  unfold State.useDescs
  extract_lets fs ents fs' cnt
  obtain ⟨d, hd⟩ := FaceSt.foldl_setD (fun p => p.1) (fun x p => BitVec.ofNat 256 (putBits (x.dReg p.1).toNat 227 226 p.2.2.2)) ents fs
  obtain ⟨bs, hbs⟩ := State.each_countBuf cnt (s.setFace f { fs' with refs := (fs'.refs ++ ents.map fun p => p.2.2.1).eraseDups })
  have hfs : fs' = { fs with d := d } := hd
  clear_value fs'
  subst hfs
  exact ⟨d, _, bs, hbs⟩

end

section
variable {s t u : State} {f : Nat}

/-- What a computation gives that writes through no descriptor. -/
def TOut.ofFx (fx : List Fx) (mac : Nat × Nat) : TOut := ⟨none, [], fx, 0, [], mac⟩

theorem splitGate_eq {j : Nat} (h : s.statusWords j = []) (x : Fx) : splitGate s j x = [x] := by
  cases x with
  | store a bs => simp [splitGate, h]
  | _ => rfl

theorem State.fxOf_ofFx (h : s.statusWords (s.face f).job = []) (dd : Nat) (fx : List Fx) (mac : Nat × Nat) :
    s.fxOf f dd (TOut.ofFx fx mac) = fx := by
  have hsplit : splitGate s (s.face f).job = fun x => [x] := funext (splitGate_eq h)
  simp [State.fxOf, TOut.ofFx, hsplit]

/-- The one instruction in flight on Face `f`: it has started with the effects `fx`, and waits for nothing. -/
structure Alone (f seq : Nat) (fx : List Fx) (x : Entry) (t : State) : Prop where
  window : (t.face f).window = [x]
  seq : x.seq = seq
  fx : x.fx = fx
  started : x.started = true
  acq : x.acq = none
  remote : x.remote = none

theorem Alone.setFace {seq : Nat} {fx : List Fx} {x : Entry} (h : Alone f seq fx x t) {y : FaceSt}
    (hy : y.window = (t.face f).window) : Alone f seq fx x (t.setFace f y) :=
  { h with window := by rw [State.face_setFace, if_pos rfl, hy, h.window] }

theorem State.enter_alone (hq : quiet s f) (hw : (s.face f).window = []) (h : Hdr) (e : Entry) (ha : e.acq = none)
    (hr : e.remote = none) : Alone f (s.face f).seq e.fx (e.alone (s.face f) h) (s.enter f h e) where
  window := by rw [State.enter_quiet hq hw, State.face_setFace, if_pos rfl]
  seq := rfl
  fx := rfl
  started := rfl
  acq := ha
  remote := hr

theorem State.enter_issueOnly (hq : quiet s f) (hw : (s.face f).window = []) (h : Hdr) (e : Entry) : issueOnly s (s.enter f h e) := by
  rw [State.enter_quiet hq hw]
  exact ⟨_, _, _, rfl⟩

theorem State.enter_accInt (hq : quiet s f) (hw : (s.face f).window = []) (h : Hdr) (e : Entry) :
    ((s.enter f h e).face f).accInt = (s.face f).accInt := by
  rw [State.enter_quiet hq hw, State.face_setFace, if_pos rfl]

/-- A deterministic instruction that writes through no descriptor enters the window with its effects, the Face still idle. -/
theorem State.enterTensor_eq {f : Fin 6} (hq : quiet s f) (hst : s.statusWords (s.face f).job = []) {e : Entering}
    (hu : e.unit ≠ .mover) (hn : e.isN = false) (h : Hdr) (reads : List (Nat × Nat)) (free : Nat) (fx : List Fx) (mac : Nat × Nat) :
    ∃ u x, s.enterTensor f h e reads free (TOut.ofFx fx mac) = u.enter f h x ∧ x.fx = fx ∧ x.acq = none ∧ x.remote = none ∧
      quiet u f ∧ issueOnly s u ∧ ∃ d refs, u.face f = { s.face f with
        d := d
        refs := refs } := by
  have hfx : (if (e.unit == .mover) = true then (s.fxOf f e.dd (TOut.ofFx fx mac)).flatMap (Fx.pieces 4096)
      else s.fxOf f e.dd (TOut.ofFx fx mac)) = fx := by
    rw [if_neg (by simpa using hu), State.fxOf_ofFx hst]
  unfold State.enterTensor
  extract_lets fs fx' folds uses tiers bufs now redo s1
  have hs1 : ∃ n, s1 = { s with fresh := n } := by
    refine ⟨s.fresh + free, ?_⟩
    simp only [s1]
    split <;> rfl
  obtain ⟨n, hs1⟩ := hs1
  have hmark : s1.ndetMark f e.isN = s1 := by rw [hn]; rfl
  obtain ⟨d, refs, bs, huse⟩ := s1.useDescs_eq f uses
  rw [hmark]
  refine ⟨_, _, rfl, hfx, rfl, rfl, ?_⟩
  rw [huse, hs1]
  exact ⟨(State.jobEntries_setFace (s := s) (x := { s.face f with
    d := d
    refs := refs }) rfl rfl rfl).trans hq, ⟨_, _, _, rfl⟩, d, refs, (State.face_setFace s f f _).trans (if_pos rfl)⟩

/-- Where nothing was in flight, it is then the one instruction in flight. -/
theorem State.enterTensor_alone {f : Fin 6} (hq : quiet s f) (hw : (s.face f).window = [])
    (hst : s.statusWords (s.face f).job = []) {e : Entering} (hu : e.unit ≠ .mover) (hn : e.isN = false) (h : Hdr)
    (reads : List (Nat × Nat)) (free : Nat) (fx : List Fx) (mac : Nat × Nat) :
    ∃ x t, s.enterTensor f h e reads free (TOut.ofFx fx mac) = t ∧ Alone f (s.face f).seq fx x t ∧ issueOnly s t ∧
      (t.face f).accInt = (s.face f).accInt := by
  obtain ⟨u, x, heq, rfl, hacq, hrem, hquiet, honly, d, refs, hface⟩ := s.enterTensor_eq hq hst hu hn h reads free fx mac
  have hwin : (u.face f).window = [] := by rw [hface]; exact hw
  have halone := State.enter_alone hquiet hwin h x hacq hrem
  rw [hface] at halone
  exact ⟨_, _, heq, halone, honly.trans (State.enter_issueOnly hquiet hwin h x),
    (State.enter_accInt hquiet hwin h x).trans (by rw [hface])⟩

/-- Such an instruction issues where its checks pass; it computes from the state in which it issues. -/
theorem issueTensor_alone {f : Fin 6} {h : Hdr} (hi : canIssue s f h = true) (hq : quiet s f) (hw : (s.face f).window = [])
    (hst : s.statusWords (s.face f).job = []) {e : Entering} (hu : e.unit ≠ .mover) (hn : e.isN = false) {chk : Chk}
    (hchk : chk = .pass) (reads : State → List (Nat × Nat)) (free : State → Nat) {compute : State → TOut} (front : State → State)
    {fx : List Fx} {mac : Nat × Nat} (hcomp : compute (s.beginIssue f) = TOut.ofFx fx mac) :
    ∃ x t, issueTensor s f h e chk reads free compute front = .next (front t) ∧ Alone f (s.face f).seq fx x t ∧ issueOnly s t ∧
      (t.face f).accInt = (s.face f).accInt := by
  have hall : chk.and ((ndetChk s f e.isN).and (if unitFree (s.face f) e.unit then .pass else .hold)) = .pass := by
    rw [Chk.and_eq_pass, Chk.and_eq_pass, hn]
    refine ⟨hchk, rfl, if_pos ?_⟩
    simp [unitFree, hw]
  have hbegin := s.beginIssue_issueOnly f
  have hstatus : (s.beginIssue f).statusWords ((s.beginIssue f).face f).job = [] := by
    rw [State.beginIssue_job, State.statusWords_congr (s.beginIssue_jobs f) (s.beginIssue_bufs f), hst]
  obtain ⟨x, t, heq, halone, honly, hacc⟩ := State.enterTensor_alone (State.beginIssue_quiet hq)
    (by rw [State.beginIssue_window, hw]) hstatus hu hn h (reads (s.beginIssue f)) (free (s.beginIssue f)) fx mac
  rw [State.beginIssue_seq] at halone
  rw [State.beginIssue_accInt] at hacc
  refine ⟨x, t, ?_, halone, hbegin.trans honly, hacc⟩
  rw [← heq, issueTensor, issue_pass hi hall]
  dsimp only
  rw [State.raceView_quiet (State.beginIssue_quiet hq), hcomp]

/-! ## Completion (R112, R431) -/

/-- Does the effect store bytes or zeros, and nothing else? -/
def Fx.plain : Fx → Bool
  | .store _ _ => true
  | .zero _ _ => true
  | _ => false

/-- Effects that only write memory: what they leave differs in memory and in the words with an error. -/
def memOnly (s t : State) : Prop := ∃ m b, t = { s with
  mem := m
  bad := b }

theorem State.applyFx_memOnly (s : State) {x : Fx} (h : x.plain = true) : memOnly s (s.applyFx x) := by
  cases x with
  | store a bs => exact ⟨_, _, rfl⟩
  | zero a n => exact ⟨_, _, rfl⟩
  | _ => cases h

theorem State.each_applyFx_memOnly (s : State) {l : List Fx} (h : ∀ x ∈ l, x.plain = true) : memOnly s (s.each l State.applyFx) := by
  refine State.each_rel (R := memOnly) (fun t => ⟨_, _, rfl⟩) ?_ l (fun t x hx => t.applyFx_memOnly (h x hx)) s
  rintro t _ _ ⟨_, _, rfl⟩ ⟨_, _, rfl⟩
  exact ⟨_, _, rfl⟩

theorem State.completeFx_plain (s : State) (f m : Nat) {x : Fx} (h : x.plain = true) : s.completeFx f m x = s.applyFx x := by
  cases x with
  | racc => cases h
  | _ => rfl

theorem State.each_congr {β : Type} {op op' : State → β → State} {l : List β} (h : ∀ t, ∀ x ∈ l, op t x = op' t x)
    (s : State) : s.each l op = s.each l op' := by
  induction l generalizing s with
  | nil => rfl
  | cons x l ih =>
    rw [State.each, List.foldl_cons, h s x List.mem_cons_self]
    exact ih (fun t y hy => h t y (List.mem_cons_of_mem _ hy)) _

theorem State.completeEntry_plain {e : Entry} (h : ∀ x ∈ e.fx, x.plain = true) (hacct : s.acctFull = false) :
    s.completeEntry f e = ((s.each e.fx State.applyFx).leaveWindow f e.seq).signal f e.sig := by
  have hrel : (e.fx.find? fun x => match x with
      | .release _ m n => decide (65535 < s.semCount m + n)
      | _ => false) = none := by
    refine List.find?_eq_none.mpr fun x hx => ?_
    have := h x hx
    cases x with
    | release => cases this
    | _ => exact Bool.false_ne_true
  have heach : (s.each e.fx fun s x => s.completeFx f e.folds x) = s.each e.fx State.applyFx :=
    State.each_congr (fun t x hx => t.completeFx_plain f e.folds (h x hx)) s
  have hfull : (s.each e.fx State.applyFx).acctFull = false := by
    obtain ⟨_, _, heq⟩ := s.each_applyFx_memOnly h
    rw [heq]
    exact hacct
  unfold State.completeEntry
  extract_lets tooMuch
  have hnone : tooMuch = none := hrel
  rw [hnone, heach]
  dsimp only
  rw [State.countBytes, hfull, if_neg Bool.false_ne_true]

theorem instructionComplete_alone {f : Fin 6} {seq : Nat} {fx : List Fx} {x : Entry} (h : Alone f seq fx x s)
    (hfx : ∀ y ∈ fx, y.plain = true) (hbad : s.bad = []) (hxfer : s.xferOf f seq = none) (hacct : s.acctFull = false) :
    exec (.instructionComplete f seq) s =
      .next ((((s.each fx State.applyFx).leaveWindow f seq).signal f x.sig).residueCheck f x) := by
  obtain ⟨hwin, rfl, rfl, hstart, hacq, hrem⟩ := h
  have hfind : ((s.face f).window.find? fun e => e.seq == x.seq) = some x := by rw [hwin, List.find?_singleton, if_pos (beq_self_eq_true _)]
  have hgate : (x.fx.any fun y => match y with
      | .gate _ _ _ _ _ => true
      | _ => false) = false := by
    refine List.any_eq_false.mpr fun y hy => ?_
    have := hfx y hy
    cases y with
    | gate => cases this
    | _ => exact Bool.false_ne_true
  have hready : x.ready = true := by
    rw [Entry.ready, hstart, hacq]
    exact congrArg not hgate
  have hopen : s.xferOpen f x.seq = false := by rw [State.xferOpen, hxfer]
  have hread : s.badRead x = none := List.findSome?_eq_none_iff.mpr fun y _ => by simp [State.firstBad, hbad]
  have hland : s.landing f x = some x.fx := by rw [State.landing, hrem]
  have hfin : s.finish f x = ((s.each x.fx State.applyFx).leaveWindow f x.seq).signal f x.sig := by
    rw [State.finish, hxfer]
    exact State.completeEntry_plain hfx hacct
  show execInstructionComplete f x.seq s = _
  simp only [execInstructionComplete, hfind, hready, hopen, hread, hland, Bool.not_true, Bool.or_self, Bool.false_eq_true, if_false]
  exact congrArg (fun t : State => Host.Outcome.next (t.residueCheck f x)) hfin

end

/-! ## What a fault's record leaves as it was (R431, R449, R457) -/

/-- Memory outside the Home fault log, and every Face, are as before. -/
def logFrame (s t : State) : Prop := sameMemBut [(homeSpace + 0xFE000, 0x100)] s t ∧ t.faces = s.faces

section
variable {s t u : State}

theorem logFrame.refl (s : State) : logFrame s s := ⟨fun _ _ => rfl, rfl⟩

theorem logFrame.trans (h : logFrame s t) (h' : logFrame t u) : logFrame s u := ⟨h.1.trans h'.1, h'.2.trans h.2⟩

theorem logFrame.wr (h : logFrame s t) (a : Nat) (v : Word) : logFrame s (t.wr a v) := h

theorem logFrame.setFld (h : logFrame s t) (a hi lo x : Nat) : logFrame s (t.setFld a hi lo x) := h

theorem logFrame.setFlag (h : logFrame s t) (a k : Nat) (b : Bool) : logFrame s (t.setFlag a k b) := h

theorem logFrame.raiseEv (h : logFrame s t) (k : Nat) : logFrame s (t.raiseEv k) := h

theorem logFrame.withSafe (h : logFrame s t) (x : SafeSt) : logFrame s { t with safe := x } := h

theorem logFrame.withPermit (h : logFrame s t) (x : PermitSt) : logFrame s { t with permit := x } := h

theorem logFrame.ite (c : Prop) [Decidable c] (h : logFrame s t) (h' : logFrame s u) : logFrame s (if c then t else u) := by
  split
  · exact h
  · exact h'

theorem logFrame.storeNat (h : logFrame s t) {k n : Nat} (v : Nat) (hlo : homeSpace + 0xFE000 ≤ k) (hhi : k + n ≤ homeSpace + 0xFE100) :
    logFrame s (t.storeNat k n v) := by
  refine h.trans ⟨fun a ha => t.sameMemBut_storeNat k n v a fun x hx => ?_, rfl⟩
  have hout := ha _ List.mem_cons_self
  obtain rfl := List.mem_singleton.mp hx
  dsimp only at hout ⊢
  omega

theorem logFrame.logFault (h : logFrame s t) (src face job flags detail : Nat) : logFrame s (t.logFault src face job flags detail) := by
  have hi : t.fld Reg.HFLT_LOGSEQ 31 0 % 16 < 16 := Nat.mod_lt _ (by decide)
  unfold State.logFault State.seqFld
  dsimp only
  refine (((logFrame.storeNat ?_ _ (by omega) (by omega)).storeNat _ (by omega) (by omega)).storeNat _ (by omega) (by omega)).setFld _ _ _ _
  exact (((h.wr _ _).wr _ _).wr _ _).wr _ _

theorem logFrame.countFault (h : logFrame s t) (f : Nat) : logFrame s (t.countFault f) := by
  unfold State.countFault
  dsimp only
  exact .ite _ (((h.withSafe _).setFld _ _ _ _).setFlag _ _ _) ((h.withSafe _).setFld _ _ _ _)

theorem logFrame.latchFault (h : logFrame s t) (src : Nat) (face : Option Nat) : logFrame s (t.latchFault src face) := by
  obtain ⟨_, heq⟩ := t.latchFault_jobsOnly src face
  rw [heq]
  exact h

theorem logFrame.permitStop (h : logFrame s t) (cause : Nat) : logFrame s (t.permitStop cause) := by
  have hoff := (h.withPermit { t.permit with
    armedAt := none
    keyAt := none }).setFlag Reg.PERMIT_STATUS 31 false
  unfold State.permitStop
  dsimp only
  exact .ite _ (.ite _ ((hoff.setFld _ _ _ _).raiseEv _) (hoff.setFld _ _ _ _)) (.ite _ (hoff.setFld _ _ _ _) h)

theorem logFrame.fault (h : logFrame s t) (src : Nat) (face job : Option Nat) (injected : Bool) (detail : Nat) :
    logFrame s (t.fault src face job injected detail) := by
  unfold State.fault
  extract_lets face' counted t1 quar flags t2
  clear_value face' counted
  have h1 : logFrame s t1 := by
    simp only [t1]
    split
    · exact .ite _ (h.countFault _) h
    · exact h
  have h2 : logFrame s t2 := (h1.logFault _ _ _ _ _).raiseEv _
  clear_value t2
  refine .ite _ h2 ?_
  split
  · exact (logFrame.ite _ (h2.setFld _ _ _ _) h2).permitStop _
  · exact (h2.latchFault _ _).setFld _ _ _ _
  · exact .ite _ ((h2.latchFault _ _).setFld _ _ _ _) (((h2.latchFault _ _).setFld _ _ _ _).withSafe _)
  · exact h2

theorem State.residueCheck_logFrame (s : State) (f : Nat) (e : Entry) : logFrame s (s.residueCheck f e) := by
  unfold State.residueCheck State.detect
  have hfault := fun b => (logFrame.refl s).fault 0x01 (some f) none b 0
  exact .ite _ (.ite _ (((hfault true).withSafe _).setFlag _ _ _) (hfault false)) (.refl s)

end

end Sys2Proof.Machine

/-! # The integer product of MM (R48, R49, R147 to R151)

The rows that MM puts into its accumulator, the word that each element then is, and the sum that this word holds. -/

namespace Sys2Proof.Machine

/-! ## Elements of an accumulator (R147, R149) -/

section
variable {s : State} {f k m n : Nat}

theorem chunksOf_getElem? {α : Type} {c : Nat} (l : List α) (fuel q : Nat) :
    (chunksOf c fuel l)[q]? = if c * q < l.length ∧ q < fuel then some ((l.drop (c * q)).take c) else none := by
  induction fuel generalizing l q with
  | zero => simp [chunksOf]
  | succ fuel ih =>
    cases l with
    | nil => simp [chunksOf]
    | cons x l =>
      cases q with
      | zero => simp [chunksOf]
      | succ q =>
        have hlen : c * q < (x :: l).length - c ↔ c * (q + 1) < (x :: l).length := by
          rw [Nat.mul_succ]; omega
        simp only [chunksOf, List.getElem?_cons_succ, ih, List.length_drop, hlen, Nat.add_lt_add_iff_right, List.drop_drop,
          Nat.mul_succ, Nat.add_comm c]

/-- Where the chunk `q` of row `m` stands. -/
theorem accKey_chunk (f k m q : Nat) : accKey f k m (128 * q) = bankKey f (4 * k + q) + m * 512 := by
  rw [accKey, Nat.mul_div_cancel_left _ (by decide), Nat.mul_mod_right, Nat.zero_mul, Nat.add_zero]

/-- The store of chunk `q` of row `m`. -/
def accChunk (f k m : Nat) (cs : List Nat) (q : Nat) : Fx :=
  .store (accKey f k m (128 * q)) (((cs.drop (128 * q)).take 128).flatMap fun c => leBytes 4 c)

/-- The store of the flags of row `m`. -/
def accFlags (f k m : Nat) (flags : List Bool) : Fx := .store (accFlagKey f k m 0) (flags.map fun b => if b then 1 else 0)

theorem mem_accStoreRow {cs : List Nat} {flags : List Bool} {x : Fx} (h : x ∈ accStoreRow f k m cs flags) :
    (∃ q, 128 * q < cs.length ∧ x = accChunk f k m cs q) ∨ x = accFlags f k m flags := by
  rcases List.mem_append.mp h with h | h
  · obtain ⟨⟨g, q⟩, hg, rfl⟩ := List.mem_map.mp h
    have hget : (chunksOf 128 cs.length cs)[q]? = some g := List.mem_zipIdx_iff_getElem?.mp hg
    rw [chunksOf_getElem?] at hget
    split at hget
    · next hq =>
      cases hget
      exact .inl ⟨q, hq.1, rfl⟩
    · cases hget
  · split at h
    · exact .inr (List.mem_singleton.mp h)
    · cases h

theorem accChunk_mem {cs : List Nat} {q : Nat} (hq : 128 * q < cs.length) (flags : List Bool) :
    accChunk f k m cs q ∈ accStoreRow f k m cs flags := by
  refine List.mem_append_left _ (List.mem_map.mpr ⟨((cs.drop (128 * q)).take 128, q), ?_, rfl⟩)
  rw [List.mem_zipIdx_iff_getElem?, chunksOf_getElem?, if_pos ⟨hq, by omega⟩]

theorem leBytes_words_length (n : Nat) (cs : List Nat) : (cs.flatMap fun c => leBytes n c).length = n * cs.length := by
  induction cs with
  | nil => rfl
  | cons c cs ih => rw [List.flatMap_cons, List.length_append, leBytes_length, ih, List.length_cons, Nat.mul_succ, Nat.add_comm]

/-- One of the words just stored. -/
theorem State.loadNat_store_words (s : State) (a w : Nat) (cs : List Nat) {i : Nat} (hi : i < cs.length) :
    (s.store a (cs.flatMap fun c => leBytes w c)).loadNat (a + w * i) w = cs[i] % 256 ^ w := by
  have hsplit : (cs.flatMap fun c => leBytes w c) = (cs.take i).flatMap (fun c => leBytes w c) ++ leBytes w cs[i] ++
      (cs.drop (i + 1)).flatMap fun c => leBytes w c := by
    conv_lhs => rw [← List.take_append_drop i cs, List.drop_eq_getElem_cons hi, List.flatMap_append, List.flatMap_cons]
    rw [List.append_assoc]
  have hpre : ((cs.take i).flatMap fun c => leBytes w c).length = w * i := by
    rw [leBytes_words_length, List.length_take, Nat.min_eq_left hi.le]
  rw [hsplit, ← hpre]
  exact s.loadNat_store_part a _ w _ _

/-- The chunk that holds element `n` of row `m` sets it. -/
theorem loadNat_accChunk_same (s : State) {cs : List Nat} (hn : n < cs.length) :
    (s.applyFx (accChunk f k m cs (n / 128))).loadNat (accKey f k m n) 4 = cs[n] % 256 ^ 4 := by
  have hlen : n % 128 < ((cs.drop (128 * (n / 128))).take 128).length := by
    rw [List.length_take, List.length_drop]; omega
  have hkey : accKey f k m n = accKey f k m (128 * (n / 128)) + 4 * (n % 128) := by
    rw [accKey_chunk, accKey]; omega
  have helem : ((cs.drop (128 * (n / 128))).take 128)[n % 128] = cs[n] := by
    simp only [List.getElem_take, List.getElem_drop, Nat.div_add_mod]
  rw [hkey, ← helem]
  exact s.loadNat_store_words _ 4 _ hlen

theorem State.loadNat_store_apart (s : State) {a key w : Nat} {bs : List Byte} (h : key + w ≤ a ∨ a + bs.length ≤ key) :
    (s.store a bs).loadNat key w = s.loadNat key w :=
  (s.store_stored a bs).2.1.loadNat fun x hx => by rw [List.mem_singleton.mp hx]; exact h

theorem accChunk_length (cs : List Nat) (q : Nat) :
    (((cs.drop (128 * q)).take 128).flatMap fun c => leBytes 4 c).length ≤ 512 := by
  rw [leBytes_words_length, List.length_take]
  omega

/-- Any other chunk of the accumulator leaves it. -/
theorem loadNat_accChunk_other (s : State) {cs : List Nat} {i q : Nat} (hi : i < 128) (hm : m < 128) (h : (i, q) ≠ (m, n / 128)) :
    (s.applyFx (accChunk f k i cs q)).loadNat (accKey f k m n) 4 = s.loadNat (accKey f k m n) 4 := by
  have hlen := accChunk_length cs q
  refine s.loadNat_store_apart ?_
  rw [accKey_chunk]
  simp only [accKey, bankKey]
  have hne : i ≠ m ∨ q ≠ n / 128 := by
    by_contra hboth
    simp only [not_or, not_not] at hboth
    exact h (Prod.ext hboth.1 hboth.2)
  rcases hne with hne | hne <;> omega

end

section
variable {s : State} {f k m n : Nat}

/-- A quantity that every change of a list either keeps or sets to `v`, and some change sets, is `v` in the end. -/
theorem State.each_settles {β α : Type} {op : State → β → State} {g : State → α} {v : α} {l : List β}
    (h : ∀ x ∈ l, (∀ t, g (op t x) = g t) ∨ ∀ t, g (op t x) = v) (hs : g s = v ∨ ∃ x ∈ l, ∀ t, g (op t x) = v) :
    g (s.each l op) = v := by
  induction l generalizing s with
  | nil => exact hs.resolve_right (by simp)
  | cons x l ih =>
    refine ih (s := op s x) (fun y hy => h y (List.mem_cons_of_mem _ hy)) ?_
    rcases hs with hs | ⟨y, hy, hset⟩
    · exact (h x List.mem_cons_self).imp_right (fun hset => hset s) |>.elim (fun hkeep => .inl ((hkeep s).trans hs)) .inl
    · rcases List.mem_cons.mp hy with rfl | hy
      · exact .inl (hset s)
      · exact .inr ⟨y, hy, hset⟩

/-- Rows of codes and flags that fit an accumulator. -/
def accFits (rows : List (List Nat × List Bool)) : Prop :=
  rows.length ≤ 128 ∧ ∀ r ∈ rows, r.1.length ≤ 512 ∧ r.2.length ≤ 512

/-- The stores that put rows into ACCk. -/
def accRows (f k : Nat) (rows : List (List Nat × List Bool)) : List Fx :=
  rows.zipIdx.flatMap fun p => accStoreRow f k p.2 p.1.1 p.1.2

theorem accFx_eq (f : Nat) (o : FmtT) (rows : List (List Nat × List Bool)) : accFx f o rows =
    (if bitOf o.fn.toNat 0 then [] else accClear f o.dc.toNat) ++ accRows f o.dc.toNat rows := rfl

theorem mem_accRows {rows : List (List Nat × List Bool)} {x : Fx} (h : x ∈ accRows f k rows) :
    ∃ i r, rows[i]? = some r ∧ ((∃ q, 128 * q < r.1.length ∧ x = accChunk f k i r.1 q) ∨ x = accFlags f k i r.2) := by
  obtain ⟨⟨r, i⟩, hr, hx⟩ := List.mem_flatMap.mp h
  exact ⟨i, r, List.mem_zipIdx_iff_getElem?.mp hr, mem_accStoreRow hx⟩

theorem accFits.row {rows : List (List Nat × List Bool)} (h : accFits rows) {i : Nat} {r : List Nat × List Bool}
    (hr : rows[i]? = some r) : i < 128 ∧ r.1.length ≤ 512 ∧ r.2.length ≤ 512 := by
  obtain ⟨hi, rfl⟩ := List.getElem?_eq_some_iff.mp hr
  exact ⟨hi.trans_le h.1, h.2 _ (List.getElem_mem hi)⟩

/-- The element that the rows put at (m, n). -/
theorem State.loadNat_accRows (s : State) {rows : List (List Nat × List Bool)} (hfit : accFits rows) {r : List Nat × List Bool}
    (hr : rows[m]? = some r) (hn : n < r.1.length) (hk : k < 4) :
    (s.each (accRows f k rows) State.applyFx).loadNat (accKey f k m n) 4 = r.1[n] % 256 ^ 4 := by
  have hfitm := hfit.row hr
  refine State.each_settles (g := fun t => t.loadNat (accKey f k m n) 4) (fun x hx => ?_)
    (.inr ⟨accChunk f k m r.1 (n / 128), ?_, fun t => loadNat_accChunk_same t hn⟩)
  · obtain ⟨i, y, hy, ⟨q, hq, rfl⟩ | rfl⟩ := mem_accRows hx
    · by_cases hsame : (i, q) = (m, n / 128)
      · cases hsame
        obtain rfl : r = y := Option.some.inj (hr.symm.trans hy)
        exact .inr fun t => loadNat_accChunk_same t hn
      · exact .inl fun t => loadNat_accChunk_other t (hfit.row hy).1 hfitm.1 hsame
    · refine .inl fun t => t.loadNat_store_apart (.inl ?_)
      simp only [accKey, bankKey, accFlagKey]
      omega
  · exact List.mem_flatMap.mpr ⟨(r, m), List.mem_zipIdx_iff_getElem?.mpr hr,
      accChunk_mem (show 128 * (n / 128) < r.1.length by omega) _⟩

/-- What puts an accumulator's contents in place writes nowhere else. -/
theorem State.applyFx_accSpans (s : State) {rows : List (List Nat × List Bool)} (hfit : accFits rows) {x : Fx}
    (hx : x ∈ accClear f k ∨ x ∈ accRows f k rows) : sameMemBut (accSpans f k) s (s.applyFx x) ∧ x.plain = true := by
  have hstore : ∀ a (bs : List Byte), (∃ y ∈ accSpans f k, y.1 ≤ a ∧ a + bs.length ≤ y.1 + y.2) →
      sameMemBut (accSpans f k) s (s.applyFx (.store a bs)) := fun a bs ⟨y, hy, hlo, hhi⟩ b hb =>
    (s.store_stored a bs).2.1 b fun z hz => by
      have := hb y hy
      rw [List.mem_singleton.mp hz]
      dsimp only
      omega
  rcases hx with hx | hx
  · have hzero : ∃ y ∈ accSpans f k, x = .zero y.1 y.2 := by
      simp only [accClear, List.mem_cons, List.not_mem_nil, or_false] at hx
      rcases hx with rfl | rfl
      · exact ⟨_, List.mem_cons_self, rfl⟩
      · exact ⟨_, List.mem_cons_of_mem _ List.mem_cons_self, rfl⟩
    obtain ⟨y, hy, rfl⟩ := hzero
    exact ⟨fun b hb => (State.loadByte_zero s _ _ _).trans (if_neg (hb y hy)), rfl⟩
  · obtain ⟨i, r, hr, ⟨q, hq, rfl⟩ | rfl⟩ := mem_accRows hx
    · obtain ⟨hi, hcs, -⟩ := hfit.row hr
      have hlen := accChunk_length r.1 q
      refine ⟨hstore _ _ ⟨_, List.mem_cons_self, ?_⟩, rfl⟩
      rw [accKey_chunk]
      simp only [bankKey]
      omega
    · obtain ⟨hi, -, hfl⟩ := hfit.row hr
      refine ⟨hstore _ _ ⟨_, List.mem_cons_of_mem _ List.mem_cons_self, ?_⟩, rfl⟩
      rw [List.length_map]
      simp only [accFlagKey]
      omega

/-! ## Exact integer sums (R49, R151) -/

/-- While no partial sum leaves the INT32 range, the reduction is the exact sum. -/
theorem macInt_exact {l : List Int} {a b : List Int} (hl : List.zipWith (fun x y => x * y) a b = l) (acc : Int)
    (h : ∀ j ≤ l.length, -(2 ^ 31) ≤ acc + (l.take j).sum ∧ acc + (l.take j).sum < 2 ^ 31) :
    macInt (acc, false) a b = (acc + l.sum, false) := by
  rw [macInt, hl]
  clear hl
  induction l generalizing acc with
  | nil => simp
  | cons p l ih =>
    have hp := h 1 (by simp)
    simp only [List.take_succ_cons, List.take_zero, List.sum_cons, List.sum_nil, Int.add_zero] at hp
    rw [List.foldl_cons, List.sum_cons, ← Int.add_assoc]
    simp only [Bool.false_eq_true, if_false]
    rw [if_neg (by omega), if_neg (by omega)]
    refine ih _ fun j hj => ?_
    have hj' := h (j + 1) (by simpa using hj)
    rwa [List.take_succ_cons, List.sum_cons, ← Int.add_assoc] at hj'

theorem signed_wrap {x : Int} (hlo : -(2 ^ 31) ≤ x) (hhi : x < 2 ^ 31) : signed 32 (wrap 32 x % 256 ^ 4) = x := by
  unfold signed wrap
  dsimp only
  split <;> omega

/-! ## What MM leaves in its accumulator (R150, R151) -/

/-- The integer reduction of row `m` of A and row `n` of B, and whether it left the range. -/
def mmInt (s : State) (f : Nat) (o : FmtT) (m n : Nat) : Int × Bool :=
  let a := s.tref f o.da.toNat
  let b := s.tref f o.db.toNat
  let x := if bitOf o.fn.toNat 0 then s.accElem f o.dc.toNat m n else (0, false)
  macInt (signed 32 x.1, x.2) ((a.row s m).map (intOf a.d.fmt)) ((b.row s n).map (intOf b.d.fmt))

theorem zipIdx_map_range {α : Type} (g : Nat → α) (n : Nat) :
    ((List.range n).map g).zipIdx = (List.range n).map fun i => (g i, i) := by
  apply List.ext_getElem <;> simp

/-- Row `m` that an integer MM leaves: codes and flags. -/
def mmIntRow (s : State) (f : Nat) (o : FmtT) (m : Nat) : List Nat × List Bool :=
  ((List.range (s.tref f o.db.toNat).d.rows).map fun n => wrap 32 (mmInt s f o m n).1,
    (List.range (s.tref f o.db.toNat).d.rows).map fun n => (mmInt s f o m n).2)

/-- The effects of an MM that issues in `s`. -/
def mmFx (s : State) (f : Nat) (o : FmtT) : List Fx := accFx f o (mmRows s f o)

section
variable {o : FmtT} (h : macIsInt (s.tref f o.da.toNat).d.fmt (s.tref f o.db.toNat).d.fmt (s.scale f o.sa.toNat)
    (s.scale f o.sb.toNat) = true)
include h

theorem mmRows_int : mmRows s f o = (List.range (s.tref f o.da.toNat).d.rows).map (mmIntRow s f o) := by
  unfold mmRows
  dsimp only
  rw [if_pos h]
  simp only [TRef.rowsOf, zipIdx_map_range, List.map_map, Function.comp_def]
  rfl

theorem mmRows_fits (ha : (s.tref f o.da.toNat).d.rows ≤ 128) (hb : (s.tref f o.db.toNat).d.rows ≤ 512) : accFits (mmRows s f o) := by
  rw [mmRows_int h]
  refine ⟨by simpa using ha, fun r hr => ?_⟩
  obtain ⟨m, _, rfl⟩ := List.mem_map.mp hr
  simpa [mmIntRow] using hb

/-- The word that the effects of an integer MM leave at (m, n). -/
theorem loadNat_mmRows (t : State) (hfit : accFits (mmRows s f o)) (hm : m < (s.tref f o.da.toNat).d.rows)
    (hn : n < (s.tref f o.db.toNat).d.rows) (hk : o.dc.toNat < 4) :
    (t.each (mmFx s f o) State.applyFx).loadNat (accKey f o.dc.toNat m n) 4 = wrap 32 (mmInt s f o m n).1 % 256 ^ 4 := by
  have hrow : (mmRows s f o)[m]? = some (mmIntRow s f o m) := by simp [mmRows_int h, hm]
  have hlen : n < (mmIntRow s f o m).1.length := by simpa [mmIntRow] using hn
  rw [mmFx, accFx_eq, State.each, List.foldl_append]
  exact (State.loadNat_accRows _ hfit hrow hlen hk).trans (by simp [mmIntRow])

end

/-- An element of an accumulator that holds no recurrence state. -/
theorem State.accElem_defined (h : bitOf (s.face f).accMixed k = false) (hm : m < 128) (hn : n < 512) :
    s.accElem f k m n = (s.loadNat (accKey f k m n) 4, s.loadByte (accFlagKey f k m n) != 0) := by
  have hk : (accKey f k m n - bankKey f 0) / 0x40000 = k := by
    simp only [accKey, bankKey]
    omega
  have hopen : s.bankOpen f (accKey f k m n) = false := by
    simp [State.bankOpen, hk, h]
  simp [State.accElem, State.bankNat, hopen]

end

section
variable {s : State} {f m n : Nat} {o : FmtT}

/-- What the checks of MM say of its operands. -/
structure MmOperands (s : State) (f : Nat) (o : FmtT) : Prop where
  fn : o.fn.toNat < 2
  acc : o.dc.toNat < 4
  rowsA : (s.tref f o.da.toNat).d.rows = (s.tref f o.da.toNat).d.e1 ∧ (s.tref f o.da.toNat).d.e1 ≤ 128
  rowsB : (s.tref f o.db.toNat).d.rows = (s.tref f o.db.toNat).d.e1 ∧ (s.tref f o.db.toNat).d.e1 ≤ 512
  type : o.fn = 0 ∨ (s.face f).accIsInt o.dc.toNat =
    macIsInt (s.desc f o.da.toNat).fmt (s.desc f o.db.toNat).fmt (s.scale f o.sa.toNat) (s.scale f o.sb.toNat)

theorem State.tref_d (s : State) (f n : Nat) : (s.tref f n).d = s.desc f n := by
  unfold State.tref State.trefAt
  dsimp only
  split
  · rfl
  · split <;> rfl

theorem mmChk_pass (h : mmChk s f o = .pass) : MmOperands s f o := by
  rw [mmChk, Chk.all_eq_pass] at h
  simp only [List.forall_mem_cons, Chk.need_eq_pass, accSelOk, Bool.and_eq_true, Bool.or_eq_true, decide_eq_true_eq, beq_iff_eq] at h
  obtain ⟨⟨_, hfn⟩, ⟨hacc, _⟩, ha, hb, _, _, _, _, htype, _⟩ := h
  obtain ⟨hsa, hla⟩ := checkDesc_pass ha
  obtain ⟨hsb, hlb⟩ := checkDesc_pass hb
  simp only [Bool.and_eq_true, decide_eq_true_eq, beq_iff_eq] at hla hlb
  obtain ⟨⟨_, hra⟩, hea⟩ := hla
  obtain ⟨⟨_, hrb⟩, heb⟩ := hlb
  refine ⟨hfn, hacc, ?_, ?_, htype⟩
  · rw [s.tref_d]
    exact ⟨Desc.rows_of_rank_two hsa hra, hea⟩
  · rw [s.tref_d]
    exact ⟨Desc.rows_of_rank_two hsb hrb, heb⟩

theorem MmOperands.addBit (h : MmOperands s f o) : bitOf o.fn.toNat 0 = false ↔ o.fn = 0 := by
  have hfn := h.fn
  rw [← BitVec.toNat_inj, bitOf]
  simp only [Nat.pow_zero, Nat.div_one, beq_eq_false_iff_ne, show (0 : BitVec 8).toNat = 0 from rfl]
  omega

/-- The old value of element (m, n) for MM: 0 where it starts afresh. -/
def mmOld (s : State) (f : Nat) (o : FmtT) (m n : Nat) : Int :=
  if o.fn = 0 then 0 else signed 32 (s.loadNat (accKey f o.dc.toNat m n) 4)

/-- The products of row `m` of A and row `n` of B. -/
def mmTerms (s : State) (f : Nat) (o : FmtT) (m n : Nat) : List Int :=
  List.zipWith (fun x y => intOf (s.tref f o.da.toNat).d.fmt x * intOf (s.tref f o.db.toNat).d.fmt y)
    ((s.tref f o.da.toNat).row s m) ((s.tref f o.db.toNat).row s n)

/-- Where no partial sum leaves the range, the reduction in the state in which MM issues is the exact sum. -/
theorem mmInt_exact (h : MmOperands s f o) (hmixed : bitOf (s.face f).accMixed o.dc.toNat = false) (hm : m < 128) (hn : n < 512)
    (hflag : o.fn = 0 ∨ s.loadByte (accFlagKey f o.dc.toNat m n) = 0)
    (hr : ∀ j ≤ (mmTerms s f o m n).length, -(2 ^ 31) ≤ mmOld s f o m n + ((mmTerms s f o m n).take j).sum ∧
      mmOld s f o m n + ((mmTerms s f o m n).take j).sum < 2 ^ 31) :
    (mmInt (s.beginIssue f) f o m n).1 = mmOld s f o m n + (mmTerms s f o m n).sum := by
  have helem : (s.beginIssue f).accElem f o.dc.toNat m n =
      (s.loadNat (accKey f o.dc.toNat m n) 4, s.loadByte (accFlagKey f o.dc.toNat m n) != 0) := by
    rw [State.accElem_defined (by rw [State.beginIssue_accMixed]; exact hmixed) hm hn, State.beginIssue_loadByte, State.loadNat,
      State.loadNat, State.load, State.load]
    simp only [State.beginIssue_loadByte]
  have hold : (signed 32 (if bitOf o.fn.toNat 0 then (s.beginIssue f).accElem f o.dc.toNat m n else (0, false)).1,
      (if bitOf o.fn.toNat 0 then (s.beginIssue f).accElem f o.dc.toNat m n else (0, false)).2) = (mmOld s f o m n, false) := by
    by_cases hfn : o.fn = 0
    · rw [h.addBit.mpr hfn, mmOld, if_pos hfn]
      rfl
    · have hadd : bitOf o.fn.toNat 0 = true := by
        rw [← Bool.not_eq_false, h.addBit]
        exact hfn
      rw [hadd, if_pos rfl, helem, mmOld, if_neg hfn, hflag.resolve_left hfn]
      rfl
  have hterms : List.zipWith (fun x y => x * y) (((s.tref f o.da.toNat).row s m).map (intOf (s.tref f o.da.toNat).d.fmt))
      (((s.tref f o.db.toNat).row s n).map (intOf (s.tref f o.db.toNat).d.fmt)) = mmTerms s f o m n := by
    rw [List.zipWith_map, mmTerms]
  unfold mmInt
  dsimp only
  rw [hold, State.beginIssue_tref, State.beginIssue_tref, TRef.row_congr (s.beginIssue_mem f), TRef.row_congr (s.beginIssue_mem f),
    macInt_exact hterms _ hr]

/-- The type of an accumulator that an instruction starts afresh (R149). -/
theorem State.setAccType_accIsInt (s : State) (f k : Nat) (int : Bool) : ((s.setAccType f k int).face f).accIsInt k = int := by
  rw [State.setAccType, State.face_setFace, if_pos rfl, FaceSt.accIsInt, bitOf_eq_testBit]
  dsimp only
  rw [testBit_putBits _ _ _ _ _ le_rfl, if_pos ⟨le_rfl, le_rfl⟩, Nat.sub_self]
  cases int <;> rfl

end

section
variable {s t : State} {f : Fin 6} {o : FmtT}

/-- The one instruction in flight completes: its effects are made, and nothing else changes memory but the fault log. -/
theorem instructionComplete_effects {seq : Nat} {fx : List Fx} {x : Entry} (h : Alone f seq fx x t)
    (hfx : ∀ y ∈ fx, y.plain = true) (hbad : t.bad = []) (hxfer : t.xferOf f seq = none) (hacct : t.acctFull = false) :
    completes (.instructionComplete f seq) t fun v =>
      sameMemBut [(homeSpace + 0xFE000, 0x100)] (t.each fx State.applyFx) v ∧ (v.face f).accInt = (t.face f).accInt := by
  refine ⟨_, instructionComplete_alone h hfx hbad hxfer hacct, ?_, ?_⟩
  · have hmem : (((t.each fx State.applyFx).leaveWindow f seq).signal f x.sig).mem = (t.each fx State.applyFx).mem :=
      State.signal_mem _ _ _
    exact (sameMemBut_of_mem hmem).trans (State.residueCheck_logFrame _ f x).1
  · obtain ⟨e, hsig⟩ := ((t.each fx State.applyFx).leaveWindow f seq).signal_face f x.sig
    have hface : (t.each fx State.applyFx).face f = t.face f := by
      obtain ⟨_, _, heq⟩ := t.each_applyFx_memOnly hfx
      rw [heq]
      rfl
    rw [State.face, (State.residueCheck_logFrame _ f x).2, ← State.face, hsig, State.leaveWindow, State.face_setFace, if_pos rfl, hface]

theorem mem_accFx {rows : List (List Nat × List Bool)} {x : Fx} (h : x ∈ accFx f o rows) :
    x ∈ accClear f o.dc.toNat ∨ x ∈ accRows f o.dc.toNat rows := by
  rw [accFx_eq, List.mem_append] at h
  refine h.imp_left fun h => ?_
  split at h
  · cases h
  · exact h

/-- MM of integer formats issues on an idle Face: its reductions are in flight, and its accumulator is INT32. -/
theorem mm_issues {h : Hdr} (hi : canIssue s f h = true) (hq : quiet s f) (hw : (s.face f).window = [])
    (hst : s.statusWords (s.face f).job = []) (hchk : mmChk s f o = .pass)
    (hint : macIsInt (s.tref f o.da.toNat).d.fmt (s.tref f o.db.toNat).d.fmt (s.scale f o.sa.toNat) (s.scale f o.sb.toNat) = true) :
    ∃ x t, exec (.mm f h o) s = .next t ∧ Alone f (s.face f).seq (mmFx (s.beginIssue f) f o) x t ∧ issueOnly s t ∧
      (t.face f).accIsInt o.dc.toNat = true := by
  rw [State.tref_d, State.tref_d] at hint
  obtain ⟨x, t, hexec, halone, honly, hacc⟩ := issueTensor_alone hi hq hw hst
    (e := { ins := .mm f h o, unit := .tile, dd := 0, isN := false, order := .loose, scratch := []
            uses := [(o.da.toNat, false), (o.db.toNat, false)] ++ s.srcScales f [o.sa.toNat, o.sb.toNat] })
    FUnit.noConfusion rfl hchk
    (fun u => (u.tref f o.da.toNat).spans u ++ (u.tref f o.db.toNat).spans u ++ u.scaleSpans f (s.scale f o.sa.toNat) ++
      u.scaleSpans f (s.scale f o.sb.toNat) ++ accReads f o)
    (fun u => u.bankFree f) (compute := fun v => mmOut v f o)
    (fun t => if o.fn = 0 then t.setAccType f o.dc.toNat (macIsInt (s.desc f o.da.toNat).fmt (s.desc f o.db.toNat).fmt
      (s.scale f o.sa.toNat) (s.scale f o.sb.toNat)) else t) rfl
  refine ⟨x, _, hexec, ?_⟩
  split
  · refine ⟨halone.setFace rfl, honly.setFace _ _, ?_⟩
    rw [State.setAccType_accIsInt, hint]
  · next hfn =>
    refine ⟨halone, honly, ?_⟩
    rw [FaceSt.accIsInt, hacc, ← FaceSt.accIsInt, (mmChk_pass hchk).type.resolve_left hfn, hint]

end

/-- Settles O60: MM computes its rows as it issues, and its completion puts each word in its place in the accumulator; there it is the
exact sum, by induction on the products. -/
theorem integerMatrixProduct : Obligations.IntegerMatrixProduct := by
  intro f h o s hi hq hw hacct hst hxfer hbad a b hchk hint hmixed
  obtain ⟨x, t, hexec, halone, honly, hacc⟩ := mm_issues hi hq hw hst hchk hint
  have hops := mmChk_pass hchk
  obtain ⟨htype, ha, hb⟩ : macIsInt ((s.beginIssue f).tref f o.da.toNat).d.fmt ((s.beginIssue f).tref f o.db.toNat).d.fmt
        ((s.beginIssue f).scale f o.sa.toNat) ((s.beginIssue f).scale f o.sb.toNat) = true ∧
      ((s.beginIssue f).tref f o.da.toNat).d.rows = a.d.e1 ∧ ((s.beginIssue f).tref f o.db.toNat).d.rows = b.d.e1 := by
    simp only [State.beginIssue_tref, State.beginIssue_scale]
    exact ⟨hint, hops.rowsA.1, hops.rowsB.1⟩
  have hfits := mmRows_fits htype (ha.trans_le hops.rowsA.2) (hb.trans_le hops.rowsB.2)
  have hfx : ∀ u : State, ∀ y ∈ mmFx (s.beginIssue f) f o,
      sameMemBut (accSpans f o.dc.toNat) u (u.applyFx y) ∧ y.plain = true := fun u y hy => u.applyFx_accSpans hfits (mem_accFx hy)
  have hkept : t.bad = [] ∧ t.xferOf f (s.face f).seq = none ∧ t.acctFull = false ∧ t.mem = s.mem := by
    obtain ⟨_, _, _, rfl⟩ := honly
    exact ⟨hbad, hxfer, hacct, rfl⟩
  obtain ⟨hbad', hxfer', hacct', hmem⟩ := hkept
  obtain ⟨v, hdone, hlog, haccInt⟩ := instructionComplete_effects halone (fun y hy => (hfx t y hy).2) hbad' hxfer' hacct'
  refine ⟨t, hexec, v, hdone, ?element, ?frame, ?type⟩
  case element =>
    intro m hm n hn key old terms hflag hrange
    have hm' : m < 128 := hm.trans_le hops.rowsA.2
    have hn' : n < 512 := hn.trans_le hops.rowsB.2
    have hkey : v.loadNat key 4 = (t.each (mmFx (s.beginIssue f) f o) State.applyFx).loadNat key 4 := by
      refine hlog.loadNat fun y hy => ?_
      rw [List.mem_singleton.mp hy]
      simp only [key, accKey, bankKey, homeSpace]
      omega
    have hsum := mmInt_exact hops hmixed hm' hn' hflag hrange
    have hend := hrange _ le_rfl
    rw [List.take_length] at hend
    rw [hkey, loadNat_mmRows htype t hfits (hm.trans_eq ha.symm) (hn.trans_eq hb.symm) hops.acc, hsum]
    exact signed_wrap hend.1 hend.2
  case frame =>
    have heach : sameMemBut (accSpans f o.dc.toNat) t (t.each (mmFx (s.beginIssue f) f o) State.applyFx) :=
      State.each_rel (R := sameMemBut (accSpans f o.dc.toNat)) (fun _ _ _ => rfl) sameMemBut.trans _ (fun u y hy => (hfx u y hy).1) t
    exact (((sameMemBut_of_mem hmem).trans heach).mono fun y hy => List.mem_cons_of_mem _ hy).trans
      (hlog.mono fun y hy => List.mem_singleton.mp hy ▸ List.mem_cons_self)
  case type => rw [FaceSt.accIsInt, haccInt]; exact hacc

end Sys2Proof.Machine

/-! # Every step keeps the state sound (R68, R121, R248, R259)

One lemma `State.sound.f` for each function `f` of the model that changes the state: what `f` leaves of a sound
state is sound. A function's lemma is put together from those of the functions it calls, in the order of the model,
so that no proof looks into a function twice. -/

namespace Sys2Proof.Machine

set_option Elab.async false

/-- Whatever state an outcome leaves is sound; a stop leaves none. -/
def Out.sound (o : Out) : Prop := ∀ t, o = .next t → t.sound

theorem State.sound.next {s : State} (h : s.sound) : Out.sound (.next s) := fun t e => by
  cases e
  exact h

theorem Out.sound_fault (r : Fault) : Out.sound (.fault r) := fun _ e => nomatch e

section
variable {s : State} {pending : List Instr} {raw fresh : Nat} {out : Resp} {bad raised : List Nat} {regs : Map Word}
  {jobs : Map (Option JobSt)} {vfs : Map VfSt} {routed : Map Ctr} {inFlight : List RoutedInc} {net pertDelay : Map Nat}
  {bufs : Map BufEnt} {place : PlaceSt} {kept : KeptSt} {pip : PipSt} {kv : Map KvSet} {efl : EflSt} {safe : SafeSt} {permit : PermitSt} {time : TimeSt} {ce : CeSt} {hold : HoldSt}
  {solv : SolvSt} {field : FieldSt} {edge : EdgeSt} {flash : FlashSt} {sec : SecSt} {pwr : PwrSt} {cpLast : Option PortLast}

/-- An update that leaves memory, waiters, Faces and the scheduler alone. -/
theorem State.sound.frame (h : s.sound) :
    State.sound ⟨ pending, raw, fresh, out, s.mem, bad, regs, s.faces, jobs, vfs, routed, inFlight, net, s.waiters,
      bufs, place, s.sched, kept, raised, pip, kv, efl, safe, permit, pertDelay, time, ce, hold, solv, field, edge,
      flash, sec, pwr, cpLast ⟩ := h

/-- An update that leaves memory, waiters, Faces and the staged slot table alone. -/
theorem State.sound.frameSched {sched : SchedSt} (h : s.sound) (hs : sched.staged = s.sched.staged := by rfl) :
    State.sound ⟨ pending, raw, fresh, out, s.mem, bad, regs, s.faces, jobs, vfs, routed, inFlight, net, s.waiters,
      bufs, place, sched, kept, raised, pip, kv, efl, safe, permit, pertDelay, time, ce, hold, solv, field, edge, flash,
      sec, pwr, cpLast ⟩ := by
  obtain ⟨hmem, hwait, hface, hstaged⟩ := h
  exact ⟨hmem, hwait, hface, hs ▸ hstaged⟩

/-- A new staged slot table. -/
theorem State.sound.restage {sched : SchedSt} (h : s.sound) (hs : sched.staged.length ≤ 64) :
    State.sound ⟨ pending, raw, fresh, out, s.mem, bad, regs, s.faces, jobs, vfs, routed, inFlight, net, s.waiters,
      bufs, place, sched, kept, raised, pip, kv, efl, safe, permit, pertDelay, time, ce, hold, solv, field, edge, flash,
      sec, pwr, cpLast ⟩ := by
  obtain ⟨hmem, hwait, hface, -⟩ := h
  exact ⟨hmem, hwait, hface, hs⟩

/-- An update of the memory that keeps it canonical. -/
theorem State.sound.withMem {mem : List Host.Cell} (h : s.sound) (hm : Map.wf (0 : Byte) mem = true) :
    State.sound ⟨ pending, raw, fresh, out, mem, bad, regs, s.faces, jobs, vfs, routed, inFlight, net, s.waiters,
      bufs, place, s.sched, kept, raised, pip, kv, efl, safe, permit, pertDelay, time, ce, hold, solv, field, edge, flash,
      sec, pwr, cpLast ⟩ := by
  obtain ⟨-, hwait, hface, hstaged⟩ := h
  exact ⟨hm, hwait, hface, hstaged⟩

end

/-- Both branches of a conditional. -/
theorem State.sound.ite {c : Prop} {inst : Decidable c} {a b : State} (ha : a.sound) (hb : b.sound) :
    (if c then a else b).sound := by split <;> assumption

theorem Out.sound.ite {c : Prop} {inst : Decidable c} {a b : Out} (ha : Out.sound a) (hb : Out.sound b) :
    Out.sound (if c then a else b) := by split <;> assumption

theorem State.sound.ite_fst {α : Type} {c : Prop} {inst : Decidable c} {p q : State × α} (hp : p.1.sound) (hq : q.1.sound) :
    (if c then p else q).1.sound := by split <;> assumption

/-- A change made under a condition only. -/
theorem State.sound.when {c : Prop} {inst : Decidable c} {s t : State} (h : s.sound) (ht : s.sound → t.sound) :
    (if c then t else s).sound := .ite (ht h) h

/-- A change made unless a condition holds. -/
theorem State.sound.unlessIf {c : Prop} {inst : Decidable c} {s t : State} (h : s.sound) (ht : s.sound → t.sound) :
    (if c then s else t).sound := .ite h (ht h)

/-- A change made for each element of a list, where each single change keeps soundness. -/
theorem State.sound.each_mem {β : Type} {s : State} {l : List β} {f : State → β → State} (h : s.sound)
    (hf : ∀ t, ∀ x ∈ l, t.sound → (f t x).sound) : (s.each l f).sound := by
  unfold State.each
  induction l generalizing s with
  | nil => exact h
  | cons x l ih => exact ih (hf s x List.mem_cons_self h) fun t y hy => hf t y (List.mem_cons_of_mem _ hy)

theorem State.sound.each {β : Type} {s : State} {l : List β} {f : State → β → State} (h : s.sound)
    (hf : ∀ t x, t.sound → (f t x).sound) : (s.each l f).sound := h.each_mem fun t x _ => hf t x

theorem State.sound.foldl {β : Type} {s : State} {l : List β} {f : State → β → State} (h : s.sound)
    (hf : ∀ t x, t.sound → (f t x).sound) : (l.foldl f s).sound := h.each hf

/-- The state that a command may leave, where it leaves one, is sound. -/
def someSound (o : Option State) : Prop := ∀ t, o = some t → t.sound

theorem someSound.none : someSound .none := fun _ e => nomatch e

theorem State.sound.some {s : State} (h : s.sound) : someSound (.some s) := fun t e => by
  cases e
  exact h

theorem someSound.ite {c : Prop} {inst : Decidable c} {a b : Option State} (ha : someSound a) (hb : someSound b) :
    someSound (if c then a else b) := by split <;> assumption

/-! ## Memory -/

theorem State.sound.store {s : State} {k : Nat} {bs : List Byte} (h : s.sound) : (s.store k bs).sound :=
  h.withMem (State.store_memWf _ _ h.1)

theorem State.sound.zero {s : State} {k n : Nat} (h : s.sound) : (s.zero k n).sound := h.withMem (State.zero_memWf _ _ h.1)

theorem State.sound.copy {s : State} {a b n : Nat} (h : s.sound) : (s.copy a b n).sound :=
  h.withMem (State.copy_memWf a b n h.1)

/-! ## Faces and waiters -/

theorem State.sound.setFace {s : State} {n : Nat} {x : FaceSt} (h : s.sound) (hx : x.job < 16) : (s.setFace n x).sound := by
  obtain ⟨hmem, hwait, hface, hstaged⟩ := h
  refine ⟨hmem, hwait, fun f => ?_, hstaged⟩
  rw [State.face_setFace]
  split
  · exact hx
  · exact hface f

theorem State.sound.job_lt {s : State} (h : s.sound) (n : Nat) : (s.face n).job < 16 := h.2.2.1 n

theorem State.sound.waiter_lt {s : State} (h : s.sound) {e : Nat × List SemReq} (he : e ∈ s.waiters) : e.1 < 256 := h.2.1 e he

/-- A Face that keeps its job. -/
theorem State.sound.modFace {s : State} {n m : Nat} {x : FaceSt} (h : s.sound) (hx : x.job = (s.face m).job := by rfl) :
    (s.setFace n x).sound := h.setFace (hx ▸ h.2.2.1 m)

/-- A Face at rest. -/
theorem State.sound.restFace {s : State} {n : Nat} {x : FaceSt} (h : s.sound) (hx : x.job = 0 := by rfl) : (s.setFace n x).sound :=
  h.setFace (hx ▸ Nat.zero_lt_succ _)

theorem Map.mem_of_mem_insert {α : Type} {m : Map α} {k : Nat} {v : α} {e : Nat × α} (h : e ∈ Map.insert m k v) :
    e = (k, v) ∨ e ∈ m := by
  induction m with
  | nil => simpa [Map.insert] using h
  | cons x m ih =>
    simp only [Map.insert] at h
    split at h
    · simpa using h
    · split at h
      · exact (List.mem_cons.mp h).imp_right (List.mem_cons_of_mem _)
      · rcases List.mem_cons.mp h with rfl | h
        · exact .inr List.mem_cons_self
        · exact (ih h).imp_right (List.mem_cons_of_mem _)

theorem Map.mem_of_mem_put {α : Type} [DecidableEq α] {d : α} {m : Map α} {k : Nat} {v : α} {e : Nat × α}
    (h : e ∈ Map.put d m k v) : e = (k, v) ∨ e ∈ m := by
  unfold Map.put at h
  split at h
  · exact .inr (List.mem_filter.mp h).1
  · exact Map.mem_of_mem_insert h

theorem State.sound.setWaiters {s : State} {m : Nat} {l : List SemReq} (h : s.sound) (hm : m < 256) : (s.setWaiters m l).sound := by
  obtain ⟨hmem, hwait, hface, hstaged⟩ := h
  refine ⟨hmem, fun e he => ?_, hface, hstaged⟩
  rcases Map.mem_of_mem_put he with rfl | he
  · exact hm
  · exact hwait e he

/-! ## State operations: registers, memory, events -/

theorem State.sound.wr {s : State} {a : Nat} {v : Word} (hs : s.sound) : (s.wr a v).sound := hs.frame

theorem State.sound.setFld {s : State} {a hi lo x : Nat} (hs : s.sound) : (s.setFld a hi lo x).sound := hs.wr

theorem State.sound.setFlag {s : State} {a k : Nat} {b : Bool} (hs : s.sound) : (s.setFlag a k b).sound := hs.setFld

theorem State.sound.countReg {s : State} {a n : Nat} (hs : s.sound) : (s.countReg a n).sound := hs.wr

theorem State.sound.seqFld {s : State} {a hi lo : Nat} (hs : s.sound) : (s.seqFld a hi lo).sound := hs.setFld

theorem State.sound.satFld {s : State} {a hi lo : Nat} (hs : s.sound) : (s.satFld a hi lo).sound := hs.setFld

theorem State.sound.take {s : State} {n : Nat} (hs : s.sound) : (s.take n).2.sound := hs.frame

theorem State.sound.markBad {s : State} {a n : Nat} (hs : s.sound) : (s.markBad a n).sound := hs.frame

theorem State.sound.storeNat {s : State} {k n v : Nat} (hs : s.sound) : (s.storeNat k n v).sound := hs.store

theorem State.sound.setJob {s : State} {j : Nat} {v : Option JobSt} (hs : s.sound) : (s.setJob j v).sound := hs.frame

theorem State.sound.modJob {s : State} {j : Nat} {f : JobSt → JobSt} (hs : s.sound) :
    (s.modJob j f).sound := by
  unfold State.modJob
  split
  · exact hs.setJob
  · exact hs

theorem State.sound.setVf {s : State} {j v : Nat} {q : VfSt} (hs : s.sound) : (s.setVf j v q).sound := hs.frame

theorem State.sound.setBuf {s : State} {e : Nat} {b : BufEnt} (hs : s.sound) : (s.setBuf e b).sound := hs.frame

theorem State.sound.setRouted {s : State} {j v i : Nat} {c : Ctr} (hs : s.sound) : (s.setRouted j v i c).sound := hs.frame

theorem State.sound.setNet {s : State} {j m n : Nat} (hs : s.sound) : (s.setNet j m n).sound := hs.frame

theorem State.sound.raiseEv {s : State} {k : Nat} (hs : s.sound) : (s.raiseEv k).sound := hs.frame

theorem State.sound.answer {s : State} {r : Resp} (hs : s.sound) : (s.answer r).sound := hs.frame

theorem State.sound.sendRouted {s : State} {j v i n : Nat} (hs : s.sound) : (s.sendRouted j v i n).sound := hs.frame

theorem State.sound.account {s : State} {j off n : Nat} (hs : s.sound) : (s.account j off n).sound := .ite hs hs.storeNat

/-! ## Operands -/

theorem State.sound.evAdd {s : State} {f n k : Nat} (hs : s.sound) : (s.evAdd f n k).sound := .ite hs.modFace hs.setRouted

/-! ## Counters, semaphores and buffer counts -/

theorem State.sound.countQsat {s : State} {f d n : Nat} (hs : s.sound) : (s.countQsat f d n).sound :=
  .ite hs (hs.countReg.when fun ht => ht.setFlag.raiseEv)

theorem State.sound.logLost {s : State} {j : Nat} (hs : s.sound) : (s.logLost j).sound := hs.setFld.setFlag

theorem State.sound.logEntry {s : State} {j : Nat} {bs : List Byte} (hs : s.sound) : (s.logEntry j bs).sound :=
  .ite (hs.store.setFld.frame.when fun ht => ht.logLost) hs.logLost

theorem State.sound.countBuf {s : State} {e : Nat} {isWrite : Bool} (hs : s.sound) : (s.countBuf e isWrite).sound := hs.setBuf

theorem FaceSt.setD_job (fs : FaceSt) (r : Nat) (v : BitVec 256) : (fs.setD r v).job = fs.job := rfl

theorem foldl_job {β : Type} {g : FaceSt → β → FaceSt} (hg : ∀ x p, (g x p).job = x.job) (l : List β) (fs : FaceSt) :
    (l.foldl g fs).job = fs.job := by
  induction l generalizing fs with
  | nil => rfl
  | cons p l ih => rw [List.foldl_cons, ih, hg]

theorem State.sound.useDescs {s : State} {f : Nat} {l : List (Nat × Bool)} (hs : s.sound) : (s.useDescs f l).sound := by
  unfold State.useDescs
  extract_lets fs ents fs' cnt
  have hj : fs'.job = (s.face f).job := by
    apply foldl_job
    exact fun _ _ => FaceSt.setD_job ..
  exact (hs.setFace (x := { fs' with refs := _ }) (hj ▸ hs.job_lt f)).each fun _ _ ht => ht.countBuf

/-! ## Issue, retirement and the window -/

theorem State.sound.signal {s : State} {f : Nat} {sig : Option Nat} (hs : s.sound) :
    (s.signal f sig).sound := by
  unfold State.signal
  split
  · exact hs.evAdd
  · exact hs

theorem State.sound.semRefresh {s : State} {m : Nat} (hs : s.sound) : (s.semRefresh m).sound := hs.setFld.setFld

theorem State.sound.semRelease {s : State} {j m n : Nat} (hs : s.sound) : (s.semRelease j m n).sound := hs.setFld.setNet.semRefresh

theorem State.sound.raccAt {s : State} {a : Nat} {xs : List Nat} (hs : s.sound) : (s.raccAt a xs).sound :=
  hs.each fun _ _ ht => ht.storeNat

theorem State.sound.kvMark {s : State} {j buf page tok : Nat} (hs : s.sound) :
    (s.kvMark j buf page tok).sound := by
  unfold State.kvMark
  dsimp only
  split
  · exact hs
  · exact hs.each fun _ _ ht => ht.frame

theorem State.sound.applyFx {s : State} {x : Fx} (hs : s.sound) :
    (s.applyFx x).sound := by
  unfold State.applyFx
  split
  · exact hs.store
  · exact hs.zero
  · exact hs.countReg
  · exact hs.countQsat
  · exact hs.sendRouted
  · exact hs.semRelease
  · exact hs.raiseEv
  · exact hs
  · exact .ite hs.logEntry hs
  · exact hs.raccAt
  · exact hs.kvMark

theorem State.sound.qsatSnap {s : State} {f : Nat} (hs : s.sound) : (s.qsatSnap f).sound := hs.each fun _ _ ht => ht.wr.wr

theorem State.sound.setTurn {s : State} {f p : Nat} {t : TurnSt} (hs : s.sound) : (s.setTurn f p t).sound := hs.frameSched

theorem State.sound.chargeCtr {s : State} {j off reg : Nat} (hs : s.sound) : (s.chargeCtr j off reg).sound := hs.frameSched.account

theorem State.sound.turnSnap {s : State} {f j : Nat} (hs : s.sound) : (s.turnSnap f j).sound :=
  ((hs.qsatSnap.each fun _ _ ht => .ite ht ht.account).each fun _ _ ht => ht.chargeCtr).each fun _ _ ht => ht.chargeCtr

theorem State.sound.endTurn {s : State} {f p : Nat} (hs : s.sound) :
    (s.endTurn f p).sound := by
  unfold State.endTurn
  dsimp only
  split
  · exact hs
  · exact hs.turnSnap.setTurn

theorem State.sound.endJobTurns {s : State} {j : Nat} (hs : s.sound) : (s.endJobTurns j).sound :=
  hs.each fun _ _ ht => (State.sound.ite ht.endTurn ht).setTurn

theorem State.sound.chargeTurn {s : State} {f j ns : Nat} (hs : s.sound) : (s.chargeTurn f j ns).sound :=
  .ite (hs.setTurn.when fun ht => ht.endTurn) (.ite hs (.ite hs.setTurn hs.setTurn))

theorem State.sound.placeSettle {s : State} (hs : s.sound) : s.placeSettle.sound := .ite hs.setFld.satFld hs

theorem State.sound.adoptVf {s : State} {j v : Nat} (hs : s.sound) :
    (s.adoptVf j v).sound := by
  unfold State.adoptVf
  dsimp only
  split
  · exact hs
  · exact hs.setFld.frame

theorem State.sound.setAside {s : State} {f j v : Nat} (hs : s.sound) : (s.setAside f j v).sound := hs.each fun _ _ ht => ht.copy.zero

theorem State.sound.putBack {s : State} {f j v : Nat} (hs : s.sound) : (s.putBack f j v).sound := hs.each fun _ _ ht => ht.copy.zero

theorem State.sound.clearCommand {s : State} {f j v : Nat} (hs : s.sound) : (s.clearCommand f j v).sound :=
  (hs.zero.each fun _ _ ht => .ite ht ht.zero).putBack.zero.each fun _ _ ht => .ite (.ite ht.setBuf ht.zero) ht

theorem State.sound.endCommand {s : State} {f : Nat} (hs : s.sound) :
    (s.endCommand f).sound := by
  unfold State.endCommand
  refine State.sound.placeSettle (State.sound.adoptVf ?_)
  split
  · refine State.sound.turnSnap (State.sound.restFace (State.sound.seqFld ?_))
    split
    · exact (hs.clearCommand.setVf.account.when fun ht => ht.account).account.when fun ht => ht.frame
    · exact (hs.clearCommand.setVf.account.when fun ht => ht.account).account
  · refine State.sound.chargeTurn (State.sound.restFace (State.sound.seqFld ?_))
    split
    · exact (hs.clearCommand.setVf.account.when fun ht => ht.account).when fun ht => ht.frame
    · exact hs.clearCommand.setVf.account.when fun ht => ht.account

theorem State.sound.dropWaiters {s : State} {f : Nat} (hs : s.sound) : (s.dropWaiters f).sound :=
  hs.each_mem fun _ _ he ht => (ht.setWaiters (hs.waiter_lt he)).semRefresh

theorem State.sound.cancelWindow {s : State} {f : Nat} (hs : s.sound) : (s.cancelWindow f).sound :=
  (hs.each fun _ _ ht => .ite (ht.take.each fun _ _ hu => hu.applyFx) ht).frame.modFace.dropWaiters

theorem State.sound.recordExc {s : State} {f : Nat} {e : Exc} {precise hw : Bool} {pc : Nat} (hs : s.sound) :
    (s.recordExc f e precise hw pc).sound :=
  .ite hs.satFld hs.wr.wr

theorem State.sound.takeExc {s : State} {f : Nat} {e : Exc} {precise : Bool} {pc : Nat} (hs : s.sound) :
    (s.takeExc f e precise pc).sound :=
  hs.recordExc.cancelWindow.endCommand.raiseEv.modFace

theorem State.sound.beginIssue {s : State} {f : Nat} (hs : s.sound) :
    (s.beginIssue f).sound := by
  unfold State.beginIssue
  dsimp only
  split
  · exact hs
  · exact hs.modFace

/-- What issues acts on a sound state; what does not leaves one. -/
theorem State.sound.issue {s : State} {f : Nat} {h : Hdr} {c : Chk} {act : State → Out} (hs : s.sound)
    (hact : ∀ t, t.sound → (act t).sound) : (issue s f h c act).sound := by
  rcases issue_cases s f h c act with ⟨-, -, e⟩ | ⟨x, e⟩ | e <;> rw [e]
  · exact hact _ hs.beginIssue
  · exact hs.takeExc.next
  · exact hs.next

theorem State.sound.advance {s : State} {f : Nat} (hs : s.sound) : (s.advance f).sound := hs.modFace

theorem FaceSt.setG_job (fs : FaceSt) (r : Nat) (v : Word) : (fs.setG r v).job = fs.job := by
  unfold FaceSt.setG
  split <;> rfl

theorem State.sound.retire {s : State} {f : Nat} {h : Hdr} {g : FaceSt → FaceSt} (hs : s.sound)
    (hg : ∀ x, (g x).job = x.job) : (s.retire f h g).sound := (hs.modFace (hg _)).advance.signal

theorem State.sound.freeSpans {s : State} {ws : List (Nat × Nat)} (hs : s.sound) : (s.freeSpans ws).sound :=
  hs.each fun _ _ ht => ht.take.store

theorem State.sound.raceOld {s : State} {f : Nat} {new : Entry} (hs : s.sound) : (s.raceOld f new).sound :=
  hs.foldl fun _ _ ht => .ite ht ht.take.modFace

theorem State.sound.enter {s : State} {f : Nat} {h : Hdr} {e : Entry} (hs : s.sound) : (s.enter f h e).sound := hs.take.raceOld.modFace

theorem State.sound.leaveWindow {s : State} {f seq : Nat} (hs : s.sound) : (s.leaveWindow f seq).sound := hs.modFace

theorem State.sound.countBytes {s : State} {f : Nat} {e : Entry} (hs : s.sound) :
    (s.countBytes f e).sound := by
  unfold State.countBytes
  split
  · refine hs.each fun _ _ ht => ?_
    split
    · exact ht.account
    · exact ht
  · exact hs

theorem State.sound.foldMask {s : State} {f m : Nat} {elems : List (Nat × Nat)} (hs : s.sound) : (s.foldMask f m elems).sound :=
  .ite hs hs.modFace

theorem State.sound.completeFx {s : State} {f m : Nat} {x : Fx} (hs : s.sound) :
    (s.completeFx f m x).sound := by
  unfold State.completeFx
  dsimp only
  split
  · exact hs.applyFx.foldMask
  · exact hs.applyFx

theorem State.sound.completeEntry {s : State} {f : Nat} {e : Entry} (hs : s.sound) :
    (s.completeEntry f e).sound := by
  unfold State.completeEntry
  dsimp only
  split
  · exact hs.leaveWindow.takeExc
  · exact (hs.each fun _ _ ht => ht.completeFx).countBytes.leaveWindow.signal

/-! ## Device faults -/

theorem State.sound.holdCause {s : State} {c : Nat} (hs : s.sound) : (s.holdCause c).sound := .ite hs.frame (.ite hs hs.frame)

theorem State.sound.watchGate {old s : State} (hs : s.sound) : (old.watchGate s).sound := hs.when fun ht => ht.holdCause

theorem State.sound.setCstate {s : State} {c : Nat} (hs : s.sound) : (s.setCstate c).sound := hs.setFld.raiseEv.watchGate

theorem State.sound.permitStop {s : State} {cause : Nat} (hs : s.sound) : (s.permitStop cause).sound :=
  .ite (hs.frame.setFlag.setFld.when fun ht => ht.raiseEv) (.ite hs.frame.setFlag.setFld hs)

theorem State.sound.logFault {s : State} {src face job flags detail : Nat} (hs : s.sound) :
    (s.logFault src face job flags detail).sound :=
  hs.wr.wr.wr.wr.storeNat.storeNat.storeNat.seqFld

theorem State.sound.countFault {s : State} {f : Nat} (hs : s.sound) : (s.countFault f).sound := hs.frame.setFld.when fun ht =>
    ht.setFlag

theorem State.sound.latchFault {s : State} {src : Nat} {face : Option Nat} (hs : s.sound) : (s.latchFault src face).sound :=
  hs.each fun _ _ ht => ht.modJob

theorem State.sound.fault {s : State} {src : Nat} {face job : Option Nat} {injected : Bool} {detail : Nat} (hs : s.sound) :
    (s.fault src face job injected detail).sound := by
  unfold State.fault
  dsimp only
  split
  · refine State.sound.raiseEv (State.sound.logFault ?_)
    split
    · exact .ite hs.countFault hs
    · exact hs
  · split
    · refine State.sound.permitStop ?_
      split
      · exact (State.sound.ite hs.countFault hs).logFault.raiseEv.when fun ht => ht.setFld
      · exact hs.logFault.raiseEv.when fun ht => ht.setFld
    · refine State.sound.setFld (State.sound.latchFault (State.sound.raiseEv (State.sound.logFault ?_)))
      split
      · exact .ite hs.countFault hs
      · exact hs
    · split
      · exact (State.sound.ite hs.countFault hs).logFault.raiseEv.latchFault.setFld.unlessIf fun ht => ht.frame
      · exact hs.logFault.raiseEv.latchFault.setFld.unlessIf fun ht => ht.frame
    · refine State.sound.raiseEv (State.sound.logFault ?_)
      split
      · exact .ite hs.countFault hs
      · exact hs

/-! ## Scalar instructions -/

theorem State.sound.scalar2 {op : Word → Word → Word} {f : Fin 6} {h : Hdr} {o : FmtA} {s : State} (hs : s.sound) :
    (scalar2 op f h o s).sound :=
  hs.issue fun _ ht => (ht.retire fun _ => FaceSt.setG_job ..).next

theorem State.sound.execAdd {f : Fin 6} {h : Hdr} {o : FmtA} {s : State} (hs : s.sound) : (execAdd f h o s).sound := hs.scalar2

theorem State.sound.execSub {f : Fin 6} {h : Hdr} {o : FmtA} {s : State} (hs : s.sound) : (execSub f h o s).sound := hs.scalar2

theorem State.sound.execAnd {f : Fin 6} {h : Hdr} {o : FmtA} {s : State} (hs : s.sound) : (execAnd f h o s).sound := hs.scalar2

theorem State.sound.execOr {f : Fin 6} {h : Hdr} {o : FmtA} {s : State} (hs : s.sound) : (execOr f h o s).sound := hs.scalar2

theorem State.sound.execXor {f : Fin 6} {h : Hdr} {o : FmtA} {s : State} (hs : s.sound) : (execXor f h o s).sound := hs.scalar2

theorem State.sound.execSll {f : Fin 6} {h : Hdr} {o : FmtA} {s : State} (hs : s.sound) : (execSll f h o s).sound := hs.scalar2

theorem State.sound.execSrl {f : Fin 6} {h : Hdr} {o : FmtA} {s : State} (hs : s.sound) : (execSrl f h o s).sound := hs.scalar2

theorem State.sound.execSra {f : Fin 6} {h : Hdr} {o : FmtA} {s : State} (hs : s.sound) : (execSra f h o s).sound := hs.scalar2

theorem State.sound.execMul {f : Fin 6} {h : Hdr} {o : FmtA} {s : State} (hs : s.sound) : (execMul f h o s).sound := hs.scalar2

theorem State.sound.execMulhu {f : Fin 6} {h : Hdr} {o : FmtA} {s : State} (hs : s.sound) : (execMulhu f h o s).sound := hs.scalar2

theorem State.sound.execMin {f : Fin 6} {h : Hdr} {o : FmtA} {s : State} (hs : s.sound) : (execMin f h o s).sound := hs.scalar2

theorem State.sound.execMax {f : Fin 6} {h : Hdr} {o : FmtA} {s : State} (hs : s.sound) : (execMax f h o s).sound := hs.scalar2

theorem State.sound.execSlt {f : Fin 6} {h : Hdr} {o : FmtA} {s : State} (hs : s.sound) : (execSlt f h o s).sound := hs.scalar2

theorem State.sound.execSltu {f : Fin 6} {h : Hdr} {o : FmtA} {s : State} (hs : s.sound) : (execSltu f h o s).sound := hs.scalar2

theorem State.sound.execDivu {f : Fin 6} {h : Hdr} {o : FmtA} {s : State} (hs : s.sound) : (execDivu f h o s).sound := hs.scalar2

theorem State.sound.execLi {f : Fin 6} {h : Hdr} {o : FmtA} {s : State} (hs : s.sound) : (execLi f h o s).sound :=
  hs.issue fun _ ht => (ht.retire fun _ => FaceSt.setG_job ..).next

theorem State.sound.execLih {f : Fin 6} {h : Hdr} {o : FmtA} {s : State} (hs : s.sound) : (execLih f h o s).sound :=
  hs.issue fun _ ht => (ht.retire fun _ => FaceSt.setG_job ..).next

theorem State.sound.execRdst {f : Fin 6} {h : Hdr} {o : FmtA} {s : State} (hs : s.sound) : (execRdst f h o s).sound :=
  hs.issue fun _ ht => (ht.retire fun _ => FaceSt.setG_job ..).next

theorem State.sound.execWrst {f : Fin 6} {h : Hdr} {o : FmtA} {s : State} (hs : s.sound) : (execWrst f h o s).sound :=
  hs.issue fun _ ht => (ht.retire fun _ => by dsimp only).next

theorem State.sound.readRaced {s : State} {f k n : Nat} (hs : s.sound) : (readRaced s f k n).2.sound := hs.frame

theorem State.sound.loadOut {s : State} {f : Nat} {h : Hdr} {o : FmtD} {n : Nat} {g : Nat → FaceSt → FaceSt} (hs : s.sound)
    (hg : ∀ v x, (g v x).job = x.job) : (loadOut s f h o n g).sound := by
  refine State.sound.next ?_
  split
  · exact hs.readRaced.useDescs.takeExc
  · exact hs.readRaced.useDescs.retire (hg _)

theorem State.sound.execLdg {f : Fin 6} {h : Hdr} {o : FmtD} {s : State} (hs : s.sound) : (execLdg f h o s).sound :=
  hs.issue fun _ ht => ht.loadOut fun _ _ => FaceSt.setG_job ..

theorem State.sound.execStg {f : Fin 6} {h : Hdr} {o : FmtD} {s : State} (hs : s.sound) : (execStg f h o s).sound :=
  hs.issue fun _ ht => ht.useDescs.enter.next

theorem State.sound.execLdd {f : Fin 6} {h : Hdr} {o : FmtD} {s : State} (hs : s.sound) : (execLdd f h o s).sound :=
  hs.issue fun _ ht => ht.loadOut fun _ _ => FaceSt.setD_job ..

theorem State.sound.execDsetf {f : Fin 6} {h : Hdr} {o : FmtD} {s : State} (hs : s.sound) : (execDsetf f h o s).sound :=
  hs.issue fun _ ht => (ht.retire fun _ => by split <;> rfl).next

theorem State.sound.execDadd {f : Fin 6} {h : Hdr} {o : FmtD} {s : State} (hs : s.sound) : (execDadd f h o s).sound :=
  hs.issue fun _ ht => (ht.retire fun _ => by split <;> rfl).next

theorem State.sound.execDcpy {f : Fin 6} {h : Hdr} {o : FmtD} {s : State} (hs : s.sound) : (execDcpy f h o s).sound :=
  hs.issue fun _ ht => (ht.retire fun _ => FaceSt.setD_job ..).next

theorem FaceSt.setS_job (fs : FaceSt) (r : Nat) (v : BitVec 128) : (fs.setS r v).job = fs.job := rfl

theorem State.sound.execLds {f : Fin 6} {h : Hdr} {o : FmtD} {s : State} (hs : s.sound) : (execLds f h o s).sound :=
  hs.issue fun _ ht => ht.loadOut fun _ _ => FaceSt.setS_job ..

theorem State.sound.execSsetf {f : Fin 6} {h : Hdr} {o : FmtD} {s : State} (hs : s.sound) : (execSsetf f h o s).sound :=
  hs.issue fun _ ht => (ht.retire fun _ => by split <;> rfl).next

/-! ## Issue of tensor instructions -/

theorem State.sound.foldWrites {s : State} {f n : Nat} {elems : List (Nat × Nat)} (hs : s.sound) : (s.foldWrites f n elems).sound :=
  hs.foldMask

theorem State.sound.ndetMark {s : State} {f : Nat} {isN : Bool} (hs : s.sound) : (s.ndetMark f isN).sound := .ite hs.modFace.setFlag hs

theorem State.sound.foldOut {s : State} {f dd : Nat} {t : TOut} {folds : List (Nat × Nat)} (hs : s.sound) :
    (s.foldOut f dd t folds).sound :=
  hs.each fun _ _ ht => ht.foldMask

theorem State.sound.enterTensor {s : State} {f : Fin 6} {h : Hdr} {e : Entering} {reads : List (Nat × Nat)} {free : Nat} {t : TOut}
    (hs : s.sound) :
    (s.enterTensor f h e reads free t).sound :=
  (hs.frame.when fun ht => ht.foldOut).ndetMark.useDescs.enter

theorem State.sound.issueTensor {s : State} {f : Fin 6} {h : Hdr} {e : Entering} {chk : Chk} {reads : State → List (Nat × Nat)}
    {free : State → Nat} {compute : State → TOut} {front : State → State} (hs : s.sound) (hf : ∀ t, t.sound → (front t).sound) :
    (issueTensor s f h e chk reads free compute front).sound :=
  hs.issue fun _ ht => (hf _ ht.frame.enterTensor).next

/-! ## Control flow and synchronization -/

theorem State.sound.jumpTo {s : State} {f : Nat} {t : Word} (hs : s.sound) : (jumpTo s f t).sound := .ite hs.modFace hs.takeExc

theorem State.sound.branch {c : Word → Word → Bool} {ok : FmtC → Bool} {f : Fin 6} {h : Hdr} {o : FmtC} {s : State} (hs : s.sound) :
    (branch c ok f h o s).sound := by
  unfold Machine.branch
  refine hs.issue fun t ht => ?_
  have hr : (t.retire f h id).sound := ht.retire fun _ => rfl
  exact (hr.when fun hu => hu.jumpTo).next

theorem State.sound.execNop {f : Fin 6} {h : Hdr} {o : FmtC} {s : State} (hs : s.sound) : (execNop f h o s).sound :=
  hs.issue fun _ ht => (ht.retire fun _ => rfl).next

theorem State.sound.execBr {f : Fin 6} {h : Hdr} {o : FmtC} {s : State} (hs : s.sound) : (execBr f h o s).sound := hs.branch

theorem State.sound.execBeq {f : Fin 6} {h : Hdr} {o : FmtC} {s : State} (hs : s.sound) : (execBeq f h o s).sound := hs.branch

theorem State.sound.execBne {f : Fin 6} {h : Hdr} {o : FmtC} {s : State} (hs : s.sound) : (execBne f h o s).sound := hs.branch

theorem State.sound.execBlt {f : Fin 6} {h : Hdr} {o : FmtC} {s : State} (hs : s.sound) : (execBlt f h o s).sound := hs.branch

theorem State.sound.execBge {f : Fin 6} {h : Hdr} {o : FmtC} {s : State} (hs : s.sound) : (execBge f h o s).sound := hs.branch

theorem State.sound.execBltu {f : Fin 6} {h : Hdr} {o : FmtC} {s : State} (hs : s.sound) : (execBltu f h o s).sound := hs.branch

theorem State.sound.execBgeu {f : Fin 6} {h : Hdr} {o : FmtC} {s : State} (hs : s.sound) : (execBgeu f h o s).sound := hs.branch

theorem State.sound.execJal {f : Fin 6} {h : Hdr} {o : FmtC} {s : State} (hs : s.sound) : (execJal f h o s).sound :=
  hs.issue fun _ ht => (ht.retire fun _ => FaceSt.setG_job ..).jumpTo.next

theorem State.sound.execJr {f : Fin 6} {h : Hdr} {o : FmtC} {s : State} (hs : s.sound) : (execJr f h o s).sound :=
  hs.issue fun _ ht => (ht.retire fun _ => rfl).jumpTo.next

theorem State.sound.execEndCmd {f : Fin 6} {h : Hdr} {o : FmtC} {s : State} (hs : s.sound) : (execEndCmd f h o s).sound :=
  hs.issue fun _ ht => ht.modFace.next

theorem State.sound.execTrap {f : Fin 6} {h : Hdr} {o : FmtC} {s : State} (hs : s.sound) : (execTrap f h o s).sound :=
  hs.issue fun _ ht => ht.takeExc.next

theorem State.sound.execIllOpc {f : Fin 6} {h : Hdr} {s : State} (hs : s.sound) : (execIllOpc f h s).sound := hs.issue fun _ ht =>
    ht.next

theorem State.sound.execWaitEv {f : Fin 6} {h : Hdr} {o : FmtQ} {s : State} (hs : s.sound) : (execWaitEv f h o s).sound :=
  hs.issue fun _ ht => (ht.retire fun _ => rfl).next

theorem State.sound.execEvadd {f : Fin 6} {h : Hdr} {o : FmtQ} {s : State} (hs : s.sound) : (execEvadd f h o s).sound :=
  hs.issue fun _ ht => (ht.evAdd.retire fun _ => rfl).next

theorem State.sound.execEvsend {f : Fin 6} {h : Hdr} {o : FmtQ} {s : State} (hs : s.sound) : (execEvsend f h o s).sound :=
  hs.issue fun _ ht => ht.enter.next

theorem State.sound.execSacq {f : Fin 6} {h : Hdr} {o : FmtQ} {s : State} (hs : s.sound) : (execSacq f h o s).sound := by
  unfold Machine.execSacq
  exact hs.issue fun _ ht => (ht.enter.setWaiters o.sem.isLt).semRefresh.next

theorem State.sound.execSrel {f : Fin 6} {h : Hdr} {o : FmtQ} {s : State} (hs : s.sound) : (execSrel f h o s).sound :=
  hs.issue fun _ ht => ht.enter.next

theorem State.sound.execFence {f : Fin 6} {h : Hdr} {o : FmtQ} {s : State} (hs : s.sound) : (execFence f h o s).sound :=
  hs.issue fun _ ht => (ht.retire fun _ => rfl).next

theorem State.sound.execRaiseSrc {f : Fin 6} {h : Hdr} {o : FmtQ} {s : State} (hs : s.sound) : (execRaiseSrc f h o s).sound :=
  hs.issue fun _ ht => ht.enter.next

theorem State.sound.xferLand {s : State} {f : Nat} {e : Entry} {x : EflXfer} (hs : s.sound) : (s.xferLand f e x).1.sound := by
  unfold State.xferLand
  split
  · exact .ite_fst (hs.frame.foldl fun _ _ ht => .ite ht ht.foldMask) hs.frame
  · exact hs.frame

theorem State.sound.finish {s : State} {f : Nat} {e : Entry} (hs : s.sound) :
    (s.finish f e).sound := by
  unfold State.finish
  dsimp only
  split
  · exact hs.xferLand.completeEntry
  · exact hs.completeEntry

theorem State.sound.semTake {s : State} {j m n : Nat} (hs : s.sound) (hm : m < 256) : (s.semTake j m n).sound :=
  (hs.setWaiters hm).setFld.setNet.semRefresh

theorem State.sound.execSemAcquireGrant {m : BitVec 8} {s : State} (hs : s.sound) : (execSemAcquireGrant m s).sound := by
  unfold Machine.execSemAcquireGrant
  dsimp only
  split
  · exact hs.next
  · split
    · split
      · exact (hs.semTake m.isLt).completeEntry.next
      · exact (hs.semTake m.isLt).next
    · exact (hs.semTake m.isLt).setVf.next

theorem State.sound.execRoutedCounterIncrement {s : State} (hs : s.sound) :
    (execRoutedCounterIncrement s).sound := by
  unfold Machine.execRoutedCounterIncrement
  dsimp only
  split
  · exact hs.next
  · split
    · exact .ite hs.frame.setRouted.next hs.frame.next
    · exact hs.frame.next

theorem State.sound.execCmdLimit {f : Fin 6} {s : State} (hs : s.sound) :
    (execCmdLimit f s).sound := by
  unfold Machine.execCmdLimit
  dsimp only
  split
  · exact .ite hs.takeExc.next hs.next
  · exact hs.next

theorem State.sound.execCommandEnd {f : Fin 6} {s : State} (hs : s.sound) : (execCommandEnd f s).sound :=
  .ite hs.signal.endCommand.next hs.next

theorem State.sound.execSyncSemWrite {m : BitVec 8} {v : Word} {s : State} (hs : s.sound) : (execSyncSemWrite m v s).sound :=
  hs.setFlag.setFld.setFld.next

theorem State.sound.execSyncRvalWrite {v : Word} {s : State} (hs : s.sound) : (execSyncRvalWrite v s).sound :=
  .ite hs.setRouted.next hs.next

theorem State.sound.execQsatSnap {f : Fin 6} {s : State} (hs : s.sound) : (execQsatSnap f s).sound := hs.qsatSnap.next

theorem State.sound.execAttnClr {f : Fin 6} {s : State} (hs : s.sound) : (execAttnClr f s).sound := hs.wr.wr.wr.wr.wr.next

theorem State.sound.execRecClr {f : Fin 6} {s : State} (hs : s.sound) : (execRecClr f s).sound := hs.wr.wr.wr.wr.next

/-! ## Keccak -/

theorem State.sound.execKeccakOp {op : KeccakOp} {s : State} (hs : s.sound) : (execKeccakOp op s).sound := hs.answer.next

/-! ## Banks -/

theorem State.sound.banksDefined {s : State} {f first n : Nat} (hs : s.sound) : (s.banksDefined f first n).sound := hs.modFace

/-! ## Matrix multiplication -/

theorem State.sound.setAccType {s : State} {f k : Nat} {int : Bool} (hs : s.sound) : (s.setAccType f k int).sound := hs.modFace

theorem State.sound.execMm {f : Fin 6} {h : Hdr} {o : FmtT} {s : State} (hs : s.sound) : (execMm f h o s).sound := by
  unfold Machine.execMm
  exact hs.issueTensor fun _ ht => .ite ht.setAccType ht

theorem State.sound.execPtb {f : Fin 6} {h : Hdr} {o : FmtT} {s : State} (hs : s.sound) : (execPtb f h o s).sound :=
  hs.issueTensor fun _ ht => ht

theorem State.sound.execPtl {f : Fin 6} {h : Hdr} {o : FmtT} {s : State} (hs : s.sound) : (execPtl f h o s).sound :=
  hs.issueTensor fun _ ht => .ite ht.setAccType ht

theorem State.sound.execAccout {f : Fin 6} {h : Hdr} {o : FmtT} {s : State} (hs : s.sound) : (execAccout f h o s).sound := by
  unfold Machine.execAccout
  exact hs.issueTensor fun _ ht => ht

theorem State.sound.execAccin {f : Fin 6} {h : Hdr} {o : FmtT} {s : State} (hs : s.sound) : (execAccin f h o s).sound :=
  hs.issueTensor fun _ ht => ht.setAccType

theorem State.sound.execAccz {f : Fin 6} {h : Hdr} {o : FmtT} {s : State} (hs : s.sound) : (execAccz f h o s).sound :=
  hs.issueTensor fun _ ht => ht.setAccType

/-! ## Vector instructions -/

theorem State.sound.issueVec {s : State} {f : Fin 6} {h : Hdr} {ins : Instr} {o : FmtT} {chk : Chk}
    {val : State → Nat → FmtT → VecSrc} (hs : s.sound) : (issueVec s f h ins o chk val).sound := by
  unfold Machine.issueVec
  exact hs.issueTensor (front := id) fun _ ht => ht

theorem State.sound.execVew {f : Fin 6} {h : Hdr} {o : FmtT} {s : State} (hs : s.sound) : (execVew f h o s).sound := hs.issueVec

theorem State.sound.execVtr {f : Fin 6} {h : Hdr} {o : FmtT} {s : State} (hs : s.sound) : (execVtr f h o s).sound := hs.issueVec

theorem State.sound.execVred {f : Fin 6} {h : Hdr} {o : FmtT} {s : State} (hs : s.sound) : (execVred f h o s).sound := hs.issueVec

theorem State.sound.execVnorm {f : Fin 6} {h : Hdr} {o : FmtT} {s : State} (hs : s.sound) : (execVnorm f h o s).sound := hs.issueVec

theorem State.sound.execVsmx {f : Fin 6} {h : Hdr} {o : FmtT} {s : State} (hs : s.sound) : (execVsmx f h o s).sound := hs.issueVec

theorem State.sound.execQnt {f : Fin 6} {h : Hdr} {o : FmtT} {s : State} (hs : s.sound) : (execQnt f h o s).sound := hs.issueVec

theorem State.sound.execVrnd {f : Fin 6} {h : Hdr} {o : FmtT} {s : State} (hs : s.sound) : (execVrnd f h o s).sound :=
  hs.issueTensor fun _ ht => ht

/-! ## Instructions that arrange data -/

theorem State.sound.issueCopy {s : State} {f : Fin 6} {h : Hdr} {ins : Instr} {o : FmtT} {chk : Chk} {srcs : List Nat} {isN : Bool}
    {extra : Nat} {more : List (Nat × Bool)} {compute : State → TOut} (hs : s.sound) :
    (issueCopy s f h ins o chk srcs isN extra more compute).sound :=
  hs.issueTensor fun _ ht => ht

theorem State.sound.execTrp {f : Fin 6} {h : Hdr} {o : FmtT} {s : State} (hs : s.sound) : (execTrp f h o s).sound := hs.issueCopy

theorem State.sound.execGath {f : Fin 6} {h : Hdr} {o : FmtT} {s : State} (hs : s.sound) : (execGath f h o s).sound := hs.issueCopy

theorem State.sound.execScat {f : Fin 6} {h : Hdr} {o : FmtT} {s : State} (hs : s.sound) : (execScat f h o s).sound := hs.issueCopy

theorem State.sound.execGfa {f : Fin 6} {h : Hdr} {o : FmtT} {s : State} (hs : s.sound) : (execGfa f h o s).sound := hs.issueCopy

theorem State.sound.execRacc {f : Fin 6} {h : Hdr} {o : FmtT} {s : State} (hs : s.sound) : (execRacc f h o s).sound :=
  hs.issueTensor fun _ ht => ht

theorem State.sound.execSexp {f : Fin 6} {h : Hdr} {o : FmtT} {s : State} (hs : s.sound) : (execSexp f h o s).sound :=
  hs.issueTensor fun _ ht => ht

theorem State.sound.execSimp {f : Fin 6} {h : Hdr} {o : FmtT} {s : State} (hs : s.sound) : (execSimp f h o s).sound :=
  hs.issueTensor fun _ ht => ht.banksDefined

theorem State.sound.execDgarm {f : Fin 6} {h : Hdr} {o : FmtT} {s : State} (hs : s.sound) : (execDgarm f h o s).sound :=
  hs.issue fun _ ht => ht.modFace.enter.next

theorem State.sound.execDgout {f : Fin 6} {h : Hdr} {o : FmtT} {s : State} (hs : s.sound) : (execDgout f h o s).sound := by
  unfold Machine.execDgout
  exact hs.issueTensor fun _ ht => ht.modFace

theorem State.sound.execDgrd {f : Fin 6} {h : Hdr} {o : FmtT} {s : State} (hs : s.sound) : (execDgrd f h o s).sound := hs.issueCopy

/-! ## Attention -/

theorem State.sound.execAttn {f : Fin 6} {h : Hdr} {o : FmtT} {s : State} (hs : s.sound) : (execAttn f h o s).sound := by
  unfold Machine.execAttn
  exact hs.issueTensor fun _ ht => ht.setAccType.setAccType

theorem State.sound.execAttnb {f : Fin 6} {h : Hdr} {o : FmtT} {s : State} (hs : s.sound) : (execAttnb f h o s).sound := by
  unfold Machine.execAttnb
  exact hs.issueTensor fun _ ht => ht.setAccType.setAccType

theorem State.sound.execKvput {f : Fin 6} {h : Hdr} {o : FmtT} {s : State} (hs : s.sound) : (execKvput f h o s).sound :=
  hs.issueTensor fun _ ht => ht

/-! ## Convolution -/

theorem State.sound.execConv {f : Fin 6} {h : Hdr} {o : FmtT} {s : State} (hs : s.sound) : (execConv f h o s).sound := by
  unfold Machine.execConv
  exact (State.sound.ite hs.frame hs).issueTensor fun _ ht => ht.setAccType

/-! ## Guards -/

theorem State.sound.storeDev {s : State} {a : Nat} {bs : List Byte} (hs : s.sound) : (s.storeDev a bs).sound := .ite hs.store hs

/-! ## Pipelines -/

theorem State.sound.pipPart {s : State} {dst : Nat} {bs : List Byte} (hs : s.sound) : (s.pipPart dst bs).sound := hs.take.storeDev

theorem State.sound.pipSome {s : State} {o : PipOut} (hs : s.sound) : (s.pipSome o).sound := hs.take.countReg

theorem State.sound.pipFinish {s : State} {r : PipRec} {code : Nat} (hs : s.sound) : (s.pipFinish r code).sound :=
  hs.storeDev.countReg.raiseEv

theorem State.sound.pipIdle {s : State} (hs : s.sound) : s.pipIdle.sound := hs.frame.setFld

theorem State.sound.execPipRecordDone {memErr : Bool} {s : State} (hs : s.sound) :
    (execPipRecordDone memErr s).sound := by
  unfold Machine.execPipRecordDone
  dsimp only
  split
  · exact hs.next
  · split
    · exact hs.pipPart.pipSome.pipIdle.next
    · split
      · exact hs.pipFinish.pipIdle.next
      · exact .ite hs.pipPart.pipSome.pipFinish.pipIdle.next (.ite hs.pipPart.pipSome.pipFinish.pipIdle.next
          hs.storeDev.countReg.pipFinish.pipIdle.next)

theorem State.sound.execPipTimeout {s : State} (hs : s.sound) :
    (execPipTimeout s).sound := by
  unfold Machine.execPipTimeout
  dsimp only
  split
  · exact hs.next
  · exact .ite hs.next (.ite hs.pipPart.pipSome.pipIdle.next hs.pipPart.pipSome.pipFinish.pipIdle.next)

theorem State.sound.setPipQueue {s : State} {p : Nat} {l : List Nat} (hs : s.sound) : (s.setPipQueue p l).sound := hs.frame.setFld

theorem State.sound.execPipQpush {p : BitVec 3} {v : Word} {s : State} (hs : s.sound) : (execPipQpush p v s).sound :=
  .ite hs.answer.next (.ite hs.setFlag.answer.next hs.setPipQueue.answer.next)

theorem State.sound.execPipRecordStart {s : State} (hs : s.sound) :
    (execPipRecordStart s).sound := by
  unfold Machine.execPipRecordStart
  dsimp only
  split
  · exact hs.next
  · split
    · exact hs.next
    · split
      · exact hs.next
      · exact .ite hs.setPipQueue.countReg.next hs.setPipQueue.frame.setFld.setFld.setFlag.next

theorem State.sound.pipFlush {s : State} {j : Nat} (hs : s.sound) : (s.pipFlush j).sound := by
  unfold State.pipFlush
  extract_lets mine u
  have hu : u.sound := hs.each fun _ _ ht => ht.when fun hv => hv.setPipQueue
  clear_value u
  split
  · exact hu.when fun hv => hv.frame
  · exact hu

theorem State.sound.execPipQflush {v : Word} {s : State} (hs : s.sound) : (execPipQflush v s).sound := .ite hs.pipFlush.next hs.next

/-! ## Jobs and commands -/

theorem State.sound.dropJobWaiters {s : State} {j : Nat} (hs : s.sound) : (s.dropJobWaiters j).sound :=
  (hs.each_mem fun _ _ he ht => (ht.setWaiters (hs.waiter_lt he)).semRefresh).each fun _ _ ht => ht.leaveWindow

theorem State.sound.returnNet {s : State} {j : Nat} (hs : s.sound) : (s.returnNet j).sound :=
  hs.each fun _ _ ht => ht.setFld.setNet.semRefresh

theorem State.sound.dropGrants {s : State} {j : Nat} (hs : s.sound) : (s.dropGrants j).sound :=
  hs.each fun _ _ ht => (State.sound.ite ht.setFld ht).when fun hu => hu.setFld

theorem State.sound.dropQueues {s : State} {j : Nat} (hs : s.sound) : (s.dropQueues j).sound := hs.each fun _ _ ht => ht.setVf

theorem State.sound.stopMoves {s : State} {j : Nat} (hs : s.sound) : (s.stopMoves j).sound :=
  ((hs.each fun _ _ ht => ht.setBuf).frame.when fun ht => ht.setFlag).placeSettle

theorem State.sound.closeWindow {s : State} {i : Nat} (hs : s.sound) : (s.closeWindow i).sound := .ite hs.setFlag.setFlag hs

theorem State.sound.beginEnd {s : State} {j : Nat} (hs : s.sound) : (s.beginEnd j).sound :=
  hs.modJob.dropJobWaiters.dropGrants.dropQueues.frame.each fun _ _ ht => ht.closeWindow

theorem State.sound.cancelJob {s : State} {j : Nat} (hs : s.sound) : (s.cancelJob j).sound :=
  hs.each fun _ _ ht => .ite ht.cancelWindow.endCommand ht

theorem State.sound.killJob {s : State} {j : Nat} (hs : s.sound) : (s.killJob j).sound :=
  .ite hs.beginEnd.cancelJob.returnNet.stopMoves.pipFlush hs

theorem State.sound.saveHistory {s : State} {j : Nat} (hs : s.sound) :
    (s.saveHistory j).sound := by
  unfold State.saveHistory
  dsimp only
  split
  · exact hs
  · exact hs.each fun _ _ ht => ht.frame

theorem State.sound.execJobUnload {j : BitVec 4} {s : State} (hs : s.sound) : (execJobUnload j s).sound :=
  .ite hs.saveHistory.beginEnd.next hs.next

theorem State.sound.execJobKill {j : BitVec 4} {s : State} (hs : s.sound) : (execJobKill j s).sound := .ite hs.killJob.modJob.next
    hs.next

theorem State.sound.execUlnalExceptionResponse {f : Fin 6} {s : State} (hs : s.sound) :
    (execUlnalExceptionResponse f s).sound := by
  unfold Machine.execUlnalExceptionResponse
  dsimp only
  split
  · exact hs.next
  · exact .ite hs.modFace.next hs.modFace.killJob.next

theorem State.sound.disown {s : State} {j : Nat} (hs : s.sound) : (s.disown j).sound := hs.each fun _ _ ht => ht.modFace

theorem State.sound.scrubJob {s : State} {j : Nat} (hs : s.sound) : (s.scrubJob j).sound :=
  .ite hs.endJobTurns.returnNet.stopMoves.disown.modJob.frame.setFlag hs.endJobTurns.returnNet.stopMoves.disown.modJob.frame

theorem State.sound.freeJob {s : State} {j : Nat} (hs : s.sound) : (s.freeJob j).sound :=
  (((hs.each fun _ _ ht => ht.setBuf).each fun _ _ ht => ht.setVf).each fun _ _ ht => ht.frame).setJob.setFlag.wr

theorem State.sound.settleJob {s : State} {j : Nat} (hs : s.sound) : (s.settleJob j).sound := .ite hs.freeJob hs

theorem State.sound.execScrubStart {t : ScrubOf} {s : State} (hs : s.sound) :
    (execScrubStart t s).sound := by
  unfold Machine.execScrubStart
  dsimp only
  split
  · exact .ite hs.scrubJob.settleJob.next hs.next
  · exact .ite hs.frame.next hs.next

theorem State.sound.noteScrub {s : State} {f : Nat} (hs : s.sound) : (s.noteScrub f).sound := hs.each fun _ _ ht => ht.modJob

theorem State.sound.execScrubDone {s : State} (hs : s.sound) :
    (execScrubDone s).sound := by
  unfold Machine.execScrubDone
  dsimp only
  split
  · exact hs.next
  · refine State.sound.next (State.sound.settleJob ?_)
    split
    · exact hs.zero.frame.noteScrub
    · exact hs.zero.frame

/-! ## The scheduler -/

theorem State.sound.publish {s : State} {j v : Nat} (hs : s.sound) : (s.publish j v).sound := hs.storeNat.storeNat

theorem leNat_lt (l : List Byte) : leNat l < 256 ^ l.length := by
  induction l with
  | nil => simp [leNat]
  | cons b l ih =>
    have hb : b.toNat < 256 := b.isLt
    simp only [leNat, List.length_cons, Nat.pow_succ]
    omega

/-- A command record names its semaphore in one byte (R254). -/
theorem cmdRecOf_sem_lt (l : List Byte) : (cmdRecOf l).sem < 256 :=
  (leNat_lt _).trans_le (Nat.pow_le_pow_right (by decide) (List.length_take_le 1 _))

theorem State.sound.execCommandReady {j : BitVec 4} {v : BitVec 3} {s : State} (hs : s.sound) :
    (execCommandReady j v s).sound :=
  .ite (.ite hs.next (.ite hs.setVf.next (.ite hs.killJob.next
    (hs.setVf.setWaiters (cmdRecOf_sem_lt _)).semRefresh.next))) hs.next

theorem State.sound.slotOff {s : State} {f : Nat} (hs : s.sound) : (s.slotOff f).sound := by
  unfold State.slotOff
  split
  · exact hs
  · extract_lets p t u fs w
    have hu : u.sound := by
      unfold u
      split
      · exact hs
      · exact hs.turnSnap.setTurn
    exact (hu.when fun ht => ht.setFlag.raiseEv).setFace (hu.job_lt f)

theorem State.sound.execSlotStart {i : BitVec 6} {s : State} (hs : s.sound) : (execSlotStart i s).sound :=
  .ite (hs.each fun _ _ ht => .ite ht.slotOff.modFace ht).next hs.next

theorem State.sound.execSlotEnd {i : BitVec 6} {s : State} (hs : s.sound) : (execSlotEnd i s).sound :=
  .ite (hs.each fun _ _ ht => .ite ht.slotOff ht).next hs.next

theorem State.sound.saveHead {s : State} {j v : Nat} (hs : s.sound) : (s.saveHead j v).sound := hs.store

theorem State.sound.setOwner {s : State} {f b o : Nat} (hs : s.sound) : (s.setOwner f b o).sound := hs.modFace

theorem State.sound.bankSave {s : State} {f b : Nat} (hs : s.sound) : (s.bankSave f b).sound :=
  .ite hs hs.copy.zero.setVf.saveHead.setOwner

theorem State.sound.bankLoad {s : State} {f j v b : Nat} (hs : s.sound) :
    (s.bankLoad f j v b).sound := by
  unfold State.bankLoad
  refine State.sound.setOwner ?_
  split
  · exact hs.copy.zero.setOwner
  · exact .ite hs.copy.setVf hs.zero

theorem State.sound.execBankSwapDone {f : Fin 6} {s : State} (hs : s.sound) :
    (execBankSwapDone f s).sound := by
  unfold Machine.execBankSwapDone
  dsimp only
  split
  · exact hs.next
  · exact .ite hs.next (.ite ((State.sound.ite (hs.each fun _ _ ht => ht.account).account hs).each fun _ _ ht =>
      ht.bankSave).fault.next ((((State.sound.ite (hs.each fun _ _ ht => ht.account).account hs).each fun _ _ ht => ht.bankSave).each
      fun _ _ ht => ht.bankLoad).unlessIf fun ht => ht.saveHead).next)

theorem State.sound.openTurn {s : State} {f p j v : Nat} (hs : s.sound) : (s.openTurn f p j v).sound := hs.setTurn

theorem State.sound.takeTurn {s : State} {f i j v : Nat} {borrowed : Bool} (hs : s.sound) :
    (s.takeTurn f i j v borrowed).sound := by
  unfold State.takeTurn
  dsimp only
  split
  · exact hs.setTurn
  · split
    · split
      · exact hs
      · exact .ite hs.turnSnap.setTurn.account.modJob hs.endTurn
    · refine State.sound.openTurn ?_
      split
      · exact hs
      · exact .ite hs.turnSnap.setTurn.account.modJob hs.endTurn

theorem State.sound.startCommand {s : State} {f i j v : Nat} {ex : Option Nat} (hs : s.sound) (hj : j < 16) :
    (s.startCommand f i j v ex).sound := hs.takeTurn.setAside.account.setVf.publish.modJob.setFace hj

theorem nextAfter_mem {n k i : Nat} {l : List Nat} (h : nextAfter n k l = some i) : i ∈ l := by
  simpa using List.find?_some h

/-- The job that a Face serves next is one of the sixteen. -/
theorem State.chooseJob_lt {s : State} {f i j : Nat} (h : s.chooseJob f i = some j) : j < 16 := by
  unfold State.chooseJob at h
  extract_lets p t js top best usual at h
  have hjs : ∀ k ∈ js, k < 16 := fun k hk => List.mem_range.mp (List.mem_filter.mp hk).1
  have hbest : ∀ k ∈ best, k < 16 := fun k hk => hjs k (List.mem_filter.mp hk).1
  have husual : ∀ k, usual = some k → k < 16 := by
    intro k hk
    unfold usual at hk
    split at hk
    · split at hk
      · next hc =>
        cases hk
        simp only [Bool.and_eq_true, List.contains_iff_mem] at hc
        exact hbest _ hc.1
      · exact hbest _ (nextAfter_mem hk)
    · split at hk
      · next he =>
        cases hk
        exact hbest _ (List.mem_of_find?_eq_some he)
      · exact hbest _ (nextAfter_mem hk)
  split at h
  · split at h
    · next hc =>
      cases h
      exact hjs _ (by simpa using hc)
    · cases h
  · split at h
    · next he =>
      cases h
      split at he
      · exact hjs _ (List.mem_of_find?_eq_some he)
      · cases he
    · split at h
      · next he =>
        cases h
        exact hjs _ (List.mem_of_find?_eq_some he)
      · exact husual _ h

theorem State.choose_job_lt {s : State} {f i j v : Nat} (h : s.choose f = some (i, j, v)) : j < 16 := by
  unfold State.choose at h
  split at h
  · cases h
  · split at h
    · cases h
    · next hj =>
      obtain ⟨w, -, hw⟩ := Option.map_eq_some_iff.mp h
      cases hw
      exact State.chooseJob_lt hj

theorem State.sound.execCommandStart {f : Fin 6} {s : State} (hs : s.sound) : (execCommandStart f s).sound := by
  unfold Machine.execCommandStart
  split
  · exact hs.next
  · next hc => exact .ite (hs.each fun _ _ ht => ht.startCommand (State.choose_job_lt hc)).next hs.next

theorem State.sound.execTurnExpire {f : Fin 6} {s : State} (hs : s.sound) :
    (execTurnExpire f s).sound := by
  unfold Machine.execTurnExpire
  dsimp only
  split
  · exact hs.next
  · split
    · exact hs.next
    · exact .ite hs.next (.ite hs.endTurn.next hs.next)

theorem State.sound.setWaiter {s : State} {m : Nat} {r r' : SemReq} (hs : s.sound) (hm : m < 256) : (s.setWaiter m r r').sound :=
  hs.setWaiters hm

theorem State.sound.execSemBlock {m : BitVec 8} {s : State} (hs : s.sound) : (execSemBlock m s).sound := by
  unfold Machine.execSemBlock
  dsimp only
  split
  · exact (hs.setWaiter m.isLt).raiseEv.next
  · exact hs.next

theorem State.sound.execTurnDonate {m : BitVec 8} {s : State} (hs : s.sound) : (execTurnDonate m s).sound := by
  unfold Machine.execTurnDonate
  dsimp only
  split
  · split
    · exact hs.raiseEv.killJob.next
    · exact .ite hs.next (.ite (hs.setWaiter m.isLt).raiseEv.next (hs.setWaiter m.isLt).modJob.next)
  · exact hs.next

theorem State.sound.schedErr {s : State} {idx code : Nat} (hs : s.sound) : (s.schedErr idx code).sound := hs.setFld

theorem State.sound.partAWrite {s : State} {p v : Nat} (hs : s.sound) :
    (s.partAWrite p v).sound := by
  unfold State.partAWrite
  dsimp only
  split
  · exact .ite hs hs.schedErr
  · refine hs.wr.when fun ht => ?_
    split
    · exact ht.schedErr
    · exact ht.setFlag

theorem State.sound.partBWrite {s : State} {p v : Nat} (hs : s.sound) : (s.partBWrite p v).sound :=
  .ite (hs.setFld.setFld.unlessIf fun ht => ht.schedErr) hs.setFld.setFld.setFld.setFld

theorem State.sound.execSchedPartWrite {p : BitVec 3} {b : Bool} {v : Word} {s : State} (hs : s.sound) :
    (execSchedPartWrite p b v s).sound :=
  (State.sound.ite hs.partBWrite hs.partAWrite).next

theorem State.sound.activate {s : State} {table : List Word} {frame : Nat} (hs : s.sound) : (s.activate table frame).sound :=
  (hs.each fun _ _ ht => ht.wr).setFld

theorem State.sound.wakeFace {s : State} {f : Nat} (hs : s.sound) : (s.wakeFace f).sound := hs.zero.modFace

theorem State.sound.schedGo {s : State} (hs : s.sound) : s.schedGo.sound := by
  unfold State.schedGo
  split
  · exact hs.schedErr
  · extract_lets table frame named u
    have hu : u.sound := hs.when fun ht => ht.each fun _ _ hv => hv.when fun hw => hw.wakeFace
    exact .ite (State.sound.setFlag (hu.restage (by simp [table]))) hu.activate

theorem State.sound.execSchedCommit {v : Word} {s : State} (hs : s.sound) : (execSchedCommit v s).sound :=
  (State.sound.ite hs.schedGo hs).next

theorem State.sound.tailWrite {s : State} {v : Word} (hs : s.sound) : (s.tailWrite v).sound :=
  .ite hs (.ite (hs.setVf.when fun ht => ht.publish) hs.schedErr)

theorem State.sound.execSchedQtailWrite {v : Word} {s : State} (hs : s.sound) : (execSchedQtailWrite v s).sound :=
  .ite hs.answer.next hs.tailWrite.next

theorem State.sound.qbaseWrite {s : State} {v : Word} (hs : s.sound) : (s.qbaseWrite v).sound := .ite hs hs.setVf

theorem State.sound.execSchedQbaseWrite {v : Word} {s : State} (hs : s.sound) : (execSchedQbaseWrite v s).sound := hs.qbaseWrite.next

theorem State.sound.jobWrite {s : State} {j : Nat} {v : Word} (hs : s.sound) : (s.jobWrite j v).sound :=
  hs.setFld.unlessIf fun ht => ht.setFld

theorem State.sound.execSchedJobWrite {j : BitVec 4} {v : Word} {s : State} (hs : s.sound) : (execSchedJobWrite j v s).sound :=
  hs.jobWrite.next

theorem State.sound.schedCtrlWrite {s : State} {v : Nat} (hs : s.sound) : (s.schedCtrlWrite v).sound := by
  refine .ite ?_ (.ite ?_ hs.wr)
  · exact hs.wr.frameSched.setFld
  · exact (State.sound.restage (hs.wr.each fun _ _ ht => ht.slotOff) (Nat.zero_le _)).setFlag

theorem State.sound.stepWrite {s : State} {j v : Nat} (hs : s.sound) :
    (s.stepWrite j v).sound := by
  unfold State.stepWrite
  refine (State.sound.ite hs.setFlag hs).unlessIf fun ht => ?_
  split
  · split
    · exact hs.setFlag.setFlag
    · split
      · exact hs.setFlag
      · exact hs.setFlag.unlessIf fun hu => hu.modJob.setFlag
  · split
    · exact hs.setFlag
    · split
      · exact hs
      · exact .ite hs hs.modJob.setFlag

theorem State.sound.execStepAdvanceRequest {j : BitVec 4} {v : Word} {s : State} (hs : s.sound) :
    (execStepAdvanceRequest j v s).sound :=
  hs.stepWrite.next

theorem State.sound.execStepAdvanceApply {j : BitVec 4} {s : State} (hs : s.sound) :
    (execStepAdvanceApply j s).sound := by
  unfold Machine.execStepAdvanceApply
  dsimp only
  split
  · exact hs.next
  · exact .ite hs.wr.setFlag.modJob.frame.next hs.next

theorem State.sound.jstepWrite {s : State} {j : Nat} {v : Word} (hs : s.sound) :
    (s.jstepWrite j v).sound := by
  unfold State.jstepWrite
  dsimp only
  split
  · exact .ite hs hs.wr.frame
  · exact hs.wr

theorem State.sound.execDetJstepWrite {j : BitVec 4} {v : Word} {s : State} (hs : s.sound) : (execDetJstepWrite j v s).sound :=
  hs.jstepWrite.next

/-! ## Placement and moves -/

theorem State.sound.detLoad {s : State} {j : Nat} {img : JobImage} {pl : LoadPlan} (hs : s.sound) : (s.detLoad j img pl).sound :=
  hs.wr.wr.wr.wr.wr.wr.wr

theorem State.sound.acctLoad {s : State} {j : Nat} {img : JobImage} (hs : s.sound) : (s.acctLoad j img).sound := .ite hs
    hs.zero.storeNat

theorem State.sound.queueLoad {s : State} {j v : Nat} {img : JobImage} (hs : s.sound) : (s.queueLoad j v img).sound :=
  hs.setVf.zero.storeNat

theorem State.sound.kvLoad {s : State} {j : Nat} {p : PoolRec} (hs : s.sound) : (s.kvLoad j p).sound :=
  hs.each fun _ _ ht => ht.each fun _ _ hu => hu.storeNat

theorem State.sound.zeroLeft {s : State} {j : Nat} (hs : s.sound) :
    (s.zeroLeft j).sound := by
  unfold State.zeroLeft
  refine .frame (hs.each fun _ _ ht => ?_)
  split
  · exact .ite ht (.ite (ht.each fun _ _ hu => hu.zero) ht.setBuf)
  · exact ht

theorem State.sound.loadJob {s : State} {j : Nat} {img : JobImage} {pl : LoadPlan} {reload : Bool} (hs : s.sound) :
    (s.loadJob j img pl reload).sound :=
  (((hs.each fun _ _ ht => ht.setBuf).setJob.setFld.setFld.setFlag.wr.wr.detLoad.frame.zeroLeft.each fun _ _ ht => ht.queueLoad).each
      fun _ _ ht => ht.kvLoad).unlessIf fun ht => ht.acctLoad

theorem State.sound.placeErr {s : State} {j id code : Nat} (hs : s.sound) : (s.placeErr j id code).sound := hs.wr

theorem State.sound.execJobLoad {j : BitVec 4} {img : JobImage} {pl : LoadPlan} {s : State} (hs : s.sound) :
    (execJobLoad j img pl s).sound := by
  unfold Machine.execJobLoad
  dsimp only
  split
  · exact hs.next
  · split
    · exact hs.placeErr.answer.next
    · exact .ite hs.answer.next (.ite hs.loadJob.answer.next hs.next)

theorem State.sound.execLife0HbmZeroDone {e : BitVec 12} {v : BitVec 3} {s : State} (hs : s.sound) :
    (execLife0HbmZeroDone e v s).sound :=
  .ite hs.zero.setBuf.account.next hs.next

theorem State.sound.brecWrite {s : State} {v : Nat} (hs : s.sound) : (s.brecWrite v).sound := .ite hs
    (.ite hs.setBuf.placeErr hs.setBuf)

theorem State.sound.execPlaceBrecWrite {v : Word} {s : State} (hs : s.sound) : (execPlaceBrecWrite v s).sound := hs.brecWrite.next

theorem State.sound.placeGo {s : State} (hs : s.sound) : s.placeGo.sound := .ite hs.setFld hs.frame

theorem State.sound.execPlaceCommit {v : Word} {s : State} (hs : s.sound) : (execPlaceCommit v s).sound :=
  (State.sound.ite hs.placeGo hs).next

theorem State.sound.execPlacementPlan {p : BitVec 3} {hot : BitVec 6} {maps : List (Nat × List Nat)} {addrs : List
    (Nat × Nat)} {ex : List (Nat × Nat × List Nat)} {s : State} (hs : s.sound) :
    (execPlacementPlan p hot maps addrs ex s).sound :=
  .ite ((hs.each fun _ _ ht => ht.wr).each fun _ _ ht => ht.setBuf).frame.next hs.next

theorem State.sound.execBufferMoveStart {e : BitVec 12} {s : State} (hs : s.sound) :
    (execBufferMoveStart e s).sound := by
  unfold Machine.execBufferMoveStart
  dsimp only
  split
  · exact hs.next
  · exact .ite hs.next (hs.setBuf.frame.when fun ht => ht.modJob).setFlag.next

theorem State.sound.execBufferMoveDone {e : BitVec 12} {s : State} (hs : s.sound) :
    (execBufferMoveDone e s).sound := by
  unfold Machine.execBufferMoveDone
  dsimp only
  split
  · exact hs.next
  · exact ((State.sound.ite hs.copy ((State.sound.ite hs.zero hs).unlessIf fun ht => ht.zero)).setBuf.frame.account.when fun ht =>
      ht.setFlag.placeSettle).next

theorem State.sound.cycleStart {s : State} (hs : s.sound) : s.cycleStart.sound :=
  (hs.each fun _ _ ht => ht.setBuf).frame.each fun _ _ ht => ht.saveHistory

theorem State.sound.planPending {s : State} (hs : s.sound) : s.planPending.sound :=
  (hs.frame.setFlag.each fun _ _ ht => .ite ht ht.adoptVf).placeSettle

theorem State.sound.tableBoundary {s : State} (hs : s.sound) : s.tableBoundary.sound := .ite hs.activate.setFlag hs

theorem State.sound.planBoundary {s : State} (hs : s.sound) : s.planBoundary.sound :=
  .ite hs.planPending.cycleStart (.ite hs hs.cycleStart)

theorem State.sound.framePaces {s : State} (hs : s.sound) : s.framePaces.sound := hs.frameSched

theorem State.sound.execMajorFrameBoundary {s : State} (hs : s.sound) : (execMajorFrameBoundary s).sound :=
  .ite (hs.each fun _ _ ht => ht.slotOff).framePaces.tableBoundary.planBoundary.setFld.frameSched.next hs.next

/-! ## Faults, injections and the golden test -/

theorem State.sound.injDone {s : State} (hs : s.sound) : s.injDone.sound := hs.frame.setFlag

theorem State.sound.detect {s : State} {kind src : Nat} {face job : Option Nat} {detail : Nat} (hs : s.sound) :
    (s.detect kind src face job detail).sound :=
  .ite hs.fault.injDone hs.fault

theorem State.sound.execFaultRecord {src : BitVec 8} {face : Option (Fin 6)} {job : Option (BitVec 4)} {detail : BitVec 32} {s : State}
    (hs : s.sound) :
    (execFaultRecord src face job detail s).sound :=
  .ite hs.next (hs.detect.when fun ht => ht.markBad).next

theorem State.sound.patrol {s : State} {a : Nat} {res : PatrolRes} {alloc : Bool} (hs : s.sound) :
    (s.patrol a res alloc).sound := by
  unfold State.patrol
  dsimp only
  split
  · exact hs
  · exact hs.countReg.when fun ht => ht.fault.injDone
  · exact .ite hs.zero.countReg (.ite hs.fault (hs.detect.unlessIf fun ht => ht.markBad))

theorem State.sound.execPatrolRead {a : Nat} {res : BitVec 2} {alloc last : Bool} {s : State} (hs : s.sound) :
    (execPatrolRead a res alloc last s).sound :=
  .ite (hs.patrol.when fun ht => ht.seqFld).next hs.next

theorem State.sound.execMeshCrc {second : Bool} {s : State} (hs : s.sound) : (execMeshCrc second s).sound :=
  .ite hs.fault.injDone.next (.ite hs.fault.next hs.next)

theorem State.sound.execStall {home : Bool} {ch : BitVec 12} {us : Nat} {s : State} (hs : s.sound) : (execStall home ch us s).sound :=
  .ite (.ite hs.fault.next hs.next) (.ite hs.next (.ite (.ite hs.next hs.detect.next) hs.detect.next))

theorem State.sound.execLockstepMismatch {who : BitVec 3} {s : State} (hs : s.sound) : (execLockstepMismatch who s).sound :=
  .ite (.ite hs.fault.next hs.next) hs.fault.next

theorem State.sound.execLine {s : State} (hs : s.sound) : (execLine s).sound := .ite hs.fault.next hs.next

theorem State.sound.execCoreHb {s : State} (hs : s.sound) : (execCoreHb s).sound := .ite hs.fault.next hs.next

theorem State.sound.kick {s : State} {v : Nat} (hs : s.sound) : (s.kick v).sound := .ite hs.frame hs

theorem State.sound.execSafeKick {v : Word} {s : State} (hs : s.sound) : (execSafeKick v s).sound := hs.kick.next

theorem State.sound.execBootTimeout {s : State} (hs : s.sound) : (execBootTimeout s).sound := .ite hs.fault.next hs.next

theorem State.sound.hfltWrite {s : State} {v : Nat} (hs : s.sound) : (s.hfltWrite v).sound :=
  (hs.setFld.when fun ht => ht.setCstate).when fun ht => ht.fault

theorem State.sound.execHfltRetry {s : State} (hs : s.sound) : (execHfltRetry s).sound := .ite hs.setCstate.next hs.next

theorem State.sound.execHomeReq {s : State} (hs : s.sound) : (execHomeReq s).sound := hs.fault.next

theorem State.sound.execStatusGateWrite {f : Fin 6} {seq : Nat} {s : State} (hs : s.sound) :
    (execStatusGateWrite f seq s).sound := by
  unfold Machine.execStatusGateWrite
  dsimp only
  split
  · exact hs.next
  · split
    · exact hs.frame.next
    · exact hs.next

theorem State.sound.gateDone {s : State} {g : GateHeld} (hs : s.sound) : (s.gateDone g).sound := hs.store.frame.modJob.modFace

theorem State.sound.execStatusGateComplete {s : State} (hs : s.sound) :
    (execStatusGateComplete s).sound := by
  unfold Machine.execStatusGateComplete
  split
  · exact hs.next
  · exact .ite hs.gateDone.next hs.next

theorem State.sound.injWrite {s : State} {v : Nat} {lockstep : Bool} (hs : s.sound) : (s.injWrite v lockstep).sound :=
  .ite hs ((State.sound.ite hs.setFlag hs).setFld.when fun ht => ht.frame.setFlag)

theorem State.sound.execSafeInj {v : Word} {lockstep : Bool} {s : State} (hs : s.sound) : (execSafeInj v lockstep s).sound :=
  hs.injWrite.next

theorem State.sound.execInjectionMissed {s : State} (hs : s.sound) :
    (execInjectionMissed s).sound := by
  unfold Machine.execInjectionMissed
  dsimp only
  split
  · exact hs.next
  · exact .ite hs.frame.setFlag.fault.next hs.next

theorem State.sound.execGoldenRelease {s : State} (hs : s.sound) : (execGoldenRelease s).sound :=
  .ite hs.next (.ite hs.setFld.next hs.frame.next)

theorem State.sound.execGoldenStart {s : State} (hs : s.sound) : (execGoldenStart s).sound := .ite hs.frame.setFlag.next hs.next

theorem State.sound.goldAbandon {s : State} (hs : s.sound) : s.goldAbandon.sound := hs.frame.setFlag

theorem State.sound.execGoldenCompare {ref n : Nat} {refOk : Bool} {s : State} (hs : s.sound) :
    (execGoldenCompare ref n refOk s).sound :=
  .ite hs.next (.ite hs.goldAbandon.raiseEv.fault.next (.ite (State.sound.ite hs.goldAbandon.setFld.raiseEv.fault
      (hs.goldAbandon.setFld.raiseEv.each fun _ _ ht => ht.fault)).next (.ite hs.goldAbandon.raiseEv.fault.next
      hs.goldAbandon.wr.setFld.frame.seqFld.next)))

theorem State.sound.execGoldLate {s : State} (hs : s.sound) : (execGoldLate s).sound := .ite hs.goldAbandon.raiseEv.fault.next hs.next

theorem State.sound.goldWrite {s : State} {v : Nat} {lockstep : Bool} (hs : s.sound) : (s.goldWrite v lockstep).sound :=
  .ite hs (.ite hs.setFlag (hs.setFld.setFld.when fun ht => ht.setFlag.when fun hu => hu.frame))

theorem State.sound.execGoldCtrlWrite {v : Word} {lockstep : Bool} {s : State} (hs : s.sound) :
    (execGoldCtrlWrite v lockstep s).sound :=
  hs.goldWrite.next

/-! ## Time -/

theorem State.sound.pseq {s : State} (hs : s.sound) : s.pseq.sound := hs.seqFld

theorem State.sound.applyRate {s : State} {rho : Int} (hs : s.sound) : (s.applyRate rho).sound :=
  (State.sound.ite hs.setFlag hs).frame.pseq

theorem State.sound.applyStep {s : State} {d : Int} (hs : s.sound) : (s.applyStep d).sound := .ite hs.frame.pseq hs.setFlag

theorem State.sound.rateWrite {s : State} {p v : Nat} (hs : s.sound) : (s.rateWrite p v).sound := .ite hs.setFlag hs.applyRate

theorem State.sound.execTimeRateWrite {p : Fin 2} {v : Half} {s : State} (hs : s.sound) : (execTimeRateWrite p v s).sound :=
  hs.rateWrite.next

theorem State.sound.rateHiWrite {s : State} {p v : Nat} (hs : s.sound) : (s.rateHiWrite p v).sound := hs.frame

theorem State.sound.stepTimeWrite {s : State} {v : Nat} (hs : s.sound) : (s.stepTimeWrite v).sound := hs.applyStep

theorem State.sound.execTimeStepWrite {v : Half} {s : State} (hs : s.sound) : (execTimeStepWrite v s).sound := hs.stepTimeWrite.next

theorem State.sound.rawRead {s : State} {p : Nat} (hs : s.sound) : (s.rawRead p).sound := hs.frame

theorem State.sound.execTimeRawRead {p : Fin 2} {s : State} (hs : s.sound) : (execTimeRawRead p s).sound := hs.rawRead.answer.next

theorem State.sound.nowRead {s : State} {p : Nat} (hs : s.sound) : (s.nowRead p).sound := hs.frame

theorem State.sound.execTimeNowRead {p : Fin 2} {s : State} (hs : s.sound) : (execTimeNowRead p s).sound := hs.nowRead.answer.next

theorem State.sound.memNowRead {s : State} {q : Nat} (hs : s.sound) : (s.memNowRead q).sound := hs.frame

theorem State.sound.execTimemNowRead {q : BitVec 4} {s : State} (hs : s.sound) : (execTimemNowRead q s).sound :=
    hs.memNowRead.answer.next

theorem State.sound.memRaRead {s : State} (hs : s.sound) : s.memRaRead.sound := hs.frame

theorem State.sound.execTimemRaRead {s : State} (hs : s.sound) : (execTimemRaRead s).sound := hs.memRaRead.answer.next

theorem State.sound.mboxServe {s : State} (hs : s.sound) : s.mboxServe.1.sound := by
  unfold State.mboxServe
  dsimp only
  split
  · split
    · exact hs.setFlag
    · dsimp only
      exact hs.applyRate
  · split
    · dsimp only
      exact hs.applyStep
    · exact hs

theorem State.sound.execTimeMailboxRequest {s : State} (hs : s.sound) : (execTimeMailboxRequest s).sound :=
  .ite hs.next hs.mboxServe.storeNat.storeNat.next

theorem State.sound.setPps {s : State} {p : PpsSt} (hs : s.sound) : (s.setPps p).sound := hs.frame

theorem State.sound.ppsTrack {s : State} {edge : Nat} {ambig : Bool} (hs : s.sound) : (s.ppsTrack edge ambig).sound :=
  hs.setFld.setFld.setFlag.setPps

theorem State.sound.ppsDetect {s : State} {rising : Bool} (hs : s.sound) :
    (s.ppsDetect rising).sound := by
  unfold State.ppsDetect
  dsimp only
  split
  · exact hs.setFld.setPps
  · split
    · exact .ite (.ite (.ite hs.setFld.ppsTrack (.ite hs.setFld.ppsTrack hs.setFld.ppsTrack)) hs.setFld.setPps) hs.setFld.setPps
    · exact hs.setFld.setPps

theorem State.sound.ppsTrim {s : State} {e : Int} {prev : Option Int} (hs : s.sound) : (s.ppsTrim e prev).sound := hs.applyRate

theorem State.sound.ppsCtrlWrite {s : State} {v : Nat} (hs : s.sound) : (s.ppsCtrlWrite v).sound :=
  hs.wr.unlessIf fun ht => .ite ht.ppsTrack (.ite ht.ppsTrack (.ite ht.setFld.setPps ht))

theorem State.sound.capRead {s : State} (hs : s.sound) : s.capRead.sound := hs.frame

theorem State.sound.ppsAccept {s : State} (hs : s.sound) : s.ppsAccept.sound :=
  (State.sound.ite hs.wr.wr.applyStep (hs.wr.wr.when fun ht => ht.ppsTrim)).setPps.seqFld.raiseEv

theorem State.sound.execPpsEdge {rising : Bool} {pulse : Nat} {s : State} (hs : s.sound) : (execPpsEdge rising pulse s).sound :=
  .ite hs.next (.ite ((State.sound.ite hs (.ite hs.ppsTrack (.ite hs.ppsTrack hs))).when fun ht => ht.ppsDetect).next (.ite
      ((State.sound.ite hs (.ite hs.ppsTrack (.ite hs.ppsTrack hs))).when fun ht => ht.ppsDetect).next (.ite ((State.sound.ite hs
      (.ite hs.ppsTrack (.ite hs.ppsTrack hs))).when fun ht => ht.ppsDetect).ppsAccept.next ((State.sound.ite hs (.ite hs.ppsTrack
      (.ite hs.ppsTrack hs))).when fun ht => ht.ppsDetect).satFld.next)))

theorem State.sound.execPpsLost {s : State} (hs : s.sound) : (execPpsLost s).sound := .ite hs.setFld.setPps.raiseEv.next hs.next

theorem State.sound.execTcxoFail {s : State} (hs : s.sound) : (execTcxoFail s).sound := .ite hs.next hs.setFlag.raiseEv.fault.next

/-! ## Edge links -/

theorem State.sound.setCsi {s : State} {p f : Nat} {c : CsiSt} (hs : s.sound) : (s.setCsi p f c).sound := hs.frame

theorem State.sound.csiClose {s : State} {p f extra : Nat} (hs : s.sound) :
    (s.csiClose p f extra).sound := by
  unfold State.csiClose
  dsimp only
  split
  · exact hs
  · exact hs.storeDev.storeDev.setFld.seqFld.setCsi.raiseEv

theorem State.sound.csiOpen {s : State} {p f vc fnum : Nat} (hs : s.sound) : (s.csiOpen p f vc fnum).sound := by
  unfold State.csiOpen
  extract_lets t a c
  have ht : t.sound := hs.csiClose
  clear_value t
  split
  · exact ht.countReg
  · split
    · exact ht.storeDev.setFlag.countReg
    · exact ht.setCsi

theorem State.sound.execCsiFrameStart {p : Fin 12} {vc : BitVec 4} {fnum : BitVec 16} {s : State} (hs : s.sound) :
    (execCsiFrameStart p vc fnum s).sound := by
  unfold Machine.execCsiFrameStart
  split
  · exact hs.next
  · split
    · exact hs.countReg.next
    · exact (hs.each fun _ _ ht => ht.csiOpen).next

theorem State.sound.execCsiLine {p : Fin 12} {vc : BitVec 4} {dt : BitVec 6} {bs : List Byte} {lost crcBad fixed : Bool} {s : State}
    (hs : s.sound) :
    (execCsiLine p vc dt bs lost crcBad fixed s).sound := by
  unfold Machine.execCsiLine
  dsimp only
  split
  · exact hs.next
  · split
    · exact hs.countReg.next
    · split
      · exact hs.next
      · exact ((State.sound.ite hs.storeDev hs.countReg).when fun ht => ht.countReg).setCsi.next

theorem State.sound.execCsiFrameEnd {p : Fin 12} {vc : BitVec 4} {s : State} (hs : s.sound) :
    (execCsiFrameEnd p vc s).sound := by
  unfold Machine.execCsiFrameEnd
  split
  · exact hs.next
  · split
    · exact hs.countReg.next
    · exact (hs.each fun _ _ ht => ht.csiClose).next

theorem State.sound.execCsiFrameTimeout {p : Fin 12} {f : Fin 4} {s : State} (hs : s.sound) :
    (execCsiFrameTimeout p f s).sound := by
  unfold Machine.execCsiFrameTimeout
  split
  · exact .ite hs.csiClose.next hs.next
  · exact hs.next

theorem State.sound.execCsiSyncLost {p : Fin 12} {rest : Nat} {s : State} (hs : s.sound) :
    (execCsiSyncLost p rest s).sound := by
  unfold Machine.execCsiSyncLost
  dsimp only
  split
  · exact hs.next
  · refine State.sound.next (hs.setFlag.setFlag.each fun _ _ ht => ?_)
    split
    · exact ht.setCsi.countReg.csiClose
    · exact ht

theorem State.sound.csiOverwrite {s : State} {p f j : Nat} (hs : s.sound) : (s.csiOverwrite p f j).sound := .ite hs hs.storeDev.account

theorem State.sound.execCsiStamp {p : Fin 12} {f : Fin 4} {ts : CsiTimes} {src : BitVec 9} {room : Bool} {s : State} (hs : s.sound) :
    (execCsiStamp p f ts src room s).sound := by
  unfold Machine.execCsiStamp
  dsimp only
  split
  · exact hs.next
  · exact .ite (hs.storeDev.setCsi.raiseEv.when fun ht => ht.csiOverwrite).next hs.next

theorem State.sound.rctlWrite {s : State} {p f v : Nat} (hs : s.sound) : (s.rctlWrite p f v).sound := .ite hs hs.setFld.setFld

theorem State.sound.execCsiRctlWrite {p : Fin 12} {f : Fin 4} {v : Word} {s : State} (hs : s.sound) :
    (execCsiRctlWrite p f v s).sound :=
  hs.rctlWrite.next

theorem State.sound.execCsiLaneSync {p : Fin 12} {s : State} (hs : s.sound) : (execCsiLaneSync p s).sound := .ite hs.setFlag.next
    hs.next

theorem State.sound.setEth {s : State} {n : Nat} {e : EthSt} (hs : s.sound) : (s.setEth n e).sound := hs.frame

theorem State.sound.ringStep {s : State} {c : Nat} (hs : s.sound) : (s.ringStep c).sound := hs.seqFld

theorem State.sound.ethStamp {s : State} {n : Nat} {tx : Bool} {raw : Nat} {bs : List Byte} (hs : s.sound) :
    (s.ethStamp n tx raw bs).sound := by
  unfold State.ethStamp
  dsimp only
  split
  · exact hs
  · exact .ite hs.countReg hs.setEth

theorem State.sound.ethSettle {s : State} {n : Nat} (hs : s.sound) : (s.ethSettle n).sound := hs.setEth

theorem State.sound.ethHead {s : State} {n q : Nat} (hs : s.sound) : (s.ethHead n q).sound := hs.setEth

theorem State.sound.ethRelease {s : State} {n q : Nat} (hs : s.sound) : someSound (s.ethRelease n q) :=
  .ite .none (.ite hs.storeDev.ringStep.ethHead.some (.ite ((hs.when fun ht => ht.countReg).ethSettle.setEth.ethSettle).some .none))

theorem State.sound.execEthTxRelease {n : BitVec 2} {q : BitVec 3} {s : State} (hs : s.sound) :
    (execEthTxRelease n q s).sound := by
  unfold Machine.execEthTxRelease
  split
  · next e => exact (hs.ethRelease _ e).next
  · exact hs.next

theorem State.sound.ethSent {s : State} {n q : Nat} {err : Bool} {sfd : Nat} (hs : s.sound) : (s.ethSent n q err sfd).sound :=
  hs.storeDev.storeDev.ringStep.setEth.ethHead.ethSettle.ethStamp

theorem State.sound.execEthTxDone {n : BitVec 2} {q : BitVec 3} {r : EthSent} {s : State} (hs : s.sound) :
    (execEthTxDone n q r s).sound := by
  unfold Machine.execEthTxDone
  dsimp only
  split
  · exact .ite hs.ethSettle.ethSent.next hs.next
  · exact hs.next

theorem State.sound.ethPause {s : State} {n k : Nat} (hs : s.sound) : (s.ethPause n k).sound := hs.ethSettle.setEth.ethSettle

theorem State.sound.ethDeliver {s : State} {n r : Nat} {bs : List Byte} {bad tagged full : Bool} (hs : s.sound) :
    (s.ethDeliver n r bs bad tagged full).sound :=
  .ite hs.countReg.setEth hs.storeDev.storeDev.ringStep.setEth

theorem State.sound.execEthRxFrame {n : BitVec 2} {bs : List Byte} {bad full : Bool} {sfd : Word} {s : State} (hs : s.sound) :
    (execEthRxFrame n bs bad full sfd s).sound := by
  unfold Machine.execEthRxFrame
  dsimp only
  split
  · exact hs.next
  · split
    · exact hs.next
    · split
      · exact hs.ethPause.next
      · exact hs.ethStamp.ethDeliver.next

theorem State.sound.tsRead0 {s : State} {n : Nat} {tx : Bool} (hs : s.sound) : (s.tsRead0 n tx).1.sound := hs.setEth

theorem State.sound.execEthTsRead0 {n : BitVec 2} {tx : Bool} {s : State} (hs : s.sound) : (execEthTsRead0 n tx s).sound :=
  hs.tsRead0.answer.next

theorem State.sound.tsRead1 {s : State} {n : Nat} {tx : Bool} (hs : s.sound) : (s.tsRead1 n tx).1.sound := by
  unfold State.tsRead1
  dsimp only
  split
  · exact hs.setEth
  · exact hs

theorem State.sound.execEthTsRead1 {n : BitVec 2} {tx : Bool} {s : State} (hs : s.sound) : (execEthTsRead1 n tx s).sound :=
  hs.tsRead1.answer.next

theorem State.sound.execEthGclCycle {n : BitVec 2} {s : State} (hs : s.sound) : (execEthGclCycle n s).sound :=
  .ite hs.setEth.setFlag.next hs.next

theorem State.sound.gclPending {s : State} {n : Nat} (hs : s.sound) : (s.gclPending n).sound := hs.setFlag

theorem State.sound.execEthLink {n : BitVec 2} {up : Bool} {s : State} (hs : s.sound) : (execEthLink n up s).sound :=
  .ite (hs.setFlag.unlessIf fun ht => ht.setFlag).raiseEv.next hs.next

theorem State.sound.ringWrite {s : State} {c v : Nat} (hs : s.sound) : (s.ringWrite c v).sound :=
  (hs.setFld.unlessIf fun ht => ht.setFld).setFlag

theorem State.sound.txRingWrite {s : State} {n q v : Nat} (hs : s.sound) : (s.txRingWrite n q v).sound :=
  hs.ringWrite.when fun ht => ht.ethHead

theorem State.sound.setCbs {s : State} {n q v : Nat} (hs : s.sound) : (s.setCbs n q v).sound := hs.setFld.setFlag

theorem State.sound.cbsWrite {s : State} {n q v : Nat} (hs : s.sound) : (s.cbsWrite n q v).sound := hs.ethSettle.setCbs

theorem State.sound.execPcieLinkUp {rate : BitVec 3} {width : BitVec 2} {s : State} (hs : s.sound) :
    (execPcieLinkUp rate width s).sound :=
  .ite hs.frame.setFld.setFld.setFlag.next hs.next

theorem State.sound.execPcieDown {n : Nat} {s : State} (hs : s.sound) : (execPcieDown n s).sound :=
  .ite hs.setFlag.setFlag.countReg.raiseEv.next hs.next

theorem State.sound.execPcieDoorbell {d : BitVec 6} {s : State} (hs : s.sound) : (execPcieDoorbell d s).sound :=
  .ite hs.setFlag.raiseEv.next hs.next

theorem State.sound.msix {s : State} {v : Nat} (hs : s.sound) : (s.msix v).sound := .ite hs.answer hs

theorem State.sound.execPcieMsix {v : Word} {s : State} (hs : s.sound) : (execPcieMsix v s).sound := hs.msix.next

theorem State.sound.barWrite {s : State} {v : Nat} (hs : s.sound) : (s.barWrite v).sound := hs.setFld.setFlag

theorem State.sound.execPcieBar0winWrite {v : Word} {s : State} (hs : s.sound) : (execPcieBar0winWrite v s).sound := hs.barWrite.next

theorem State.sound.pcieMove {s : State} {a n : Nat} {data : List Byte} (hs : s.sound) : (s.pcieMove a n data).sound :=
  .ite hs.countReg.answer (.ite hs.answer hs.store.answer)

theorem State.sound.execPcieHostRequest {bar2 : Bool} {off n : Nat} {data : List Byte} {s : State} (hs : s.sound) :
    (execPcieHostRequest bar2 off n data s).sound := by
  unfold Machine.execPcieHostRequest
  split
  · exact hs.pcieMove.next
  · split
    · exact hs.next
    · split
      · exact hs.pcieMove.next
      · exact .ite hs.answer.next hs.countReg.answer.next

/-! ## Moves -/

theorem State.sound.openXfer {s : State} {f dev base : Nat} {put : Bool} {pieces : List (Nat × Nat)} {dst src : Option EflRef}
    (hs : s.sound) :
    (s.openXfer f dev base put pieces dst src).sound :=
  hs.frame

theorem State.sound.moveOut {s : State} {f : Fin 6} {h : Hdr} {o : FmtM} {ins : Instr} {chk : Chk} {uses : List (Nat × Bool)}
    {reads : State → List (Nat × Nat)} {free : Nat} {compute : State → TOut} {remote : State → State} (hs : s.sound)
    (hr : ∀ t, t.sound → (remote t).sound) : (moveOut s f h o ins chk uses reads free compute remote).sound := by
  unfold Machine.moveOut
  exact hs.issueTensor fun _ ht => hr _ ht.modFace

theorem State.sound.putXfer {s : State} {f : Nat} {d : TRef} {t : State} (ht : t.sound) : (s.putXfer f d t).sound :=
  ht.when fun hu => hu.openXfer

theorem State.sound.execMov {f : Fin 6} {h : Hdr} {o : FmtM} {s : State} (hs : s.sound) : (execMov f h o s).sound :=
  .ite (hs.moveOut fun _ ht => ht.openXfer) (hs.moveOut fun _ ht => ht.putXfer)

theorem State.sound.execMovz {f : Fin 6} {h : Hdr} {o : FmtM} {s : State} (hs : s.sound) : (execMovz f h o s).sound := by
  unfold Machine.execMovz
  exact hs.moveOut fun _ ht => ht.putXfer

/-! ## Egress and ingress -/

theorem State.sound.setPort {s : State} {n : Nat} {p : EflPort} (hs : s.sound) : (s.setPort n p).sound := hs.frame

theorem State.sound.eflLose {s : State} {n : Nat} (hs : s.sound) : (s.eflLose n).sound := .ite hs.setFlag.setFlag hs

theorem State.sound.eflRetrain {s : State} {n : Nat} (hs : s.sound) : (s.eflRetrain n).sound := hs.eflLose.setFlag.countReg.setPort

theorem State.sound.eflDown {s : State} {n : Nat} (hs : s.sound) : (s.eflDown n).sound :=
  hs.eflLose.setFlag.setFlag.raiseEv.each fun _ _ ht => ht.fault.frame

theorem State.sound.execEflTrain {n : Fin 2} {dev ndev topo : BitVec 2} {s : State} (hs : s.sound) :
    (execEflTrain n dev ndev topo s).sound :=
  .ite hs.next (.ite (hs.setFld.when fun ht => ht.countReg).setFlag.setFlag.setPort.next hs.setFld.setFlag.raiseEv.next)

theorem State.sound.execEflRetrain {n : Fin 2} {s : State} (hs : s.sound) : (execEflRetrain n s).sound := .ite hs.eflRetrain.next
    hs.next

theorem State.sound.execEflLaneFail {n : Fin 2} {half : Option Bool} {s : State} (hs : s.sound) :
    (execEflLaneFail n half s).sound := by
  unfold Machine.execEflLaneFail
  split
  · exact hs.next
  · split
    · exact hs.eflDown.next
    · exact hs.eflRetrain.setFlag.next

theorem State.sound.execEflDown {n : Fin 2} {s : State} (hs : s.sound) : (execEflDown n s).sound := .ite hs.eflDown.next hs.next

theorem State.sound.eflCtrlWrite {s : State} {n v : Nat} (hs : s.sound) : (s.eflCtrlWrite n v).sound :=
  (State.sound.ite hs.eflLose.setFlag (.ite hs.setFlag.setFlag.setFld.setPort.frame hs)).setFlag

theorem State.sound.execEflCtrlWrite {n : Fin 2} {v : Word} {s : State} (hs : s.sound) : (execEflCtrlWrite n v s).sound :=
  hs.eflCtrlWrite.next

theorem State.sound.eflTopoWrite {s : State} {v : Nat} (hs : s.sound) : (s.eflTopoWrite v).sound := .ite hs hs.setFld.setFld

theorem State.sound.eflSend {s : State} {n : Nat} {l : List EflFrame} (hs : s.sound) : (s.eflSend n l).sound :=
  hs.each fun _ _ ht => ht.setPort

theorem State.sound.execEflFrameRx {n : Fin 2} {i : EflIn} {s : State} (hs : s.sound) :
    (execEflFrameRx n i s).sound := by
  unfold Machine.execEflFrameRx
  dsimp only
  split
  · exact hs.next
  · split
    · exact hs.countReg.setPort.next
    · exact hs.setPort.next
    · exact hs.countReg.setPort.next
    · exact .ite hs.next (.ite hs.next (.ite hs.setPort.setPort.next (.ite hs.setPort.eflSend.next hs.next)))

theorem State.sound.eflPop {s : State} {n : Nat} (hs : s.sound) : (s.eflPop n).sound := hs.setPort

theorem State.sound.modXfer {s : State} {f seq : Nat} {g : EflXfer → EflXfer} (hs : s.sound) : (s.modXfer f seq g).sound := hs.frame

theorem State.sound.useCredit {s : State} {n p : Nat} {take : Bool} (hs : s.sound) : (s.useCredit n p take).sound := hs.frame.setFld

theorem State.sound.startPiece {s : State} {x : EflXfer} {e : Entry} {k len win gen : Nat} (hs : s.sound) :
    (s.startPiece x e k len win gen).sound :=
  hs.useCredit.modXfer.frame.eflSend

theorem State.sound.execEflPutPiece {f : Fin 6} {seq : Nat} {win : BitVec 6} {gen : BitVec 8} {s : State} (hs : s.sound) :
    (execEflPutPiece f seq win gen s).sound := by
  unfold Machine.execEflPutPiece
  dsimp only
  split
  · split
    · exact hs.next
    · exact .ite hs.startPiece.next hs.next
  · exact hs.next

theorem State.sound.endFlight {s : State} {x : EflFlight} (hs : s.sound) : (s.endFlight x).sound :=
  hs.frame.unlessIf fun ht => ht.useCredit

theorem State.sound.failXfer {s : State} {x : EflFlight} {code : Nat} (hs : s.sound) :
    (s.failXfer x code).sound := by
  unfold State.failXfer
  dsimp only
  split
  · exact hs.frame.leaveWindow.takeExc
  · exact hs

theorem State.sound.sendInc {s : State} {f seq : Nat} (hs : s.sound) :
    (s.sendInc f seq).sound := by
  unfold State.sendInc
  dsimp only
  split
  · exact .ite hs.modXfer.frame.eflSend hs
  · exact hs

theorem State.sound.execAckc {n : Fin 2} {s : State} (hs : s.sound) :
    (execAckc n s).sound := by
  unfold Machine.execAckc
  dsimp only
  split
  · exact hs.next
  · split
    · exact hs.eflPop.next
    · exact .ite hs.eflPop.endFlight.failXfer.next (.ite hs.eflPop.endFlight.modXfer.next hs.eflPop.endFlight.modXfer.sendInc.next)

theorem State.sound.execGetrsp {n : Fin 2} {s : State} (hs : s.sound) :
    (execGetrsp n s).sound := by
  unfold Machine.execGetrsp
  dsimp only
  split
  · exact hs.next
  · split
    · exact hs.eflPop.next
    · exact .ite hs.eflPop.endFlight.failXfer.next (.ite hs.eflPop.store.endFlight.modXfer.next hs.eflPop.store.next)

theorem State.sound.landBytes {s : State} {i a : Nat} {bs : List Byte} (hs : s.sound) :
    (s.landBytes i a bs).sound := by
  unfold State.landBytes
  refine State.sound.store ?_
  split
  · exact hs.raceOld
  · exact hs

theorem State.sound.eflRefuse {s : State} {n : Nat} (hs : s.sound) : (s.eflRefuse n).sound := hs.countReg

theorem State.sound.execEflPieceReceive {n : Fin 2} {len : Nat} {s : State} (hs : s.sound) :
    (execEflPieceReceive n len s).sound := by
  unfold Machine.execEflPieceReceive
  dsimp only
  split
  · exact hs.next
  · split
    · exact hs.next
    · split
      · refine State.sound.next (State.sound.eflSend (.frame ?_))
        split
        · exact hs.eflPop.when fun ht => ht.landBytes
        · exact (hs.eflPop.frame.unlessIf fun ht => ht.eflRefuse).when fun ht => ht.landBytes
      · refine State.sound.next ?_
        split
        · exact hs.eflPop.when fun ht => ht.landBytes
        · exact (hs.eflPop.frame.unlessIf fun ht => ht.eflRefuse).when fun ht => ht.landBytes

theorem State.sound.execInc {n : Fin 2} {s : State} (hs : s.sound) :
    (execInc n s).sound := by
  unfold Machine.execInc
  dsimp only
  split
  · exact hs.next
  · exact .ite hs.next (State.sound.ite hs.eflPop.eflRefuse (hs.eflPop.when fun ht => ht.sendRouted)).eflSend.next

theorem State.sound.execGetreq {n : Fin 2} {bad : Bool} {s : State} (hs : s.sound) :
    (execGetreq n bad s).sound := by
  unfold Machine.execGetreq
  dsimp only
  split
  · exact hs.next
  · exact .ite (hs.eflPop.when fun ht => ht.eflRefuse).eflSend.next hs.next

theorem State.sound.winErr {s : State} {i code : Nat} (hs : s.sound) : (s.winErr i code).sound := hs.setFld.setFld

theorem State.sound.winaWrite {s : State} {i v : Nat} (hs : s.sound) :
    (s.winaWrite i v).sound := by
  unfold State.winaWrite
  dsimp only
  split
  · exact (State.sound.ite hs hs.winErr).unlessIf fun ht => ht.closeWindow
  · split
    · exact .ite hs.winErr hs
    · refine hs.setFld.setFld.when fun ht => ?_
      split
      · exact ht.setFld.setFlag
      · exact ht.winErr

theorem State.sound.winbWrite {s : State} {i v : Nat} (hs : s.sound) : (s.winbWrite i v).sound :=
  .ite (.ite hs hs.winErr) hs.setFld.setFld

theorem State.sound.execEflWinOpen {i : BitVec 6} {v : Word} {s : State} (hs : s.sound) : (execEflWinOpen i v s).sound :=
  hs.winaWrite.next

theorem State.sound.execEflWinClose {i : BitVec 6} {s : State} (hs : s.sound) : (execEflWinClose i s).sound := hs.winaWrite.next

theorem State.sound.execEflWinCloseDone {i : BitVec 6} {s : State} (hs : s.sound) : (execEflWinCloseDone i s).sound :=
  .ite hs.setFlag.next hs.next

/-! ## Field buses and the permit -/

theorem State.sound.count32 {s : State} {a : Nat} (hs : s.sound) : (s.count32 a).sound := hs.satFld

theorem State.sound.setCan {s : State} {c : Nat} {x : CanSt} (hs : s.sound) : (s.setCan c x).sound := hs.frame

theorem State.sound.setTx {s : State} {c b x : Nat} (hs : s.sound) : (s.setTx c b x).sound := hs.setFld

theorem State.sound.canHeads {old s : State} {c : Nat} (hs : s.sound) : (old.canHeads s c).sound := hs.each fun _ _ ht => ht.setCan

theorem State.sound.txDone {s : State} {c b x : Nat} (hs : s.sound) : (s.txDone c b x).sound := hs.setTx.canHeads.setCan.raiseEv

theorem State.sound.canSend {s : State} {c m : Nat} (hs : s.sound) : (s.canSend c m).sound :=
  (hs.each fun _ _ ht => .ite ht.setTx ht).canHeads

theorem State.sound.execCanSend {c : BitVec 2} {m : BitVec 3} {s : State} (hs : s.sound) : (execCanSend c m s).sound := hs.canSend.next

theorem State.sound.canAbort {s : State} {c m : Nat} (hs : s.sound) : (s.canAbort c m).sound :=
  hs.each fun _ _ ht => .ite ht (.ite ht.txDone (.ite ht.setCan ht))

theorem State.sound.execCanAbort {c : BitVec 2} {m : BitVec 3} {s : State} (hs : s.sound) : (execCanAbort c m s).sound :=
    hs.canAbort.next

theorem State.sound.canRecover {s : State} {c : Nat} (hs : s.sound) : (s.canRecover c).sound := .ite hs.setCan hs

theorem State.sound.execCanRecover {c : BitVec 2} {s : State} (hs : s.sound) : (execCanRecover c s).sound := hs.canRecover.next

theorem State.sound.txCmd {s : State} {c v : Nat} (hs : s.sound) : (s.txCmd c v).sound := hs.canAbort.canSend.when fun ht =>
    ht.canRecover

theorem State.sound.txBufWrite {s : State} {c b o : Nat} {bs : List Byte} (hs : s.sound) : (s.txBufWrite c b o bs).sound :=
  .ite hs.setFlag (.ite hs.setFlag hs.store)

theorem State.sound.execCanTxbufWrite {c : BitVec 2} {b : Fin 3} {o : BitVec 12} {v : Half} {s : State} (hs : s.sound) :
    (execCanTxbufWrite c b o v s).sound :=
  hs.txBufWrite.next

theorem State.sound.canRelease {s : State} {c b : Nat} (hs : s.sound) : someSound (s.canRelease c b) :=
  .ite hs.setTx.setFlag.some .none

theorem State.sound.canFstate {s : State} {c : Nat} (hs : s.sound) : (s.canFstate c).sound := .ite hs hs.setFld

theorem State.sound.execCanBusoff {c : BitVec 2} {back : Bool} {s : State} (hs : s.sound) : (execCanBusoff c back s).sound :=
  .ite (.ite hs.setFld.setFld.setCan.next hs.next) (.ite (hs.setFld.setFld.setFlag.each fun _ _ ht => .ite ht.setTx ht).next hs.next)

theorem State.sound.bldCount {s : State} {kind i : Nat} (hs : s.sound) : (s.bldCount kind i).sound := hs.count32.setFld.setFld

theorem State.sound.setT1s {s : State} {n : Nat} {x : T1sSt} (hs : s.sound) : (s.setT1s n x).sound := hs.frame

theorem State.sound.t1sPush {s : State} {n : Nat} {x : T1sItem} (hs : s.sound) : (s.t1sPush n x).sound := .ite hs.setFlag
    hs.setT1s.setFld

theorem State.sound.bldMade {s : State} {i : Nat} (hs : s.sound) : (s.bldMade i).sound := hs.frame

theorem State.sound.build {s : State} {i t : Nat} (hs : s.sound) : (s.build i t).sound :=
  .ite hs (.ite hs.bldMade.t1sPush (.ite hs.bldCount.raiseEv (State.sound.ite hs.bldCount hs).bldMade.store.setTx.canHeads))

theorem State.sound.buildAll {s : State} {n t : Nat} (hs : s.sound) : (s.buildAll n t).sound := hs.each fun _ _ ht => ht.build

theorem State.sound.bldClr {s : State} (hs : s.sound) : s.bldClr.sound := hs.wr.wr.wr.wr

theorem State.sound.execBldClr {s : State} (hs : s.sound) : (execBldClr s).sound := hs.bldClr.next

theorem State.sound.applyMap {s : State} {m : Nat} {bs : List Byte} (hs : s.sound) : (s.applyMap m bs).sound :=
  .ite hs.bldCount (hs.each fun _ _ ht => ht.wr)

theorem State.sound.homeStamp {s : State} {at0 : Nat} (hs : s.sound) : (s.homeStamp at0).2.sound := hs.take

theorem State.sound.canReceive {s : State} {c : Nat} {h : Nat × Nat × Nat} {bs : List Byte} {sof : Nat} (hs : s.sound) :
    (s.canReceive c h bs sof).sound := by
  unfold State.canReceive
  dsimp only
  split
  · exact hs.count32
  · exact .ite ((State.sound.ite hs.homeStamp.frame hs).when fun ht => ht.applyMap).raiseEv.count32
      ((State.sound.ite hs.homeStamp.frame hs).when fun ht => ht.applyMap).raiseEv.store.seqFld

theorem State.sound.recCount {s : State} {c err : Nat} {hard : Bool} (hs : s.sound) : (s.recCount c err hard).sound :=
  .ite hs (.ite hs.setFld.canFstate (.ite hs.take.setFld.canFstate hs.setFld.canFstate))

theorem State.sound.execCanRx {c : BitVec 2} {fr : CanFrame} {err : BitVec 3} {hard : Bool} {sof : Word} {s : State} (hs : s.sound) :
    (execCanRx c fr err hard sof s).sound :=
  .ite hs.next (.ite hs.next (.ite hs.recCount.setFld.next (.ite hs.next hs.recCount.canReceive.next)))

theorem State.sound.canEcho {s : State} {c b sof : Nat} (hs : s.sound) : (s.canEcho c b sof).sound := hs.canReceive

theorem State.sound.execCanTx {c : BitVec 2} {b : Fin 3} {r : CanAttempt} {sof : Word} {s : State} (hs : s.sound) :
    (execCanTx c b r sof s).sound :=
  .ite hs.next (.ite (hs.setFld.canFstate.txDone.when fun ht => ht.canEcho).next (.ite (State.sound.ite hs.setFld.setFld.canFstate
      hs).txDone.next (.ite (State.sound.ite hs.setFld.setFld.canFstate hs).txDone.next (State.sound.ite hs.setFld.setFld.canFstate
      hs).setTx.next)))

theorem State.sound.tailRelease {s : State} {head tail v : Nat} (hs : s.sound) : (s.tailRelease head tail v).sound := .ite hs.setFld hs

theorem State.sound.execCanRxtailWrite {c : BitVec 2} {q : BitVec 1} {v : Half} {s : State} (hs : s.sound) :
    (execCanRxtailWrite c q v s).sound :=
  hs.tailRelease.next

theorem State.sound.rxCfgWrite {s : State} {c q v : Nat} (hs : s.sound) : (s.rxCfgWrite c q v).sound :=
  .ite (.ite hs hs.setFld.setFlag) hs.setFld.setFlag

theorem State.sound.txPush {s : State} {n v : Nat} (hs : s.sound) : (s.txPush n v).sound := hs.t1sPush

theorem State.sound.execT1sTxpush {n : Fin 2} {v : Half} {s : State} (hs : s.sound) : (execT1sTxpush n v s).sound := hs.txPush.next

theorem State.sound.t1sRelease {s : State} {n : Nat} (hs : s.sound) : someSound (s.t1sRelease n) := by
  unfold State.t1sRelease
  dsimp only
  split
  · exact .ite (hs.setT1s.when fun ht => ht.satFld).some .none
  · exact .none

theorem State.sound.execT1sTx {n : Fin 2} {s : State} (hs : s.sound) : (execT1sTx n s).sound := .ite hs.setT1s.setFld.seqFld.next
    hs.next

theorem State.sound.execT1sRx {n : Fin 2} {bs : List Byte} {bad : Bool} {s : State} (hs : s.sound) : (execT1sRx n bs bad s).sound :=
  .ite hs.next (.ite hs.next (.ite hs.count32.setT1s.next hs.store.seqFld.setT1s.next))

theorem State.sound.execPlcaStatus {n : Fin 2} {link ok beacon coll : Bool} {s : State} (hs : s.sound) :
    (execPlcaStatus n link ok beacon coll s).sound :=
  .ite (hs.setFlag.setFlag.setFlag.when fun ht => ht.setFlag).next hs.next

theorem State.sound.t1sCtrl {s : State} {n v : Nat} (hs : s.sound) : (s.t1sCtrl n v).sound := .ite hs hs.setFld.setFld

theorem State.sound.execLaunchRelease {i : LaunchItem} {s : State} (hs : s.sound) : (execLaunchRelease i s).sound := by
  unfold Machine.execLaunchRelease
  extract_lets r
  have hr : someSound r := by
    unfold r
    split
    · exact hs.ethRelease
    · exact hs.canRelease
    · exact hs.t1sRelease
  clear_value r
  cases r with
  | none => exact hs.next
  | some t => exact (hr t rfl).next

theorem State.sound.setEnc {s : State} {p : Nat} {x : EncSt} (hs : s.sound) : (s.setEnc p x).sound := hs.frame

theorem State.sound.encCapture {s : State} {p : Nat} (hs : s.sound) : (s.encCapture p).sound :=
  .ite hs ((State.sound.ite hs hs.take).when fun ht => ht.satFld).wr.wr.setEnc

theorem State.sound.execEncQuadEdge {p : BitVec 4} {up : Bool} {s : State} (hs : s.sound) : (execEncQuadEdge p up s).sound :=
  .ite hs.setEnc.next hs.next

theorem State.sound.encStamp {s : State} {p : Nat} (hs : s.sound) : (s.encStamp p).sound := hs.homeStamp.frame

theorem State.sound.execEncEvent {p : BitVec 4} {index : Bool} {s : State} (hs : s.sound) : (execEncEvent p index s).sound :=
  .ite hs.next (State.sound.ite hs.setFlag hs.satFld).encStamp.raiseEv.next

theorem State.sound.encCfg {s : State} {p v : Nat} (hs : s.sound) : (s.encCfg p v).sound :=
  .ite (.ite hs hs.wr.setFlag) (.ite hs.wr.setFlag.setFlag.setEnc (hs.wr.setFlag.when fun ht => ht.setFlag))

theorem State.sound.execEncCfgWrite {p : BitVec 4} {v : Half} {s : State} (hs : s.sound) : (execEncCfgWrite p v s).sound :=
    hs.encCfg.next

theorem State.sound.execPwmPeriodStart {k : Fin 12} {s : State} (hs : s.sound) : (execPwmPeriodStart k s).sound :=
  (hs.frame.setFld.unlessIf fun ht => ht.setFld).next

theorem State.sound.permitKick {s : State} {p : Nat} (hs : s.sound) : (s.permitKick p).sound := hs.frame

theorem State.sound.execPermitKick {p : Fin 2} {s : State} (hs : s.sound) : (execPermitKick p s).sound := hs.permitKick.next

theorem State.sound.execPermitKickMiss {p : Fin 2} {s : State} (hs : s.sound) : (execPermitKickMiss p s).sound :=
  .ite hs.permitStop.next hs.next

theorem State.sound.permitArm {s : State} {p v : Nat} (hs : s.sound) :
    (s.permitArm p v).sound := by
  unfold State.permitArm
  dsimp only
  split
  · exact hs
  · split
    · exact hs.frame
    · split
      · split
        · exact .ite hs.frame.setFld hs
        · exact hs
      · exact hs

theorem State.sound.execPermitArm {p : Fin 2} {v : Half} {s : State} (hs : s.sound) : (execPermitArm p v s).sound := hs.permitArm.next

theorem State.sound.execPermitStart {s : State} (hs : s.sound) :
    (execPermitStart s).sound := by
  unfold Machine.execPermitStart
  dsimp only
  split
  · exact .ite hs.frame.setFld.next hs.next
  · exact hs.next

theorem State.sound.execPermitStop {s : State} (hs : s.sound) : (execPermitStop s).sound := hs.permitStop.next

theorem State.sound.execPermitReadbackSample {good : Bool} {s : State} (hs : s.sound) : (execPermitReadbackSample good s).sound :=
  (hs.frame.unlessIf fun ht => ht.permitStop).next

theorem State.sound.execGfpEdge {i : BitVec 4} {level : Bool} {s : State} (hs : s.sound) : (execGfpEdge i level s).sound :=
  .ite hs.next ((hs.setFlag.when fun ht => ht.setFlag.raiseEv).when fun ht => ht.wr).next

theorem State.sound.fbFault {s : State} {i k : Nat} (hs : s.sound) : (s.fbFault i k).sound :=
  hs.setFlag.raiseEv.encStamp.raiseEv.when fun ht => ht.permitStop

theorem State.sound.execFbDiagSlot {linkStart : Bool} {found : List (Nat × BitVec 2)} {s : State} (hs : s.sound) :
    (execFbDiagSlot linkStart found s).sound :=
  .ite (hs.each fun _ _ ht => .ite ht.fbFault (.ite ht.fbFault (.ite ht.fbFault ht))).next hs.next

theorem State.sound.execFbFault {i : Fin 141} {k : BitVec 2} {s : State} (hs : s.sound) : (execFbFault i k s).sound :=
  .ite hs.next (hs.setFlag.fbFault.when fun ht => ht.frame.setFlag).next

theorem State.sound.execFbFoldback {i : Fin 141} {folded limit : Bool} {s : State} (hs : s.sound) :
    (execFbFoldback i folded limit s).sound :=
  hs.setFlag.setFlag.next

/-! ## HBM -/

theorem State.sound.hbmUe {s : State} {a : Nat} (hs : s.sound) : (s.hbmUe a).sound := hs.countReg.wr.fault

theorem State.sound.memError {s : State} {f seq a : Nat} (hs : s.sound) :
    (s.memError f seq a).sound := by
  unfold State.memError
  dsimp only
  split
  · exact hs.takeExc.modFace
  · split
    · exact hs.recordExc.modFace
    · exact hs

theorem State.sound.execHbmAccessComplete {a : Nat} {r : BitVec 3} {face : Option (Fin 6)} {seq : Nat} {s : State} (hs : s.sound) :
    (execHbmAccessComplete a r face seq s).sound := by
  unfold Machine.execHbmAccessComplete
  refine State.sound.next ?_
  split
  · exact hs
  · exact hs.countReg
  · exact hs.countReg
  · split
    · exact hs.markBad.hbmUe.memError
    · exact hs.markBad.hbmUe
  · split
    · exact hs.countReg.hbmUe.memError
    · exact hs.countReg.hbmUe

theorem State.sound.execHbmRefresh {s : State} (hs : s.sound) : (execHbmRefresh s).sound := hs.next

theorem State.sound.execHbmTempReport {t : BitVec 8} {s : State} (hs : s.sound) : (execHbmTempReport t s).sound :=
  (hs.setFlag.setFlag.when fun ht => ht.raiseEv).next

theorem State.sound.execHbmTrained {h : BitVec 1} {s : State} (hs : s.sound) : (execHbmTrained h s).sound := hs.setFlag.setFlag.next

theorem State.sound.execPaceWindow {d : BitVec 3} {n : BitVec 14} {s : State} (hs : s.sound) : (execPaceWindow d n s).sound :=
  .ite hs.next ((hs.wr.when fun ht => ht.frameSched).when fun ht => ht.raiseEv).next

theorem State.sound.execArbStarve {k : BitVec 5} {q : ArbWait} {s : State} (hs : s.sound) : (execArbStarve k q s).sound :=
  .ite hs.next (.ite (.ite hs.next hs.setFlag.raiseEv.next) hs.next)

theorem State.sound.execArbRevoke {s : State} (hs : s.sound) : (execArbRevoke s).sound := hs.countReg.next

theorem State.sound.execGateRead {a n : Nat} {w : Option (List (BitVec 8))} {s : State} (hs : s.sound) :
    (execGateRead a n w s).sound := by
  unfold Machine.execGateRead
  split
  · exact hs.answer.next
  · split
    · exact hs.answer.next
    · split
      · exact hs.answer.next
      · exact hs.store.answer.next

theorem State.sound.pertRefresh {s : State} (hs : s.sound) : s.pertRefresh.sound := hs.setFlag

theorem State.sound.pertDenied {s : State} (hs : s.sound) : s.pertDenied.sound := hs.setFlag

theorem State.sound.pertWrite {s : State} {a v : Nat} (hs : s.sound) :
    (s.pertWrite a v).sound := by
  unfold State.pertWrite
  split
  · exact hs.pertDenied
  · split
    · exact hs.wr.pertRefresh
    · exact hs

theorem State.sound.pertDelayWrite {s : State} {v : Nat} (hs : s.sound) : (s.pertDelayWrite v).sound :=
  .ite hs.pertDenied hs.frame.pertRefresh

theorem State.sound.execPertWrite {k : BitVec 3} {v : Word} {s : State} (hs : s.sound) : (execPertWrite k v s).sound :=
  (State.sound.ite hs.pertDelayWrite hs.pertWrite).next

theorem State.sound.execPertDelayWrite {v : Word} {s : State} (hs : s.sound) : (execPertDelayWrite v s).sound := hs.pertDelayWrite.next

/-! ## The control engine -/

theorem State.sound.ceErr {s : State} {code loop : Nat} (hs : s.sound) : (s.ceErr code loop).sound := hs.setFld.setFld

theorem State.sound.ceZero {s : State} {n : Nat} (hs : s.sound) : (s.ceZero n).sound := hs.each fun _ _ ht => ht.wr

theorem State.sound.loopClosing {s : State} {n : Nat} {on : Bool} (hs : s.sound) : (s.loopClosing n on).sound := hs.frame

theorem State.sound.loopCfg {s : State} {n v : Nat} (hs : s.sound) : (s.loopCfg n v).sound :=
  .ite (.ite hs.wr.frame.loopClosing.ceZero hs.wr.setFlag.ceErr) (hs.wr.when fun ht => ht.loopClosing)

theorem State.sound.execCeLoopCfgWrite {n : BitVec 6} {v : Half} {s : State} (hs : s.sound) : (execCeLoopCfgWrite n v s).sound :=
  hs.loopCfg.next

theorem State.sound.execLoopHold {n : BitVec 6} {on : Bool} {s : State} (hs : s.sound) : (execLoopHold n on s).sound := hs.setFlag.next

theorem State.sound.shiftWrite {s : State} {p i v : Nat} (hs : s.sound) : (s.shiftWrite p i v).sound := .ite hs.setFld hs.frame

theorem State.sound.execCeCoefShiftWrite {p : Fin 2} {i : BitVec 11} {v : Half} {s : State} (hs : s.sound) :
    (execCeCoefShiftWrite p i v s).sound :=
  hs.shiftWrite.next

theorem State.sound.valueWrite {s : State} {p i v : Nat} (hs : s.sound) : (s.valueWrite p i v).sound :=
    (hs.wr.when fun ht => ht.wr).frame

theorem State.sound.execCeCoefValueWrite {p : Fin 2} {i : BitVec 11} {v : Half} {s : State} (hs : s.sound) :
    (execCeCoefValueWrite p i v s).sound :=
  hs.valueWrite.next

theorem State.sound.spCommit {s : State} (hs : s.sound) : s.spCommit.sound := .ite hs.setFld hs.frame.setFlag

theorem State.sound.execCeSpcommit {v : Half} {s : State} (hs : s.sound) : (execCeSpcommit v s).sound := .ite hs.spCommit.next hs.next

theorem State.sound.spWrite {s : State} {k v : Nat} (hs : s.sound) : (s.spWrite k v).sound := .ite hs.setFld hs.wr

theorem State.sound.execCeSpwWrite {k : Byte} {v : Half} {s : State} (hs : s.sound) : (execCeSpwWrite k v s).sound := hs.spWrite.next

theorem State.sound.progWrite {s : State} {i v : Nat} (hs : s.sound) :
    (s.progWrite i v).sound := by
  unfold State.progWrite
  split
  · exact hs.ceErr
  · exact hs.wr

theorem State.sound.execCeProgWrite {i : BitVec 13} {v : Half} {s : State} (hs : s.sound) : (execCeProgWrite i v s).sound :=
  hs.progWrite.next

theorem State.sound.holdRelease {s : State} (hs : s.sound) : s.holdRelease.sound := .ite hs (.ite hs.frame hs.setFlag)

theorem State.sound.execHoldEngage {s : State} (hs : s.sound) : (execHoldEngage s).sound := hs.holdCause.next

theorem State.sound.execHoldStale {s : State} (hs : s.sound) : (execHoldStale s).sound := .ite hs.holdCause.next hs.next

theorem State.sound.execHoldRelease {s : State} (hs : s.sound) : (execHoldRelease s).sound := hs.holdRelease.next

theorem State.sound.holdCtrl {s : State} {v : Nat} (hs : s.sound) : (s.holdCtrl v).sound :=
  (hs.setFld.setFld.when fun ht => ht.holdRelease).when fun ht => ht.holdCause

theorem State.sound.holdTick {s : State} (hs : s.sound) :
    s.holdTick.sound := by
  unfold State.holdTick
  dsimp only
  split
  · exact hs.frame.setFld.satFld.raiseEv.frame
  · exact hs.frame.unlessIf fun ht => ht.frame.unlessIf fun hu => .ite hu.setFld ht.frame

theorem State.sound.spSwap {s : State} {t : Nat} (hs : s.sound) : (s.spSwap t).sound :=
  .ite (hs.each fun _ _ ht => ht.wr).setFlag.seqFld.frame hs

theorem State.sound.loopsClose {s : State} {k : Nat} (hs : s.sound) : (s.loopsClose k).sound := hs.each fun _ _ ht => ht.loopClosing

theorem State.sound.ceEligible {s : State} (hs : s.sound) : s.ceEligible.sound :=
  hs.each fun _ _ ht => (State.sound.ite ht.ceZero ht).frame

theorem State.sound.ceOutRegs {s : State} {due : List Nat} (hs : s.sound) : (s.ceOutRegs due).sound := hs.frame

theorem State.sound.ceSchedule {s : State} {t : Nat} {due : List Nat} (hs : s.sound) : (s.ceSchedule t due).sound := hs.frame

theorem State.sound.execControlTick {s : State} (hs : s.sound) : (execControlTick s).sound :=
  .ite ((hs.spSwap.holdTick.ceEligible.loopsClose.frame.each fun _ _ ht => ht.encCapture).unlessIf fun ht =>
      ht.ceOutRegs.ceSchedule).next hs.next

theorem State.sound.ceCtrl {s : State} {v : Nat} (hs : s.sound) : (s.ceCtrl v).sound :=
  .ite hs.setFlag.frame (hs.setFlag.when fun ht => ht.frame)

theorem State.sound.execSsiTransferStart {p : BitVec 4} {s : State} (hs : s.sound) : (execSsiTransferStart p s).sound :=
  .ite hs.setEnc.next hs.next

theorem State.sound.execSsiTransferDone {p : BitVec 4} {w : Word} {s : State} (hs : s.sound) : (execSsiTransferDone p w s).sound :=
  .ite hs.setEnc.next hs.next

theorem State.sound.ceCopy {s : State} {n : Nat} (hs : s.sound) : (s.ceCopy n).sound := .ite hs hs.frame

theorem State.sound.execLoopExecute {s : State} (hs : s.sound) :
    (execLoopExecute s).sound := by
  unfold Machine.execLoopExecute
  dsimp only
  split
  · exact .ite hs.ceCopy.frame.next hs.next
  · exact hs.next

theorem State.sound.ceStep {s : State} {op : Nat} {f : CeExec → CeIns → CeExec} (hs : s.sound) :
    (s.ceStep op f).sound := by
  unfold State.ceStep
  dsimp only
  split
  · exact .ite hs.frame.next hs.next
  · exact hs.next

theorem State.sound.execCeIn {s : State} (hs : s.sound) : (execCeIn s).sound := hs.ceStep

theorem State.sound.execCeSp {s : State} (hs : s.sound) : (execCeSp s).sound := hs.ceStep

theorem State.sound.execCeAdd {s : State} (hs : s.sound) : (execCeAdd s).sound := hs.ceStep

theorem State.sound.execCeSub {s : State} (hs : s.sound) : (execCeSub s).sound := hs.ceStep

theorem State.sound.execCeMul {s : State} (hs : s.sound) : (execCeMul s).sound := hs.ceStep

theorem State.sound.execCeMacz {s : State} (hs : s.sound) : (execCeMacz s).sound := hs.ceStep

theorem State.sound.execCeMac {s : State} (hs : s.sound) : (execCeMac s).sound := hs.ceStep

theorem State.sound.execCeRnd {s : State} (hs : s.sound) : (execCeRnd s).sound := hs.ceStep

theorem State.sound.execCeInt {s : State} (hs : s.sound) : (execCeInt s).sound := hs.ceStep

theorem State.sound.execCeLim {s : State} (hs : s.sound) : (execCeLim s).sound := hs.ceStep

theorem State.sound.execCeLds {s : State} (hs : s.sound) : (execCeLds s).sound := hs.ceStep

theorem State.sound.execCeSts {s : State} (hs : s.sound) : (execCeSts s).sound := hs.ceStep

theorem State.sound.execCeOut {s : State} (hs : s.sound) : (execCeOut s).sound := hs.ceStep

theorem State.sound.execCeEnd {s : State} (hs : s.sound) : (execCeEnd s).sound := hs.ceStep

theorem State.sound.execCeMin {s : State} (hs : s.sound) : (execCeMin s).sound := hs.ceStep

theorem State.sound.execCeMax {s : State} (hs : s.sound) : (execCeMax s).sound := hs.ceStep

theorem State.sound.ceWords {s : State} {n : Nat} {m : Map Nat} (hs : s.sound) : (s.ceWords n m).sound := hs.each fun _ _ ht => ht.wr

theorem State.sound.execLoopComplete {s : State} (hs : s.sound) :
    (execLoopComplete s).sound := by
  unfold Machine.execLoopComplete
  dsimp only
  split
  · exact hs.next
  · exact .ite hs.next (.ite hs.frame.setFlag.satFld.setFlag.raiseEv.next hs.frame.setFlag.setFlag.ceWords.frame.next)

theorem State.sound.ceApply {s : State} {tgt v : Nat} (hs : s.sound) : (s.ceApply tgt v).sound := .ite hs.frame (.ite hs.wr hs)

theorem State.sound.ceApplyGroup {s : State} {p : CeApply} (hs : s.sound) :
    (s.ceApplyGroup p).sound := by
  unfold State.ceApplyGroup
  refine (hs.ceApply.each fun _ _ ht => ht.setFlag).each fun _ _ ht => ?_
  split
  · exact ht.ceWords
  · exact ht

theorem State.sound.execLoopApply {s : State} (hs : s.sound) :
    (execLoopApply s).sound := by
  unfold Machine.execLoopApply
  dsimp only
  split
  · exact hs.next
  · split
    · refine State.sound.next (State.sound.each (.frame ?_) fun _ _ ht => ht.buildAll)
      split
      · exact hs.ceApplyGroup
      · split
        · exact hs.ceApply
        · exact hs
    · exact hs.next

/-! ## The solver -/

theorem State.sound.freeBytes {s : State} {k n : Nat} (hs : s.sound) : (s.freeBytes k n).sound := hs.frame.store

theorem State.sound.homeFree {s : State} {a n : Nat} (hs : s.sound) : (s.homeFree a n).sound := hs.freeBytes

theorem State.sound.solvStart {s : State} {a : Nat} (hs : s.sound) : (s.solvStart a).sound := by
  unfold State.solvStart
  extract_lets d
  split
  · exact (hs.when fun ht => ht.store).setFld.raiseEv
  · have ht := hs.take (n := 8192)
    generalize s.take 8192 = p at ht ⊢
    obtain ⟨free, t⟩ := p
    dsimp -zeta only
    generalize StateT.run _ _ = q
    exact (State.sound.homeFree (ht.each fun _ _ hu => hu.storeNat)).frame.setFlag

theorem State.sound.solvGo {s : State} (hs : s.sound) : s.solvGo.sound := .ite hs.setFlag hs.solvStart

theorem State.sound.execSolvGo {s : State} (hs : s.sound) : (execSolvGo s).sound := hs.solvGo.next

theorem State.sound.solvAbort {s : State} (hs : s.sound) :
    s.solvAbort.sound := by
  unfold State.solvAbort
  dsimp only
  split
  · exact hs.frame
  · exact hs

theorem State.sound.execSolvAbort {s : State} (hs : s.sound) : (execSolvAbort s).sound := hs.solvAbort.next

theorem State.sound.solvCtrl {s : State} {v : Nat} (hs : s.sound) : (s.solvCtrl v).sound :=
  (State.sound.ite hs.solvAbort hs).when fun ht => ht.solvGo

theorem State.sound.solvEnds {s : State} {r : SolvRun} {missed : Bool} (hs : s.sound) : (s.solvEnds r missed).2.sound := by
  unfold State.solvEnds
  split
  · exact hs.take
  · split <;> exact hs

theorem State.sound.execSolvDone {missed : Bool} {s : State} (hs : s.sound) : (execSolvDone missed s).sound := by
  unfold Machine.execSolvDone
  split
  · exact hs.next
  · next r0 _ =>
    have hu := hs.solvEnds (r := r0) (missed := missed)
    generalize s.solvEnds r0 missed = p at hu ⊢
    obtain ⟨r, u⟩ := p
    have hw : (if r.xs.isEmpty then u.homeFree r.out (4 * r.n)
        else u.store (homeSpace + r.out) (r.xs.flatMap (leBytes 4))).sound := .ite hu.homeFree hu.store
    refine State.sound.next (.setFlag (.frame (.raiseEv (.setFld (.when (.setFld ?_) fun ht => ht.setFld)))))
    split
    · exact hw.store
    · exact hw

theorem State.sound.execSolvCommit {s : State} (hs : s.sound) :
    (execSolvCommit s).sound := by
  unfold Machine.execSolvCommit
  dsimp only
  split
  · exact hs.next
  · split
    · exact .ite hs.frame.setFlag.next hs.next
    · refine State.sound.next (State.sound.setFld ?_)
      split
      · exact (hs.frame.setFlag.each fun _ _ ht => ht.spWrite).spCommit.store
      · exact (hs.frame.setFlag.each fun _ _ ht => ht.spWrite).spCommit

/-! ## Resets and boot -/

theorem State.sound.applyLocks {s : State} {home : Bool} (hs : s.sound) :
    (s.applyLocks home).sound := by
  unfold State.applyLocks
  refine hs.each fun _ _ ht => ?_
  split
  · exact ht.wr
  · exact ht

theorem computeMem_wf {m : List Host.Cell} (lost : Bool) (h : Map.wf (0 : Byte) m = true) : Map.wf (0 : Byte)
    (computeMem lost m) = true := by
  have hc := Map.clear_wf (storeBase 0) (storeBase 6)
    (Map.clear_wf boardBase (boardBase + 0x1000000) (Map.clear_wf (bankKey 0 0) (peerKey 0) h))
  unfold computeMem
  split
  · exact Map.clear_wf _ _ hc
  · exact hc

/-- A state with canonical memory, no waiter, no Face in use and no staged table. -/
theorem State.sound_of_empty {s : State} (hm : s.memWf = true) (hw : s.waiters = [] := by rfl) (hf : s.faces = [] := by rfl)
    (hst : s.sched.staged = [] := by rfl) : s.sound := by
  refine ⟨hm, ?_, fun f => ?_, ?_⟩
  · simp [hw]
  · rw [State.face, hf]
    exact Nat.zero_lt_succ 15
  · simp [hst]

theorem State.sound.computeReset {s : State} {lost : Bool} (hs : s.sound) : (s.computeReset lost).sound :=
  .watchGate (.applyLocks (.freeBytes (.when (.setFlag (.setFlag (State.sound_of_empty (computeMem_wf lost hs.1))))
    fun ht => ht.setFld)))

theorem State.sound.execComputeReset {s : State} (hs : s.sound) : (execComputeReset s).sound :=
  .ite (.ite hs.computeReset.frame.setFld.setCstate.raiseEv.setFld.next hs.computeReset.frame.setFld.setCstate.next) hs.next

theorem State.sound.release {s : State} (hs : s.sound) : s.release.sound := hs.frame.setCstate.setFld

theorem State.sound.stage0In {s : State} (hs : s.sound) : s.stage0In.sound := hs.frame.store

theorem State.sound.dropReload {s : State} {j : Nat} {img : JobImage} {pl : LoadPlan} (hs : s.sound) : (s.dropReload j img pl).sound :=
  hs.frame

theorem State.sound.reloadJob {s : State} {j : Nat} {img : JobImage} {old pl : LoadPlan} (hs : s.sound) :
    (s.reloadJob j img old pl).sound := by
  unfold State.reloadJob
  dsimp only
  split
  · exact hs
  · split
    · exact hs.placeErr.dropReload
    · exact .ite hs.dropReload hs.loadJob

theorem State.sound.reloadAll {s : State} {plans : List (Nat × LoadPlan × Bool)} (hs : s.sound) :
    (s.reloadAll plans).sound := by
  unfold State.reloadAll
  refine hs.each fun _ _ ht => ?_
  split
  · exact ht.reloadJob
  · exact .ite ht ht.dropReload

theorem State.sound.execComputeRestart {plans : List (Nat × LoadPlan × Bool)} {s : State} (hs : s.sound) :
    (execComputeRestart plans s).sound :=
  .ite (.ite hs.release.next hs.next) (.ite (.ite hs.reloadAll.next hs.stage0In.next) hs.next)

theorem State.sound.execJobFaultRestart {j : BitVec 4} {pl : LoadPlan} {s : State} (hs : s.sound) :
    (execJobFaultRestart j pl s).sound := by
  unfold Machine.execJobFaultRestart
  dsimp only
  split
  · split
    · exact hs.frame.next
    · exact (hs.frame.killJob.endJobTurns.returnNet.stopMoves.disown.each fun _ _ ht => ht.zero).freeJob.frame.reloadJob.next
  · exact hs.next

theorem State.sound.homeReset {s : State} (hs : s.sound) : s.homeReset.sound := State.sound_of_empty (computeMem_wf true hs.1)

theorem State.sound_execPowerOnReset {s : State} : (execPowerOnReset s).sound := (State.sound_of_empty rfl).next

theorem State.sound.execHomeRstN {ns : Nat} {s : State} (hs : s.sound) : (execHomeRstN ns s).sound :=
  .ite hs.next (.ite hs.homeReset.next (Out.sound_fault _))

theorem State.sound.frst {s : State} {f : Nat} (hs : s.sound) : (s.frst f).sound := .ite hs.setFlag hs.modFace.setFlag

theorem State.sound.frstMask {s : State} {m : Nat} (hs : s.sound) : (s.frstMask m).sound := hs.each fun _ _ ht => ht.frst

theorem State.sound.execFrst {m : BitVec 6} {s : State} (hs : s.sound) : (execFrst m s).sound := hs.frstMask.next

theorem State.sound.execFaceResetDone {f : Fin 6} {s : State} (hs : s.sound) : (execFaceResetDone f s).sound :=
  .ite hs.zero.zero.zero.frame.restFace.setFlag.next hs.next

theorem State.sound.sysCtrlWrite {s : State} {v : Nat} (hs : s.sound) : (s.sysCtrlWrite v).sound :=
  (hs.each fun _ _ ht => .ite ht.setFlag ht).setFld.frstMask

theorem State.sound.execSysCtrlDoubleWrite {v : Word} {s : State} (hs : s.sound) : (execSysCtrlDoubleWrite v s).sound :=
  hs.sysCtrlWrite.next

/-! ## Security -/

theorem State.sound.mailReply {s : State} {status : Nat} {payload : List Byte} (hs : s.sound) : (s.mailReply status payload).sound :=
  hs.store

theorem State.sound.execAttest {nonce : Option (List Byte)} {s : State} (hs : s.sound) :
    (execAttest nonce s).sound := by
  unfold Machine.execAttest
  split
  · exact hs.next
  · split
    · exact hs.answer.next
    · exact .ite hs.next (.ite hs.mailReply.next (.ite hs.mailReply.next hs.mailReply.next))

theorem State.sound.execLifecycle {signer : BitVec 2} {locks : List (Nat × Nat)} {s : State} (hs : s.sound) :
    (execLifecycle signer locks s).sound :=
  .ite hs.next (.ite hs.mailReply.next (.ite hs.frame.mailReply.next hs.mailReply.next))

theorem State.sound.dbgResult {s : State} {r : Nat} (hs : s.sound) : (s.dbgResult r).sound := hs.setFld

theorem State.sound.chal {s : State} {lvl : Nat} (hs : s.sound) : (s.chal lvl).sound := .ite hs.frame.store.frame hs.dbgResult

theorem State.sound.execChal {lvl : BitVec 2} {s : State} (hs : s.sound) : (execChal lvl s).sound := hs.setFld.chal.next

theorem State.sound.submit {s : State} (hs : s.sound) : s.submit.sound := .ite hs.dbgResult (.ite hs.dbgResult hs.frame.setFlag)

theorem State.sound.execSubmit {s : State} (hs : s.sound) : (execSubmit s).sound := hs.submit.next

theorem State.sound.verifyFailed {s : State} {r : Nat} (hs : s.sound) : (s.verifyFailed r).sound :=
  hs.dbgResult.setFld.when fun ht => ht.setFlag

theorem State.sound.haltUnit {s : State} {u : Nat} (hs : s.sound) : (s.haltUnit u).sound :=
  .ite hs (hs.frame.setFlag.when fun ht => ht.modFace)

theorem State.sound.d3Start {s : State} (hs : s.sound) : s.d3Start.sound := hs.permitStop.haltUnit.haltUnit.computeReset.setCstate.frame

theorem State.sound.execDebugVerifyDone {r : BitVec 2} {s : State} (hs : s.sound) :
    (execDebugVerifyDone r s).sound := by
  unfold Machine.execDebugVerifyDone
  dsimp only
  split
  · exact hs.next
  · split
    · exact hs.frame.setFlag.verifyFailed.next
    · exact .ite hs.frame.setFlag.verifyFailed.next (.ite hs.frame.setFlag.verifyFailed.next (.ite hs.frame.setFlag.next
        (.ite hs.frame.setFlag.d3Start.next hs.frame.setFlag.setFld.dbgResult.next)))

theorem State.sound.execD3GrantDone {s : State} (hs : s.sound) : (execD3GrantDone s).sound :=
  .ite (hs.withMem (Map.clear_wf _ _ hs.1)).setFld.dbgResult.next hs.next

theorem State.sound.holdsOff {s : State} (hs : s.sound) : s.holdsOff.sound := hs.frame.setFlag

theorem State.sound.relock {s : State} (hs : s.sound) : s.relock.sound := .ite hs hs.holdsOff.setFld

theorem State.sound.holdRequest {s : State} {on : Bool} {j : Nat} (hs : s.sound) : (s.holdRequest on j).sound :=
  .ite hs.holdsOff (.ite hs.frame hs)

theorem State.sound.execRelock {s : State} (hs : s.sound) : (execRelock s).sound := hs.relock.next

theorem State.sound.dbgCtrlWrite {s : State} {v : Nat} (hs : s.sound) : (s.dbgCtrlWrite v).sound :=
  ((hs.setFld.setFld.holdRequest.when fun ht => ht.relock).when fun ht => ht.chal).when fun ht => ht.submit

theorem State.sound.execDebugHalt {u : Fin 12} {s : State} (hs : s.sound) : (execDebugHalt u s).sound :=
  .ite hs.answer.next (.ite hs.dbgResult.next hs.haltUnit.next)

theorem State.sound.execDebugResume {u : Fin 12} {s : State} (hs : s.sound) : (execDebugResume u s).sound :=
  .ite hs.answer.next (.ite hs.next ((hs.frame.setFlag.when fun ht => ht.modFace).when fun ht => ht.frame).next)

/-! ## Power -/

theorem State.sound.clampRefresh {s : State} (hs : s.sound) : s.clampRefresh.sound :=
  hs.frame.setFlag.setFld.setFld.unlessIf fun ht => ht.raiseEv

theorem State.sound.softReason {s : State} {k : Nat} {on : Bool} (hs : s.sound) : (s.softReason k on).sound := hs.frame

theorem State.sound.setTrim {s : State} {n : Nat} {t : Int} (hs : s.sound) : (s.setTrim n t).sound := hs.setFld

theorem State.sound.trimRange {s : State} (hs : s.sound) : s.trimRange.sound := hs.softReason

theorem State.sound.trimWrite {s : State} {n v : Nat} (hs : s.sound) : (s.trimWrite n v).sound :=
  hs.setFlag.setTrim.trimRange.clampRefresh

theorem State.sound.execPwrTrimWrite {n : Fin 6} {v : Word} {s : State} (hs : s.sound) : (execPwrTrimWrite n v s).sound :=
  hs.trimWrite.next

theorem State.sound.hbmPct {s : State} (hs : s.sound) :
    s.hbmPct.sound := by
  unfold State.hbmPct
  dsimp only
  split
  · exact .ite hs.frame.setFld hs
  · split
    · exact hs.frame.setFld
    · split
      · exact hs.frame
      · exact .ite hs.frame.setFld hs

theorem State.sound.trimTick {s : State} {tj : List Int} (hs : s.sound) : (s.trimTick tj).sound :=
  (hs.each fun _ _ ht => .ite ht ht.setTrim).softReason

theorem State.sound.execGovernorTick {mw : Nat} {tj : List Int} {common : Int} {s : State} (hs : s.sound) :
    (execGovernorTick mw tj common s).sound :=
  .ite hs.next hs.frame.frame.hbmPct.trimTick.softReason.softReason.softReason.setFld.setFld.setFlag.trimRange.clampRefresh.next

theorem State.sound.execPmbusVoutWrite {s : State} (hs : s.sound) : (execPmbusVoutWrite s).sound := .ite hs.next hs.frame.frame.next

theorem State.sound.execJunctionThrottle {d : Fin 7} {t : Int} {s : State} (hs : s.sound) : (execJunctionThrottle d t s).sound :=
  .ite hs.frame.clampRefresh.next hs.next

theorem State.sound.execJunctionTrip {d : Fin 7} {t : Int} {s : State} (hs : s.sound) : (execJunctionTrip d t s).sound :=
  .ite hs.fault.next hs.next

theorem State.sound.execDroop {s : State} (hs : s.sound) : (execDroop s).sound := hs.frame.clampRefresh.next

theorem State.sound.execIcc {s : State} (hs : s.sound) : (execIcc s).sound := hs.frame.clampRefresh.next

theorem State.sound.execThrottleRelease {k : Fin 3} {d : Fin 7} {s : State} (hs : s.sound) : (execThrottleRelease k d s).sound :=
  hs.frame.clampRefresh.next

theorem State.sound.shareEnergy {s : State} {d uj : Nat} (hs : s.sound) : (s.shareEnergy d uj).sound :=
  .ite hs (.ite hs.frame (.ite hs.frame (hs.each fun _ _ ht => .ite ht ht.account).frame))

theorem State.sound.execEnergyFold {uj : List Nat} {s : State} (hs : s.sound) : (execEnergyFold uj s).sound :=
  (hs.each fun _ _ ht => ht.wr.shareEnergy).next

theorem State.sound.supplyFault {s : State} {detail : Nat} (hs : s.sound) : (s.supplyFault detail).sound := hs.fault

theorem State.sound.execSupply {c : BitVec 4} {s : State} (hs : s.sound) :
    (execSupply c s).sound := by
  unfold Machine.execSupply
  dsimp only
  split
  · exact hs.supplyFault.next
  · exact hs.supplyFault.next
  · exact hs.supplyFault.next
  · exact .ite hs.frame.supplyFault.next hs.next
  · exact .ite hs.supplyFault.next hs.next
  · exact hs.frame.permitStop.next
  · exact State.sound_execPowerOnReset
  · exact hs.permitStop.raiseEv.next
  · exact hs.frame.next
  · exact hs.next

theorem State.sound.execPmbAlert {s : State} (hs : s.sound) : (execPmbAlert s).sound := hs.supplyFault.next

theorem State.sound.execPgCore {s : State} (hs : s.sound) : (execPgCore s).sound := .ite hs.frame.next hs.next

theorem State.sound.supplyOn {s : State} (hs : s.sound) : s.supplyOn.sound := .ite hs hs.frame

theorem State.sound.supplyOff {s : State} {watch : Bool} (hs : s.sound) : (s.supplyOff watch).sound := hs.frame

theorem State.sound.setPstate {s : State} {p : Nat} (hs : s.sound) : (s.setPstate p).sound := hs.setFld.setFld.watchGate

theorem State.sound.pwrState {s : State} {v : Nat} (hs : s.sound) : (s.pwrState v).sound :=
  .ite hs.setFlag (.ite hs (hs.setFld.each fun _ _ ht => ht.modFace).frame)

theorem State.sound.execPwrStateWrite {v : BitVec 3} {s : State} (hs : s.sound) : (execPwrStateWrite v s).sound := hs.pwrState.next

theorem State.sound.gateFace {s : State} {f : Nat} (hs : s.sound) : (s.gateFace f).sound := hs.each fun _ _ ht => .ite ht ht.bankSave

theorem State.sound.pstateWrite {s : State} {v : Nat} (hs : s.sound) : (s.pstateWrite v).sound :=
  .ite hs (.ite hs (.ite hs.setFlag.setFld (.ite hs.setFlag.setFld (hs.setFld.setFld.frame.when fun ht => ht.supplyOn))))

theorem State.sound.execSecPstateWrite {v : BitVec 3} {s : State} (hs : s.sound) : (execSecPstateWrite v s).sound := hs.pstateWrite.next

theorem State.sound.secPstateReg {s : State} {v : Nat} (hs : s.sound) : (s.secPstateReg v).sound :=
  (State.sound.ite hs.setFlag hs).pstateWrite

theorem State.sound.homeTransition {s : State} {t : Nat} (hs : s.sound) : (s.homeTransition t).sound :=
  .ite (.ite hs (.ite hs.frame.setPstate.setFlag.setFld hs.frame.setPstate.setFlag.setCstate.setFld)) (.ite hs
      (hs.computeReset.supplyOff.when fun ht => ht.frame).setCstate.frame.setPstate.setFlag.setFld)

theorem State.sound.ulnalTransition {s : State} {t : Nat} (hs : s.sound) : (s.ulnalTransition t).sound :=
  .ite hs ((hs.each fun _ _ ht => ht.gateFace).each fun _ _ ht => ht.wakeFace).frame.setPstate

theorem State.sound.execPowerTransitionDone {s : State} (hs : s.sound) :
    (execPowerTransitionDone s).sound := by
  unfold Machine.execPowerTransitionDone
  split
  · exact hs.homeTransition.next
  · exact hs.ulnalTransition.next
  · exact hs.next

theorem State.sound.execPower {s : State} (hs : s.sound) : (execPower s).sound :=
  .ite hs.next (.ite hs.mailReply.next ((State.sound.ite hs.setFlag.pstateWrite hs).when fun ht => ht.setFlag).mailReply.next)

/-! ## Register writes -/

theorem State.sound.evtWrite {s : State} {k v : Nat} (hs : s.sound) : (s.evtWrite k v).sound :=
  ((hs.setFlag.unlessIf fun ht => ht.setFld).setFld.when fun ht => ht.setFlag).setFld

theorem State.sound.raiseSw {s : State} {v : Nat} (hs : s.sound) : (s.raiseSw v).sound := .ite hs.raiseEv hs

theorem State.sound.execEvtpRaise {v : Word} {s : State} (hs : s.sound) : (execEvtpRaise v s).sound := hs.raiseSw.next

theorem State.sound.evhRaise {s : State} {v : Nat} (hs : s.sound) : (s.evhRaise v).sound := .ite hs hs.raiseSw

theorem State.sound.execEvhRaise {v : Half} {s : State} (hs : s.sound) : (execEvhRaise v s).sound := hs.evhRaise.next

theorem State.sound.cpbA {s : State} {w v : Nat} (hs : s.sound) : (s.cpbA w v).sound := hs.setFlag.setFld.setFlag

theorem State.sound.cpbB {s : State} {w v : Nat} (hs : s.sound) : (s.cpbB w v).sound := hs.setFld.setFlag

theorem State.sound.execCpbWinWrite {w : BitVec 3} {b : Bool} {v : Word} {s : State} (hs : s.sound) : (execCpbWinWrite w b v s).sound :=
  (State.sound.ite hs.cpbB hs.cpbA).next

theorem State.sound.bootUp {s : State} (hs : s.sound) : s.bootUp.sound := .ite hs.frame.setCstate.wr.setFld hs

theorem State.sound.execSysBootUp {s : State} (hs : s.sound) : (execSysBootUp s).sound := hs.bootUp.next

theorem State.sound.mboxPost {s : State} {v : Nat} (hs : s.sound) : (s.mboxPost v).sound := hs.setFld.unlessIf fun ht => ht.raiseEv

theorem State.sound.execCpMbox {seq : BitVec 16} {s : State} (hs : s.sound) : (execCpMbox seq s).sound := hs.mboxPost.next

theorem State.sound.mboxAck {s : State} {v : Nat} (hs : s.sound) : (s.mboxAck v).sound := hs.setFld.raiseEv

theorem State.sound.execCpReply {ack : BitVec 16} {reply : Option (Byte × List Byte)} {s : State} (hs : s.sound) :
    (execCpReply ack reply s).sound := by
  unfold Machine.execCpReply
  refine State.sound.next (State.sound.mboxAck ?_)
  split
  · exact hs.mailReply
  · exact hs

theorem State.sound.crst {s : State} (hs : s.sound) : s.crst.sound := .ite hs.fault hs

theorem State.sound.execCrst {s : State} (hs : s.sound) : (execCrst s).sound := hs.crst.next

theorem State.sound.execPstop {s : State} (hs : s.sound) : (execPstop s).sound := hs.permitStop.next

theorem State.sound.cphCtrl {s : State} {v : Nat} (hs : s.sound) : (s.cphCtrl v).sound :=
  (State.sound.ite hs.permitStop hs).when fun ht => ht.crst

theorem someSound.one {r a : Nat} {t : State} (ht : t.sound) : someSound (one r a t) := .ite ht.some .none

theorem someSound.many {base stride n a : Nat} {f : Nat → State} (hf : ∀ i, (f i).sound) : someSound (many base stride n a f) :=
  .ite (hf _).some .none

theorem someSound.many2 {base s1 n s2 m a : Nat} {f : Nat → Nat → State} (hf : ∀ i j, (f i j).sound) :
    someSound (many2 base s1 n s2 m a f) := .ite (hf _ _).some .none

theorem someSound.findSome {l : List (Option State)} (hl : ∀ o ∈ l, someSound o) : someSound (l.findSome? id) := by
  intro t e
  obtain ⟨o, ho, rfl⟩ := List.exists_of_findSome?_eq_some e
  exact hl _ ho t rfl

theorem Out.sound.state {o : Out} {s : State} (ho : o.sound) (hs : s.sound) : (o.state s).sound := by
  unfold Out.state
  split
  · exact ho _ rfl
  · exact hs

theorem State.sound.plainWrite {s : State} {a v : Nat} (hs : s.sound) :
    (s.plainWrite a v).sound := by
  unfold State.plainWrite
  split
  · exact hs.wr
  · exact hs

theorem State.sound.unless {s : State} {busy : Bool} {a v : Nat} (hs : s.sound) : (s.unless busy a v).sound := .ite hs hs.plainWrite

theorem State.sound.modBuf {s : State} {f : BufEnt → BufEnt} (hs : s.sound) : (s.modBuf f).sound := hs.setBuf

theorem State.sound.newRing {s : State} {j : Nat} (hs : s.sound) : (s.newRing j).sound := hs.frame

theorem State.sound.devWrite {s : State} {a v : Nat} (hs : s.sound) : someSound (s.devWrite a v) := by
  refine .findSome ?_
  simp only [List.forall_mem_append, List.forall_mem_cons, List.not_mem_nil, false_implies, implies_true, and_true, and_assoc]
  exact ⟨.many fun _ => hs.plainWrite.when fun ht => ht.qsatSnap, .one (hs.when fun ht => ht.placeGo), .one hs.brecWrite,
    .one hs.modBuf, .one hs.modBuf, .one hs.modBuf, .many fun _ => hs.execSyncSemWrite.state hs, .one (hs.execSyncRvalWrite.state hs),
    .many fun _ => hs.when fun ht => ht.execAttnClr.state ht, .many fun _ => hs.when fun ht => ht.execRecClr.state ht,
    .many fun _ => hs.execPipQpush.state hs, .one (hs.execPipQflush.state hs),
    .one hs.schedCtrlWrite, .one (hs.when fun ht => ht.schedGo), .one hs.unless, .many fun _ => hs.partAWrite, .many fun _ =>
        hs.partBWrite,
    .many fun _ => hs.jobWrite, .one hs.qbaseWrite, .one hs.tailWrite, .many fun _ => hs.stepWrite, .many fun _ => hs.jstepWrite,
    .many fun _ => hs.plainWrite.newRing, .one hs.pertDelayWrite, .many fun _ => hs.pertWrite,
    .one hs.kick, .one hs.injWrite, .one hs.goldWrite, .many2 fun _ _ => hs.unless, .many2 fun _ _ => hs.rctlWrite,
    .many2 fun _ _ => hs.unless, .many2 fun _ _ => hs.unless, .many2 fun _ _ => hs.txRingWrite, .many2 fun _ _ => hs.cbsWrite,
    .many2 fun _ _ => hs.ringWrite, .many fun _ => hs.plainWrite.gclPending, .many2 fun _ _ => hs.plainWrite.gclPending,
    .one hs.eflTopoWrite, .many fun _ => hs.winaWrite, .many fun _ => hs.winbWrite, .many fun _ => hs.eflCtrlWrite,
    .one (hs.unlessIf fun ht => ht.setFld).pwrState, .many fun _ => hs.trimWrite, .many fun _ => hs.evtWrite, .one hs.raiseSw,
    .many fun _ => hs.cpbA, .many fun _ => hs.cpbB, .one hs.barWrite, .one hs.msix, .one hs.sysCtrlWrite,
    .one (hs.when fun ht => ht.bootUp)⟩

theorem State.sound.homeWrite {s : State} {p a v : Nat} (hs : s.sound) : someSound (s.homeWrite p a v) := by
  refine .findSome ?_
  simp only [List.forall_mem_append, List.forall_mem_cons, List.not_mem_nil, false_implies, implies_true, and_true, and_assoc]
  exact ⟨.one hs.ceCtrl, .one (hs.when fun ht => ht.spCommit), .many fun _ => hs.unless, .many fun _ => hs.loopCfg,
    .many fun _ => hs.spWrite, .many fun _ => hs.valueWrite, .many fun _ => hs.shiftWrite, .many fun _ => hs.progWrite, .one
        hs.evhRaise,
    .one hs.cphCtrl, .one hs.mboxAck, .one hs.solvCtrl, .one hs.holdCtrl,
    .one hs.rateWrite, .one hs.rateHiWrite, .one hs.ppsCtrlWrite, .one hs.stepTimeWrite, .one hs.frame, .one hs.frame,
    .many2 fun _ _ => hs.unless, .many fun _ => hs.txCmd, .many2 fun _ _ => hs.rxCfgWrite, .many2 fun _ _ => hs.tailRelease,
    .one (hs.when fun ht => ht.bldClr), .many fun _ => hs.t1sCtrl, .many fun _ => hs.txPush, .many fun _ => hs.tailRelease,
    .many fun _ => hs.encCfg, .many fun _ => hs.unless, .one (hs.plainWrite.when fun ht => ht.permitStop), .one hs.permitArm,
    .many fun _ => hs.when fun ht => ht.permitKick, .one hs.hfltWrite, .one hs.dbgCtrlWrite, .one hs.secPstateReg⟩

theorem State.sound.regWrite {s : State} {p a v : Nat} (hs : s.sound) : (s.regWrite p a v).sound := by
  have ho : someSound (if a < homeSpace then s.devWrite a v else s.homeWrite p a v) := .ite hs.devWrite hs.homeWrite
  unfold State.regWrite
  generalize (if a < homeSpace then s.devWrite a v else s.homeWrite p a v) = o at ho ⊢
  cases o with
  | none => exact hs.plainWrite
  | some t => exact ho t rfl

theorem State.sound.pend {s : State} {base w k : Nat} (hs : s.sound) : (s.pend base w k).sound := hs.setFlag

theorem State.sound.deliverEvt {s : State} {k : Nat} (hs : s.sound) : (s.deliverEvt k).sound :=
  (((State.sound.ite hs.pend hs).when fun ht => ht.pend).when fun ht => ht.pend).when fun ht => ht.sendRouted

theorem State.sound.execEventDeliver {s : State} (hs : s.sound) :
    (execEventDeliver s).sound := by
  unfold Machine.execEventDeliver
  dsimp only
  split
  · exact hs.next
  · exact .ite ((hs.frame.pend.when fun ht => ht.pend).when fun ht => ht.deliverEvt).next hs.frame.deliverEvt.next

theorem State.sound.setStage {s : State} {g : Nat} (hs : s.sound) : (s.setStage g).sound := hs.setFld

theorem State.sound.bootRecord {s : State} (hs : s.sound) : s.bootRecord.sound := by
  refine .applyLocks (.applyLocks (.frame (State.sound.when ?_ fun ht => ht.withMem (Map.clear_wf _ _ ht.1))))
  split
  · exact hs.setFld.setFlag.setFlag.wr.frame
  · exact hs.setFld.setFlag

theorem State.sound.bootStage {s : State} {r : BootRes} (hs : s.sound) : someSound (s.bootStage r) := by
  unfold State.bootStage
  split
  · exact hs.setStage.some
  · exact (State.sound.setStage hs.setFlag.frame).some
  · exact .ite ((hs.setFlag.when fun ht => ht.frame.wr.wr.wr).setStage).some hs.setStage.some
  · exact hs.bootRecord.setStage.some
  · split
    · exact (State.sound.setFlag hs.frame).supplyOn.setStage.some
    · exact hs.setStage.some
  · exact hs.setStage.some
  · split
    · exact (State.sound.setFlag hs.store.frame).setStage.some
    · exact hs.setStage.some
  · exact .none

theorem State.sound.execBootStageDone {r : BootRes} {s : State} (hs : s.sound) : (execBootStageDone r s).sound := by
  unfold Machine.execBootStageDone
  split
  · next e => exact (hs.bootStage _ e).next
  · exact hs.next

theorem State.sound.execComputeBoot {s : State} (hs : s.sound) : (execComputeBoot s).sound :=
  .ite hs.release.next (.ite hs.stage0In.next hs.next)

theorem State.sound.execMainDigestVerdict {pass : Bool} {s : State} (hs : s.sound) : (execMainDigestVerdict pass s).sound :=
  .ite (.ite hs.freeBytes.next hs.freeBytes.computeReset.setCstate.frame.setStage.next) hs.next

/-! ## The bus -/

theorem State.sound.devRead {s : State} {q a : Nat} (hs : s.sound) : (s.devRead q a).1.sound := by
  refine .ite_fst hs.memNowRead (.ite_fst hs (.ite_fst hs.memRaRead ?_))
  split
  · exact .ite_fst hs.tsRead1 hs.tsRead0
  · exact hs

theorem State.sound.homeRead {s : State} {p a : Nat} (hs : s.sound) : (s.homeRead p a).1.sound :=
  .ite_fst hs.rawRead (.ite_fst hs (.ite_fst hs.nowRead (.ite_fst hs (.ite_fst hs (.ite_fst hs (.ite_fst hs.capRead hs))))))

theorem State.sound.memAccess {s : State} {k : Nat} {x : AccOp} (hs : s.sound) :
    (s.memAccess k x).sound := by
  unfold State.memAccess
  split
  · exact hs.store
  · exact hs.answer
  · exact hs.store
  · exact hs.answer

theorem State.sound.devBus {s : State} {q a : Nat} {x : AccOp} {held : Bool} (hs : s.sound) :
    (s.devBus q a x held).sound := by
  unfold State.devBus
  dsimp only
  split
  · split
    · exact hs.regWrite
    · exact hs.regWrite
    · exact hs.devRead.answer
  · exact .ite hs.answer hs.memAccess

theorem State.sound.homeStore {s : State} {p a : Nat} {bs : List Byte} (hs : s.sound) :
    (s.homeStore p a bs).sound := by
  unfold State.homeStore
  split
  · exact hs.txBufWrite
  · exact hs.regWrite

theorem State.sound.homeLoad {s : State} {p a n : Nat} (hs : s.sound) : (s.homeLoad p a n).sound :=
  .ite hs.homeRead.answer (.ite hs.answer hs.answer)

theorem State.sound.homeBus {s : State} {p a : Nat} {x : AccOp} (hs : s.sound) :
    (s.homeBus p a x).sound := by
  unfold State.homeBus
  refine hs.answer.unlessIf fun ht => ?_
  split
  · exact hs.memAccess
  · split
    · exact .ite hs.answer (.ite ht hs.memAccess)
    · split
      · exact hs.homeStore
      · exact hs.homeStore
      · exact hs.homeLoad

theorem State.sound.fileWrite {s : State} {f : Nat} {k : Fin 4} {i v : Nat} (hs : s.sound) : (s.fileWrite f k i v).sound :=
  .ite (hs.modFace (FaceSt.setG_job ..)) (.ite hs.modFace (.ite hs.modFace (.ite hs.modFace hs.setRouted)))

theorem State.sound.debugBus {s : State} {pl : Place} {x : AccOp} (hs : s.sound) :
    (s.debugBus pl x).sound := by
  unfold State.debugBus
  split
  · exact hs.devBus
  · exact .ite hs.memAccess hs.homeBus
  · split
    · exact hs.fileWrite
    · exact hs.fileWrite
    · exact hs.answer
  · exact .ite hs.memAccess hs.answer

theorem State.sound.execRegisterWrite {who : Agent} {pl : Place} {x : AccOp} {s : State} (hs : s.sound) :
    (execRegisterWrite who pl x s).sound := by
  unfold Machine.execRegisterWrite
  split
  · exact hs.devBus.next
  · exact hs.homeBus.next
  · exact (State.sound.ite hs.debugBus hs.answer).next
  · exact hs.next

/-! ## KV sets -/

theorem State.sound.setKv {s : State} {j k : Nat} {x : KvSet} (hs : s.sound) : (s.setKv j k x).sound := hs.frame

theorem State.sound.kvPut {s : State} {j k slot i w : Nat} (hs : s.sound) :
    (s.kvPut j k slot i w).sound := by
  unfold State.kvPut
  dsimp only
  split
  · exact hs.storeNat.setKv
  · exact hs

theorem State.sound.execKvAdmit {j : BitVec 4} {k slot : Nat} {toks pages : List Nat} {s : State} (hs : s.sound) :
    (execKvAdmit j k slot toks pages s).sound := by
  unfold Machine.execKvAdmit
  dsimp only
  split
  · exact hs.next
  · exact .ite hs.next (.ite hs.account.answer.next (.ite hs.account.next (hs.account.setKv.each fun _ _ ht => ht.kvPut).answer.next))

theorem State.sound.kvInsert {s : State} {j k : Nat} {p : PoolRec} {slot i : Nat} (hs : s.sound) :
    (s.kvInsert j k p slot i).sound := by
  unfold State.kvInsert
  dsimp only
  split
  · exact hs
  · split
    · exact .ite hs (hs.account.unlessIf fun ht => ht.setKv.kvPut)
    · exact hs

theorem State.sound.execKvInsertPages {j : BitVec 4} {order : List (Nat × Nat × Nat)} {s : State} (hs : s.sound) :
    (execKvInsertPages j order s).sound := by
  unfold Machine.execKvInsertPages
  dsimp only
  split
  · exact hs.next
  · split
    · exact hs.next
    · split
      · exact hs.killJob.next
      · refine State.sound.next (hs.each fun _ _ ht => ?_)
        split
        · exact .ite ht.kvInsert ht
        · exact ht

theorem State.sound.execKvSequenceEnd {j : BitVec 4} {k slot : Nat} {s : State} (hs : s.sound) :
    (execKvSequenceEnd j k slot s).sound := by
  unfold Machine.execKvSequenceEnd
  dsimp only
  split
  · exact hs.next
  · exact .ite hs.next (hs.setKv.each fun _ _ ht => ht.kvPut).next

/-! ## The port -/

theorem State.sound.cpAnswer {s : State} {r : CpReq} {status : Nat} {data : List Byte} (hs : s.sound) :
    (s.cpAnswer r status data).sound :=
  (State.sound.ite hs.frame hs).answer

theorem State.sound.cpWordWrite {s : State} {w : CpWord} {v : Nat} (hs : s.sound) : (s.cpWordWrite w v).sound :=
  .ite hs.storeNat (.ite hs.cphCtrl (.ite hs.mboxPost (.ite hs.dbgCtrlWrite hs.plainWrite)))

theorem State.sound.bridgeRead {s : State} {a : Nat} (hs : s.sound) : (s.bridgeRead a).2.sound :=
  State.sound.ite hs.memNowRead (.ite hs.memRaRead hs)

theorem State.sound.bridgeReads {s : State} {a n : Nat} (hs : s.sound) : (s.bridgeReads a n).2.sound := by
  induction n generalizing s a with
  | zero => exact hs
  | succ n ih => exact ih hs.bridgeRead

theorem State.sound.hostRing {s : State} {v : Nat} (hs : s.sound) : (s.hostRing v).sound := hs.setFld.raiseEv

theorem State.sound.execCpDoorbell {v : Half} {s : State} (hs : s.sound) : (execCpDoorbell v s).sound := .ite hs.hostRing.next hs.next

theorem State.sound.hostWrite {s : State} {r : CpReq} (hs : s.sound) : (s.hostWrite r).sound := .ite (.ite hs.hostRing hs) hs.store

theorem State.sound.deviceAccess {s : State} {r : CpReq} {ue : Bool} (hs : s.sound) : (s.deviceAccess r ue).sound :=
  .ite hs.cpAnswer (.ite hs.hostWrite.cpAnswer (.ite hs.cpAnswer (.ite hs.bridgeReads.cpAnswer hs.cpAnswer)))

theorem State.sound.homeAccess {s : State} {r : CpReq} (hs : s.sound) :
    (s.homeAccess r).sound := by
  unfold State.homeAccess
  split
  · exact hs.cpAnswer
  · exact .ite (.ite (hs.each fun _ _ ht => ht.cpWordWrite).cpAnswer hs.cpAnswer) hs.cpAnswer

theorem State.sound.transact {s : State} {bs : List Byte} {mine : Nat → Bool} {act : CpReq → State} (hs : s.sound)
    (hact : ∀ r, (act r).sound) : (s.transact bs mine act).sound := by
  refine .ite hs.answer.next ?_
  split
  · exact hs.answer.next
  · refine .ite hs.next (.ite hs.satFld.cpAnswer.next (.ite hs.cpAnswer.next ?_))
    split
    · exact .ite hs.answer.next (hact _).next
    · exact (hact _).next

theorem State.sound.cpAccess {s : State} {ue : Bool} {r : CpReq} (hs : s.sound) : (s.cpAccess ue r).sound :=
  .ite hs.cpAnswer (.ite hs.homeAccess hs.deviceAccess)

theorem State.sound.execCpRead {bs : List Byte} {ue : Bool} {s : State} (hs : s.sound) : (execCpRead bs ue s).sound :=
  hs.transact fun _ => hs.cpAccess

theorem State.sound.execCpWrite {bs : List Byte} {s : State} (hs : s.sound) : (execCpWrite bs s).sound := hs.transact fun _ =>
    hs.cpAccess

theorem State.sound.execCpStatus {bs : List Byte} {s : State} (hs : s.sound) : (execCpStatus bs s).sound :=
  hs.transact fun _ => hs.cpAnswer

theorem State.sound.execCpTimeout {bs : List Byte} {lands : Bool} {s : State} (hs : s.sound) : (execCpTimeout bs lands s).sound :=
  hs.transact fun _ => .ite hs.cpAccess (State.sound.ite hs.hostWrite hs).satFld.cpAnswer

/-! ## What recurs with time -/

theorem State.sound.mixAccs {s : State} {f : Nat} {o : FmtT} (hs : s.sound) : (s.mixAccs f o).sound := .ite hs hs.modFace

theorem State.sound.recIssue {chunk : Bool} {ins : Instr} {f : Fin 6} {h : Hdr} {o : FmtT} {s : State} (hs : s.sound) :
    (recIssue chunk ins f h o s).sound := by
  unfold Machine.recIssue
  exact hs.issueTensor fun _ ht => ht.mixAccs

theorem State.sound.execRstep {f : Fin 6} {h : Hdr} {o : FmtT} {s : State} (hs : s.sound) : (execRstep f h o s).sound := hs.recIssue

theorem State.sound.execRchunk {f : Fin 6} {h : Hdr} {o : FmtT} {s : State} (hs : s.sound) : (execRchunk f h o s).sound := hs.recIssue

/-! ## Units of the window -/

theorem State.sound.startView {s : State} {f : Nat} {r : Redo} (hs : s.sound) : (s.startView f r).sound := hs.freeSpans.modFace

theorem State.sound.startEntry {s : State} {f : Nat} {e : Entry} (hs : s.sound) :
    (s.startEntry f e).sound := by
  unfold State.startEntry
  dsimp only
  split
  · exact hs.modFace
  · split
    · exact hs.modFace
    · exact hs.frame.foldOut.modFace

theorem State.sound.execUnitStartQueued {f : Fin 6} {u : BitVec 2} {s : State} (hs : s.sound) :
    (execUnitStartQueued f u s).sound := by
  unfold Machine.execUnitStartQueued
  dsimp only
  split
  · exact .ite hs.startEntry.next hs.next
  · exact hs.next

theorem State.sound.residueCheck {s : State} {f : Nat} {e : Entry} (hs : s.sound) : (s.residueCheck f e).sound := .ite hs.detect hs

theorem State.sound.execInstructionComplete {f : Fin 6} {seq : Nat} {s : State} (hs : s.sound) :
    (execInstructionComplete f seq s).sound := by
  unfold Machine.execInstructionComplete
  dsimp only
  split
  · exact hs.next
  · split
    · exact hs.next
    · split
      · exact hs.takeExc.next
      · split
        · exact hs.finish.residueCheck.next
        · exact hs.leaveWindow.takeExc.next

/-! ## Every command -/

/-- Every command leaves a sound state, or none. -/
theorem State.sound.exec {s : State} (hs : s.sound) : ∀ i : Instr, Out.sound (exec i s)
  | .add .. => hs.execAdd
  | .sub .. => hs.execSub
  | .and .. => hs.execAnd
  | .or .. => hs.execOr
  | .xor .. => hs.execXor
  | .sll .. => hs.execSll
  | .srl .. => hs.execSrl
  | .sra .. => hs.execSra
  | .mul .. => hs.execMul
  | .mulhu .. => hs.execMulhu
  | .min .. => hs.execMin
  | .max .. => hs.execMax
  | .slt .. => hs.execSlt
  | .sltu .. => hs.execSltu
  | .divu .. => hs.execDivu
  | .li .. => hs.execLi
  | .lih .. => hs.execLih
  | .rdst .. => hs.execRdst
  | .wrst .. => hs.execWrst
  | .ldg .. => hs.execLdg
  | .stg .. => hs.execStg
  | .ldd .. => hs.execLdd
  | .dsetf .. => hs.execDsetf
  | .dadd .. => hs.execDadd
  | .dcpy .. => hs.execDcpy
  | .lds .. => hs.execLds
  | .ssetf .. => hs.execSsetf
  | .mm .. => hs.execMm
  | .ptb .. => hs.execPtb
  | .ptl .. => hs.execPtl
  | .accout .. => hs.execAccout
  | .accin .. => hs.execAccin
  | .accz .. => hs.execAccz
  | .vew .. => hs.execVew
  | .vtr .. => hs.execVtr
  | .vred .. => hs.execVred
  | .vnorm .. => hs.execVnorm
  | .vsmx .. => hs.execVsmx
  | .qnt .. => hs.execQnt
  | .vrnd .. => hs.execVrnd
  | .trp .. => hs.execTrp
  | .gath .. => hs.execGath
  | .scat .. => hs.execScat
  | .gfa .. => hs.execGfa
  | .racc .. => hs.execRacc
  | .sexp .. => hs.execSexp
  | .simp .. => hs.execSimp
  | .dgarm .. => hs.execDgarm
  | .dgout .. => hs.execDgout
  | .dgrd .. => hs.execDgrd
  | .conv .. => hs.execConv
  | .attn .. => hs.execAttn
  | .attnb .. => hs.execAttnb
  | .kvput .. => hs.execKvput
  | .rstep .. => hs.execRstep
  | .rchunk .. => hs.execRchunk
  | .mov .. => hs.execMov
  | .movz .. => hs.execMovz
  | .waitEv .. => hs.execWaitEv
  | .evadd .. => hs.execEvadd
  | .evsend .. => hs.execEvsend
  | .sacq .. => hs.execSacq
  | .srel .. => hs.execSrel
  | .fence .. => hs.execFence
  | .raiseSrc .. => hs.execRaiseSrc
  | .nop .. => hs.execNop
  | .br .. => hs.execBr
  | .beq .. => hs.execBeq
  | .bne .. => hs.execBne
  | .blt .. => hs.execBlt
  | .bge .. => hs.execBge
  | .bltu .. => hs.execBltu
  | .bgeu .. => hs.execBgeu
  | .jal .. => hs.execJal
  | .jr .. => hs.execJr
  | .endCmd .. => hs.execEndCmd
  | .trap .. => hs.execTrap
  | .unitStartQueued .. => hs.execUnitStartQueued
  | .instructionComplete .. => hs.execInstructionComplete
  | .semAcquireGrant .. => hs.execSemAcquireGrant
  | .routedCounterIncrement => hs.execRoutedCounterIncrement
  | .cmdLimit .. => hs.execCmdLimit
  | .commandEnd .. => hs.execCommandEnd
  | .syncSemWrite .. => hs.execSyncSemWrite
  | .syncRvalWrite .. => hs.execSyncRvalWrite
  | .qsatSnap .. => hs.execQsatSnap
  | .attnClr .. => hs.execAttnClr
  | .recClr .. => hs.execRecClr
  | .illOpc .. => hs.execIllOpc
  | .pipQpush .. => hs.execPipQpush
  | .pipRecordStart => hs.execPipRecordStart
  | .pipRecordDone .. => hs.execPipRecordDone
  | .pipTimeout => hs.execPipTimeout
  | .pipQflush .. => hs.execPipQflush
  | .ulnalExceptionResponse .. => hs.execUlnalExceptionResponse
  | .jobUnload .. => hs.execJobUnload
  | .jobKill .. => hs.execJobKill
  | .scrubStart .. => hs.execScrubStart
  | .scrubDone => hs.execScrubDone
  | .commandReady .. => hs.execCommandReady
  | .commandStart .. => hs.execCommandStart
  | .schedPartWrite .. => hs.execSchedPartWrite
  | .schedCommit .. => hs.execSchedCommit
  | .schedQtailWrite .. => hs.execSchedQtailWrite
  | .schedQbaseWrite .. => hs.execSchedQbaseWrite
  | .schedJobWrite .. => hs.execSchedJobWrite
  | .slotStart .. => hs.execSlotStart
  | .slotEnd .. => hs.execSlotEnd
  | .turnExpire .. => hs.execTurnExpire
  | .bankSwapDone .. => hs.execBankSwapDone
  | .semBlock .. => hs.execSemBlock
  | .turnDonate .. => hs.execTurnDonate
  | .stepAdvanceRequest .. => hs.execStepAdvanceRequest
  | .stepAdvanceApply .. => hs.execStepAdvanceApply
  | .detJstepWrite .. => hs.execDetJstepWrite
  | .jobLoad .. => hs.execJobLoad
  | .life0HbmZeroDone .. => hs.execLife0HbmZeroDone
  | .placeBrecWrite .. => hs.execPlaceBrecWrite
  | .placeCommit .. => hs.execPlaceCommit
  | .placementPlan .. => hs.execPlacementPlan
  | .bufferMoveStart .. => hs.execBufferMoveStart
  | .bufferMoveDone .. => hs.execBufferMoveDone
  | .majorFrameBoundary => hs.execMajorFrameBoundary
  | .faultRecord .. => hs.execFaultRecord
  | .patrolRead .. => hs.execPatrolRead
  | .meshCrc .. => hs.execMeshCrc
  | .stall .. => hs.execStall
  | .lockstepMismatch .. => hs.execLockstepMismatch
  | .line => hs.execLine
  | .coreHb => hs.execCoreHb
  | .safeKick .. => hs.execSafeKick
  | .bootTimeout => hs.execBootTimeout
  | .hfltRetry => hs.execHfltRetry
  | .homeReq => hs.execHomeReq
  | .statusGateWrite .. => hs.execStatusGateWrite
  | .statusGateComplete => hs.execStatusGateComplete
  | .safeInj .. => hs.execSafeInj
  | .injectionMissed => hs.execInjectionMissed
  | .goldenRelease => hs.execGoldenRelease
  | .goldenStart => hs.execGoldenStart
  | .goldenCompare .. => hs.execGoldenCompare
  | .goldLate => hs.execGoldLate
  | .goldCtrlWrite .. => hs.execGoldCtrlWrite
  | .hbmAccessComplete .. => hs.execHbmAccessComplete
  | .hbmRefresh => hs.execHbmRefresh
  | .hbmTempReport .. => hs.execHbmTempReport
  | .hbmTrained .. => hs.execHbmTrained
  | .paceWindow .. => hs.execPaceWindow
  | .arbStarve .. => hs.execArbStarve
  | .arbRevoke => hs.execArbRevoke
  | .gateRead .. => hs.execGateRead
  | .pertWrite .. => hs.execPertWrite
  | .pertDelayWrite .. => hs.execPertDelayWrite
  | .kvAdmit .. => hs.execKvAdmit
  | .kvInsertPages .. => hs.execKvInsertPages
  | .kvSequenceEnd .. => hs.execKvSequenceEnd
  | .eflTrain .. => hs.execEflTrain
  | .eflFrameRx .. => hs.execEflFrameRx
  | .eflRetrain .. => hs.execEflRetrain
  | .eflLaneFail .. => hs.execEflLaneFail
  | .eflDown .. => hs.execEflDown
  | .eflPutPiece .. => hs.execEflPutPiece
  | .eflPieceReceive .. => hs.execEflPieceReceive
  | .ackc .. => hs.execAckc
  | .inc .. => hs.execInc
  | .getreq .. => hs.execGetreq
  | .getrsp .. => hs.execGetrsp
  | .eflWinOpen .. => hs.execEflWinOpen
  | .eflWinClose .. => hs.execEflWinClose
  | .eflWinCloseDone .. => hs.execEflWinCloseDone
  | .eflCtrlWrite .. => hs.execEflCtrlWrite
  | .timeRateWrite .. => hs.execTimeRateWrite
  | .timeStepWrite .. => hs.execTimeStepWrite
  | .timeRawRead .. => hs.execTimeRawRead
  | .timeNowRead .. => hs.execTimeNowRead
  | .timemNowRead .. => hs.execTimemNowRead
  | .timemRaRead => hs.execTimemRaRead
  | .timeMailboxRequest => hs.execTimeMailboxRequest
  | .ppsEdge .. => hs.execPpsEdge
  | .ppsLost => hs.execPpsLost
  | .tcxoFail => hs.execTcxoFail
  | .csiFrameStart .. => hs.execCsiFrameStart
  | .csiLine .. => hs.execCsiLine
  | .csiFrameEnd .. => hs.execCsiFrameEnd
  | .csiFrameTimeout .. => hs.execCsiFrameTimeout
  | .csiSyncLost .. => hs.execCsiSyncLost
  | .csiStamp .. => hs.execCsiStamp
  | .csiRctlWrite .. => hs.execCsiRctlWrite
  | .csiLaneSync .. => hs.execCsiLaneSync
  | .ethTxRelease .. => hs.execEthTxRelease
  | .ethTxDone .. => hs.execEthTxDone
  | .ethRxFrame .. => hs.execEthRxFrame
  | .ethTsRead0 .. => hs.execEthTsRead0
  | .ethTsRead1 .. => hs.execEthTsRead1
  | .ethGclCycle .. => hs.execEthGclCycle
  | .ethLink .. => hs.execEthLink
  | .pcieLinkUp .. => hs.execPcieLinkUp
  | .pcieDown .. => hs.execPcieDown
  | .pcieDoorbell .. => hs.execPcieDoorbell
  | .pcieMsix .. => hs.execPcieMsix
  | .pcieBar0winWrite .. => hs.execPcieBar0winWrite
  | .pcieHostRequest .. => hs.execPcieHostRequest
  | .canSend .. => hs.execCanSend
  | .canAbort .. => hs.execCanAbort
  | .canRecover .. => hs.execCanRecover
  | .canTxbufWrite .. => hs.execCanTxbufWrite
  | .canTx .. => hs.execCanTx
  | .canBusoff .. => hs.execCanBusoff
  | .bldClr => hs.execBldClr
  | .canRx .. => hs.execCanRx
  | .canRxtailWrite .. => hs.execCanRxtailWrite
  | .t1sTxpush .. => hs.execT1sTxpush
  | .t1sTx .. => hs.execT1sTx
  | .t1sRx .. => hs.execT1sRx
  | .plcaStatus .. => hs.execPlcaStatus
  | .launchRelease .. => hs.execLaunchRelease
  | .encQuadEdge .. => hs.execEncQuadEdge
  | .encEvent .. => hs.execEncEvent
  | .encCfgWrite .. => hs.execEncCfgWrite
  | .pwmPeriodStart .. => hs.execPwmPeriodStart
  | .permitKick .. => hs.execPermitKick
  | .permitKickMiss .. => hs.execPermitKickMiss
  | .permitArm .. => hs.execPermitArm
  | .permitStart => hs.execPermitStart
  | .permitStop => hs.execPermitStop
  | .permitReadbackSample .. => hs.execPermitReadbackSample
  | .gfpEdge .. => hs.execGfpEdge
  | .fbDiagSlot .. => hs.execFbDiagSlot
  | .fbFault .. => hs.execFbFault
  | .fbFoldback .. => hs.execFbFoldback
  | .controlTick => hs.execControlTick
  | .loopExecute => hs.execLoopExecute
  | .ceIn => hs.execCeIn
  | .ceSp => hs.execCeSp
  | .ceAdd => hs.execCeAdd
  | .ceSub => hs.execCeSub
  | .ceMul => hs.execCeMul
  | .ceMacz => hs.execCeMacz
  | .ceMac => hs.execCeMac
  | .ceRnd => hs.execCeRnd
  | .ceInt => hs.execCeInt
  | .ceLim => hs.execCeLim
  | .ceLds => hs.execCeLds
  | .ceSts => hs.execCeSts
  | .ceOut => hs.execCeOut
  | .ceEnd => hs.execCeEnd
  | .ceMin => hs.execCeMin
  | .ceMax => hs.execCeMax
  | .loopComplete => hs.execLoopComplete
  | .loopApply => hs.execLoopApply
  | .ceLoopCfgWrite .. => hs.execCeLoopCfgWrite
  | .loopHold .. => hs.execLoopHold
  | .ceCoefShiftWrite .. => hs.execCeCoefShiftWrite
  | .ceCoefValueWrite .. => hs.execCeCoefValueWrite
  | .ceSpcommit .. => hs.execCeSpcommit
  | .ceSpwWrite .. => hs.execCeSpwWrite
  | .ceProgWrite .. => hs.execCeProgWrite
  | .holdEngage => hs.execHoldEngage
  | .holdStale => hs.execHoldStale
  | .holdRelease => hs.execHoldRelease
  | .ssiTransferStart .. => hs.execSsiTransferStart
  | .ssiTransferDone .. => hs.execSsiTransferDone
  | .solvGo => hs.execSolvGo
  | .solvAbort => hs.execSolvAbort
  | .solvDone .. => hs.execSolvDone
  | .solvCommit => hs.execSolvCommit
  | .computeReset => hs.execComputeReset
  | .computeRestart .. => hs.execComputeRestart
  | .jobFaultRestart .. => hs.execJobFaultRestart
  | .keccakOp .. => hs.execKeccakOp
  | .attest .. => hs.execAttest
  | .power => hs.execPower
  | .lifecycle .. => hs.execLifecycle
  | .chal .. => hs.execChal
  | .submit => hs.execSubmit
  | .debugVerifyDone .. => hs.execDebugVerifyDone
  | .d3GrantDone => hs.execD3GrantDone
  | .relock => hs.execRelock
  | .debugHalt .. => hs.execDebugHalt
  | .debugResume .. => hs.execDebugResume
  | .pwrStateWrite .. => hs.execPwrStateWrite
  | .secPstateWrite .. => hs.execSecPstateWrite
  | .powerTransitionDone => hs.execPowerTransitionDone
  | .governorTick .. => hs.execGovernorTick
  | .pmbusVoutWrite => hs.execPmbusVoutWrite
  | .pwrTrimWrite .. => hs.execPwrTrimWrite
  | .junctionThrottle .. => hs.execJunctionThrottle
  | .junctionTrip .. => hs.execJunctionTrip
  | .droop => hs.execDroop
  | .icc => hs.execIcc
  | .throttleRelease .. => hs.execThrottleRelease
  | .energyFold .. => hs.execEnergyFold
  | .supply .. => hs.execSupply
  | .pmbAlert => hs.execPmbAlert
  | .pgCore => hs.execPgCore
  | .cpRead .. => hs.execCpRead
  | .cpWrite .. => hs.execCpWrite
  | .cpStatus .. => hs.execCpStatus
  | .cpTimeout .. => hs.execCpTimeout
  | .cpMbox .. => hs.execCpMbox
  | .cpReply .. => hs.execCpReply
  | .crst => hs.execCrst
  | .pstop => hs.execPstop
  | .cpDoorbell .. => hs.execCpDoorbell
  | .cpbWinWrite .. => hs.execCpbWinWrite
  | .evtpRaise .. => hs.execEvtpRaise
  | .evhRaise .. => hs.execEvhRaise
  | .eventDeliver => hs.execEventDeliver
  | .powerOnReset => State.sound_execPowerOnReset
  | .homeRstN .. => hs.execHomeRstN
  | .bootStageDone .. => hs.execBootStageDone
  | .computeBoot => hs.execComputeBoot
  | .mainDigestVerdict .. => hs.execMainDigestVerdict
  | .sysBootUp => hs.execSysBootUp
  | .frst .. => hs.execFrst
  | .faceResetDone .. => hs.execFaceResetDone
  | .sysCtrlDoubleWrite .. => hs.execSysCtrlDoubleWrite
  | .registerWrite .. => hs.execRegisterWrite

/-- Settles O5: the command at the front is run on a state that differs in its queue only. -/
theorem stepKeepsStateSound : Obligations.StepKeepsStateSound := by
  intro s t hs e
  unfold step at e
  split at e
  · cases e
    exact hs.frame
  · exact State.sound.exec hs.frame _ _ e

/-- Settles O6: nothing is written, waits, runs or is staged after reset. -/
theorem resetIsSound : Obligations.ResetIsSound := State.sound_of_empty rfl

end Sys2Proof.Machine

namespace Sys2Proof.Machine

/-! # The end of a command, and an exception (R73, R74, R103, R135 to R138, R148, R205)

What the end of a command and an exception leave, said once: the records of memory, Faces and registers that the statements
about instructions, jobs and faults need. -/

/-! ## Charges and snapshots (R67, R263, R270) -/

/-- Where the accounting record of job `j` starts. -/
def acctKey (j : Nat) : Nat := devKey (0x7F80020000 + j * 0x400)

theorem acctKey_home {j : Nat} (hj : j < 16) : acctKey j = homeSpace + 0xE0000 + j * 0x400 := by
  have h := acctKey_eq hj (show 0 < 0x400 by decide)
  rwa [Nat.add_zero, Nat.add_zero] at h

/-- What is charged to job `j` as a command of it ends: bytes of its accounting record, snapshots and the scheduler's turns
change, and registers up to the placement engine's only. -/
structure Charged (j : Nat) (s t : State) : Prop where
  rest : ∃ r m b sc pl sf, t = { s with
    regs := r
    mem := m
    bad := b
    sched := sc
    place := pl
    safe := sf }
  rd : ∀ a, 0x7F00031000 ≤ a → t.rd a = s.rd a
  mem : sameMemBut [(acctKey j, 0x400)] s t

namespace Charged
variable {j : Nat} {s t u : State}

theorem refl (s : State) : Charged j s s := ⟨⟨_, _, _, _, _, _, rfl⟩, fun _ _ => rfl, fun _ _ => rfl⟩

theorem trans (h : Charged j s t) (h' : Charged j t u) : Charged j s u := by
  obtain ⟨⟨_, _, _, _, _, _, rfl⟩, hrd, hmem⟩ := h
  obtain ⟨⟨_, _, _, _, _, _, rfl⟩, hrd', hmem'⟩ := h'
  exact ⟨⟨_, _, _, _, _, _, rfl⟩, fun a ha => (hrd' a ha).trans (hrd a ha), hmem.trans hmem'⟩

theorem ite {c : Prop} {inst : Decidable c} (h : Charged j s t) (h' : Charged j s u) : Charged j s (if c then t else u) := by
  split <;> assumption

theorem wr {a : Nat} {v : Word} (ha : a < 0x7F00031000) : Charged j s (s.wr a v) :=
  ⟨⟨_, _, _, _, _, _, rfl⟩, fun b hb => by rw [State.rd_wr, if_neg (by omega)], fun _ _ => rfl⟩

theorem sched (x : SchedSt) : Charged j s { s with sched := x } := ⟨⟨_, _, _, _, _, _, rfl⟩, fun _ _ => rfl, fun _ _ => rfl⟩

theorem storeNat {k n v : Nat} (hk : acctKey j ≤ k ∧ k + n ≤ acctKey j + 0x400) : Charged j s (s.storeNat k n v) := by
  refine ⟨⟨_, _, _, _, _, _, rfl⟩, fun _ _ => rfl, fun x hx => s.sameMemBut_storeNat k n v x ?_⟩
  simp only [List.forall_mem_singleton] at hx ⊢
  omega

theorem account (hj : j < 16) {off n : Nat} (ho : off + 8 ≤ 0x400) : Charged j s (s.account j off n) := by
  rcases s.account_cases j n off with h | ⟨v, h⟩ <;> rw [h]
  · exact refl s
  · refine storeNat ?_
    rw [acctKey_eq hj (by omega), acctKey_home hj]
    omega

theorem chargeCtr (hj : j < 16) {off reg : Nat} (ho : off + 8 ≤ 0x400) : Charged j s (s.chargeCtr j off reg) :=
  (sched _).trans (account hj ho)

theorem each {β : Type} {l : List β} {f : State → β → State} (hf : ∀ t, ∀ x ∈ l, Charged j t (f t x)) :
    Charged j s (s.each l f) :=
  State.each_rel refl trans l hf s

theorem qsatSnap {f : Nat} (hf : f < 6) : Charged j s (s.qsatSnap f) :=
  each fun t d hd => by
    have := List.mem_range.mp hd
    exact (wr (by simp only [Reg.QSAT_SNAP]; omega)).trans (wr (by simp only [Reg.QSAT_CNT]; omega))

theorem turnSnap (hj : j < 16) {f : Nat} (hf : f < 6) : Charged j s (s.turnSnap f j) := by
  refine (((qsatSnap hf).trans (each fun t d hd => ?_)).trans (each fun t i hi => ?_)).trans (each fun t i hi => ?_)
  · have := List.mem_range.mp hd
    exact ite (refl t) (account hj (by omega))
  · have := List.mem_range.mp hi
    exact chargeCtr hj (by omega)
  · have := List.mem_range.mp hi
    exact chargeCtr hj (by omega)

theorem setTurn {f p : Nat} {x : TurnSt} : Charged j s (s.setTurn f p x) := sched _

/-- The snapshots of a turn that ends are charged to the job whose turn it was. -/
theorem endTurn (hj : j < 16) {f p : Nat} (hf : f < 6) (ht : (s.turn f p).job = some j) : Charged j s (s.endTurn f p) := by
  rw [State.endTurn]
  simp only [ht]
  exact (turnSnap hj hf).trans setTurn

theorem chargeTurn (hj : j < 16) {f n : Nat} (hf : f < 6) : Charged j s (s.chargeTurn f j n) := by
  unfold State.chargeTurn
  dsimp only
  split
  case isTrue h =>
    refine ite (setTurn.trans (endTurn hj hf ?_)) setTurn
    rw [State.turn, State.setTurn, Map.get_put, if_pos rfl]
    exact h
  case isFalse => exact ite (refl s) (ite setTurn setTurn)

theorem adoptVf (hj : j < 16) {v : Nat} : Charged j s (s.adoptVf j v) := by
  unfold State.adoptVf
  split
  · exact refl s
  · exact (wr (by simp only [Reg.PLACE_VMAP]; omega)).trans ⟨⟨_, _, _, _, _, _, rfl⟩, fun _ _ => rfl, fun _ _ => rfl⟩

theorem placeSettle : Charged j s s.placeSettle := ite ((wr (by decide)).trans (wr (by decide))) (refl s)

end Charged

/-! ## The end of a command (R103, R136) -/

/-- Memory and the buffer table: what is cleared as a command ends. -/
def memBufs (s t : State) : Prop := ∃ m b bs, t = { s with
  mem := m
  bad := b
  bufs := bs }

theorem memBufs.refl (s : State) : memBufs s s := ⟨_, _, _, rfl⟩

theorem memBufs.trans {s t u : State} (h : memBufs s t) (h' : memBufs t u) : memBufs s u := by
  obtain ⟨_, _, _, rfl⟩ := h
  obtain ⟨_, _, _, rfl⟩ := h'
  exact ⟨_, _, _, rfl⟩

theorem memBufs.ite {s t u : State} {c : Prop} {inst : Decidable c} (h : memBufs s t) (h' : memBufs s u) :
    memBufs s (if c then t else u) := by split <;> assumption

theorem memBufs.zero {s : State} {k n : Nat} : memBufs s (s.zero k n) := ⟨_, _, _, rfl⟩

theorem memBufs.each {β : Type} {s : State} {l : List β} {f : State → β → State} (hf : ∀ t x, memBufs t (f t x)) :
    memBufs s (s.each l f) := State.each_rel .refl .trans l (fun t x _ => hf t x) s

theorem State.clearCommand_memBufs (s : State) (f j v : Nat) : memBufs s (s.clearCommand f j v) := by
  refine .trans (.trans (.trans (.trans .zero (.each fun t b => .ite (.refl t) .zero)) (.each fun t b => ⟨_, _, _, rfl⟩)) .zero)
    (.each fun t e => .ite (.ite ⟨_, _, _, rfl⟩ .zero) (.refl t))

/-- The Face after its command has ended: idle, but for what stands apart from the command. -/
def FaceSt.rest (fs : FaceSt) : FaceSt :=
  { FaceSt.idle with
    owner := fs.owner
    slot := fs.slot
    excJobs := fs.excJobs
    halted := fs.halted
    resetting := fs.resetting
    gated := fs.gated }

/-- What dies with the command is cleared and its end counts; that is charged to the job, the Face is at rest, its turn is
charged. -/
theorem State.endCommand_steps {s : State} {f : Nat} (hf : f < 6) (hj : (s.face f).job < 16) :
    let j := (s.face f).job
    let v := (s.face f).vf
    let c := s.clearCommand f j v
    ∃ a, Charged j (c.setVf j v { c.vf j v with ended := (c.vf j v).ended + 1 }) a ∧
      Charged j ((a.seqFld (Reg.FACE_STATUS f) 31 0).setFace f (s.face f).rest) (s.endCommand f) := by
  intro j v c
  unfold State.endCommand
  extract_lets _ fs s1 q s2 dt s3 s4 s5 _ s6 s7 _ s8 s9
  have hcount : Charged j s2 s3 := .account hj (by decide)
  have htime : Charged j s3 s4 := .ite (.account hj (by omega)) (.refl _)
  have hborrowed : Charged j s4 s5 := .ite (.account hj (by decide)) (.refl _)
  have hgolden : Charged j s5 s6 := by
    unfold s6
    split
    · exact .ite ⟨⟨_, _, _, _, _, _, rfl⟩, fun _ _ => rfl, fun _ _ => rfl⟩ (.refl _)
    · exact .refl _
  have hturn : Charged j s8 s9 := .ite (.turnSnap hj hf) (.chargeTurn hj hf)
  exact ⟨s6, ((hcount.trans htime).trans hborrowed).trans hgolden, (hturn.trans (.adoptVf hj)).trans .placeSettle⟩

/-- What the end of a command on Face `f` leaves, memory aside. -/
structure CommandEnded (f : Nat) (s t : State) : Prop where
  face : t.face f = (s.face f).rest
  faces : ∀ g, g ≠ f → t.face g = s.face g
  jobs : t.jobs = s.jobs
  waiters : t.waiters = s.waiters
  raised : t.raised = s.raised
  rd : ∀ a, 0x7F00031000 ≤ a → a ≠ Reg.FACE_STATUS f → t.rd a = s.rd a
  qbase : ∀ i v, (t.vf i v).qbase = (s.vf i v).qbase
  ended : (t.vf (s.face f).job (s.face f).vf).ended = (s.vf (s.face f).job (s.face f).vf).ended + 1

theorem State.endCommand_ended {s : State} {f : Nat} (hf : f < 6) (hj : (s.face f).job < 16) : CommandEnded f s (s.endCommand f) := by
  obtain ⟨a, hbefore, hafter⟩ := s.endCommand_steps hf hj
  obtain ⟨m, b, bs, hclear⟩ := s.clearCommand_memBufs f (s.face f).job (s.face f).vf
  generalize s.clearCommand f (s.face f).job (s.face f).vf = c at *
  subst hclear
  obtain ⟨⟨_, _, _, _, _, _, rfl⟩, hrd, -⟩ := hbefore
  obtain ⟨⟨_, _, _, _, _, _, heq⟩, hrd', -⟩ := hafter
  rw [heq] at hrd' ⊢
  refine ⟨?_, fun g hg => ?_, rfl, rfl, rfl, fun a ha hst => ?_, fun i v => ?_, ?_⟩
  · exact (State.face_setFace ..).trans (if_pos rfl)
  · exact (State.face_setFace ..).trans (if_neg hg)
  · rw [hrd' a ha, State.setFace_rd, State.seqFld, State.rd_setFld_ne _ _ _ _ hst, hrd a ha]
    rfl
  · refine (congrArg VfSt.qbase (State.vf_setVf ..)).trans ?_
    split
    case isTrue h => exact congrArg (fun k => (Map.get VfSt.empty s.vfs k).qbase) h.symm
    case isFalse => rfl
  · exact congrArg VfSt.ended ((State.vf_setVf ..).trans (if_pos rfl))

/-! ## What cancelling the window leaves (R123, R136) -/

/-- Waiters and semaphore registers: what dropping requests changes. -/
structure SemsOnly (s t : State) : Prop where
  rest : ∃ r w, t = { s with
    regs := r
    waiters := w }
  rd : ∀ a, a < 0x7F00060000 → t.rd a = s.rd a

namespace SemsOnly
variable {s t u : State}

theorem refl (s : State) : SemsOnly s s := ⟨⟨_, _, rfl⟩, fun _ _ => rfl⟩

theorem trans (h : SemsOnly s t) (h' : SemsOnly t u) : SemsOnly s u := by
  obtain ⟨⟨_, _, rfl⟩, hrd⟩ := h
  obtain ⟨⟨_, _, rfl⟩, hrd'⟩ := h'
  exact ⟨⟨_, _, rfl⟩, fun a ha => (hrd' a ha).trans (hrd a ha)⟩

theorem setWaiters {m : Nat} {l : List SemReq} : SemsOnly s (s.setWaiters m l) := ⟨⟨_, _, rfl⟩, fun _ _ => rfl⟩

theorem setFld {m hi lo x : Nat} : SemsOnly s (s.setFld (Reg.SYNC_SEM m) hi lo x) := by
  refine ⟨⟨_, _, rfl⟩, fun a ha => State.rd_setFld_ne _ _ _ _ ?_⟩
  simp only [Reg.SYNC_SEM]
  omega

theorem semRefresh {m : Nat} : SemsOnly s (s.semRefresh m) := setFld.trans setFld

theorem each {β : Type} {l : List β} {f : State → β → State} (hf : ∀ t x, SemsOnly t (f t x)) : SemsOnly s (s.each l f) :=
  State.each_rel refl trans l (fun t x _ => hf t x) s

theorem dropWaiters {f : Nat} : SemsOnly s (s.dropWaiters f) := each fun _ _ => setWaiters.trans semRefresh

end SemsOnly

theorem memOnly.refl (s : State) : memOnly s s := ⟨_, _, rfl⟩

theorem memOnly.trans {s t u : State} (h : memOnly s t) (h' : memOnly t u) : memOnly s u := by
  obtain ⟨_, _, rfl⟩ := h
  obtain ⟨_, _, rfl⟩ := h'
  exact ⟨_, _, rfl⟩

theorem memOnly.each {β : Type} {s : State} {l : List β} {f : State → β → State} (hf : ∀ t, ∀ x ∈ l, memOnly t (f t x)) :
    memOnly s (s.each l f) := State.each_rel refl trans l hf s

theorem memOnly.zero {s : State} {k n : Nat} : memOnly s (s.zero k n) := ⟨_, _, rfl⟩

theorem memOnly.copy {s : State} {a b n : Nat} : memOnly s (s.copy a b n) := ⟨_, _, rfl⟩

/-- A write to memory, as a deferred effect, changes memory alone. -/
theorem State.applyFx_write (s : State) {x : Fx} (h : x.isWrite = true) : memOnly s (s.applyFx x) := by
  cases x with
  | store a bs => exact ⟨_, _, rfl⟩
  | zero a n => exact ⟨_, _, rfl⟩
  | racc a i xs =>
    exact memOnly.each fun t x _ => ⟨_, _, rfl⟩
  | _ => cases h

/-- A piece of a write is a write. -/
theorem Fx.isWrite_of_mem_pieces {n : Nat} {x y : Fx} (hx : x.isWrite = true) (hy : y ∈ x.pieces n) : y.isWrite = true := by
  cases x with
  | store a bs =>
    obtain ⟨_, -, rfl⟩ := List.mem_map.mp hy
    rfl
  | zero a m =>
    obtain ⟨_, -, rfl⟩ := List.mem_map.mp hy
    rfl
  | racc a i xs =>
    obtain ⟨_, -, rfl⟩ := List.mem_map.mp hy
    rfl
  | _ => cases hx

/-- What cancelling the window of Face `f` leaves. -/
structure WindowCancelled (f : Nat) (s t : State) : Prop where
  face : t.face f = { s.face f with window := [] }
  faces : ∀ g, g ≠ f → t.face g = s.face g
  raised : t.raised = s.raised
  rd : ∀ a, a < 0x7F00060000 → t.rd a = s.rd a

theorem State.cancelWindow_spec (s : State) (f : Nat) : WindowCancelled f s (s.cancelWindow f) := by
  unfold State.cancelWindow
  extract_lets s1 efl s2
  have hwrites : ∃ m b fr, s1 = { s with
      mem := m
      bad := b
      fresh := fr } := by
    refine State.each_rel (R := fun s t => ∃ m b fr, t = { s with
      mem := m
      bad := b
      fresh := fr }) (fun t => ⟨_, _, _, rfl⟩) ?_ _ (fun t e _ => ?_) s
    · rintro t _ _ ⟨_, _, _, rfl⟩ ⟨_, _, _, rfl⟩
      exact ⟨_, _, _, rfl⟩
    · dsimp only
      split
      · obtain ⟨m, b, h⟩ := memOnly.each (s := (t.take 1).2) (f := State.applyFx)
          (l := ((((t.landing f e).getD []).filter Fx.isWrite).flatMap (Fx.pieces e.unit.grain)).take (Config.freeCount (t.take 1).1))
          fun u x hx => u.applyFx_write (by
            obtain ⟨y, hy, hxy⟩ := List.mem_flatMap.mp (List.mem_of_mem_take hx)
            exact Fx.isWrite_of_mem_pieces (List.mem_filter.mp hy).2 hxy)
        exact ⟨m, b, _, h⟩
      · exact ⟨_, _, _, rfl⟩
  obtain ⟨m, b, fr, h1⟩ := hwrites
  clear_value s1
  subst h1
  obtain ⟨⟨r, w, heq⟩, hrd⟩ := SemsOnly.dropWaiters (s := s2.setFace f { s2.face f with window := [] }) (f := f)
  rw [heq] at hrd ⊢
  refine ⟨?_, fun g hg => ?_, rfl, hrd⟩
  · exact (State.face_setFace ..).trans (if_pos rfl)
  · exact (State.face_setFace ..).trans (if_neg hg)

/-! ## An exception is taken (R135, R136, R138) -/

theorem faceExcInfo_ne (f : Nat) : Reg.FACE_EXCINFO f ≠ Reg.FACE_EXC f := by
  simp only [Reg.FACE_EXCINFO, Reg.FACE_EXC]
  omega

/-- The word that a free record takes. -/
def excWord (code : Nat) (hw precise : Bool) (pc : Nat) : Nat :=
  2 ^ 63 + (if hw then 2 ^ 62 else 0) + (if precise then 2 ^ 61 else 0) + code * 2 ^ 48 + pc % 2 ^ 32

theorem excWord_fields {code : Nat} (hcode : code < 256) (hw precise : Bool) (pc : Nat) :
    bits (excWord code hw precise pc) 63 63 = 1 ∧ bits (excWord code hw precise pc) 61 61 = (if precise then 1 else 0) ∧
      bits (excWord code hw precise pc) 55 48 = code ∧ bits (excWord code hw precise pc) 31 0 = pc % 2 ^ 32 ∧
      excWord code hw precise pc < 2 ^ 64 := by
  unfold excWord bits
  cases hw <;> cases precise <;> simp only [if_true, Bool.false_eq_true, if_false] <;> omega

theorem State.flag_eq_bits (s : State) (a k : Nat) : s.flag a k = decide (bits (s.rd a).toNat k k = 1) := by
  rw [State.flag_eq_testBit, bits, Nat.testBit_eq_decide_div_mod_eq, Nat.add_sub_cancel_left, pow_one]

section
variable {s : State} {f : Nat} {e : Exc} {precise hw : Bool} {pc : Nat}

/-- A free record is written; nothing else changes. -/
theorem State.recordExc_free (h : s.flag (Reg.FACE_EXC f) 63 = false) :
    regsOnly s (s.recordExc f e precise hw pc) ∧
      (s.recordExc f e precise hw pc).rd (Reg.FACE_EXC f) = BitVec.ofNat 64 (excWord e.code hw precise pc) ∧
      (s.recordExc f e precise hw pc).rd (Reg.FACE_EXCINFO f) = BitVec.ofNat 64 e.info := by
  rw [State.recordExc, h, if_neg Bool.false_ne_true]
  refine ⟨((regsOnly.refl s).wr _ _).wr _ _, ?_, ?_⟩
  · rw [State.rd_wr, if_neg (faceExcInfo_ne f).symm, State.rd_wr, if_pos rfl, excWord]
  · rw [State.rd_wr, if_pos rfl]

/-- An exception on a Face whose record is free: the record, no command, nothing in flight, the event raised. -/
theorem State.takeExc_spec (hf : f < 6) (hj : (s.face f).job < 16) (hfree : s.flag (Reg.FACE_EXC f) 63 = false) (hcode : e.code < 256) :
    excTaken f e.code precise (pc % 2 ^ 32) s (s.takeExc f e precise pc) ∧
      (s.takeExc f e precise pc).rd (Reg.FACE_EXCINFO f) = BitVec.ofNat 64 e.info := by
  obtain ⟨⟨r, hreg⟩, hexc, hinfo⟩ := s.recordExc_free (e := e) (precise := precise) (hw := e.code == 0x0E) (pc := pc) hfree
  unfold State.takeExc
  extract_lets fs hwv t
  have hc := (s.recordExc f e precise hwv pc).cancelWindow_spec f
  have hface : (s.recordExc f e precise hwv pc).face f = s.face f := by rw [hreg]; rfl
  have hended := ((s.recordExc f e precise hwv pc).cancelWindow f).endCommand_ended hf (by rw [hc.face, hface]; exact hj)
  have hraised : t.raised = s.raised ++ [f] := congrArg (· ++ [f]) (hended.raised.trans (hc.raised.trans (by rw [hreg])))
  have hrd : ∀ a, 0x7F00050010 ≤ a → a < 0x7F00060000 → a ≠ Reg.FACE_STATUS f →
      t.rd a = (s.recordExc f e precise hwv pc).rd a :=
    fun a hlo hhi ha => by rw [State.raiseEv_rd, hended.rd a (by omega) ha, hc.rd a hhi]
  have hrdExc : t.rd (Reg.FACE_EXC f) = BitVec.ofNat 64 (excWord e.code hwv precise pc) :=
    (hrd _ (by simp only [Reg.FACE_EXC]; omega) (by simp only [Reg.FACE_EXC]; omega)
      (by simp only [Reg.FACE_EXC, Reg.FACE_STATUS]; omega)).trans hexc
  have hrdInfo : t.rd (Reg.FACE_EXCINFO f) = BitVec.ofNat 64 e.info :=
    (hrd _ (by simp only [Reg.FACE_EXCINFO]; omega) (by simp only [Reg.FACE_EXCINFO]; omega)
      (by simp only [Reg.FACE_EXCINFO, Reg.FACE_STATUS]; omega)).trans hinfo
  obtain ⟨h63, h61, h55, h31, hlt⟩ := excWord_fields hcode hwv precise pc
  have hval : (t.rd (Reg.FACE_EXC f)).toNat = excWord e.code hwv precise pc := by
    rw [hrdExc, BitVec.toNat_ofNat, Nat.mod_eq_of_lt hlt]
  have hrest : (t.face f).window = [] ∧ (t.face f).running = false := by
    have : t.face f = _ := hended.face
    rw [this]
    exact ⟨rfl, rfl⟩
  clear_value t
  refine ⟨⟨?_, ?_, ?_, ?_, ?_, ?_, hraised⟩, hrdInfo⟩
  · rw [State.setFace_flag, State.flag_eq_bits, hval, h63]
    rfl
  · rw [State.setFace_flag, State.flag_eq_bits, hval, h61]
    cases precise <;> rfl
  · rw [State.setFace_fld, State.fld, hval, h55]
  · rw [State.setFace_fld, State.fld, hval, h31]
  · rw [State.face_setFace, if_pos rfl]
    exact hrest.1
  · rw [State.face_setFace, if_pos rfl]
    exact hrest.2

end

end Sys2Proof.Machine

namespace Sys2Proof.Machine

/-! # The HBM controller (R77 to R82) -/

section
variable {s u : State} {a : Nat}

/-! ## A device fault leaves the registers below its own alone -/

theorem State.logFault_rd_low (s : State) (src face job flags detail : Nat) (ha : a < Reg.HFLT_CTRL) :
    (s.logFault src face job flags detail).rd a = s.rd a := by
  have hword : ∀ i k, a ≠ Reg.HFLT_LOG i k := fun i k => by
    simp only [Reg.HFLT_LOG, Reg.HFLT_CTRL] at *
    omega
  have hseq : a ≠ Reg.HFLT_LOGSEQ := by
    simp only [Reg.HFLT_LOGSEQ, Reg.HFLT_CTRL] at *
    omega
  rw [State.logFault_eq, State.seqFld, State.rd_setFld_ne _ _ _ _ hseq, State.logCopy_rd, State.logWords]
  simp only [State.rd_wr, hword, if_false]

theorem State.startReset_rd (s : State) (a : Nat) : s.startReset.rd a = s.rd a := by
  unfold State.startReset
  split <;> rfl

theorem State.fault_rd_low (s : State) {src : Nat} (detail : Nat) (h : faultKind src = .device) (ha : a < Reg.HFLT_CTRL) :
    (s.fault src none none false detail).rd a = s.rd a := by
  obtain ⟨v, heq, hrd, -⟩ := s.faultNoted_spec src detail
  have hne : a ≠ Reg.HFLT_STATUS := by
    simp only [Reg.HFLT_STATUS, Reg.HFLT_CTRL] at *
    omega
  rw [State.fault_device _ _ _ h, State.startReset_rd, heq, State.rd_setFld_ne _ _ _ _ hne, hrd, State.logFault_rd_low _ _ _ _ _ _ ha]

/-- What a fault is recorded against: the log's sequence number and the fault status. -/
theorem deviceFault.congr {src : Nat} {t : State} (h : deviceFault src u t) (hseq : u.rd Reg.HFLT_LOGSEQ = s.rd Reg.HFLT_LOGSEQ)
    (hstatus : u.rd Reg.HFLT_STATUS = s.rd Reg.HFLT_STATUS) : deviceFault src s t := by
  have hcstate : u.cstate = s.cstate := State.fld_congr hstatus ..
  rw [deviceFault, faultLogged, State.fld_congr hseq, hcstate] at h
  exact h

end

/-! ## An uncorrectable error (R77, R80) -/

theorem hbmHalf_lt (a : Nat) : hbmHalf a < 2 := by
  have h : hbmPc a < 2 ^ 5 := Nat.xor_lt_two_pow (Nat.xor_lt_two_pow (bits_lt ..) (bits_lt ..)) (bits_lt ..)
  simp only [hbmHalf, hbmChannel]
  omega

theorem hbmHalf_eq (a : Nat) : (bits a 12 8 ^^^ bits a 17 13 ^^^ bits a 22 18) / 16 = hbmHalf a := (Nat.div_div_eq_div_mul _ 2 8).symm

/-- Counted for its half, its chunk shown, the fault recorded; the other registers below those of the fault unit as before. -/
theorem State.hbmUe_spec (s : State) (a : Nat) :
    (s.hbmUe a).rd (Reg.HBMC_UE (hbmHalf a)) = Ctr.add (s.rd (Reg.HBMC_UE (hbmHalf a))) 1 ∧
      (s.hbmUe a).rd Reg.HBMC_ERRADDR = BitVec.ofNat 64 (2 ^ 63 + a % 2 ^ 35 / 256 * 256) ∧ deviceFault 0x03 s (s.hbmUe a) ∧
      ∀ b, b < Reg.HFLT_CTRL → b ≠ Reg.HBMC_UE (hbmHalf a) → b ≠ Reg.HBMC_ERRADDR → (s.hbmUe a).rd b = s.rd b := by
  have hhalf := hbmHalf_lt a
  have hue : Reg.HBMC_UE (hbmHalf a) < Reg.HBMC_ERRADDR := by
    simp only [Reg.HBMC_UE, Reg.HBMC_ERRADDR]
    omega
  have hlow : Reg.HBMC_ERRADDR < Reg.HFLT_CTRL := by decide
  have hseq : Reg.HFLT_CTRL < Reg.HFLT_LOGSEQ := by decide
  have hstatus : Reg.HFLT_CTRL < Reg.HFLT_STATUS := by decide
  unfold State.hbmUe
  generalize Reg.HBMC_UE (hbmHalf a) = ue at *
  generalize hu : (s.countReg ue 1).wr Reg.HBMC_ERRADDR (BitVec.ofNat 64 (2 ^ 63 + a % 2 ^ 35 / 256 * 256)) = u
  have hrd : ∀ b, u.rd b = if b = Reg.HBMC_ERRADDR then BitVec.ofNat 64 (2 ^ 63 + a % 2 ^ 35 / 256 * 256)
      else if b = ue then Ctr.add (s.rd ue) 1 else s.rd b := fun b => by rw [← hu, State.rd_wr, State.rd_countReg]
  have hkept : ∀ b, b ≠ ue → b ≠ Reg.HBMC_ERRADDR → u.rd b = s.rd b := fun b h1 h2 => by rw [hrd, if_neg h2, if_neg h1]
  refine ⟨?_, ?_, (u.fault_deviceFault 0x03 _ rfl (by decide)).congr (hkept _ (by omega) (by omega)) (hkept _ (by omega) (by omega)),
    fun b hb h1 h2 => ?_⟩
  · rw [State.fault_rd_low _ _ rfl (by omega), hrd, if_neg (by omega), if_pos rfl]
  · rw [State.fault_rd_low _ _ rfl hlow, hrd, if_pos rfl]
  · rw [State.fault_rd_low _ _ rfl hb, hkept b h1 h2]

theorem State.hbmUe_faces (s : State) (a : Nat) : (s.hbmUe a).faces = s.faces := (logFrame.fault (logFrame.refl _) ..).2

/-- The instruction that asked receives MEM_ERROR, with the address in its record. -/
theorem State.memError_spec {s : State} {f a : Nat} {e : Entry} (hf : f < 6) (hj : (s.face f).job < 16)
    (hfind : ((s.face f).window.find? fun x => x.seq == e.seq) = some e) (hfree : s.flag (Reg.FACE_EXC f) 63 = false) :
    let t := s.memError f e.seq a
    t.flag (Reg.FACE_EXC f) 63 = true ∧ t.flag (Reg.FACE_EXC f) 61 = false ∧ t.fld (Reg.FACE_EXC f) 55 48 = 0x0E ∧
      t.fld (Reg.FACE_EXC f) 31 0 = e.pc % 2 ^ 32 ∧ t.fld (Reg.FACE_EXCINFO f) 34 0 = a % 2 ^ 35 ∧
      (t.face f).running = false ∧ (t.face f).window = [] := by
  obtain ⟨⟨hheld, hprecise, hcode, hpc, hwindow, hrunning, -⟩, hinfo⟩ :=
    s.takeExc_spec (e := ⟨0x0E, a % 2 ^ 35⟩) (precise := false) (pc := e.pc) hf hj hfree (Nat.lt_of_sub_eq_succ rfl)
  unfold State.memError
  rw [hfind]
  dsimp only
  generalize s.takeExc f ⟨0x0E, a % 2 ^ 35⟩ false e.pc = t at *
  simp only [State.setFace_flag, State.setFace_fld, State.face_setFace, if_true]
  refine ⟨hheld, hprecise, hcode, hpc, ?_, hrunning, hwindow⟩
  rw [State.fld, hinfo]
  simp only [BitVec.toNat_ofNat, bits]
  omega

/-! ## Commands of the controller -/

section
variable (a : Nat) (s : State)

/-- What an uncorrectable access is worked on with: on-die ECC found it and the word stays bad, or a retry failed and is counted. -/
def State.hbmBadAccess (r : BitVec 3) : State := if r = 3 then s.markBad (a / 16 * 16) 2 else s.countReg Reg.HBMC_RETRY 1

theorem exec_hbmAccess_uncorrectable {r : BitVec 3} (hr : r ∈ [(3 : BitVec 3), 4]) (n : Nat) :
    exec (.hbmAccessComplete a r none n) s = .next ((s.hbmBadAccess a r).hbmUe a) ∧
      ∀ f : Fin 6, exec (.hbmAccessComplete a r (some f) n) s = .next (((s.hbmBadAccess a r).hbmUe a).memError f n a) := by
  rcases List.mem_pair.mp hr with rfl | rfl
  · exact ⟨rfl, fun _ => rfl⟩
  · exact ⟨rfl, fun _ => rfl⟩

theorem State.hbmBadAccess_faces (r : BitVec 3) : (s.hbmBadAccess a r).faces = s.faces := by
  unfold State.hbmBadAccess
  split <;> rfl

theorem State.hbmBadAccess_rd (r : BitVec 3) {b : Nat} (hb : b ≠ Reg.HBMC_RETRY) : (s.hbmBadAccess a r).rd b = s.rd b := by
  unfold State.hbmBadAccess
  split
  · rfl
  · rw [State.rd_countReg, if_neg hb]

theorem hbmUe_ne_retry : Reg.HBMC_UE (hbmHalf a) ≠ Reg.HBMC_RETRY := by
  have := hbmHalf_lt a
  simp only [Reg.HBMC_UE, Reg.HBMC_RETRY]
  omega

/-- An uncorrectable access of no instruction. -/
theorem hbmAccess_uncorrectable {r : BitVec 3} (hr : r ∈ [(3 : BitVec 3), 4]) (n : Nat) :
    completes (.hbmAccessComplete a r none n) s fun t => t.rd Reg.HBMC_RETRY = (s.hbmBadAccess a r).rd Reg.HBMC_RETRY ∧
      t.rd Reg.HBMC_ERRADDR = BitVec.ofNat 64 (2 ^ 63 + a % 2 ^ 35 / 256 * 256) ∧
      t.rd (Reg.HBMC_UE (hbmHalf a)) = Ctr.add (s.rd (Reg.HBMC_UE (hbmHalf a))) 1 ∧ deviceFault 0x03 s t := by
  obtain ⟨hue, haddr, hfault, hrd⟩ := (s.hbmBadAccess a r).hbmUe_spec a
  refine ⟨_, (exec_hbmAccess_uncorrectable a s hr n).1, ?_, haddr, ?_, ?_⟩
  · exact hrd _ (by decide) (hbmUe_ne_retry a).symm (by decide)
  · rw [hue, s.hbmBadAccess_rd a r (hbmUe_ne_retry a)]
  · exact hfault.congr (s.hbmBadAccess_rd a r (by decide)) (s.hbmBadAccess_rd a r (by decide))

/-- An uncorrectable access of an instruction in flight. -/
theorem hbmAccess_memError {f : Fin 6} {e : Entry} (hfind : ((s.face f).window.find? fun x => x.seq == e.seq) = some e)
    (hs : s.sound) (hfree : s.flag (Reg.FACE_EXC f) 63 = false) {r : BitVec 3} (hr : r ∈ [(3 : BitVec 3), 4]) :
    completes (.hbmAccessComplete a r (some f) e.seq) s fun t =>
      t.flag (Reg.FACE_EXC f) 63 = true ∧ t.flag (Reg.FACE_EXC f) 61 = false ∧ t.fld (Reg.FACE_EXC f) 55 48 = 0x0E ∧
        t.fld (Reg.FACE_EXC f) 31 0 = e.pc % 2 ^ 32 ∧ t.fld (Reg.FACE_EXCINFO f) 34 0 = a % 2 ^ 35 ∧
        (t.face f).running = false ∧ (t.face f).window = [] := by
  have hface : ((s.hbmBadAccess a r).hbmUe a).face f = s.face f := by
    rw [State.face, State.hbmUe_faces, State.hbmBadAccess_faces, ← State.face]
  obtain ⟨-, -, -, hrd⟩ := (s.hbmBadAccess a r).hbmUe_spec a
  have hexc : ((s.hbmBadAccess a r).hbmUe a).rd (Reg.FACE_EXC f) = s.rd (Reg.FACE_EXC f) := by
    have := hbmHalf_lt a
    rw [hrd, s.hbmBadAccess_rd a r]
    all_goals simp only [Reg.FACE_EXC, Reg.HBMC_RETRY, Reg.HBMC_UE, Reg.HBMC_ERRADDR, Reg.HFLT_CTRL]; omega
  refine ⟨_, (exec_hbmAccess_uncorrectable a s hr e.seq).2 f, State.memError_spec f.isLt ?_ ?_ ?_⟩
  · rw [hface]
    exact hs.job_lt f
  · rw [hface]
    exact hfind
  · rw [State.flag_congr hexc]
    exact hfree

theorem hbmAccess_counted {r : BitVec 3} {b : Nat} (q : Option (Fin 6)) (n : Nat)
    (h : exec (.hbmAccessComplete a r q n) s = .next (s.countReg b 1)) :
    completes (.hbmAccessComplete a r q n) s fun t => t.rd b = Ctr.add (s.rd b) 1 ∧ sameRegsBut [b] s t ∧ t.mem = s.mem ∧
      t.faces = s.faces :=
  ⟨_, h, by rw [State.rd_countReg, if_pos rfl], (sameRegsBut_refl _ s).countReg List.mem_cons_self 1, rfl, rfl⟩

theorem exec_hbmTempReport (c : BitVec 8) : exec (.hbmTempReport c) s =
    .next (if 95 < c.toInt then
        ((s.setFlag Reg.HBMC_STATUS 30 (decide (85 < c.toInt))).setFlag Reg.HBMC_STATUS 31 (decide (95 < c.toInt))).raiseEv 13
      else (s.setFlag Reg.HBMC_STATUS 30 (decide (85 < c.toInt))).setFlag Reg.HBMC_STATUS 31 (decide (95 < c.toInt))) := by
  show execHbmTempReport c s = _
  rw [execHbmTempReport]

theorem exec_hbmTrained (h : BitVec 1) : exec (.hbmTrained h) s =
    .next ((s.setFlag Reg.HBMC_STATUS h.toNat true).setFlag Reg.HBMC_STATUS 29 false) := by
  show execHbmTrained h s = _
  rw [execHbmTrained]

/-- A temperature report sets the two flags, and raises event 13 above 95 degrees. -/
theorem hbmTempReport_completes (c : BitVec 8) : completes (.hbmTempReport c) s fun t =>
    t.flag Reg.HBMC_STATUS 30 = decide (85 < c.toInt) ∧ t.flag Reg.HBMC_STATUS 31 = decide (95 < c.toInt) ∧
      t.raised = s.raised ++ (if 95 < c.toInt then [13] else []) ∧ sameRegsBut [Reg.HBMC_STATUS] s t ∧ t.mem = s.mem := by
  obtain ⟨u, hu⟩ : ∃ u,
      u = (s.setFlag Reg.HBMC_STATUS 30 (decide (85 < c.toInt))).setFlag Reg.HBMC_STATUS 31 (decide (95 < c.toInt)) := ⟨_, rfl⟩
  have h30 : u.flag Reg.HBMC_STATUS 30 = decide (85 < c.toInt) := by
    rw [hu, State.flag_setFlag_ne _ _ _ _ _ (by decide) (by decide), State.flag_setFlag_same _ _ _ _ (by decide)]
  have h31 : u.flag Reg.HBMC_STATUS 31 = decide (95 < c.toInt) := by
    rw [hu, State.flag_setFlag_same _ _ _ _ (by decide)]
  have hregs : sameRegsBut [Reg.HBMC_STATUS] s u :=
    hu ▸ ((sameRegsBut_refl _ s).setFlag List.mem_cons_self _ _).setFlag List.mem_cons_self _ _
  have hrest : u.raised = s.raised ∧ u.mem = s.mem := by
    rw [hu, State.setFlag_raised, State.setFlag_raised, State.setFlag_mem, State.setFlag_mem]
    exact ⟨rfl, rfl⟩
  refine ⟨if 95 < c.toInt then u.raiseEv 13 else u, (exec_hbmTempReport s c).trans (by rw [hu]), ?_⟩
  split
  · exact ⟨h30, h31, congrArg (· ++ [13]) hrest.1, hregs, hrest.2⟩
  · exact ⟨h30, h31, hrest.1.trans (List.append_nil _).symm, hregs, hrest.2⟩

theorem hbmTrained_completes (h : BitVec 1) : completes (.hbmTrained h) s fun t => t.flag Reg.HBMC_STATUS h.toNat = true ∧
    t.flag Reg.HBMC_STATUS 29 = false ∧ sameRegsBut [Reg.HBMC_STATUS] s t ∧ t.mem = s.mem := by
  have hh : h.toNat < 2 := h.isLt
  refine ⟨_, exec_hbmTrained s h, ?_, State.flag_setFlag_same _ _ _ _ (by decide),
    ((sameRegsBut_refl _ s).setFlag List.mem_cons_self _ _).setFlag List.mem_cons_self _ _, ?_⟩
  · rw [State.flag_setFlag_ne _ _ _ _ _ (by decide) (by omega), State.flag_setFlag_same _ _ _ _ (by omega)]
  · rw [State.setFlag_mem, State.setFlag_mem]

end

/-- Settles O36, command by command. -/
theorem hbmController : Obligations.HbmController := by
  intro h a s half
  have hhalf : half = hbmHalf a := hbmHalf_eq a
  rw [hhalf]
  refine ⟨fun _ _ => rfl, rfl, fun q n => ⟨hbmAccess_counted a s q n rfl, hbmAccess_counted a s q n rfl⟩, fun n => ?_, fun n => ?_,
    fun f e hfind hs hfree r hr => hbmAccess_memError a s hfind hs hfree hr, hbmTempReport_completes s, hbmTrained_completes s h⟩
  · obtain ⟨t, hexec, -, haddr, hue, hfault⟩ := hbmAccess_uncorrectable a s (r := 3) (by decide) n
    exact ⟨t, hexec, hue, haddr, hfault⟩
  · obtain ⟨t, hexec, hretry, haddr, hue, hfault⟩ := hbmAccess_uncorrectable a s (r := 4) (by decide) n
    refine ⟨t, hexec, ?_, haddr, hue, hfault⟩
    rw [hretry, State.hbmBadAccess, if_neg (by decide), State.rd_countReg, if_pos rfl]

end Sys2Proof.Machine

namespace Sys2Proof.Machine

/-! # The end of a job (R99, R123)

`State.sound` bounds the indices of the waiters' table and does not ask that it be canonical. In a table that lists a semaphore
twice, only the first entry is the semaphore's; JOB_KILL first drops the job's requests from that entry, but as it then cancels
the job's running command, it goes through the table once more and brings the second entry, with the killed job's request, to
the front. -/

/-- A request of job 1. -/
def otherRequest : SemReq := ⟨1, none, 0, 1, 0, false, 0⟩

/-- A request of job 0, which is killed. -/
def killedRequest : SemReq := ⟨0, none, 0, 1, 0, false, 0⟩

/-- Face 0 runs a command of job 0, and semaphore 5 is listed twice. -/
def listedTwice : State := { Tests.work with waiters := [(5, [otherRequest]), (5, [otherRequest, killedRequest])] }

theorem listedTwice_sound : listedTwice.sound := Tests.sound_of_soundB (by decide +kernel)

/-- Does a request of job 0 wait for semaphore 5 after a command? -/
def waitsAfter : Out → Bool
  | .next t => (t.semWaiters 5).any fun r => r.job == 0
  | _ => false

theorem waitsAfter_jobKill : waitsAfter (exec (.jobKill 0) listedTwice) = true := by decide +kernel

/-- Refutes O24: a request of the killed job waits after JOB_KILL where the waiters' table lists a semaphore twice. -/
theorem not_jobsEndAndAreScrubbed : ¬ Obligations.JobsEndAndAreScrubbed := by
  rintro ⟨-, hkill, -⟩
  obtain ⟨t, hexec, -, -, hgone, -⟩ := hkill 0 listedTwice listedTwice_sound (by decide +kernel)
  have hwaits := waitsAfter_jobKill
  rw [hexec] at hwaits
  obtain ⟨r, hr, hjob⟩ := List.any_eq_true.mp hwaits
  exact hgone 5 r hr (beq_iff_eq.mp hjob)

end Sys2Proof.Machine

namespace Sys2Proof.Machine

/-! # Loading a job (R85, R98, R99, R253) -/

/-- The jobs and the queues are as before. -/
def jobsKept (s t : State) : Prop := t.jobs = s.jobs ∧ t.vfs = s.vfs

section
variable {s t : State} {j v : Nat} {img : JobImage} {pl : LoadPlan}

theorem jobsKept.refl (s : State) : jobsKept s s := ⟨rfl, rfl⟩

theorem jobsKept.trans {u : State} (h : jobsKept s t) (h' : jobsKept t u) : jobsKept s u := ⟨h'.1.trans h.1, h'.2.trans h.2⟩

theorem jobsKept.each {β : Type} {l : List β} {f : State → β → State} (hf : ∀ t x, jobsKept t (f t x)) : jobsKept s (s.each l f) :=
  State.each_rel refl trans l (fun t x _ => hf t x) s

theorem jobsKept.job (h : jobsKept s t) (i : Nat) : t.job i = s.job i := congrArg (Map.get none · i) h.1

theorem jobsKept.vf (h : jobsKept s t) (i w : Nat) : t.vf i w = s.vf i w := congrArg (Map.get VfSt.empty · (8 * i + w)) h.2

theorem jobsKept.wr (h : jobsKept s t) (a : Nat) (x : Word) : jobsKept s (t.wr a x) := h

theorem jobsKept.setFld (h : jobsKept s t) (a hi lo x : Nat) : jobsKept s (t.setFld a hi lo x) := h

theorem jobsKept.setFlag (h : jobsKept s t) (a k : Nat) (b : Bool) : jobsKept s (t.setFlag a k b) := h

theorem State.detLoad_jobsKept : jobsKept s (s.detLoad j img pl) :=
  (((((((jobsKept.refl s).wr _ _).wr _ _).wr _ _).wr _ _).wr _ _).wr _ _).wr _ _

theorem State.zeroLeft_jobsKept : jobsKept s (s.zeroLeft j) := by
  unfold State.zeroLeft
  extract_lets s' kept
  have h : jobsKept s s' := by
    refine .each fun t z => ?_
    split
    · split
      · exact .refl t
      · split
        · exact .each fun u w => ⟨rfl, rfl⟩
        · exact ⟨rfl, rfl⟩
    · exact .refl t
  exact ⟨h.1, h.2⟩

theorem State.kvLoad_jobsKept (p : PoolRec) : jobsKept s (s.kvLoad j p) := .each fun _ _ => .each fun _ _ => ⟨rfl, rfl⟩

theorem State.acctLoad_jobsKept : jobsKept s (s.acctLoad j img) := by
  unfold State.acctLoad
  dsimp only
  split <;> exact ⟨rfl, rfl⟩

/-- The queue of a vFace of the job is empty; the jobs and the other queues are as before. -/
theorem State.queueLoad_spec (v : Nat) : (s.queueLoad j v img).jobs = s.jobs ∧
    (((s.queueLoad j v img).vf j v).head = 0 ∧ ((s.queueLoad j v img).vf j v).tail = 0) ∧
    ∀ w, w ≠ v → (s.queueLoad j v img).vf j w = s.vf j w := by
  unfold State.queueLoad
  extract_lets ring a q s1
  have hkept : jobsKept s1 ((s1.zero a 64).storeNat (a + 8) 1 ring.2) := ⟨rfl, rfl⟩
  refine ⟨rfl, ?_, fun w hw => ?_⟩
  · rw [hkept.vf, State.vf_setVf, if_pos rfl]
    exact ⟨rfl, rfl⟩
  · rw [hkept.vf, State.vf_setVf, if_neg (by omega)]

/-- Queues loaded one after another are all empty. -/
theorem State.queuesLoad_spec (n : Nat) : let t := s.each (List.range n) fun s v => s.queueLoad j v img
    t.jobs = s.jobs ∧ ∀ v < n, (t.vf j v).head = 0 ∧ (t.vf j v).tail = 0 := by
  induction n with
  | zero => exact ⟨rfl, fun v hv => absurd hv (Nat.not_lt_zero v)⟩
  | succ n ih =>
    obtain ⟨hjobs, hempty⟩ := ih
    simp only [State.each, List.range_succ, List.foldl_append, List.foldl_cons, List.foldl_nil] at *
    generalize (List.range n).foldl (fun s v => s.queueLoad j v img) s = u at *
    obtain ⟨hjob, hown, hother⟩ := u.queueLoad_spec (j := j) (img := img) n
    refine ⟨hjob.trans hjobs, fun v hv => ?_⟩
    by_cases h : v = n
    · rw [h]
      exact hown
    · rw [hother v h]
      exact hempty v (by omega)

/-- A job loaded has its image and the plan's code base, has not started, and its queues are empty. -/
theorem State.loadJob_spec (s : State) (j : Nat) (img : JobImage) (pl : LoadPlan) (reload : Bool) :
    (∃ jb, (s.loadJob j img pl reload).job j = some jb ∧ jb.img = img ∧ jb.codeBase = pl.codeBase ∧ jb.ending = false ∧
      jb.started = false) ∧
    ∀ v < img.vfs.length, ((s.loadJob j img pl reload).vf j v).head = 0 ∧ ((s.loadJob j img pl reload).vf j v).tail = 0 := by
  unfold State.loadJob
  extract_lets cov s1 s2 s3 m s4 s5 kept s6 s7 s8 s9
  have hrec : ∃ jb, s2.job j = some jb ∧ jb.img = img ∧ jb.codeBase = pl.codeBase ∧ jb.ending = false ∧ jb.started = false :=
    ⟨_, (State.job_setJob ..).trans (if_pos rfl), rfl, rfl, rfl, rfl⟩
  have h3 : jobsKept s2 s3 := by
    unfold s3
    exact (((jobsKept.refl s2).setFld _ _ _ _).setFld _ _ _ _).setFlag _ _ _
  have h4 : jobsKept s2 s4 := (h3.wr _ _).wr _ _
  have h5 : jobsKept s2 s5 := h4.trans State.detLoad_jobsKept
  clear_value s5
  have hregs : jobsKept s2 s6 := ⟨h5.1, h5.2⟩
  have hleft : jobsKept s6 s7 := State.zeroLeft_jobsKept
  obtain ⟨hjobs, hempty⟩ := s7.queuesLoad_spec (j := j) (img := img) img.vfs.length
  have hlast : jobsKept s8 (if reload = true then s9 else s9.acctLoad j img) := by
    have hkv : jobsKept s8 s9 := .each fun t p => t.kvLoad_jobsKept p
    split
    · exact hkv
    · exact hkv.trans State.acctLoad_jobsKept
  refine ⟨?_, fun v hv => ?_⟩
  · rw [hlast.job]
    have h8 : s8.job j = s2.job j := (congrArg (Map.get none · j) hjobs).trans ((hregs.trans hleft).job j)
    rwa [h8]
  · rw [hlast.vf]
    exact hempty v hv

theorem exec_jobLoad_fails {j : BitVec 4} {code id : Nat} (hfree : s.job j.toNat = none) (herr : s.loadErr img pl = some (code, id)) :
    exec (.jobLoad j img pl) s = .next ((s.placeErr j.toNat id code).answer .denied) := by
  show execJobLoad j img pl s = _
  simp only [execJobLoad, hfree, herr, Option.isSome_none, Bool.false_eq_true, if_false]

theorem exec_jobLoad_passes {j : BitVec 4} (hfree : s.job j.toNat = none) (herr : s.loadErr img pl = none)
    (hok : s.loadRefused img pl = false) (hplan : s.planOk img pl = true) :
    exec (.jobLoad j img pl) s = .next ((s.loadJob j.toNat img pl false).answer (.ok [])) := by
  show execJobLoad j img pl s = _
  simp only [execJobLoad, hfree, herr, hok, hplan, Option.isSome_none, Bool.false_eq_true, if_false, if_true]

end

/-- Settles O23: the arms of JOB_LOAD, and what loading leaves. -/
theorem jobLoadChecksThenLoads : Obligations.JobLoadChecksThenLoads := by
  intro j img pl s hfree
  refine ⟨fun code id herr => ⟨_, exec_jobLoad_fails hfree herr, rfl, ?_, ?_, ?_, ?_⟩, fun herr hok hplan => ?_⟩
  · rw [State.answer_job, State.placeErr, State.wr_job, hfree]
  · rw [State.answer_rd, State.placeErr, State.rd_wr, if_pos rfl]
  · rw [State.answer_mem, State.placeErr, State.wr_mem]
  · rw [State.answer_bufs, State.placeErr, State.wr_bufs]
  · obtain ⟨⟨jb, hjob, himg, hcode, hending, hstarted⟩, hqueues⟩ := s.loadJob_spec j.toNat img pl false
    refine ⟨_, exec_jobLoad_passes hfree herr hok hplan, rfl, jb, ?_, himg, hcode, hending, hstarted, fun v hv => ?_⟩
    · rw [State.answer_job, hjob]
    · rw [State.answer_vf]
      exact hqueues v hv

end Sys2Proof.Machine

namespace Sys2Proof.Machine

/-! # Scalar loads and stores (R80, R108, R114, R130, R433) -/

section
variable {s : State} {f : Nat} {o : FmtD}

/-! ## Operands at the first issue -/

theorem State.beginIssue_accessKey : accessKey (s.beginIssue f) f o = accessKey s f o := by
  simp only [accessKey, accessPos, State.descBase, State.beginIssue_desc, State.beginIssue_findBuf, State.beginIssue_gReg,
    State.beginIssue_job, State.beginIssue_vf]

theorem State.beginIssue_firstBad (k n : Nat) : (s.beginIssue f).firstBad k n = s.firstBad k n := by
  obtain ⟨_, _, _, h⟩ := s.beginIssue_issueOnly f
  rw [h]
  rfl

theorem State.beginIssue_loadNat (k n : Nat) : (s.beginIssue f).loadNat k n = s.loadNat k n := by
  simp only [State.loadNat, State.load, State.beginIssue_loadByte]

/-- With nothing of the job in flight, its own Face's window is empty. -/
theorem window_of_quiet {f : Fin 6} (hq : quiet s f) (hr : (s.face f).running = true) : (s.face f).window = [] := by
  have h := List.flatMap_eq_nil_iff.mp hq f (List.mem_range.mpr f.isLt)
  rw [hr, beq_self_eq_true, Bool.and_self, if_pos rfl] at h
  exact List.map_eq_nil_iff.mp h

theorem canIssue_running {h : Hdr} (hi : canIssue s f h = true) : (s.face f).running = true := by
  simp only [canIssue, Bool.and_eq_true] at hi
  exact hi.1.1.1.1.1.1

/-! ## One descriptor is used (R87, R106) -/

/-- `t` is `s` with descriptor `y` of Face `f` used: its TIER bits, what the command has referenced and the counts of buffers. -/
structure UsedDesc (f y : Nat) (s t : State) : Prop where
  rest : issueOnly s t
  own : ∃ d refs, t.face f = { s.face f with
    d := d
    refs := refs } ∧ ∀ n, n ≠ y → Map.get 0 d n = (s.face f).dReg n
  others : ∀ g, g ≠ f → t.face g = s.face g

theorem State.useDescs_one (s : State) (f y fr : Nat) (w : Bool) :
    UsedDesc f y s (({ s with fresh := fr } : State).useDescs f [(y, w)]) := by
  unfold State.useDescs
  extract_lets fs ents fs' cnt
  have hd : ∃ d, fs' = { fs with d := d } ∧ ∀ n, n ≠ y → Map.get 0 d n = fs.dReg n := by
    unfold fs' ents
    rw [List.filterMap_cons]
    cases ({ s with fresh := fr } : State).findBuf fs.job (descOf (fs.dReg y)).bufId with
    | none => exact ⟨fs.d, rfl, fun _ _ => rfl⟩
    | some e => exact ⟨_, rfl, fun n hn => Map.get_put_ne _ _ _ hn _⟩
  obtain ⟨d, hfs, hkept⟩ := hd
  obtain ⟨bs, hbs⟩ := State.each_countBuf cnt (({ s with fresh := fr } : State).setFace f
    { fs' with refs := (fs'.refs ++ ents.map fun p => p.2.2.1).eraseDups })
  clear_value fs'
  subst hfs
  rw [hbs]
  exact ⟨⟨_, _, _, rfl⟩, ⟨d, _, (State.face_setFace ..).trans (if_pos rfl), hkept⟩,
    fun g hg => (State.face_setFace ..).trans (if_neg hg)⟩

theorem State.useDescs_used (s : State) (f y : Nat) (w : Bool) : UsedDesc f y s (s.useDescs f [(y, w)]) := s.useDescs_one f y s.fresh w

section
variable {y : Nat} {t : State} (h : UsedDesc f y s t)
include h

theorem UsedDesc.outside : outsideKept f s t := by
  obtain ⟨⟨_, _, _, rfl⟩, -, hothers⟩ := h
  exact ⟨fun _ => rfl, fun _ _ => rfl, hothers⟩

theorem UsedDesc.evCtr (n : Nat) : t.evCtr f n = s.evCtr f n := by
  obtain ⟨hrest, ⟨d, refs, hown, -⟩, -⟩ := h
  have hrouted : t.routedCtr = s.routedCtr := by
    obtain ⟨_, _, _, rfl⟩ := hrest
    rfl
  rw [State.evCtr, hown, hrouted, State.evCtr]

theorem UsedDesc.quiet (hq : Machine.quiet s f) : Machine.quiet t f := by
  obtain ⟨-, ⟨d, refs, hown, -⟩, hothers⟩ := h
  have hsame : ∀ g, (t.face g).running = (s.face g).running ∧ (t.face g).job = (s.face g).job ∧
      (t.face g).window = (s.face g).window := fun g => by
    by_cases hg : g = f
    · rw [hg, hown]
      exact ⟨rfl, rfl, rfl⟩
    · rw [hothers g hg]
      exact ⟨rfl, rfl, rfl⟩
  unfold Machine.quiet
  rw [← hq]
  simp only [State.jobEntries, hsame]

end

/-! ## Loads -/

/-- What issuing with descriptor `y` leaves of a Face: `x` before, `x'` after. -/
structure FaceSt.Used (y : Nat) (x x' : FaceSt) : Prop where
  g : x'.g = x.g
  s : x'.s = x.s
  d : ∀ n, n ≠ y → x'.dReg n = x.dReg n
  pc : x'.pc = x.pc
  window : x'.window = x.window
  running : x'.running = x.running

theorem FaceSt.Used.trans {y : Nat} {x x' x'' : FaceSt} (h : x.Used y x') (h' : x'.Used y x'') : x.Used y x'' :=
  ⟨h'.g.trans h.g, h'.s.trans h.s, fun n hn => (h'.d n hn).trans (h.d n hn), h'.pc.trans h.pc, h'.window.trans h.window,
    h'.running.trans h.running⟩

theorem State.beginIssue_used (s : State) (f y : Nat) : (s.face f).Used y ((s.beginIssue f).face f) := by
  obtain ⟨_, _, h⟩ := s.beginIssue_face f
  rw [h]
  exact ⟨rfl, rfl, fun _ _ => rfl, rfl, rfl, rfl⟩

theorem UsedDesc.used {y : Nat} {t : State} (h : UsedDesc f y s t) : (s.face f).Used y (t.face f) := by
  obtain ⟨-, ⟨d, refs, hown, hkept⟩, -⟩ := h
  rw [hown]
  exact ⟨rfl, rfl, hkept, rfl, rfl, rfl⟩

/-- The instruction changes g, d and s registers of its Face only. -/
def writesRegs (g : FaceSt → FaceSt) : Prop := ∀ x, ∃ a b c, g x = { x with
  g := a
  d := b
  s := c }

/-- A load that issues with nothing of its job in flight, from words without an error: the registers are what `g` makes of the
bytes read, and it has retired. -/
theorem loadOut_spec {h : Hdr} {n : Nat} {g : Nat → FaceSt → FaceSt} (hg : ∀ v, writesRegs (g v)) (hq : quiet s f)
    (hgood : s.firstBad (accessKey s f o) n = none) : ∃ t x, loadOut s f h o n g = .next t ∧ (s.face f).Used o.y.toNat x ∧
      (∃ e, t.face f = { g (s.loadNat (accessKey s f o) n) x with
        pc := (s.face f).pc + 1
        ev := e }) ∧ signalled f h s t ∧ outsideKept f s t := by
  have hused := s.useDescs_one f o.y.toNat s.fresh false
  have hread : readRaced s f (accessKey s f o) n = (s.loadNat (accessKey s f o) n, { s with fresh := s.fresh }) := by
    rw [readRaced, State.raceView_quiet hq]
  refine ⟨_, _, by rw [loadOut, hread, hgood], hused.used, ?_⟩
  generalize ({ s with fresh := s.fresh } : State).useDescs f [(o.y.toNat, false)] = u at *
  obtain ⟨a, b, c, hregs⟩ := hg (s.loadNat (accessKey s f o) n) (u.face f)
  obtain ⟨⟨e, hface⟩, hsig, hout⟩ := u.retire_spec f h (g (s.loadNat (accessKey s f o) n))
    (by rw [hregs]) (by rw [hregs]) (by rw [hregs])
  obtain ⟨hmem, hrd, hfaces⟩ := hused.outside
  obtain ⟨hmem', hrd', hfaces'⟩ := hout
  refine ⟨⟨e, ?_⟩, fun m => ?_, fun k => (hmem' k).trans (hmem k), fun a ha => (hrd' a ha).trans (hrd a ha),
    fun x hx => (hfaces' x hx).trans (hfaces x hx)⟩
  · have hpc : (g (s.loadNat (accessKey s f o) n) (u.face f)).pc = (s.face f).pc := by
      rw [hregs]
      exact hused.used.pc
    rw [hface, hpc]
  · rw [hsig m, hused.evCtr]

/-- The exec of a load: checks that pass, then the load. -/
def isLoad (c : Instr) (s : State) (f : Nat) (h : Hdr) (o : FmtD) (n : Nat) (g : Nat → FaceSt → FaceSt) : Prop :=
  ∃ chk, exec c s = issue s f h chk (fun s => loadOut s f h o n g) ∧ chk = .pass

/-- A load that issues and reads no word with an error: of a Face `x` that differs in its used descriptor, `g` writes the
registers. -/
theorem load_completes {c : Instr} {h : Hdr} {n : Nat} {g : Nat → FaceSt → FaceSt} (hc : isLoad c s f h o n g)
    (hg : ∀ v, writesRegs (g v)) (hi : canIssue s f h = true) (hq : quiet s f) (hgood : s.firstBad (accessKey s f o) n = none) :
    completes c s fun t => ∃ x, (s.face f).Used o.y.toNat x ∧
      (∀ r, (t.face f).gReg r = (g (s.loadNat (accessKey s f o) n) x).gReg r) ∧
      (∀ r, (t.face f).dReg r = (g (s.loadNat (accessKey s f o) n) x).dReg r) ∧
      (∀ r, (t.face f).sReg r = (g (s.loadNat (accessKey s f o) n) x).sReg r) ∧ retired f h s t ∧ outsideKept f s t := by
  obtain ⟨chk, hexec, hpass⟩ := hc
  obtain ⟨t, x, ht, hused, ⟨e, hown⟩, hsig, hmem, hrd, hfaces⟩ := loadOut_spec (s := s.beginIssue f) (h := h) (o := o) hg
    (State.beginIssue_quiet hq) (by rwa [State.beginIssue_accessKey, State.beginIssue_firstBad])
  rw [State.beginIssue_accessKey, State.beginIssue_loadNat] at hown
  have hx := (s.beginIssue_used f o.y.toNat).trans hused
  obtain ⟨a, b, sc, hregs⟩ := hg (s.loadNat (accessKey s f o) n) x
  refine ⟨t, by rw [hexec, issue_pass hi hpass, ht], x, hx, ?_, ?_, ?_, ⟨?_, ?_, ?_, fun m => ?_⟩, fun k => ?_, fun a ha => ?_,
    fun g hne => ?_⟩
  · rw [hown]
    exact fun _ => rfl
  · rw [hown]
    exact fun _ => rfl
  · rw [hown]
    exact fun _ => rfl
  · rw [hown, State.beginIssue_pc]
  · rw [hown, hregs]
    exact hx.window
  · rw [hown, hregs]
    exact hx.running.trans (canIssue_running hi)
  · rw [hsig m, State.beginIssue_evCtr]
  · rw [hmem k, State.beginIssue_loadByte]
  · rw [hrd a ha, State.beginIssue_rd]
  · rw [hfaces g hne, State.beginIssue_face_ne (hg := hne)]

/-- A load of a word with an error: MEM_ERROR, imprecise. -/
theorem load_memError {c : Instr} {h : Hdr} {n k : Nat} {g : Nat → FaceSt → FaceSt} (hc : isLoad c s f h o n g) (hf : f < 6)
    (hi : canIssue s f h = true) (hq : quiet s f) (hs : s.sound) (hbad : s.firstBad (accessKey s f o) n = some k)
    (hfree : s.flag (Reg.FACE_EXC f) 63 = false) :
    completes c s fun t => excTaken f 0x0E false ((s.face f).pc % 2 ^ 32) s t := by
  obtain ⟨chk, hexec, hpass⟩ := hc
  have hused := (s.beginIssue f).useDescs_one f o.y.toNat (s.beginIssue f).fresh false
  have hread : readRaced (s.beginIssue f) f (accessKey s f o) n =
      ((s.beginIssue f).loadNat (accessKey s f o) n, { s.beginIssue f with fresh := (s.beginIssue f).fresh }) := by
    rw [readRaced, State.raceView_quiet (State.beginIssue_quiet hq)]
  have hsound : (({ s.beginIssue f with fresh := (s.beginIssue f).fresh } : State).useDescs f [(o.y.toNat, false)]).sound :=
    State.sound.useDescs hs.beginIssue
  refine ⟨_, by rw [hexec, issue_pass hi hpass, loadOut, State.beginIssue_accessKey, hread, State.beginIssue_firstBad, hbad], ?_⟩
  generalize ({ s.beginIssue f with fresh := (s.beginIssue f).fresh } : State).useDescs f [(o.y.toNat, false)] = u at *
  have hraised : u.raised = s.raised := by
    obtain ⟨_, _, _, heq⟩ := (s.beginIssue_issueOnly f).trans hused.rest
    rw [heq]
  have hrd : u.rd (Reg.FACE_EXC f) = s.rd (Reg.FACE_EXC f) :=
    (hused.outside.2.1 _ List.not_mem_nil).trans (State.beginIssue_rd ..)
  have hexc := (u.takeExc_spec (e := memExc k) (precise := false) (pc := ((s.beginIssue f).face f).pc) hf (hsound.job_lt f)
    ((State.flag_congr hrd 63).trans hfree) (Nat.lt_of_sub_eq_succ rfl)).1
  rw [excTaken, hraised, State.beginIssue_pc] at hexc
  dsimp only
  rw [State.beginIssue_pc]
  exact hexc

/-! ## Stores -/

/-- STG that issues: descriptor Y is used, and an entry with one store enters the window. -/
theorem exec_stg {f : Fin 6} {h : Hdr} (hi : canIssue s f h = true) (hx : o.x.toNat < 32) (hfield : o.field = 0)
    (hchk : accessChk s f o 8 0 = .pass) (hstatus : s.statusWords (s.face f).job = []) :
    ∃ u e, exec (.stg f h o) s = .next (u.enter f h e) ∧ UsedDesc f o.y.toNat (s.beginIssue f) u ∧ e.unit = .store ∧
      e.isStg = true ∧ e.fx = [.store (accessKey s f o) (leBytes 8 ((s.face f).gReg o.x.toNat).toNat)] := by
  have hpass : (Chk.need (o.x.toNat < 32 && o.field == 0)).and (accessChk s f o 8 0) = .pass :=
    Chk.and_eq_pass.mpr ⟨Chk.need_eq_pass.mpr (by simp [hx, hfield]), hchk⟩
  have hstatus' : (s.beginIssue f).statusWords ((s.beginIssue f).face f).job = [] := by
    rw [State.statusWords_congr (State.beginIssue_jobs ..) (State.beginIssue_bufs ..), State.beginIssue_job, hstatus]
  have hexec : exec (.stg f h o) s = _ := show execStg f h o s = _ by rw [execStg, issue_pass hi hpass]
  refine ⟨_, _, hexec, State.useDescs_used .., rfl, rfl, ?_⟩
  dsimp only
  rw [splitGate_eq hstatus', State.beginIssue_accessKey, State.beginIssue_gReg]

theorem stg_enters {f : Fin 6} {h : Hdr} (hi : canIssue s f h = true) (hq : quiet s f) (hx : o.x.toNat < 32) (hfield : o.field = 0)
    (hchk : accessChk s f o 8 0 = .pass) (hstatus : s.statusWords (s.face f).job = []) :
    completes (.stg f h o) s fun t =>
      entered f h .store (fun e => e.fx = [.store (accessKey s f o) (leBytes 8 ((s.face f).gReg o.x.toNat).toNat)] ∧
        e.started = true ∧ e.isStg = true) s t ∧ regsKeptBut f 32 o.y.toNat 16 s t ∧ outsideKept f s t := by
  obtain ⟨u, e, hexec, hused, hunit, hstg, hfx⟩ := exec_stg hi hx hfield hchk hstatus
  have hface := (s.beginIssue_used f o.y.toNat).trans hused.used
  have hwindow := window_of_quiet hq (canIssue_running hi)
  obtain ⟨hmem, hrd, hfaces⟩ := hused.outside
  rw [State.enter_quiet (hused.quiet (State.beginIssue_quiet hq)) (hface.window.trans hwindow)] at hexec
  have hseq : (u.face f).seq = (s.face f).seq := by
    obtain ⟨_, _, hown, -⟩ := hused.own
    rw [hown]
    exact State.beginIssue_seq ..
  refine ⟨_, hexec, ⟨?_, [], e.alone (u.face f) h, ?_, ?_, ?_, ?_, ?_, rfl, ?_⟩, ⟨fun n _ => ?_, fun n hn => ?_, fun n _ => ?_⟩,
    fun k => ?_, fun a ha => ?_, fun g hg => ?_⟩
  · rw [State.face_setFace, if_pos rfl, ← hface.pc]
  · rw [State.face_setFace, if_pos rfl]
    rfl
  · rw [hwindow]
  · exact hseq
  · exact hface.pc
  · exact hunit
  · exact ⟨hfx, rfl, hstg⟩
  · rw [State.face_setFace, if_pos rfl, FaceSt.gReg, FaceSt.gReg, ← hface.g]
  · rw [State.face_setFace, if_pos rfl]
    exact hface.d n hn
  · rw [State.face_setFace, if_pos rfl, FaceSt.sReg, FaceSt.sReg, ← hface.s]
  · rw [State.setFace_loadByte, hmem k, State.beginIssue_loadByte]
  · rw [State.setFace_rd, hrd a ha, State.beginIssue_rd]
  · rw [State.face_setFace, if_neg hg, hfaces g hg, State.beginIssue_face_ne (hg := hg)]

/-! ## The three loads -/

theorem setG_writesRegs (r : Nat) (v : Word) : writesRegs (FaceSt.setG · r v) := fun x => by
  unfold FaceSt.setG
  split
  · exact ⟨x.g, x.d, x.s, rfl⟩
  · exact ⟨_, x.d, x.s, rfl⟩

theorem FaceSt.setD_g (x : FaceSt) (r : Nat) (v : BitVec 256) : (x.setD r v).g = x.g := rfl

theorem FaceSt.setD_s (x : FaceSt) (r : Nat) (v : BitVec 256) : (x.setD r v).s = x.s := rfl

theorem FaceSt.setS_g (x : FaceSt) (r : Nat) (v : BitVec 128) : (x.setS r v).g = x.g := rfl

theorem FaceSt.setS_d (x : FaceSt) (r : Nat) (v : BitVec 128) : (x.setS r v).d = x.d := rfl

theorem setD_writesRegs (r : Nat) (v : BitVec 256) : writesRegs (FaceSt.setD · r v) := fun x => ⟨x.g, _, x.s, rfl⟩

theorem setS_writesRegs (r : Nat) (v : BitVec 128) : writesRegs (FaceSt.setS · r v) := fun x => ⟨x.g, x.d, _, rfl⟩

theorem stgPending_pass (hw : (s.face f).window = []) : stgPending s f = .pass := by
  rw [stgPending, hw]
  rfl

theorem ldg_isLoad {f : Fin 6} (h : Hdr) (hx : o.x.toNat < 32) (hfield : o.field = 0) (hw : (s.face f).window = [])
    (hchk : accessChk s f o 8 1 = .pass) :
    isLoad (.ldg f h o) s f h o 8 fun v fs => fs.setG o.x.toNat (BitVec.ofNat 64 v) :=
  ⟨_, rfl, Chk.and_eq_pass.mpr ⟨Chk.need_eq_pass.mpr (by simp [hx, hfield]), Chk.and_eq_pass.mpr ⟨hchk, stgPending_pass hw⟩⟩⟩

theorem ldd_isLoad {f : Fin 6} (h : Hdr) (hfield : o.field = 0) (hw : (s.face f).window = []) (hchk : accessChk s f o 32 1 = .pass) :
    isLoad (.ldd f h o) s f h o 32 fun v fs => fs.setD o.x.toNat (cleanDesc v) :=
  ⟨_, rfl, Chk.and_eq_pass.mpr ⟨Chk.need_eq_pass.mpr (by simp [hfield]), Chk.and_eq_pass.mpr ⟨hchk, stgPending_pass hw⟩⟩⟩

theorem lds_isLoad {f : Fin 6} (h : Hdr) (hx : o.x.toNat < 16) (hfield : o.field = 0) (hchk : accessChk s f o 16 1 = .pass) :
    isLoad (.lds f h o) s f h o 16 fun v fs => fs.setS o.x.toNat (cleanScale v) :=
  ⟨_, rfl, Chk.and_eq_pass.mpr ⟨Chk.need_eq_pass.mpr (by simp [hx, hfield]), hchk⟩⟩

theorem State.loadNat_lt (s : State) (k n : Nat) : s.loadNat k n < 256 ^ n := by
  have h := leNat_lt (s.load k n)
  rwa [State.load, List.length_map, List.length_range] at h

/-- LDG: the register holds the eight bytes. -/
theorem ldg_completes {f : Fin 6} {h : Hdr} (hi : canIssue s f h = true) (hq : quiet s f) (hw : (s.face f).window = [])
    (hx : o.x.toNat < 32) (hfield : o.field = 0) (hchk : accessChk s f o 8 1 = .pass) (hgood : s.firstBad (accessKey s f o) 8 = none) :
    completes (.ldg f h o) s fun t => ((t.face f).gReg o.x.toNat).toNat = (if o.x = 0 then 0 else s.loadNat (accessKey s f o) 8) ∧
      regsKeptBut f o.x.toNat o.y.toNat 16 s t ∧ retired f h s t ∧ outsideKept f s t := by
  obtain ⟨t, hexec, x, hused, hg, hd, hs, hret, hout⟩ :=
    load_completes (ldg_isLoad h hx hfield hw hchk) (fun v => setG_writesRegs _ _) hi hq hgood
  have hother : ∀ v : Word, (x.setG o.x.toNat v).d = x.d ∧ (x.setG o.x.toNat v).s = x.s := fun v => by
    unfold FaceSt.setG
    split <;> exact ⟨rfl, rfl⟩
  refine ⟨t, hexec, ?_, ⟨fun n hn => ?_, fun n hn => ?_, fun n _ => ?_⟩, hret, hout⟩
  · rw [hg, FaceSt.gReg_setG]
    by_cases h0 : o.x = 0
    · rw [h0]
      rfl
    · have hne : o.x.toNat ≠ 0 := fun e => h0 (BitVec.eq_of_toNat_eq e)
      rw [if_pos ⟨rfl, hne⟩, if_neg h0, BitVec.toNat_ofNat]
      exact Nat.mod_eq_of_lt (s.loadNat_lt _ 8)
  · rw [hg, FaceSt.gReg_setG, if_neg (fun e => hn e.1), FaceSt.gReg, FaceSt.gReg, hused.g]
  · rw [hd, FaceSt.dReg, (hother _).1]
    exact hused.d n hn
  · rw [hs, FaceSt.sReg, (hother _).2, hused.s, FaceSt.sReg]

/-- LDD: the descriptor register holds the 32 bytes, without TIER and the reserved bits. -/
theorem ldd_completes {f : Fin 6} {h : Hdr} (hi : canIssue s f h = true) (hq : quiet s f) (hw : (s.face f).window = [])
    (hfield : o.field = 0) (hchk : accessChk s f o 32 1 = .pass) (hgood : s.firstBad (accessKey s f o) 32 = none) :
    completes (.ldd f h o) s fun t => (t.face f).dReg o.x.toNat = cleanDesc (s.loadNat (accessKey s f o) 32) ∧
      (∀ n, n ≠ o.x.toNat → n ≠ o.y.toNat → (t.face f).dReg n = (s.face f).dReg n) ∧
      (∀ n, (t.face f).gReg n = (s.face f).gReg n) ∧ (∀ n, (t.face f).sReg n = (s.face f).sReg n) ∧
      retired f h s t ∧ outsideKept f s t := by
  obtain ⟨t, hexec, x, hused, hg, hd, hs, hret, hout⟩ :=
    load_completes (ldd_isLoad h hfield hw hchk) (fun v => setD_writesRegs _ _) hi hq hgood
  refine ⟨t, hexec, ?_, fun n hx hy => ?_, fun n => ?_, fun n => ?_, hret, hout⟩
  · rw [hd, FaceSt.dReg_setD, if_pos rfl]
  · rw [hd, FaceSt.dReg_setD, if_neg hx, hused.d n hy]
  · rw [hg, FaceSt.gReg, FaceSt.setD_g, hused.g, FaceSt.gReg]
  · rw [hs, FaceSt.sReg, FaceSt.setD_s, hused.s, FaceSt.sReg]

/-- LDS: the scale register holds the 16 bytes, without the reserved bits. -/
theorem lds_completes {f : Fin 6} {h : Hdr} (hi : canIssue s f h = true) (hq : quiet s f) (hx : o.x.toNat < 16) (hfield : o.field = 0)
    (hchk : accessChk s f o 16 1 = .pass) (hgood : s.firstBad (accessKey s f o) 16 = none) :
    completes (.lds f h o) s fun t => (t.face f).sReg o.x.toNat = cleanScale (s.loadNat (accessKey s f o) 16) ∧
      regsKeptBut f 32 o.y.toNat o.x.toNat s t ∧ retired f h s t ∧ outsideKept f s t := by
  obtain ⟨t, hexec, x, hused, hg, hd, hs, hret, hout⟩ :=
    load_completes (lds_isLoad h hx hfield hchk) (fun v => setS_writesRegs _ _) hi hq hgood
  refine ⟨t, hexec, ?_, ⟨fun n _ => ?_, fun n hn => ?_, fun n hn => ?_⟩, hret, hout⟩
  · rw [hs, FaceSt.sReg_setS, if_pos rfl]
  · rw [hg, FaceSt.gReg, FaceSt.setS_g, hused.g, FaceSt.gReg]
  · rw [hd, FaceSt.dReg, FaceSt.setS_d, ← FaceSt.dReg, hused.d n hn]
  · rw [hs, FaceSt.sReg_setS, if_neg hn, FaceSt.sReg, hused.s, FaceSt.sReg]

end

/-- Settles O13, instruction by instruction. -/
theorem scalarMemoryInstructions : Obligations.ScalarMemoryInstructions :=
  ⟨fun _ h _ _ _ _ _ hi hq hw =>
    ⟨fun hx hchk hgood => ldg_completes hi hq hw hx rfl hchk hgood, fun hchk hgood => ldd_completes hi hq hw rfl hchk hgood,
      fun hx hchk hgood => lds_completes hi hq hx rfl hchk hgood,
      fun _ hx hchk hbad hs hfree => load_memError (ldg_isLoad h hx rfl hw hchk) (Fin.isLt _) hi hq hs hbad hfree⟩,
    fun _ _ _ _ hi hq hx hfield hchk hstatus => stg_enters hi hq hx hfield hchk hstatus⟩

end Sys2Proof.Machine

namespace Sys2Proof.Machine

/-! # Copies of memory

A byte after a copy is the one at the same place of the source, as it was before. -/

theorem Map.get_of_lt_wfFrom {α : Type} [DecidableEq α] {d : α} {m : Map α} {c k : Nat} (h : Map.wfFrom d c m = true) (hk : k < c) :
    Map.get d m k = d := by
  induction m generalizing c with
  | nil => rfl
  | cons e m ih =>
    obtain ⟨j, v⟩ := e
    simp only [Map.wfFrom, Bool.and_eq_true, decide_eq_true_eq] at h
    obtain ⟨⟨hj, -⟩, hm⟩ := h
    rw [Map.get, if_neg (by omega)]
    exact ih hm (by omega)

/-- The cells of `l`, written from key `b` on as they stand from key `a` on. -/
def copyCells (a b : Nat) (l m : List Host.Cell) : List Host.Cell := l.foldl (fun m c => Map.put 0 m (b + (c.1 - a)) c.2) m

theorem get_copyCells {a b i c : Nat} {l : List Host.Cell} (h : Map.wfFrom (0 : Byte) c l = true) (hl : ∀ e ∈ l, a ≤ e.1)
    (m : List Host.Cell) :
    Map.get 0 (copyCells a b l m) (b + i) = if Map.get 0 l (a + i) = 0 then Map.get 0 m (b + i) else Map.get 0 l (a + i) := by
  induction l generalizing m c with
  | nil => rfl
  | cons e l ih =>
    obtain ⟨k, v⟩ := e
    simp only [Map.wfFrom, Bool.and_eq_true, decide_eq_true_eq] at h
    obtain ⟨⟨-, hv⟩, hwf⟩ := h
    have hk : a ≤ k := hl _ List.mem_cons_self
    have hrest : Map.get 0 (copyCells a b ((k, v) :: l) m) (b + i) = _ :=
      ih hwf (fun e he => hl e (List.mem_cons_of_mem _ he)) (Map.put 0 m (b + (k - a)) v)
    rw [hrest, Map.get_put, Map.get]
    by_cases hki : a + i = k
    · have hdst : b + i = b + (k - a) := by omega
      rw [if_pos hki, if_neg hv, Map.get_of_lt_wfFrom hwf (by omega), if_pos rfl, if_pos hdst]
    · have hdst : b + i ≠ b + (k - a) := by omega
      rw [if_neg hki, if_neg hdst]

theorem get_copyCells_outside {a b n x : Nat} {l : List Host.Cell} (h : ∀ e ∈ l, a ≤ e.1 ∧ e.1 < a + n) (hx : x < b ∨ b + n ≤ x)
    (m : List Host.Cell) : Map.get 0 (copyCells a b l m) x = Map.get 0 m x := by
  induction l generalizing m with
  | nil => rfl
  | cons e l ih =>
    have he := h e List.mem_cons_self
    have hrest : Map.get 0 (copyCells a b (e :: l) m) x = _ :=
      ih (fun y hy => h y (List.mem_cons_of_mem _ hy)) (Map.put 0 m (b + (e.1 - a)) e.2)
    rw [hrest, Map.get_put, if_neg (by omega)]

theorem State.loadByte_copy {s : State} (hs : s.memWf = true) (a b n x : Nat) :
    (s.copy a b n).loadByte x = if b ≤ x ∧ x < b + n then s.loadByte (a + (x - b)) else s.loadByte x := by
  have hcells : (s.copy a b n).loadByte x =
      Map.get 0 (copyCells a b (s.mem.filter fun c => a ≤ c.1 && c.1 < a + n) (s.zero b n).mem) x := rfl
  rw [hcells]
  split
  case isTrue hin =>
    obtain ⟨i, rfl⟩ := Nat.exists_eq_add_of_le hin.1
    have hi : i < n := by omega
    have hget := Map.get_filter (0 : Byte) s.mem (fun k => a ≤ k && k < a + n) (a + i)
    have hzero : Map.get 0 (s.zero b n).mem (b + i) = 0 :=
      ((State.loadByte_zero ..).trans (if_pos hin) : (s.zero b n).loadByte (b + i) = 0)
    have hcopied := get_copyCells (b := b) (i := i) (Map.filter_wf (fun c => a ≤ c.1 && c.1 < a + n) hs)
      (fun e he => by simpa using (Bool.and_eq_true_iff.mp (List.mem_filter.mp he).2).1) (s.zero b n).mem
    have hinspan : (decide (a ≤ a + i) && decide (a + i < a + n)) = true := by simp [hi]
    rw [hcopied, hget, hzero, if_pos hinspan, Nat.add_sub_cancel_left, State.loadByte]
    exact ite_eq_right_iff.mpr Eq.symm
  case isFalse hout =>
    rw [get_copyCells_outside (n := n) (fun e he => by simpa using (List.mem_filter.mp he).2) (by omega)]
    exact (State.loadByte_zero ..).trans (if_neg hout)

end Sys2Proof.Machine

namespace Sys2Proof.Machine

/-! # What dies with a command (R73, R103, R104, R139, R148, R205) -/

section
variable {s t : State} {f j v : Nat}

/-! ## Live banks and guests -/

theorem State.liveMask_congr (hjob : ∀ i, t.job i = s.job i) (hrd : ∀ a, t.rd a = s.rd a) : t.liveMask f j v = s.liveMask f j v := by
  have hfld : ∀ a hi lo, t.fld a hi lo = s.fld a hi lo := fun a => State.fld_congr (hrd a)
  have hflag : ∀ a k, t.flag a k = s.flag a k := fun a => State.flag_congr (hrd a)
  simp only [State.liveMask, State.partOf, hjob, hfld, hflag]
  rfl

theorem State.guests_congr (hjob : ∀ i, t.job i = s.job i) (hrd : ∀ a, t.rd a = s.rd a) (howner : (t.face f).owner = (s.face f).owner) :
    t.guests f j v = s.guests f j v := by
  simp only [State.guests, howner, State.liveMask_congr hjob hrd]

theorem State.guests_lt {b : Nat} (h : b ∈ s.guests f j v) : b < 16 := List.mem_range.mp (List.mem_filter.mp h).1

theorem State.guests_nodup : (s.guests f j v).Nodup := List.nodup_range.filter _

/-! ## Bytes under changes made one after another -/

/-- A byte that no change of a list touches. -/
theorem State.each_keeps {β : Type} {l : List β} {op : State → β → State} {k : Nat}
    (h : ∀ t, ∀ x ∈ l, (op t x).loadByte k = t.loadByte k) : (s.each l op).loadByte k = s.loadByte k :=
  State.each_rel (R := fun s t => t.loadByte k = s.loadByte k) (fun _ => rfl) (fun h h' => h'.trans h) l h s

theorem State.loadByte_zero_in {k n x : Nat} (h : k ≤ x ∧ x < k + n) : (s.zero k n).loadByte x = 0 :=
  (State.loadByte_zero ..).trans (if_pos h)

theorem State.loadByte_zero_out {k n x : Nat} (h : x < k ∨ k + n ≤ x) : (s.zero k n).loadByte x = s.loadByte x :=
  (State.loadByte_zero ..).trans (if_neg (by omega))

/-- A byte that every change of a list keeps or zeroes stays 0. -/
theorem State.each_stays_zero {β : Type} {l : List β} {op : State → β → State} {k : Nat}
    (h : ∀ x ∈ l, (∀ t, (op t x).loadByte k = t.loadByte k) ∨ ∀ t, (op t x).loadByte k = 0) (hs : s.loadByte k = 0) :
    (s.each l op).loadByte k = 0 := State.each_settles (g := fun t : State => t.loadByte k) h (.inl hs)

/-! ## Scratch banks (R148) -/

/-- The banks of Face `f` that are not live are zeroed. -/
def State.clearBanks (s : State) (f lm : Nat) : State :=
  s.each (List.range 16) fun s b => if bitOf lm b then s else s.zero (bankKey f b) 0x10000

theorem State.clearBanks_scratch {lm b i : Nat} (hb : b < 16) (hlive : bitOf lm b = false) (hi : i < 0x10000) :
    (s.clearBanks f lm).loadByte (bankKey f b + i) = 0 := by
  refine State.each_settles (g := fun t : State => t.loadByte (bankKey f b + i)) (fun x _ => ?_)
    (.inr ⟨b, List.mem_range.mpr hb, fun t => ?_⟩)
  · by_cases hx : bitOf lm x = true
    · exact .inl fun t => by rw [if_pos hx]
    · by_cases hspan : bankKey f x ≤ bankKey f b + i ∧ bankKey f b + i < bankKey f x + 0x10000
      · exact .inr fun t => by rw [if_neg hx, State.loadByte_zero_in hspan]
      · exact .inl fun t => by rw [if_neg hx, State.loadByte_zero_out (by omega)]
  · rw [if_neg (by rw [hlive]; exact Bool.false_ne_true), State.loadByte_zero_in (by omega)]

theorem State.clearBanks_outside {lm k : Nat} (hk : k < bankKey f 0 ∨ bankKey f 16 ≤ k) :
    (s.clearBanks f lm).loadByte k = s.loadByte k := by
  refine State.each_keeps fun t b hb => ?_
  have hb16 := List.mem_range.mp hb
  have hapart : k < bankKey f b ∨ bankKey f b + 0x10000 ≤ k := by
    simp only [bankKey, Nat.reduceMul, Nat.zero_mul] at hk ⊢
    omega
  split
  · rfl
  · exact State.loadByte_zero_out hapart

/-! ## Guests (R205) -/

/-- One guest's bank holds its contents again. -/
def State.putBank (s : State) (f b : Nat) : State := (s.copy (asideKey f b) (bankKey f b) 0x10000).zero (asideKey f b) 0x10000

theorem State.putBack_eq (s : State) (f j v : Nat) : s.putBack f j v = s.each (s.guests f j v) fun s b => s.putBank f b := by
  simp only [State.putBack, State.putBank]

theorem State.putBank_memOnly (s : State) (f b : Nat) : memOnly s (s.putBank f b) := memOnly.copy.trans .zero

theorem State.putBank_memWf {b : Nat} (h : s.memWf = true) : (s.putBank f b).memWf = true :=
  State.zero_memWf _ _ (State.copy_memWf _ _ _ h)

theorem State.putBank_outside {b k : Nat} (h : s.memWf = true) (hbank : k < bankKey f b ∨ bankKey f b + 0x10000 ≤ k)
    (haside : k < asideKey f b ∨ asideKey f b + 0x10000 ≤ k) : (s.putBank f b).loadByte k = s.loadByte k := by
  rw [State.putBank, State.loadByte_zero_out haside, State.loadByte_copy h, if_neg (by omega)]

theorem State.putBank_bank {b i : Nat} (h : s.memWf = true) (hi : i < 0x10000) :
    (s.putBank f b).loadByte (bankKey f b + i) = s.loadByte (asideKey f b + i) := by
  have haside : bankKey f b + i < asideKey f b := by
    simp only [bankKey, asideKey]
    omega
  rw [State.putBank, State.loadByte_zero_out (.inl haside), State.loadByte_copy h, if_pos (by omega), Nat.add_sub_cancel_left]

/-- A byte outside the banks that are put back and the places where they were kept. -/
theorem State.putBanks_outside {l : List Nat} {k : Nat} (h : s.memWf = true)
    (hk : ∀ b ∈ l, (k < bankKey f b ∨ bankKey f b + 0x10000 ≤ k) ∧ (k < asideKey f b ∨ asideKey f b + 0x10000 ≤ k)) :
    (s.each l fun s b => s.putBank f b).memWf = true ∧ (s.each l fun s b => s.putBank f b).loadByte k = s.loadByte k := by
  induction l generalizing s with
  | nil => exact ⟨h, rfl⟩
  | cons b l ih =>
    obtain ⟨hbank, haside⟩ := hk b List.mem_cons_self
    obtain ⟨hwf, hkept⟩ := ih (s := s.putBank f b) (State.putBank_memWf h) fun x hx => hk x (List.mem_cons_of_mem _ hx)
    exact ⟨hwf, hkept.trans (State.putBank_outside h hbank haside)⟩

/-- A bank that is put back holds what was kept of it. -/
theorem State.putBanks_bank {l : List Nat} {b i : Nat} (h : s.memWf = true) (hl : ∀ x ∈ l, x < 16) (hnd : l.Nodup)
    (hb : b ∈ l) (hi : i < 0x10000) :
    (s.each l fun s b => s.putBank f b).loadByte (bankKey f b + i) = s.loadByte (asideKey f b + i) := by
  induction l generalizing s with
  | nil => cases hb
  | cons x l ih =>
    obtain ⟨hx, hnd⟩ := List.nodup_cons.mp hnd
    have hrest : ∀ y ∈ l, y < 16 := fun y hy => hl y (List.mem_cons_of_mem _ hy)
    show ((s.putBank f x).each l fun s b => s.putBank f b).loadByte (bankKey f b + i) = _
    rcases List.mem_cons.mp hb with rfl | hb
    · rw [(State.putBanks_outside (State.putBank_memWf h) fun y hy => ?_).2, State.putBank_bank h hi]
      have hy16 := hrest y hy
      have hne : y ≠ b := fun e => hx (e ▸ hy)
      have hb16 := hl b List.mem_cons_self
      simp only [bankKey, asideKey]
      omega
    · have hne : b ≠ x := fun e => hx (e ▸ hb)
      have hb16 := hrest b hb
      have hx16 := hl x List.mem_cons_self
      rw [ih (State.putBank_memWf h) hrest hnd hb, State.putBank_outside h]
      all_goals simp only [bankKey, asideKey]; omega

/-! ## Instances (R74) -/

/-- Does the end of a command clear the bytes of this buffer: one of the job, of LIFE 0, in the Board or in HBM? -/
def BufEnt.diesWith (b : BufEnt) (j : Nat) : Bool :=
  b.isValid && bits b.record.toNat 62 59 == j && !b.life1 && (b.tier == 1 || b.tier == 2)

/-- The bytes of vFace `v` are zeroed, or left to Board DMA. -/
def State.clearInstance (s : State) (f j v : Nat) (e : Nat × BufEnt) : State :=
  if e.2.diesWith j then
    if e.2.tier == 2 && !bitOf e.2.bind.toNat 60 then s.setBuf e.1 { e.2 with
      zeroing := e.2.zeroing ||| 2 ^ v
      zeroAt := Map.put 0 e.2.zeroAt v s.raw }
    else s.zero (e.2.base f v) e.2.sizeB
  else s

theorem State.clearCommand_eq (s : State) (f j v : Nat) : s.clearCommand f j v =
    let u := (((s.zero (storeBase f) storeBytes).clearBanks f (s.liveMask f j v)).putBack f j v).zero (accFlagKey f 0 0 0) 0x40000
    u.each u.bufs fun s e => s.clearInstance f j v e := rfl

theorem State.clearInstance_cases (f j v : Nat) (e : Nat × BufEnt) (k : Nat) :
    (∀ t : State, (t.clearInstance f j v e).loadByte k = t.loadByte k) ∨ ∀ t : State, (t.clearInstance f j v e).loadByte k = 0 := by
  unfold State.clearInstance
  split
  · split
    · exact .inl fun _ => rfl
    · by_cases h : e.2.base f v ≤ k ∧ k < e.2.base f v + e.2.sizeB
      · exact .inr fun t => State.loadByte_zero_in h
      · exact .inl fun t => State.loadByte_zero_out (by omega)
  · exact .inl fun _ => rfl

theorem State.clearInstance_keeps {e : Nat × BufEnt} {k : Nat} (h : e.2.tier = 1 ∨ e.2.tier = 2 → e.2.base f v + e.2.sizeB ≤ k) :
    (s.clearInstance f j v e).loadByte k = s.loadByte k := by
  unfold State.clearInstance
  split
  case isTrue hdies =>
    split
    · rfl
    · refine State.loadByte_zero_out (.inr (h ?_))
      simp only [BufEnt.diesWith, Bool.and_eq_true, Bool.or_eq_true, beq_iff_eq] at hdies
      exact hdies.2
  case isFalse => rfl

/-! ## Together -/

/-- The store of the Face and its scratch banks cleared. -/
def State.clearScratch (s : State) (f j v : Nat) : State := (s.zero (storeBase f) storeBytes).clearBanks f (s.liveMask f j v)

theorem State.clearScratch_memOnly (s : State) (f j v : Nat) : memOnly s (s.clearScratch f j v) := by
  refine memOnly.zero.trans (.each fun t b _ => ?_)
  split
  · exact .refl t
  · exact .zero

theorem State.clearScratch_memWf (h : s.memWf = true) : (s.clearScratch f j v).memWf = true := by
  refine State.each_memWf _ _ (fun t b ht => ?_) (State.zero_memWf _ _ h)
  split
  · exact ht
  · exact State.zero_memWf _ _ ht

theorem State.clearCommand_steps (s : State) (f j v : Nat) : s.clearCommand f j v =
    let u := ((s.clearScratch f j v).each (s.guests f j v) fun s b => s.putBank f b).zero (accFlagKey f 0 0 0) 0x40000
    u.each u.bufs fun s e => s.clearInstance f j v e := by
  have hguests : (s.clearScratch f j v).guests f j v = s.guests f j v := by
    obtain ⟨_, _, h⟩ := s.clearScratch_memOnly f j v
    rw [h]
    exact State.guests_congr (fun _ => rfl) (fun _ => rfl) rfl
  rw [State.clearCommand_eq, ← State.clearScratch, State.putBack_eq, hguests]

/-- A byte that is 0 before the guests are put back, and outside of what they touch, is 0 after the command. -/
theorem State.clearCommand_zero {k : Nat} (h : s.memWf = true) (hk : ∀ b ∈ s.guests f j v,
      (k < bankKey f b ∨ bankKey f b + 0x10000 ≤ k) ∧ (k < asideKey f b ∨ asideKey f b + 0x10000 ≤ k))
    (hflags : k < accFlagKey f 0 0 0) (hzero : (s.clearScratch f j v).loadByte k = 0) : (s.clearCommand f j v).loadByte k = 0 := by
  rw [State.clearCommand_steps]
  refine State.each_stays_zero (fun e _ => State.clearInstance_cases f j v e k) ?_
  rw [State.loadByte_zero_out (.inl hflags), (State.putBanks_outside (State.clearScratch_memWf h) hk).2, hzero]

/-- The store of the Face reads zero. -/
theorem State.clearCommand_store {k : Nat} (h : s.memWf = true) (hf : f < 6) (hlo : storeBase f ≤ k)
    (hhi : k < storeBase f + storeBytes) : (s.clearCommand f j v).loadByte k = 0 := by
  have hlow : k < 0x2000000000000 := by
    simp only [storeBase, storeBytes] at hhi
    omega
  refine State.clearCommand_zero h (fun b _ => ?_) ?_ ?_
  · simp only [bankKey, asideKey]
    omega
  · simp only [accFlagKey]
    omega
  · rw [State.clearScratch, State.clearBanks_outside (.inl (by simp only [bankKey]; omega)), State.loadByte_zero_in ⟨hlo, hhi⟩]

/-- A scratch bank that is nobody else's reads zero. -/
theorem State.clearCommand_scratch {b i : Nat} (h : s.memWf = true) (hb : b < 16)
    (hlive : bitOf (s.liveMask f j v) b = false) (hguest : b ∉ s.guests f j v) (hi : i < 0x10000) :
    (s.clearCommand f j v).loadByte (bankKey f b + i) = 0 := by
  refine State.clearCommand_zero h (fun x hx => ?_) ?_ (State.clearBanks_scratch hb hlive hi)
  · have hx16 := State.guests_lt hx
    have hne : x ≠ b := fun e => hguest (e ▸ hx)
    simp only [bankKey, asideKey]
    omega
  · simp only [bankKey, accFlagKey]
    omega

/-- A scratch bank that holds another vFace's live state holds it again. -/
theorem State.clearCommand_guest {b i : Nat} (h : s.memWf = true) (hf : f < 6) (hguest : b ∈ s.guests f j v)
    (hbufs : ∀ e ∈ s.bufs, e.2.tier = 1 ∨ e.2.tier = 2 → e.2.base f v + e.2.sizeB ≤ homeSpace) (hi : i < 0x10000) :
    (s.clearCommand f j v).loadByte (bankKey f b + i) = s.loadByte (asideKey f b + i) := by
  have hb := State.guests_lt hguest
  have hbank : homeSpace ≤ bankKey f b + i ∧ bankKey f b + i < accFlagKey f 0 0 0 := by
    simp only [homeSpace, bankKey, accFlagKey]
    omega
  have haside : bankKey f 16 ≤ asideKey f b + i ∧ storeBase f + storeBytes ≤ asideKey f b + i := by
    simp only [storeBase, storeBytes, asideKey, bankKey]
    omega
  rw [State.clearCommand_steps]
  refine (State.each_keeps fun t e he => State.clearInstance_keeps fun ht => ?_).trans ?_
  · have hsame : (((s.clearScratch f j v).each (s.guests f j v) fun s b => s.putBank f b).zero
        (accFlagKey f 0 0 0) 0x40000).bufs = s.bufs := by
      obtain ⟨_, _, heq⟩ := ((s.clearScratch_memOnly f j v).trans (.each (l := s.guests f j v) fun t x _ =>
        t.putBank_memOnly f x)).trans (memOnly.zero (k := accFlagKey f 0 0 0) (n := 0x40000))
      rw [heq]
    rw [hsame] at he
    exact (hbufs e he ht).trans hbank.1
  · rw [State.loadByte_zero_out (.inl hbank.2),
      State.putBanks_bank (State.clearScratch_memWf h) (fun x => State.guests_lt) State.guests_nodup hguest hi, State.clearScratch,
      State.clearBanks_outside (.inr haside.1), State.loadByte_zero_out (.inr haside.2)]

/-- Outside the job's accounting record, the end of a command leaves memory as clearing it does. -/
theorem State.endCommand_loadByte {k : Nat} (hf : f < 6) (hj : (s.face f).job < 16)
    (hk : k < homeSpace ∨ homeSpace + 0x100000 ≤ k) :
    (s.endCommand f).loadByte k = (s.clearCommand f (s.face f).job (s.face f).vf).loadByte k := by
  obtain ⟨a, hbefore, hafter⟩ := s.endCommand_steps hf hj
  have hout : ∀ x ∈ [(acctKey (s.face f).job, 0x400)], ¬ (x.1 ≤ k ∧ k < x.1 + x.2) := by
    simp only [List.forall_mem_singleton, acctKey_home hj]
    omega
  rw [hafter.mem k hout, State.setFace_loadByte, State.seqFld, State.setFld_loadByte, hbefore.mem k hout, State.setVf_loadByte]

/-! ## END, COMMAND_END and CMD_LIMIT (R103, R104, R139) -/

theorem exec_endCmd {f : Fin 6} {h : Hdr} (hi : canIssue s f h = true) : exec (.endCmd f h ⟨0, 0, 0, 0⟩) s =
    .next ((s.beginIssue f).setFace f { (s.beginIssue f).face f with
      ending := true
      endSig := sigOf h }) := by
  show execEndCmd f h ⟨0, 0, 0, 0⟩ s = _
  rw [execEndCmd]
  exact issue_pass hi rfl

theorem endCmd_completes {f : Fin 6} {h : Hdr} (hi : canIssue s f h = true) : completes (.endCmd f h ⟨0, 0, 0, 0⟩) s fun t =>
    (t.face f).ending = true ∧ (t.face f).endSig = sigOf h ∧ (t.face f).pc = (s.face f).pc ∧ outsideKept f s t := by
  refine ⟨_, exec_endCmd hi, ?_, ?_, ?_, fun k => ?_, fun a _ => ?_, fun g hg => ?_⟩
  · rw [State.face_setFace, if_pos rfl]
  · rw [State.face_setFace, if_pos rfl]
  · rw [State.face_setFace, if_pos rfl]
    exact State.beginIssue_pc ..
  · rw [State.setFace_loadByte, State.beginIssue_loadByte]
  · rw [State.setFace_rd, State.beginIssue_rd]
  · rw [State.face_setFace, if_neg hg, State.beginIssue_face_ne (hg := hg)]

/-- What the signal of END leaves of what the end of the command looks at. -/
theorem State.signal_keeps (s : State) (f : Nat) (sig : Option Nat) : (s.signal f sig).jobs = s.jobs ∧ (s.signal f sig).vfs = s.vfs ∧
    (s.signal f sig).bufs = s.bufs := by
  cases sig with
  | none => exact ⟨rfl, rfl, rfl⟩
  | some n =>
    rcases s.evAdd_cases f n 1 with ⟨e, h⟩ | ⟨i, w, x, c, h⟩
    · rw [State.signal, h]
      exact ⟨rfl, rfl, rfl⟩
    · rw [State.signal, h]
      exact ⟨rfl, rfl, rfl⟩

theorem exec_commandEnd {f : Fin 6} (hr : (s.face f).running = true) (he : (s.face f).ending = true) (hw : (s.face f).window = []) :
    exec (.commandEnd f) s = .next ((s.signal f (s.face f).endSig).endCommand f) := by
  show execCommandEnd f s = _
  simp only [execCommandEnd, hr, he, hw, List.isEmpty_nil, Bool.and_self, if_true]

/-- The command ends: the Face is idle, its store and scratch read zero, guests are in their banks again, its end counts. -/
theorem commandEnd_completes {f : Fin 6} (hs : s.sound) (hr : (s.face f).running = true) (he : (s.face f).ending = true)
    (hw : (s.face f).window = []) : completes (.commandEnd f) s fun t =>
      (t.face f).running = false ∧
      (∀ k, storeBase f ≤ k → k < storeBase f + storeBytes → t.loadByte k = 0) ∧
      (∀ b < 16, bitOf (s.liveMask f (s.face f).job (s.face f).vf) b = false →
        ∀ i < 0x10000, (b ∉ s.guests f (s.face f).job (s.face f).vf → t.loadByte (bankKey f b + i) = 0) ∧
          (b ∈ s.guests f (s.face f).job (s.face f).vf → (∀ e ∈ s.bufs, e.2.tier = 1 ∨ e.2.tier = 2 →
            e.2.base f (s.face f).vf + e.2.sizeB ≤ homeSpace) → t.loadByte (bankKey f b + i) = s.loadByte (asideKey f b + i))) ∧
      (t.vf (s.face f).job (s.face f).vf).ended = (s.vf (s.face f).job (s.face f).vf).ended + 1 := by
  refine ⟨_, exec_commandEnd hr he hw, ?_⟩
  have hf := f.isLt
  have hwf : (s.signal f (s.face f).endSig).memWf = true := (congrArg (Map.wf 0) (State.signal_mem ..)).trans hs.1
  have hbyte : ∀ k, (s.signal f (s.face f).endSig).loadByte k = s.loadByte k := fun k => State.signal_loadByte ..
  have hrd : ∀ a, (s.signal f (s.face f).endSig).rd a = s.rd a := fun a => State.signal_rd ..
  obtain ⟨hjobs, hvfs, hbufs⟩ := s.signal_keeps f (s.face f).endSig
  obtain ⟨ev, hface⟩ := s.signal_face f (s.face f).endSig
  generalize s.signal f (s.face f).endSig = u at *
  have hjob : (u.face f).job = (s.face f).job := by rw [hface]
  have hvf : (u.face f).vf = (s.face f).vf := by rw [hface]
  have hrec : ∀ i, u.job i = s.job i := fun i => congrArg (Map.get none · i) hjobs
  have hlive : u.liveMask f (s.face f).job (s.face f).vf = s.liveMask f (s.face f).job (s.face f).vf := State.liveMask_congr hrec hrd
  have hguests : u.guests f (s.face f).job (s.face f).vf = s.guests f (s.face f).job (s.face f).vf :=
    State.guests_congr hrec hrd (by rw [hface])
  have hj : (u.face f).job < 16 := hjob ▸ hs.job_lt f
  have hended := u.endCommand_ended hf hj
  have hmem := fun k hk => u.endCommand_loadByte (k := k) hf hj hk
  rw [hjob, hvf] at hmem
  have hbank : ∀ b i, homeSpace + 0x100000 ≤ bankKey f b + i := fun b i => by
    simp only [homeSpace, bankKey]
    omega
  refine ⟨?_, fun k hlo hhi => ?_, fun b hb hscratch i hi => ⟨fun hg => ?_, fun hg hspan => ?_⟩, ?_⟩
  · rw [hended.face]
    rfl
  · have hlow : k < homeSpace := by
      simp only [storeBase, storeBytes, homeSpace] at hhi ⊢
      omega
    rw [hmem k (.inl hlow), State.clearCommand_store hwf hf hlo hhi]
  · rw [hmem _ (.inr (hbank b i)), State.clearCommand_scratch hwf hb (by rw [hlive, hscratch]) (by rwa [hguests]) hi]
  · rw [hmem _ (.inr (hbank b i)), State.clearCommand_guest hwf hf (by rwa [hguests]) (by rwa [hbufs]) hi, hbyte]
  · have hq : ∀ i w, u.vf i w = s.vf i w := fun i w => congrArg (Map.get VfSt.empty · (8 * i + w)) hvfs
    have := hended.ended
    rwa [hjob, hvf, hq] at this

/-- A command that has run longer than its limit takes CMD_LIMIT. -/
theorem cmdLimit_completes {f : Fin 6} {t0 : Nat} (hs : s.sound) (hr : (s.face f).running = true) (hh : (s.face f).halted = false)
    (ht : (s.face f).firstIssue = some t0) (hlate : s.cmdLimitNs f < s.raw - t0) (hfree : s.flag (Reg.FACE_EXC f) 63 = false) :
    completes (.cmdLimit f) s fun t => excTaken f 0x0D false ((s.face f).pc % 2 ^ 32) s t := by
  have hexec : exec (.cmdLimit f) s = .next (s.takeExc f ⟨0x0D, 0⟩ false (s.face f).pc) := by
    show execCmdLimit f s = _
    simp only [execCmdLimit, ht, hr, hh, hlate, Bool.not_false, Bool.and_self, decide_true, if_true]
  exact ⟨_, hexec, (s.takeExc_spec f.isLt (hs.job_lt f) hfree (by decide)).1⟩

end

/-- Settles O15: END, the end that follows, and the limit. -/
theorem commandsEndOrReachTheirLimit : Obligations.CommandsEndOrReachTheirLimit :=
  ⟨fun _ _ hs => ⟨fun _ hi => endCmd_completes hi, commandEnd_completes hs⟩,
    fun _ _ _ hs hr hh ht hlate hfree => cmdLimit_completes hs hr hh ht hlate hfree⟩

end Sys2Proof.Machine

namespace Sys2Proof.Machine

/-! # The placement table, plans and moves (R74, R92 to R98) -/

section
variable {s : State}

theorem State.account_memOnly (s : State) (j off n : Nat) : memOnly s (s.account j off n) := by
  rcases s.account_cases j n off with h | ⟨v, h⟩ <;> rw [h]
  · exact .refl s
  · exact ⟨_, _, rfl⟩

/-- Accounting leaves every byte of the device's address space alone. -/
theorem State.account_loadByte_device {j off n k : Nat} (hj : j < 16) (ho : off + 8 ≤ 0x400) (hk : k < homeSpace) :
    (s.account j off n).loadByte k = s.loadByte k := by
  refine (Charged.account hj ho).mem k ?_
  simp only [List.forall_mem_singleton, acctKey_home hj]
  omega

/-! ## Commands of the placement table (R74, R96, R98) -/

theorem bitOf_sub_two_pow {n k : Nat} (h : bitOf n k = true) : bitOf (n - 2 ^ k) k = false := by
  rw [bitOf_eq_testBit] at *
  have h1 : n / 2 ^ k % 2 = 1 := by simpa [Nat.testBit_eq_decide_div_mod_eq] using h
  have hdiv : (n - 2 ^ k) / 2 ^ k = n / 2 ^ k - 1 := by
    simpa using Nat.sub_mul_div n (2 ^ k) 1
  rw [Nat.testBit_eq_decide_div_mod_eq, hdiv, decide_eq_false_iff_not]
  omega

/-- The bytes of vFace `w` in buffer `e` are zeroed, and wait for it no longer. -/
def State.zeroInstance (s : State) (e w : Nat) : State :=
  (s.zero ((s.buf e).base 0 w) (s.buf e).sizeB).setBuf e { s.buf e with zeroing := (s.buf e).zeroing - 2 ^ w }

theorem State.zeroInstance_spec (s : State) (e w : Nat) : ((s.zeroInstance e w).buf e).zeroing = (s.buf e).zeroing - 2 ^ w ∧
    (s.zeroInstance e w).regs = s.regs ∧ (s.zeroInstance e w).faces = s.faces ∧ ∀ k, (s.zeroInstance e w).loadByte k =
      if (s.buf e).base 0 w ≤ k ∧ k < (s.buf e).base 0 w + (s.buf e).sizeB then 0 else s.loadByte k := by
  refine ⟨?_, rfl, rfl, fun k => ?_⟩
  · rw [State.zeroInstance, State.buf_setBuf, if_pos rfl]
  · rw [State.zeroInstance, State.setBuf_loadByte, State.loadByte_zero]

theorem exec_life0HbmZeroDone {e : BitVec 12} {w : BitVec 3} (h : bitOf (s.buf e.toNat).zeroing w.toNat = true) :
    exec (.life0HbmZeroDone e w) s = .next ((s.zeroInstance e.toNat w.toNat).account (bits (s.buf e.toNat).record.toNat 62 59) 0x38
      (s.raw - Map.get 0 (s.buf e.toNat).zeroAt w.toNat)) := by
  show execLife0HbmZeroDone e w s = _
  simp only [execLife0HbmZeroDone, h, if_true, State.zeroInstance]
  rfl

theorem life0HbmZeroDone_completes {e : BitVec 12} {w : BitVec 3} (h : bitOf (s.buf e.toNat).zeroing w.toNat = true) :
    completes (.life0HbmZeroDone e w) s fun t => bitOf (t.buf e.toNat).zeroing w.toNat = false ∧ t.regs = s.regs ∧
      t.faces = s.faces ∧ ∀ k < 2 ^ 48, t.loadByte k =
        if (s.buf e.toNat).base 0 w.toNat ≤ k ∧ k < (s.buf e.toNat).base 0 w.toNat + (s.buf e.toNat).sizeB then 0
        else s.loadByte k := by
  refine ⟨_, exec_life0HbmZeroDone h, ?_⟩
  obtain ⟨hzeroing, hregs, hfaces, hbyte⟩ := s.zeroInstance_spec e.toNat w.toNat
  generalize s.zeroInstance e.toNat w.toNat = u at *
  generalize s.raw - Map.get 0 (s.buf e.toNat).zeroAt w.toNat = n
  have hdevice := fun k hk => State.account_loadByte_device (s := u) (n := n) (k := k) (bits_lt (s.buf e.toNat).record.toNat 62 59)
    (show 0x38 + 8 ≤ 0x400 by decide) hk
  obtain ⟨_, _, heq⟩ := u.account_memOnly (bits (s.buf e.toNat).record.toNat 62 59) 0x38 n
  refine ⟨?_, ?_, ?_, fun k hk => (hdevice k hk).trans (hbyte k)⟩
  · have hbuf : ((u.account (bits (s.buf e.toNat).record.toNat 62 59) 0x38 n).buf e.toNat) = u.buf e.toNat := by
      rw [heq]
      rfl
    rw [hbuf, hzeroing, bitOf_sub_two_pow h]
  · rw [heq]
    exact hregs
  · rw [heq]
    exact hfaces

theorem exec_placeBrecWrite (v : Word) (s : State) : exec (.placeBrecWrite v) s = .next (s.brecWrite v.toNat) := rfl

theorem State.brecWrite_held {v : Nat} (h : s.bufInUse (s.fld Reg.PLACE_BSEL 11 0) = true) : s.brecWrite v = s := by
  rw [State.brecWrite, if_pos h]

theorem State.brecWrite_good {v : Nat} (h : s.bufInUse (s.fld Reg.PLACE_BSEL 11 0) = false) (hv : bits v 37 36 ≠ 3) :
    s.brecWrite v = s.setBuf (s.fld Reg.PLACE_BSEL 11 0) { s.buf (s.fld Reg.PLACE_BSEL 11 0) with
      record := BitVec.ofNat 64 (v &&& 0xF8FFFFF8FF000000) } := by
  rw [State.brecWrite, h, if_neg Bool.false_ne_true, if_neg hv]

theorem State.brecWrite_reserved {v : Nat} (h : s.bufInUse (s.fld Reg.PLACE_BSEL 11 0) = false) (hv : bits v 37 36 = 3) :
    s.brecWrite v = (s.setBuf (s.fld Reg.PLACE_BSEL 11 0) { s.buf (s.fld Reg.PLACE_BSEL 11 0) with
      record := BitVec.ofNat 64 (putBits (v &&& 0xF8FFFFF8FF000000) 63 63 0) }).placeErr (bits v 62 59) (bits v 55 40) 0x09 := by
  rw [State.brecWrite, h, if_neg Bool.false_ne_true, if_pos hv]

theorem placeBrecWrite_good {v : Word} (h : s.bufInUse (s.fld Reg.PLACE_BSEL 11 0) = false) (hv : bits v.toNat 37 36 ≠ 3) :
    completes (.placeBrecWrite v) s fun t =>
      (t.buf (s.fld Reg.PLACE_BSEL 11 0)).record = v &&& 0xF8FFFFF8FF000000 ∧ t.regs = s.regs ∧ t.mem = s.mem := by
  refine ⟨_, exec_placeBrecWrite v s, ?_⟩
  rw [State.brecWrite_good h hv]
  refine ⟨?_, rfl, rfl⟩
  rw [State.buf_setBuf, if_pos rfl]
  apply BitVec.eq_of_toNat_eq
  rw [BitVec.toNat_ofNat, BitVec.toNat_and]
  exact Nat.mod_eq_of_lt (Nat.lt_of_le_of_lt Nat.and_le_left v.isLt)

theorem placeBrecWrite_reserved {v : Word} (h : s.bufInUse (s.fld Reg.PLACE_BSEL 11 0) = false) (hv : bits v.toNat 37 36 = 3) :
    completes (.placeBrecWrite v) s fun t =>
      (t.buf (s.fld Reg.PLACE_BSEL 11 0)).isValid = false ∧ t.fld Reg.PLACE_ERR 7 0 = 0x09 ∧ t.mem = s.mem := by
  have hlt : putBits (v.toNat &&& 0xF8FFFFF8FF000000) 63 63 0 < 2 ^ 64 :=
    putBits_lt 63 63 0 (Nat.le_refl _) (by decide) (Nat.lt_of_le_of_lt Nat.and_le_left v.isLt)
  refine ⟨_, exec_placeBrecWrite v s, ?_⟩
  rw [State.brecWrite_reserved h hv, State.placeErr]
  refine ⟨?_, ?_, ?_⟩
  · rw [State.wr_buf, State.buf_setBuf, if_pos rfl, BufEnt.isValid, bitOf_eq_testBit, BitVec.toNat_ofNat, Nat.mod_eq_of_lt hlt,
      testBit_putBits _ _ _ _ _ (Nat.le_refl _)]
    rfl
  · rw [State.fld, State.rd_wr, if_pos rfl]
    simp only [bits, BitVec.toNat_ofNat]
    omega
  · rw [State.wr_mem, State.setBuf_mem]

theorem exec_placeCommit (v : Word) (s : State) (hv : bitOf v.toNat 0 = true) : exec (.placeCommit v) s = .next s.placeGo := by
  show execPlaceCommit v s = _
  rw [execPlaceCommit, if_pos hv]

theorem placeCommit_free {v : Word} (hv : bitOf v.toNat 0 = true) (h : s.flag Reg.PLACE_STATUS 0 = false) :
    completes (.placeCommit v) s fun t => t.place.committed = true ∧ t.place.goAt = s.raw ∧ t.regs = s.regs ∧ t.mem = s.mem ∧
      t.bufs = s.bufs := by
  refine ⟨_, exec_placeCommit v s hv, ?_⟩
  rw [State.placeGo, h, if_neg Bool.false_ne_true]
  exact ⟨rfl, rfl, rfl, rfl, rfl⟩

theorem placeCommit_busy {v : Word} (hv : bitOf v.toNat 0 = true) (h : s.flag Reg.PLACE_STATUS 0 = true) :
    completes (.placeCommit v) s fun t => t.place = s.place ∧ t.fld Reg.PLACE_ERR 7 0 = 0x08 ∧ sameRegsBut [Reg.PLACE_ERR] s t ∧
      t.mem = s.mem := by
  refine ⟨_, exec_placeCommit v s hv, ?_⟩
  rw [State.placeGo, if_pos h]
  refine ⟨State.setFld_place .., ?_, (sameRegsBut_refl _ s).setFld List.mem_cons_self _ _ _, State.setFld_mem ..⟩
  exact State.fld_setFld_same _ _ _ _ _ (by decide) (by decide)

/-! ## A plan (R92, R95) -/

theorem placeSvmap_inj {i j : Nat} (h : Reg.PLACE_SVMAP i = Reg.PLACE_SVMAP j) : i = j := by
  simp only [Reg.PLACE_SVMAP] at h
  omega

/-- The shadow registers take the planned Faces. -/
def State.planMaps (s : State) (maps : List (Nat × List Nat)) : State :=
  s.each maps fun s m => s.wr (Reg.PLACE_SVMAP m.1) (BitVec.ofNat 64 (vmapOf m.2))

/-- The shadow entries take the planned bindings. -/
def State.planBinds (s : State) (tiers : List (Nat × Nat)) (addr : Nat → Nat) : State :=
  s.each tiers fun s t => s.setBuf t.1 { s.buf t.1 with sbind := BitVec.ofNat 64 (planBind (s.buf t.1) t.2 (addr t.1)) }

theorem State.planMaps_spec {maps : List (Nat × List Nat)} (hnd : (maps.map (·.1)).Nodup) : regsOnly s (s.planMaps maps) ∧
    ∀ m ∈ maps, (s.planMaps maps).rd (Reg.PLACE_SVMAP m.1) = BitVec.ofNat 64 (vmapOf m.2) := by
  refine ⟨State.each_rel regsOnly.refl regsOnly.trans _ (fun t m _ => (regsOnly.refl t).wr _ _) s, fun m hm => ?_⟩
  refine State.each_settles (g := fun t : State => t.rd (Reg.PLACE_SVMAP m.1)) (fun x hx => ?_)
    (.inr ⟨m, hm, fun t => (State.rd_wr ..).trans (if_pos rfl)⟩)
  by_cases h : x.1 = m.1
  · obtain rfl := List.inj_on_of_nodup_map hnd hx hm h
    exact .inr fun t => (State.rd_wr ..).trans (if_pos rfl)
  · exact .inl fun t => (State.rd_wr ..).trans (if_neg fun e => h (placeSvmap_inj e).symm)

/-- The buffer table changes, but no binding in force and no record. -/
def shadowOnly (s t : State) : Prop := (∃ bs, t = { s with bufs := bs }) ∧
  ∀ e, (t.buf e).bind = (s.buf e).bind ∧ (t.buf e).record = (s.buf e).record

theorem shadowOnly.refl (s : State) : shadowOnly s s := ⟨⟨_, rfl⟩, fun _ => ⟨rfl, rfl⟩⟩

theorem shadowOnly.trans {t u : State} (h : shadowOnly s t) (h' : shadowOnly t u) : shadowOnly s u := by
  obtain ⟨⟨_, rfl⟩, h⟩ := h
  obtain ⟨⟨_, rfl⟩, h'⟩ := h'
  exact ⟨⟨_, rfl⟩, fun e => ⟨(h' e).1.trans (h e).1, (h' e).2.trans (h e).2⟩⟩

theorem State.setSbind_shadowOnly (s : State) (e : Nat) (x : Word) : shadowOnly s (s.setBuf e { s.buf e with sbind := x }) := by
  refine ⟨⟨_, rfl⟩, fun i => ?_⟩
  rw [State.buf_setBuf]
  split
  case isTrue h =>
    rw [h]
    exact ⟨rfl, rfl⟩
  case isFalse => exact ⟨rfl, rfl⟩

theorem State.planBinds_shadowOnly (s : State) (tiers : List (Nat × Nat)) (addr : Nat → Nat) : shadowOnly s (s.planBinds tiers addr) :=
  State.each_rel .refl .trans _ (fun t x _ => t.setSbind_shadowOnly x.1 _) s

theorem placementPlan_completes {p : BitVec 3} {hot : BitVec 6} {maps : List (Nat × List Nat)} {addrs : List (Nat × Nat)}
    {ex : List (Nat × Nat × List Nat)} :
    let addr := fun e => ((addrs.find? fun a => a.1 == e).map (·.2)).getD 0
    let face := fun j v => (((maps.find? fun m => m.1 == j).map (·.2)).getD []).getD v (s.boundTo j v)
    s.mapsOk p.toNat hot.toNat maps face = true → (maps.map (·.1)).Nodup →
    (∀ t ∈ s.planTiers p.toNat, s.bindOk t.1 t.2 (addr t.1) = true) → s.bindsApart (s.planTiers p.toNat) addr = true →
    (∀ x ∈ ex, s.exchangeOk face x.1 x.2.1 x.2.2 = true) →
    completes (.placementPlan p hot maps addrs ex) s fun t =>
      (∀ m ∈ maps, t.rd (Reg.PLACE_SVMAP m.1) = BitVec.ofNat 64 (vmapOf m.2)) ∧
      (∀ e, (t.buf e).bind = (s.buf e).bind ∧ (t.buf e).record = (s.buf e).record) ∧
      t.place.exPlan = ex.map (fun x => 256 * x.1 + x.2.1) ∧ t.mem = s.mem ∧ t.faces = s.faces := by
  intro addr face hmaps hnd hbinds hapart hex
  have hbinds' : (s.planTiers p.toNat).all (fun t => s.bindOk t.1 t.2 (addr t.1)) = true := List.all_eq_true.mpr hbinds
  have hex' : ex.all (fun x => s.exchangeOk face x.1 x.2.1 x.2.2) = true := List.all_eq_true.mpr hex
  have hexec : exec (.placementPlan p hot maps addrs ex) s = .next
      { (s.planMaps maps).planBinds (s.planTiers p.toNat) addr with
        place := { ((s.planMaps maps).planBinds (s.planTiers p.toNat) addr).place with
          exPlan := ex.map fun x => 256 * x.1 + x.2.1 } } :=
    show execPlacementPlan p hot maps addrs ex s = _ from if_pos (by
      show (s.mapsOk p.toNat hot.toNat maps face && (s.planTiers p.toNat).all (fun t => s.bindOk t.1 t.2 (addr t.1)) &&
        s.bindsApart (s.planTiers p.toNat) addr && ex.all (fun x => s.exchangeOk face x.1 x.2.1 x.2.2)) = true
      rw [hmaps, hbinds', hapart, hex']
      rfl)
  refine ⟨_, hexec, ?_⟩
  obtain ⟨⟨r, hregs⟩, hsvmap⟩ := s.planMaps_spec hnd
  generalize s.planMaps maps = u at *
  obtain ⟨⟨bs, hbufs⟩, hkept⟩ := u.planBinds_shadowOnly (s.planTiers p.toNat) addr
  generalize u.planBinds (s.planTiers p.toNat) addr = w at *
  subst hbufs
  refine ⟨hsvmap, fun e => (hkept e).imp (fun h => h.trans ?_) (fun h => h.trans ?_), rfl, ?_, ?_⟩
  all_goals rw [hregs]
  all_goals rfl

/-! ## Moves (R95, R97) -/

theorem bitOf_putBits_set (x : Word) {k : Nat} (hk : k < 64) : bitOf (BitVec.ofNat 64 (putBits x.toNat k k 1)).toNat k = true := by
  rw [BitVec.toNat_ofNat, Nat.mod_eq_of_lt (putBits_lt k k 1 (Nat.le_refl k) hk x.isLt), bitOf_eq_testBit,
    testBit_putBits _ _ _ _ _ (Nat.le_refl k), Nat.sub_self]
  simp

/-- The entry is marked as moving, and PLACE's move of it begins. -/
def State.markEntry (s : State) (e : Nat) (b : Word) : State :=
  { s.setBuf e { s.buf e with bind := BitVec.ofNat 64 (putBits (s.buf e).bind.toNat 61 61 1) } with place := { s.place with
    moves := s.place.moves.filter fun x => x.1 != e
    moving := s.place.moving ++ [(e, b, s.raw)] } }

/-- The entry is marked as moving, and the Board region of its destination belongs to its job. -/
def State.markMoving (s : State) (e : Nat) (b : Word) : State :=
  let r := s.buf e
  let j := bits r.record.toNat 62 59
  if bits b.toNat 63 62 = 1 then
    (s.markEntry e b).modJob j fun x =>
      { x with regions := x.regions ++ [(bits b.toNat 47 6 * 64, instTotal (s.vfCountOf j) r.sizeB r.life1)] }
  else s.markEntry e b

theorem State.markMoving_jobsOnly (s : State) (e : Nat) (b : Word) : jobsOnly (s.markEntry e b) (s.markMoving e b) := by
  unfold State.markMoving
  split
  · exact State.modJob_jobsOnly ..
  · exact ⟨_, rfl⟩

theorem State.markEntry_spec (s : State) (e : Nat) (b : Word) : (e, b, s.raw) ∈ (s.markEntry e b).place.moving ∧
    bitOf ((s.markEntry e b).buf e).bind.toNat 61 = true ∧ (s.markEntry e b).mem = s.mem ∧ (s.markEntry e b).faces = s.faces := by
  refine ⟨List.mem_append_right _ (List.mem_singleton_self _), ?_, rfl, rfl⟩
  have hbuf : (s.markEntry e b).buf e = { s.buf e with bind := BitVec.ofNat 64 (putBits (s.buf e).bind.toNat 61 61 1) } :=
    (State.buf_setBuf ..).trans (if_pos rfl)
  rw [hbuf]
  exact bitOf_putBits_set _ (by decide)

theorem exec_bufferMoveStart {e : BitVec 12} {b : Word} (hfind : (s.place.moves.find? fun m => m.1 == e.toNat) = some (e.toNat, b))
    (hfree : s.bufInUse e.toNat = false) :
    exec (.bufferMoveStart e) s = .next ((s.markMoving e.toNat b).setFlag Reg.PLACE_STATUS 1 true) := by
  show execBufferMoveStart e s = _
  simp only [execBufferMoveStart, hfind, hfree, Bool.false_eq_true, if_false]
  rfl

theorem bufferMoveStart_completes {e : BitVec 12} {b : Word}
    (hfind : (s.place.moves.find? fun m => m.1 == e.toNat) = some (e.toNat, b)) (hfree : s.bufInUse e.toNat = false) :
    completes (.bufferMoveStart e) s fun t => (e.toNat, b, s.raw) ∈ t.place.moving ∧
      bitOf (t.buf e.toNat).bind.toNat 61 = true ∧ t.flag Reg.PLACE_STATUS 1 = true ∧ t.mem = s.mem ∧ t.faces = s.faces := by
  refine ⟨_, exec_bufferMoveStart hfind hfree, ?_⟩
  obtain ⟨hmoving, hbind, hmem, hfaces⟩ := s.markEntry_spec e.toNat b
  obtain ⟨_, hjobs⟩ := s.markMoving_jobsOnly e.toNat b
  refine ⟨?_, ?_, State.flag_setFlag_same _ _ _ _ (by decide), (State.setFlag_mem ..).trans ?_, (State.setFlag_faces ..).trans ?_⟩
  · rw [State.setFlag_place, hjobs]
    exact hmoving
  · rw [State.setFlag_buf, hjobs]
    exact hbind
  · rw [hjobs]
    exact hmem
  · rw [hjobs]
    exact hfaces

/-- The binding in force after a move to `b`: MOVE and the other bits above the address are 0 (R97). -/
def moveTarget (b : Word) : Word := BitVec.ofNat 64 (putBits b.toNat 61 48 0)

/-- As the end of a move writes it: a job-life buffer takes no tracking bit. -/
theorem ofNat_putBits_eq_moveTarget (b : Word) : BitVec.ofNat 64 (putBits b.toNat 61 48 0 + 0) = moveTarget b := by
  rw [moveTarget, Nat.add_zero]

theorem bits_moveTarget (b : Word) {hi lo : Nat} (h : hi < 48 ∨ 61 < lo) : bits (moveTarget b).toNat hi lo = bits b.toNat hi lo := by
  rw [moveTarget, BitVec.toNat_ofNat, Nat.mod_eq_of_lt (putBits_lt 61 48 0 (by decide) (by decide) b.isLt),
    bits_putBits_disjoint _ _ _ _ _ _ (by decide) h]

/-- The entry with `x` as its binding in force. -/
def BufEnt.withBind (r : BufEnt) (x : Word) : BufEnt := { r with bind := x }

/-- A job-life buffer in HBM begins at its bound address. -/
theorem BufEnt.withBind_base {r : BufEnt} {x : Word} (ht : bits x.toNat 63 62 = 2) (hlife : r.life1 = true) :
    (r.withBind x).base 0 0 = bits x.toNat 47 6 * 64 := by
  have htier : (r.withBind x).tier = 2 := ht
  have hlife' : (r.withBind x).life1 = true := hlife
  have hbind : (r.withBind x).bind = x := rfl
  simp [BufEnt.base, htier, hlife', hbind]

/-- The bytes of a job-life buffer stand at its new place, its binding is in force and the move is over. -/
def State.rebind (s : State) (e : Nat) (x : Word) : State :=
  let r := s.buf e
  let t := (s.copy (r.base 0 0) ((r.withBind x).base 0 0) r.sizeB).setBuf e (r.withBind x)
  { t with place := { t.place with moving := t.place.moving.filter fun m => m.1 != e } }

theorem State.rebind_buf (s : State) (e : Nat) (x : Word) : (s.rebind e x).buf e = (s.buf e).withBind x :=
  (State.buf_setBuf ..).trans (if_pos rfl)

theorem State.rebind_faces (s : State) (e : Nat) (x : Word) : (s.rebind e x).faces = s.faces := rfl

theorem State.rebind_loadByte (s : State) (e : Nat) (x : Word) (k : Nat) :
    (s.rebind e x).loadByte k = (s.copy ((s.buf e).base 0 0) (((s.buf e).withBind x).base 0 0) (s.buf e).sizeB).loadByte k := rfl

theorem exec_bufferMoveDone {e : BitVec 12} {b : Word} {t0 : Nat}
    (hfind : (s.place.moving.find? fun m => m.1 == e.toNat) = some (e.toNat, b, t0)) (hlife : (s.buf e.toNat).life1 = true) :
    let t := s.rebind e.toNat (moveTarget b)
    let u := t.account (bits (s.buf e.toNat).record.toNat 62 59) 0x38 (t.raw - t0)
    exec (.bufferMoveDone e) s = .next (if u.place.moving.isEmpty then (u.setFlag Reg.PLACE_STATUS 1 false).placeSettle else u) := by
  show execBufferMoveDone e s = _
  simp only [execBufferMoveDone, hfind, hlife, Bool.not_true, Bool.false_and, Bool.false_eq_true, if_false, if_true,
    ofNat_putBits_eq_moveTarget, State.rebind, BufEnt.withBind]
  exact congrArg Host.Outcome.next (if_congr Iff.rfl rfl rfl)

theorem State.placeSettle_regsOnly (s : State) : regsOnly s s.placeSettle := by
  unfold State.placeSettle
  split
  · exact ⟨_, rfl⟩
  · exact regsOnly.refl s

/-- The registers show that no buffer moves any more. -/
theorem State.movesOver_regsOnly (u : State) :
    regsOnly u (if u.place.moving.isEmpty then (u.setFlag Reg.PLACE_STATUS 1 false).placeSettle else u) := by
  split
  · exact regsOnly.trans ⟨_, rfl⟩ (State.placeSettle_regsOnly _)
  · exact regsOnly.refl u

/-- After the end of a move, its bookkeeping: all but registers and the accounting record is as the rebinding left it. -/
theorem bufferMoveDone_spec {e : BitVec 12} {b : Word} {t0 : Nat}
    (hfind : (s.place.moving.find? fun m => m.1 == e.toNat) = some (e.toNat, b, t0)) (hlife : (s.buf e.toNat).life1 = true) :
    completes (.bufferMoveDone e) s fun t => t.buf e.toNat = (s.buf e.toNat).withBind (moveTarget b) ∧ t.faces = s.faces ∧
      ∀ k < homeSpace, t.loadByte k = (s.rebind e.toNat (moveTarget b)).loadByte k := by
  refine ⟨_, exec_bufferMoveDone hfind hlife, ?_⟩
  have hbuf := s.rebind_buf e.toNat (moveTarget b)
  have hfaces := s.rebind_faces e.toNat (moveTarget b)
  generalize s.rebind e.toNat (moveTarget b) = u at *
  generalize u.raw - t0 = n
  have hdevice := fun k hk => State.account_loadByte_device (s := u) (n := n) (k := k) (bits_lt (s.buf e.toNat).record.toNat 62 59)
    (show 0x38 + 8 ≤ 0x400 by decide) hk
  obtain ⟨_, _, hcharged⟩ := u.account_memOnly (bits (s.buf e.toNat).record.toNat 62 59) 0x38 n
  obtain ⟨_, hover⟩ := (u.account (bits (s.buf e.toNat).record.toNat 62 59) 0x38 n).movesOver_regsOnly
  rw [hover]
  refine ⟨?_, ?_, hdevice⟩
  · rw [← hbuf, hcharged]
    rfl
  · rw [← hfaces, hcharged]

theorem bufferMoveDone_completes {e : BitVec 12} {b : Word} {t0 : Nat} (hs : s.sound)
    (hfind : (s.place.moving.find? fun m => m.1 == e.toNat) = some (e.toNat, b, t0)) (hlife : (s.buf e.toNat).life1 = true)
    (htier : bits b.toNat 63 62 = 2) :
    completes (.bufferMoveDone e) s fun t =>
      (t.buf e.toNat).tier = bits b.toNat 63 62 ∧ bits (t.buf e.toNat).bind.toNat 47 6 = bits b.toNat 47 6 ∧
      (∀ i < (s.buf e.toNat).sizeB, (s.buf e.toNat).sizeB ≤ 2 ^ 40 → bits b.toNat 47 6 * 64 + (s.buf e.toNat).sizeB ≤ 2 ^ 47 →
        t.loadByte ((t.buf e.toNat).base 0 0 + i) = s.loadByte ((s.buf e.toNat).base 0 0 + i)) ∧ t.faces = s.faces := by
  obtain ⟨t, hexec, hbuf, hfaces, hbyte⟩ := bufferMoveDone_spec hfind hlife
  refine ⟨t, hexec, ?_, ?_, fun i hi _ hend => ?_, hfaces⟩
  · rw [hbuf]
    exact bits_moveTarget b (.inr (by decide))
  · rw [hbuf]
    exact bits_moveTarget b (.inl (by decide))
  · have hbase := BufEnt.withBind_base ((bits_moveTarget b (.inr (by decide))).trans htier) hlife
    rw [bits_moveTarget b (.inl (by decide))] at hbase
    have hlt : ((s.buf e.toNat).withBind (moveTarget b)).base 0 0 + i < homeSpace := by
      rw [hbase]
      exact Nat.lt_of_lt_of_le (Nat.lt_of_lt_of_le (Nat.add_lt_add_left hi _) hend) (by decide)
    rw [hbuf, hbyte _ hlt, State.rebind_loadByte, State.loadByte_copy hs.1, if_pos ⟨Nat.le_add_right _ _, by omega⟩,
      Nat.add_sub_cancel_left]

end

/-- Settles O31: a write of the table, a plan and a move each change what their lemma above names, and the bytes that
a command charges to its job lie in Home's space, beyond the device's. -/
theorem placementPlansAndMoves : Obligations.PlacementPlansAndMoves := by
  unfold Obligations.PlacementPlansAndMoves
  refine ⟨fun s v => ⟨fun e w => life0HbmZeroDone_completes, fun h => ?_, placeBrecWrite_good, placeBrecWrite_reserved,
    placeCommit_free, placeCommit_busy⟩, fun p hot maps addrs ex s => placementPlan_completes,
    fun e s b hs => ⟨bufferMoveStart_completes, fun t0 hfind hlife _ _ hlo hhi => bufferMoveDone_completes hs hfind hlife (by omega)⟩⟩
  rw [exec_placeBrecWrite, State.brecWrite_held h]

end Sys2Proof.Machine

namespace Sys2Proof.Machine

/-! # Words and the instructions they spell (R125 to R128, R173)

A word is the concatenation of its fields: each field of a word is read back bit by bit, and the fields of any word, put together,
are that word. Every opcode then decodes and encodes alike. -/

section
variable (opc : BitVec 8) (h : Hdr) (p : BitVec 48) (w : BitVec 128)

/-! ## The fields every class shares -/

theorem slice_word_opcode : slice (word opc h p) 120 8 = opc := by
  ext i hi
  simp only [slice, word]
  rw [BitVec.getElem_extractLsb', BitVec.getLsbD_append]
  simp only [BitVec.getLsbD_append]
  grind

theorem slice_word_sigEn : slice (word opc h p) 119 1 = BitVec.ofBool h.sigEn := by
  ext i hi
  simp only [slice, word]
  rw [BitVec.getElem_extractLsb', BitVec.getLsbD_append]
  simp only [BitVec.getLsbD_append]
  grind

theorem ofBool_beq_one (b : BitVec 1) : BitVec.ofBool (b == 1) = b := by
  rcases BitVec.eq_zero_or_eq_one b with h | h <;> rw [h] <;> rfl

theorem hdrOf_word : hdrOf (word opc h p) = h := by
  have hen : (slice (word opc h p) 119 1 == 1) = h.sigEn := by
    rw [slice_word_sigEn]
    cases h.sigEn <;> rfl
  obtain ⟨en, ev, w0, w1, w2, w3⟩ := h
  simp only [hdrOf, hen, Hdr.mk.injEq, true_and]
  refine ⟨?_, ?_, ?_, ?_, ?_⟩ <;> ext i hi <;> simp only [slice, word] <;>
    rw [BitVec.getElem_extractLsb', BitVec.getLsbD_append] <;> simp only [BitVec.getLsbD_append] <;> grind

/-- The fields of a word, put together, are the word: R125 leaves no bit out. -/
theorem word_fields : word (slice w 120 8) (hdrOf w) (slice w 0 48) = w := by
  ext i hi
  simp only [word, hdrOf, ofBool_beq_one]
  simp only [slice]
  rw [← BitVec.getLsbD_eq_getElem, BitVec.getLsbD_append]
  simp only [BitVec.getLsbD_append, BitVec.getLsbD_extractLsb']
  grind

/-! ## The operand fields of each format (R127) -/

theorem unpackA_word (o : FmtA) : unpackA (word opc h (packA o)) = o := by
  obtain ⟨rd, ra, rb, i', imm⟩ := o
  simp only [unpackA, packA, slice, word, FmtA.mk.injEq]
  refine ⟨?_, ?_, ?_, ?_, ?_⟩ <;> ext k hk <;>
    rw [BitVec.getElem_extractLsb', BitVec.getLsbD_append] <;> simp only [BitVec.getLsbD_append] <;> grind

theorem packA_unpackA : packA (unpackA w) = slice w 0 48 := by
  ext k hk
  simp only [unpackA, packA, slice]
  rw [BitVec.getElem_append]
  simp only [BitVec.getElem_append, BitVec.getElem_extractLsb']
  grind

theorem unpackD_word (o : FmtD) : unpackD (word opc h (packD o)) = o := by
  obtain ⟨x, y, ra, field, imm⟩ := o
  simp only [unpackD, packD, slice, word, FmtD.mk.injEq]
  refine ⟨?_, ?_, ?_, ?_, ?_⟩ <;> ext k hk <;>
    rw [BitVec.getElem_extractLsb', BitVec.getLsbD_append] <;> simp only [BitVec.getLsbD_append] <;> grind

theorem packD_unpackD : packD (unpackD w) = slice w 0 48 := by
  ext k hk
  simp only [unpackD, packD, slice]
  rw [BitVec.getElem_append]
  simp only [BitVec.getElem_append, BitVec.getElem_extractLsb']
  grind

theorem unpackT_word (o : FmtT) : unpackT (word opc h (packT o)) = o := by
  obtain ⟨dd, da, db, dc, sd, sa, sb, rmode, sat, fn⟩ := o
  simp only [unpackT, packT, slice, word, FmtT.mk.injEq]
  refine ⟨?_, ?_, ?_, ?_, ?_, ?_, ?_, ?_, ?_, ?_⟩ <;> ext k hk <;>
    rw [BitVec.getElem_extractLsb', BitVec.getLsbD_append] <;> simp only [BitVec.getLsbD_append] <;> grind

theorem packT_unpackT : packT (unpackT w) = slice w 0 48 := by
  ext k hk
  simp only [unpackT, packT, slice]
  rw [BitVec.getElem_append]
  simp only [BitVec.getElem_append, BitVec.getElem_extractLsb']
  grind

theorem unpackM_word (o : FmtM) : unpackM (word opc h (packM o)) = o := by
  obtain ⟨dd, ds, dvf, svf, cls, rsv⟩ := o
  simp only [unpackM, packM, slice, word, FmtM.mk.injEq]
  refine ⟨?_, ?_, ?_, ?_, ?_, ?_⟩ <;> ext k hk <;>
    rw [BitVec.getElem_extractLsb', BitVec.getLsbD_append] <;> simp only [BitVec.getLsbD_append] <;> grind

theorem packM_unpackM : packM (unpackM w) = slice w 0 48 := by
  ext k hk
  simp only [unpackM, packM, slice]
  rw [BitVec.getElem_append]
  simp only [BitVec.getElem_append, BitVec.getElem_extractLsb']
  grind

theorem unpackQ_word (o : FmtQ) : unpackQ (word opc h (packQ o)) = o := by
  obtain ⟨ev, sem, vf, tmask, src, rsv, n⟩ := o
  simp only [unpackQ, packQ, slice, word, FmtQ.mk.injEq]
  refine ⟨?_, ?_, ?_, ?_, ?_, ?_, ?_⟩ <;> ext k hk <;>
    rw [BitVec.getElem_extractLsb', BitVec.getLsbD_append] <;> simp only [BitVec.getLsbD_append] <;> grind

theorem packQ_unpackQ : packQ (unpackQ w) = slice w 0 48 := by
  ext k hk
  simp only [unpackQ, packQ, slice]
  rw [BitVec.getElem_append]
  simp only [BitVec.getElem_append, BitVec.getElem_extractLsb']
  grind

theorem unpackC_word (o : FmtC) : unpackC (word opc h (packC o)) = o := by
  obtain ⟨ra, rb, rsv, off⟩ := o
  simp only [unpackC, packC, slice, word, FmtC.mk.injEq]
  refine ⟨?_, ?_, ?_, ?_⟩ <;> ext k hk <;>
    rw [BitVec.getElem_extractLsb', BitVec.getLsbD_append] <;> simp only [BitVec.getLsbD_append] <;> grind

theorem packC_unpackC : packC (unpackC w) = slice w 0 48 := by
  ext k hk
  simp only [unpackC, packC, slice]
  rw [BitVec.getElem_append]
  simp only [BitVec.getElem_append, BitVec.getElem_extractLsb']
  grind

end

/-! ## Opcodes (R128, R173) -/

/-- A word spells what it is built from: its opcode, its shared fields and the operands packed in it. -/
theorem word_of_fields {w : BitVec 128} {n : Nat} {p : BitVec 48} (hopc : (slice w 120 8).toNat = n) (hp : p = slice w 0 48) :
    word (BitVec.ofNat 8 n) (hdrOf w) p = w := by
  rw [← hopc, BitVec.ofNat_toNat, BitVec.setWidth_eq, hp, word_fields]

theorem decodeInstr_encodeInstr {i : Instr} {f : Fin 6} {w : BitVec 128} (hf : instrFace i = some f)
    (hw : encodeInstr i = some w) : decodeInstr f w = i := by
  cases i <;> cases hf <;> cases hw <;> unfold decodeInstr <;> rw [slice_word_opcode, hdrOf_word] <;> conv_lhs => whnf
  all_goals simp only [unpackA_word, unpackD_word, unpackT_word, unpackM_word, unpackQ_word, unpackC_word]

theorem encodeInstr_decodeInstr (f : Fin 6) {w : BitVec 128} (hw : (slice w 120 8).toNat ∈ assignedOpcodes) :
    encodeInstr (decodeInstr f w) = some w := by
  unfold decodeInstr
  split
  case h_78 =>
    simp only [assignedOpcodes, List.mem_filter, List.mem_range, List.contains_eq_mem, List.mem_cons, Bool.or_eq_true,
      Bool.and_eq_true, decide_eq_true_eq, beq_iff_eq, Bool.not_eq_true', decide_eq_false_iff_not, List.not_mem_nil] at hw
    grind
  all_goals
    rename_i hopc
    simp only [encodeInstr, packA_unpackA, packD_unpackD, packT_unpackT, packM_unpackM, packQ_unpackQ, packC_unpackC]
    exact congrArg some (word_of_fields hopc rfl)

theorem decodeInstr_reserved (f : Fin 6) {w : BitVec 128} (hw : (slice w 120 8).toNat ∉ assignedOpcodes) :
    decodeInstr f w = .illOpc f (hdrOf w) := by
  unfold decodeInstr
  split
  case h_78 => rfl
  all_goals
    rename_i hopc
    rw [hopc] at hw
    exact absurd (by decide) hw

/-- Settles O7: each field of a word is read back, and the fields of any word, put together, are that word. -/
theorem decodeAndEncodeAgree : Obligations.DecodeAndEncodeAgree :=
  ⟨fun _ _ _ hf hw => decodeInstr_encodeInstr hf hw,
    fun f w => ⟨fun hw => encodeInstr_decodeInstr f hw, fun hw => ⟨hdrOf w, decodeInstr_reserved f hw⟩⟩⟩

/-- Settles O8: the words written out are closed terms, so the decoder is evaluated on them. -/
theorem wordsFromTheEncodingTables : Obligations.WordsFromTheEncodingTables := by
  unfold Obligations.WordsFromTheEncodingTables
  decide

end Sys2Proof.Machine

namespace Sys2Proof.Machine

/-! # Instructions that complete as they issue (R105, R109, R129, R130, R134) -/

section
variable {s : State} {f : Nat} {h : Hdr} {c : Instr} {g : FaceSt → FaceSt}

/-- The instruction changes g, d and s registers and STREAM of its Face only. -/
def writesOwn (g : FaceSt → FaceSt) : Prop := ∀ x, ∃ a b c st, g x = { x with
  g := a
  d := b
  s := c
  stream := st }

theorem writesRegs.own (hg : writesRegs g) : writesOwn g := fun x => by
  obtain ⟨a, b, c, hx⟩ := hg x
  exact ⟨a, b, c, x.stream, hx⟩

theorem id_writesOwn : writesOwn id := fun x => ⟨x.g, x.d, x.s, x.stream, rfl⟩

/-- The registers are what `g` makes of them, and the instruction has retired. -/
theorem retire_kept (hg : writesOwn g) (hi : canIssue s f h = true) :
    let x := g ((s.beginIssue f).face f)
    let t := (s.beginIssue f).retire f h g
    (∀ n, (t.face f).gReg n = x.gReg n) ∧ (∀ n, (t.face f).dReg n = x.dReg n) ∧ (∀ n, (t.face f).sReg n = x.sReg n) ∧
      (t.face f).stream = x.stream ∧ retired f h s t ∧ outsideKept f s t := by
  obtain ⟨a, b, sc, st, hregs⟩ := hg ((s.beginIssue f).face f)
  obtain ⟨⟨e, hface⟩, hsig, hmem, hrd, hfaces⟩ := (s.beginIssue f).retire_spec f h g (by rw [hregs]) (by rw [hregs]) (by rw [hregs])
  refine ⟨?_, ?_, ?_, ?_, ⟨?_, ?_, ?_, fun n => ?_⟩, fun k => ?_, fun a ha => ?_, fun x hx => ?_⟩
  · rw [hface]
    exact fun _ => rfl
  · rw [hface]
    exact fun _ => rfl
  · rw [hface]
    exact fun _ => rfl
  · rw [hface]
  · rw [hface, hregs]
    exact congrArg (· + 1) (State.beginIssue_pc ..)
  · rw [hface, hregs]
    exact State.beginIssue_window ..
  · rw [hface, hregs]
    exact (State.beginIssue_running ..).trans (canIssue_running hi)
  · rw [hsig n, State.beginIssue_evCtr]
  · rw [hmem k, State.beginIssue_loadByte]
  · rw [hrd a ha, State.beginIssue_rd]
  · rw [hfaces x hx, State.beginIssue_face_ne (hg := hx)]

/-- An instruction that changes nothing but the PC and its signal's counter. -/
theorem retire_id (hi : canIssue s f h = true) :
    let t := (s.beginIssue f).retire f h id
    regsKeptBut f 32 64 16 s t ∧ retired f h s t ∧ outsideKept f s t := by
  obtain ⟨hg, hd, hs, -, hret⟩ := retire_kept id_writesOwn hi
  exact ⟨⟨fun n _ => (hg n).trans (State.beginIssue_gReg ..), fun n _ => (hd n).trans (State.beginIssue_dReg ..),
    fun n _ => (hs n).trans (State.beginIssue_sReg ..)⟩, hret⟩

theorem FaceSt.setG_d (x : FaceSt) (r : Nat) (v : Word) : (x.setG r v).d = x.d := by
  unfold FaceSt.setG
  split <;> rfl

theorem FaceSt.setG_s (x : FaceSt) (r : Nat) (v : Word) : (x.setG r v).s = x.s := by
  unfold FaceSt.setG
  split <;> rfl

/-- A g register written as the instruction retires; g0 stays 0 (R105). -/
theorem retire_setG {r : BitVec 5} {v : FaceSt → Word} (hi : canIssue s f h = true) :
    let t := (s.beginIssue f).retire f h fun x => x.setG r.toNat (v x)
    (t.face f).gReg r.toNat = (if r = 0 then 0 else v ((s.beginIssue f).face f)) ∧
      regsKeptBut f r.toNat 64 16 s t ∧ retired f h s t ∧ outsideKept f s t := by
  obtain ⟨hg, hd, hs, -, hret⟩ := retire_kept (g := fun x => x.setG r.toNat (v x)) (writesRegs.own fun x => setG_writesRegs _ _ x) hi
  refine ⟨?_, ⟨fun n hn => ?_, fun n _ => ?_, fun n _ => ?_⟩, hret⟩
  · rw [hg, FaceSt.gReg_setG]
    by_cases h0 : r = 0
    · rw [h0]
      rfl
    · have hne : r.toNat ≠ 0 := fun e => h0 (BitVec.eq_of_toNat_eq e)
      rw [if_pos ⟨rfl, hne⟩, if_neg h0]
  · rw [hg, FaceSt.gReg_setG, if_neg (fun e => hn e.1), State.beginIssue_gReg]
  · rw [hd, FaceSt.dReg, FaceSt.setG_d, ← FaceSt.dReg, State.beginIssue_dReg]
  · rw [hs, FaceSt.sReg, FaceSt.setG_s, ← FaceSt.sReg, State.beginIssue_sReg]

/-- A descriptor register written as the instruction retires. -/
theorem retire_setD {r : Nat} {v : FaceSt → BitVec 256} (hi : canIssue s f h = true) :
    let t := (s.beginIssue f).retire f h fun x => x.setD r (v x)
    (t.face f).dReg r = v ((s.beginIssue f).face f) ∧ regsKeptBut f 32 r 16 s t ∧ retired f h s t ∧ outsideKept f s t := by
  obtain ⟨hg, hd, hs, -, hret⟩ := retire_kept (g := fun x => x.setD r (v x)) (writesRegs.own fun x => setD_writesRegs _ _ x) hi
  refine ⟨?_, ⟨fun n _ => ?_, fun n hn => ?_, fun n _ => ?_⟩, hret⟩
  · rw [hd, FaceSt.dReg_setD, if_pos rfl]
  · rw [hg, FaceSt.gReg, FaceSt.setD_g, ← FaceSt.gReg, State.beginIssue_gReg]
  · rw [hd, FaceSt.dReg_setD, if_neg hn, State.beginIssue_dReg]
  · rw [hs, FaceSt.sReg, FaceSt.setD_s, ← FaceSt.sReg, State.beginIssue_sReg]

/-- A scale register written as the instruction retires. -/
theorem retire_setS {r : Nat} {v : FaceSt → BitVec 128} (hi : canIssue s f h = true) :
    let t := (s.beginIssue f).retire f h fun x => x.setS r (v x)
    (t.face f).sReg r = v ((s.beginIssue f).face f) ∧ regsKeptBut f 32 64 r s t ∧ retired f h s t ∧ outsideKept f s t := by
  obtain ⟨hg, hd, hs, -, hret⟩ := retire_kept (g := fun x => x.setS r (v x)) (writesRegs.own fun x => setS_writesRegs _ _ x) hi
  refine ⟨?_, ⟨fun n _ => ?_, fun n _ => ?_, fun n hn => ?_⟩, hret⟩
  · rw [hs, FaceSt.sReg_setS, if_pos rfl]
  · rw [hg, FaceSt.gReg, FaceSt.setS_g, ← FaceSt.gReg, State.beginIssue_gReg]
  · rw [hd, FaceSt.dReg, FaceSt.setS_d, ← FaceSt.dReg, State.beginIssue_dReg]
  · rw [hs, FaceSt.sReg_setS, if_neg hn, State.beginIssue_sReg]

/-- An instruction whose check passes, and whose whole effect is to retire. -/
theorem issue_retire {chk : Chk} {g : State → FaceSt → FaceSt} (hexec : exec c s = issue s f h chk fun u => .next (u.retire f h (g u)))
    (hi : canIssue s f h = true) (hc : chk = .pass) : exec c s = .next ((s.beginIssue f).retire f h (g (s.beginIssue f))) :=
  hexec.trans (issue_pass hi hc)

end

/-! ## The two-source scalar instructions (R127, R129) -/

section
variable (a b : Word)

theorem opAdd_eq : opAdd a b = BitVec.ofNat 64 (a.toNat + b.toNat) := BitVec.add_def ..

theorem opSub_eq : opSub a b = BitVec.ofInt 64 (a.toInt - b.toInt) := by
  apply BitVec.eq_of_toInt_eq
  rw [opSub, BitVec.toInt_sub, BitVec.toInt_ofInt]

theorem opSll_eq : opSll a b = BitVec.ofNat 64 (a.toNat * 2 ^ (b.toNat % 64)) := by
  apply BitVec.eq_of_toNat_eq
  rw [opSll, BitVec.toNat_shiftLeft, Nat.shiftLeft_eq, BitVec.toNat_ofNat]

theorem opSrl_eq : opSrl a b = BitVec.ofNat 64 (a.toNat / 2 ^ (b.toNat % 64)) := by
  apply BitVec.eq_of_toNat_eq
  rw [opSrl, BitVec.toNat_ushiftRight, Nat.shiftRight_eq_div_pow, BitVec.toNat_ofNat,
    Nat.mod_eq_of_lt ((Nat.div_le_self ..).trans_lt a.isLt)]

theorem opSra_eq : opSra a b = BitVec.ofInt 64 (a.toInt / 2 ^ (b.toNat % 64)) := by
  rw [opSra, BitVec.sshiftRight, Int.shiftRight_eq_div_pow]
  norm_cast

theorem opMul_eq : opMul a b = BitVec.ofNat 64 (a.toNat * b.toNat) := BitVec.mul_def ..

theorem opMin_eq : opMin a b = BitVec.ofInt 64 (min a.toInt b.toInt) := by
  rw [opMin, BitVec.slt, Int.min_def]
  by_cases h : a.toInt < b.toInt
  · rw [if_pos (decide_eq_true h), if_pos h.le, BitVec.ofInt_toInt]
  · rw [if_neg (by simpa using h)]
    split
    · rw [BitVec.ofInt_toInt]
      exact BitVec.eq_of_toInt_eq (by omega)
    · rw [BitVec.ofInt_toInt]

theorem opMax_eq : opMax a b = BitVec.ofInt 64 (max a.toInt b.toInt) := by
  rw [opMax, BitVec.slt, Int.max_def]
  by_cases h : a.toInt < b.toInt
  · rw [if_pos (decide_eq_true h), if_pos h.le, BitVec.ofInt_toInt]
  · rw [if_neg (by simpa using h)]
    split
    · rw [BitVec.ofInt_toInt]
      exact BitVec.eq_of_toInt_eq (by omega)
    · rw [BitVec.ofInt_toInt]

theorem opSlt_eq : opSlt a b = if a.toInt < b.toInt then 1 else 0 := by
  rw [opSlt, BitVec.slt]
  simp only [decide_eq_true_eq]

theorem opSltu_eq : opSltu a b = if a.toNat < b.toNat then 1 else 0 := by
  rw [opSltu, BitVec.ult]
  simp only [decide_eq_true_eq]

theorem opDivu_eq : opDivu a b = if b.toNat = 0 then BitVec.allOnes 64 else BitVec.ofNat 64 (a.toNat / b.toNat) := by
  rw [opDivu]
  by_cases h : b = 0
  · rw [if_pos h, h]
    rfl
  · rw [if_neg h, if_neg (fun h0 => h (BitVec.eq_of_toNat_eq h0) : ¬b.toNat = 0)]
    apply BitVec.eq_of_toNat_eq
    rw [BitVec.toNat_udiv, BitVec.toNat_ofNat, Nat.mod_eq_of_lt ((Nat.div_le_self ..).trans_lt a.isLt)]

end

/-- Each row of R129's table is the operation of its instruction. -/
theorem scalarRows_exec (f : Fin 6) (h : Hdr) (o : FmtA) (s : State) :
    ∀ p ∈ scalarRows, exec (p.1 f h o) s = scalar2 p.2 f h o s := by
  simp only [scalarRows, List.forall_mem_cons]
  refine ⟨?_, ?_, rfl, rfl, rfl, ?_, ?_, ?_, ?_, rfl, ?_, ?_, ?_, ?_, ?_, fun _ hp => absurd hp List.not_mem_nil⟩
  · exact congrArg (scalar2 · f h o s) (funext₂ opAdd_eq)
  · exact congrArg (scalar2 · f h o s) (funext₂ opSub_eq)
  · exact congrArg (scalar2 · f h o s) (funext₂ opSll_eq)
  · exact congrArg (scalar2 · f h o s) (funext₂ opSrl_eq)
  · exact congrArg (scalar2 · f h o s) (funext₂ opSra_eq)
  · exact congrArg (scalar2 · f h o s) (funext₂ opMul_eq)
  · exact congrArg (scalar2 · f h o s) (funext₂ opMin_eq)
  · exact congrArg (scalar2 · f h o s) (funext₂ opMax_eq)
  · exact congrArg (scalar2 · f h o s) (funext₂ opSlt_eq)
  · exact congrArg (scalar2 · f h o s) (funext₂ opSltu_eq)
  · exact congrArg (scalar2 · f h o s) (funext₂ opDivu_eq)

theorem fmtAOk_iff {o : FmtA} : fmtAOk o = true ↔ reservedA o := by
  unfold fmtAOk reservedA
  split <;> exact beq_iff_eq

theorem opB_beginIssue (s : State) (f : Nat) (o : FmtA) : opB ((s.beginIssue f).face f) o = secondOperand (s.face f) o := by
  rw [opB, secondOperand, State.beginIssue_gReg]

/-- Settles O11: every row of the table retires with its g register written. -/
theorem scalarInstructionResults : Obligations.ScalarInstructionResults := by
  intro p hp f h o s hi hres
  have hexec := (scalarRows_exec f h o s p hp).trans (issue_pass hi (Chk.need_eq_pass.mpr (fmtAOk_iff.mpr hres)))
  refine ⟨_, hexec, ?_⟩
  have hval := retire_setG (r := o.rd) (v := fun x => p.2 (x.gReg o.ra.toNat) (opB x o)) hi
  rwa [State.beginIssue_gReg, opB_beginIssue] at hval

/-! ## Immediates, front-end values, descriptors and scale registers (R109, R127, R130) -/

section
variable {s : State} {f : Fin 6} {h : Hdr} {x : BitVec 6} {ra fl : BitVec 5}

theorem reserved_immediate {rd ra : BitVec 5} {i : BitVec 1} {imm : BitVec 32} (hok : i = 1 ∨ imm = 0) :
    fmtAOk ⟨rd, ra, 0, i, imm⟩ = true := by
  unfold fmtAOk
  split
  · rfl
  · exact beq_iff_eq.mpr (hok.resolve_left ‹_›)

theorem li_completes {rd : BitVec 5} {i : BitVec 1} {imm : BitVec 32} (hi : canIssue s f h = true) (hok : i = 1 ∨ imm = 0) :
    completes (.li f h ⟨rd, 0, 0, i, imm⟩) s fun t =>
      (t.face f).gReg rd.toNat = (if rd = 0 then 0 else imm.signExtend 64) ∧
      regsKeptBut f rd.toNat 64 16 s t ∧ retired f h s t ∧ outsideKept f s t := by
  have hexec := issue_retire (show exec (.li f h ⟨rd, 0, 0, i, imm⟩) s = execLi f h _ s from rfl) hi
    (Chk.need_eq_pass.mpr (by rw [reserved_immediate hok]; rfl))
  exact ⟨_, hexec, retire_setG hi⟩

theorem lih_completes {rd : BitVec 5} {i : BitVec 1} {imm : BitVec 32} (hi : canIssue s f h = true) (hok : i = 1 ∨ imm = 0) :
    completes (.lih f h ⟨rd, 0, 0, i, imm⟩) s fun t =>
      ((t.face f).gReg rd.toNat).toNat = (if rd = 0 then 0 else imm.toNat * 2 ^ 32 + ((s.face f).gReg rd.toNat).toNat % 2 ^ 32) ∧
      regsKeptBut f rd.toNat 64 16 s t ∧ retired f h s t ∧ outsideKept f s t := by
  have hexec := issue_retire (show exec (.lih f h ⟨rd, 0, 0, i, imm⟩) s = execLih f h _ s from rfl) hi
    (Chk.need_eq_pass.mpr (by rw [reserved_immediate hok]; rfl))
  obtain ⟨hval, hrest⟩ := retire_setG (r := rd) (v := fun x => imm ++ (x.gReg rd.toNat).setWidth 32) hi
  refine ⟨_, hexec, ?_, hrest⟩
  rw [hval, State.beginIssue_gReg]
  split
  · rfl
  · rw [BitVec.toNat_append, BitVec.toNat_setWidth, ← Nat.shiftLeft_add_eq_or_of_lt (Nat.mod_lt _ (Nat.two_pow_pos 32)),
      Nat.shiftLeft_eq]

/-- The front-end values of R109, in the order of their selectors. -/
theorem frontEnd_getD (s : State) (f : Nat) {n : Nat} (hn : n < 5) : (frontEnd s f n).getD 0 =
    [BitVec.ofNat 64 (s.face f).vf, BitVec.ofNat 64 (s.nvf f), BitVec.ofNat 64 (s.face f).cmdno,
      BitVec.ofNat 64 ((s.face f).jstep.getD 0), BitVec.ofNat 64 ((s.face f).stream % 2 ^ 32)].getD n 0 := by
  interval_cases n <;> rfl

theorem State.beginIssue_nvf (s : State) (f : Nat) : (s.beginIssue f).nvf f = s.nvf f := by
  simp only [State.nvf, State.job, State.beginIssue_jobs, State.beginIssue_job]

theorem State.beginIssue_cmdno (s : State) (f : Nat) : ((s.beginIssue f).face f).cmdno = (s.face f).cmdno := by
  obtain ⟨t, j, h⟩ := s.beginIssue_face f
  rw [h]

theorem State.beginIssue_stream (s : State) (f : Nat) : ((s.beginIssue f).face f).stream = (s.face f).stream := by
  obtain ⟨t, j, h⟩ := s.beginIssue_face f
  rw [h]

theorem rdst_completes {rd : BitVec 5} {i : BitVec 1} {n : Nat} (hi : canIssue s f h = true) (hn : n < 5) (hok : i = 1 ∨ n = 0) :
    completes (.rdst f h ⟨rd, 0, 0, i, BitVec.ofNat 32 n⟩) s fun t =>
      (t.face f).gReg rd.toNat = (if rd = 0 then 0 else
        [BitVec.ofNat 64 (s.face f).vf, BitVec.ofNat 64 (s.nvf f), BitVec.ofNat 64 (s.face f).cmdno,
          BitVec.ofNat 64 (((s.beginIssue f).face f).jstep.getD 0), BitVec.ofNat 64 ((s.face f).stream % 2 ^ 32)].getD n 0) ∧
      regsKeptBut f rd.toNat 64 16 s t ∧ retired f h s t ∧ outsideKept f s t := by
  have himm : (BitVec.ofNat 32 n).toNat = n := BitVec.toNat_ofNat n 32 ▸ Nat.mod_eq_of_lt (by omega)
  have hfields : fmtAOk ⟨rd, 0, 0, i, BitVec.ofNat 32 n⟩ = true :=
    reserved_immediate (hok.imp id fun h0 => congrArg (BitVec.ofNat 32) h0)
  have hexec := issue_retire (show exec (.rdst f h ⟨rd, 0, 0, i, BitVec.ofNat 32 n⟩) s = execRdst f h _ s from rfl) hi
    (Chk.need_eq_pass.mpr (by rw [hfields, himm]; exact decide_eq_true (Nat.le_of_lt_succ hn)))
  obtain ⟨hval, hrest⟩ := retire_setG (r := rd) (v := fun _ => (frontEnd (s.beginIssue f) f (BitVec.ofNat 32 n).toNat).getD 0) hi
  refine ⟨_, hexec, ?_, hrest⟩
  rw [hval, himm, frontEnd_getD _ _ hn, State.beginIssue_vf, State.beginIssue_nvf, State.beginIssue_cmdno, State.beginIssue_stream]

theorem wrst_completes {r : BitVec 5} (hi : canIssue s f h = true) : completes (.wrst f h ⟨0, r, 0, 1, 4⟩) s fun t =>
    (t.face f).stream = ((s.face f).gReg r.toNat).toNat % 2 ^ 32 ∧
      regsKeptBut f 32 64 16 s t ∧ retired f h s t ∧ outsideKept f s t := by
  have hexec := issue_retire (show exec (.wrst f h ⟨0, r, 0, 1, 4⟩) s = execWrst f h _ s from rfl) hi rfl
  obtain ⟨hg, hd, hs, hst, hret⟩ := retire_kept (g := fun x => { x with stream := (x.gReg r.toNat).toNat % 2 ^ 32 })
    (fun x => ⟨x.g, x.d, x.s, _, rfl⟩) hi
  refine ⟨_, hexec, ?_, ⟨fun n _ => (hg n).trans (State.beginIssue_gReg ..), fun n _ => (hd n).trans (State.beginIssue_dReg ..),
    fun n _ => (hs n).trans (State.beginIssue_sReg ..)⟩, hret⟩
  rw [hst, State.beginIssue_gReg]

/-- With I = 0, an IMM that is not 0 is a reserved field (R127). -/
theorem immediate_illOperand {rd : BitVec 5} {imm : BitVec 32} (hi : canIssue s f h = true) (himm : imm ≠ 0) :
    ∀ c ∈ [Instr.li f h ⟨rd, 0, 0, 0, imm⟩, .lih f h ⟨rd, 0, 0, 0, imm⟩, .rdst f h ⟨rd, 0, 0, 0, imm⟩, .wrst f h ⟨0, rd, 0, 0, imm⟩],
      exec c s = .next (s.takeExc f illOperand true (s.face f).pc) := by
  have hok : ∀ a b : BitVec 5, fmtAOk ⟨a, b, 0, 0, imm⟩ = false := fun a b => beq_eq_false_iff_ne.mpr himm
  simp only [List.forall_mem_cons]
  refine ⟨?_, ?_, ?_, ?_, fun _ hc => absurd hc List.not_mem_nil⟩
  · show execLi .. = _
    rw [execLi, hok]
    exact issue_exc hi
  · show execLih .. = _
    rw [execLih, hok]
    exact issue_exc hi
  · show execRdst .. = _
    rw [execRdst, hok]
    exact issue_exc hi
  · show execWrst .. = _
    rw [execWrst, hok]
    exact issue_exc hi

theorem dsetf_completes {hi lo : Nat} (hiss : canIssue s f h = true) (hfield : descField fl.toNat = some (hi, lo)) :
    completes (.dsetf f h ⟨x, 0, ra, fl, 0⟩) s fun t =>
      (t.face f).dReg x.toNat = BitVec.ofNat 256 (putBits ((s.face f).dReg x.toNat).toNat hi lo ((s.face f).gReg ra.toNat).toNat) ∧
      regsKeptBut f 32 x.toNat 16 s t ∧ retired f h s t ∧ outsideKept f s t := by
  have hexec : exec (.dsetf f h ⟨x, 0, ra, fl, 0⟩) s = execDsetf f h ⟨x, 0, ra, fl, 0⟩ s := rfl
  simp only [execDsetf, hfield] at hexec
  have hret := issue_retire hexec hiss rfl
  refine ⟨_, hret, ?_⟩
  have hval := retire_setD (r := x.toNat) (v := fun y => BitVec.ofNat 256 (putBits (y.dReg x.toNat).toNat hi lo (y.gReg ra.toNat).toNat)) hiss
  rwa [State.beginIssue_dReg, State.beginIssue_gReg] at hval

theorem dadd_completes {hi lo : Nat} (hiss : canIssue s f h = true) (hfield : descField fl.toNat = some (hi, lo))
    (h4 : 4 ≤ fl.toNat) (h8 : fl.toNat ≤ 8) : completes (.dadd f h ⟨x, 0, ra, fl, 0⟩) s fun t =>
      (t.face f).dReg x.toNat = BitVec.ofNat 256 (putBits ((s.face f).dReg x.toNat).toNat hi lo
        (bits ((s.face f).dReg x.toNat).toNat hi lo + ((s.face f).gReg ra.toNat).toNat)) ∧
      regsKeptBut f 32 x.toNat 16 s t ∧ retired f h s t ∧ outsideKept f s t := by
  have hexec : exec (.dadd f h ⟨x, 0, ra, fl, 0⟩) s = execDadd f h ⟨x, 0, ra, fl, 0⟩ s := rfl
  simp only [execDadd, hfield] at hexec
  have hret := issue_retire hexec hiss (by simp [h4, h8, Chk.need])
  refine ⟨_, hret, ?_⟩
  have hval := retire_setD (r := x.toNat) 
    (v := fun y => BitVec.ofNat 256 (putBits (y.dReg x.toNat).toNat hi lo (bits (y.dReg x.toNat).toNat hi lo + (y.gReg ra.toNat).toNat))) hiss
  rwa [State.beginIssue_dReg, State.beginIssue_gReg] at hval

theorem dcpy_completes {y : BitVec 6} (hi : canIssue s f h = true) : completes (.dcpy f h ⟨x, y, 0, 0, 0⟩) s fun t =>
      (t.face f).dReg x.toNat = (s.face f).dReg y.toNat ∧
      regsKeptBut f 32 x.toNat 16 s t ∧ retired f h s t ∧ outsideKept f s t := by
  have hexec := issue_retire (show exec (.dcpy f h ⟨x, y, 0, 0, 0⟩) s = execDcpy f h _ s from rfl) hi rfl
  refine ⟨_, hexec, ?_⟩
  have hval := retire_setD (r := x.toNat) (v := fun z => z.dReg y.toNat) hi
  rwa [State.beginIssue_dReg] at hval

theorem ssetf_completes {hi lo : Nat} (hiss : canIssue s f h = true) (hfield : scaleField fl.toNat = some (hi, lo))
    (hx : x.toNat < 16) : completes (.ssetf f h ⟨x, 0, ra, fl, 0⟩) s fun t =>
      (t.face f).sReg x.toNat = BitVec.ofNat 128 (putBits ((s.face f).sReg x.toNat).toNat hi lo ((s.face f).gReg ra.toNat).toNat) ∧
      regsKeptBut f 32 64 x.toNat s t ∧ retired f h s t ∧ outsideKept f s t := by
  have hexec : exec (.ssetf f h ⟨x, 0, ra, fl, 0⟩) s = execSsetf f h ⟨x, 0, ra, fl, 0⟩ s := rfl
  simp only [execSsetf, hfield] at hexec
  have hret := issue_retire hexec hiss (by simp [hx, Chk.need])
  refine ⟨_, hret, ?_⟩
  have hval := retire_setS (r := x.toNat)
    (v := fun y => BitVec.ofNat 128 (putBits (y.sReg x.toNat).toNat hi lo (y.gReg ra.toNat).toNat)) hiss
  rwa [State.beginIssue_sReg, State.beginIssue_gReg] at hval

end

/-- Settles O12, instruction by instruction. -/
theorem immediateFrontEndAndDescriptorValues : Obligations.ImmediateFrontEndAndDescriptorValues := by
  refine ⟨fun f h rd i imm s hi => ⟨fun hok => ⟨li_completes hi hok, lih_completes hi hok⟩, fun n hn hok => rdst_completes hi hn hok,
    wrst_completes hi, fun hi0 himm hs hfree c hc => ?_⟩, fun f h x y ra fl s hi => ⟨fun _ _ hfield => dsetf_completes hi hfield,
      fun _ _ hfield h4 h8 => dadd_completes hi hfield h4 h8, dcpy_completes hi, fun _ _ hfield hx => ssetf_completes hi hfield hx⟩⟩
  subst hi0
  exact ⟨_, immediate_illOperand hi himm c hc, (s.takeExc_spec f.isLt (hs.job_lt f) hfree (by decide)).1⟩

/-! ## Control transfers (R134) -/

section
variable {s : State} {f : Fin 6} {h : Hdr} {ra rb : BitVec 5} {off : BitVec 32}

/-- Face `f` goes on at `pc`; of its registers only g[`g`] may have changed, and the instruction's signal is counted. -/
def goesOn (f : Nat) (h : Hdr) (g pc : Nat) (s t : State) : Prop :=
  (t.face f).pc = pc ∧ regsKeptBut f g 64 16 s t ∧ signalled f h s t ∧ outsideKept f s t ∧
    (t.face f).window = (s.face f).window ∧ (t.face f).running = true

theorem goesOn_of_retired {g : Nat} {t : State} (hregs : regsKeptBut f g 64 16 s t) (hret : retired f h s t) (hout : outsideKept f s t) :
    goesOn f h g ((s.face f).pc + 1) s t := by
  obtain ⟨hpc, hwindow, hrun, hsig⟩ := hret
  exact ⟨hpc, hregs, hsig, hout, hwindow, hrun⟩

theorem State.retire_codeLen (s : State) (f : Nat) (h : Hdr) {g : FaceSt → FaceSt} (hg : writesOwn g) :
    (s.retire f h g).codeLen f = s.codeLen f := by
  obtain ⟨_, _, _, _, hregs⟩ := hg (s.face f)
  have hkept : ∀ t : State, (t.signal f (sigOf h)).codeLen f = t.codeLen f := fun t => by
    cases sigOf h with
    | none => rfl
    | some n =>
      rcases t.evAdd_cases f n 1 with ⟨e, he⟩ | ⟨j, v, i, c, he⟩
      · simp [State.signal, he, State.codeLen]
      · simp [State.signal, he, State.codeLen]
  rw [State.retire, hkept, hregs]
  simp [State.codeLen, State.advance]

theorem State.beginIssue_codeLen (s : State) (f : Nat) : (s.beginIssue f).codeLen f = s.codeLen f := by
  simp only [State.codeLen, State.job, State.beginIssue_jobs, State.beginIssue_job]

/-- A target inside the code section: the PC moves there, and nothing else changes. -/
theorem goesOn.jump {g pc : Nat} {u : State} {target : Word} (hu : goesOn f h g pc s u) (htarget : target.toNat < u.codeLen f) :
    goesOn f h g target.toNat s (jumpTo u f target) := by
  obtain ⟨-, ⟨hg, hd, hs⟩, hsig, ⟨hmem, hrd, hfaces⟩, hwindow, hrun⟩ := hu
  rw [jumpTo, if_pos htarget]
  refine ⟨?_, ⟨fun n hn => ?_, fun n hn => ?_, fun n hn => ?_⟩, fun n => ?_, ⟨fun k => ?_, fun a ha => ?_, fun x hx => ?_⟩, ?_, ?_⟩
  · rw [State.face_setFace, if_pos rfl]
  · rw [State.face_setFace, if_pos rfl, ← hg n hn]
    rfl
  · rw [State.face_setFace, if_pos rfl, ← hd n hn]
    rfl
  · rw [State.face_setFace, if_pos rfl, ← hs n hn]
    rfl
  · exact (State.evCtr_setFace (x := { u.face f with pc := target.toNat }) rfl rfl rfl n).trans (hsig n)
  · rw [State.setFace_loadByte, hmem k]
  · rw [State.setFace_rd, hrd a ha]
  · rw [State.face_setFace, if_neg hx, hfaces x hx]
  · rw [State.face_setFace, if_pos rfl, ← hwindow]
  · rw [State.face_setFace, if_pos rfl, ← hrun]

/-- A jump from an instruction that writes nothing. -/
theorem jump_retired {target : Word} (hi : canIssue s f h = true) (htarget : target.toNat < s.codeLen f) :
    goesOn f h 32 target.toNat s (jumpTo ((s.beginIssue f).retire f h id) f target) := by
  obtain ⟨hregs, hret, hout⟩ := retire_id hi
  exact (goesOn_of_retired hregs hret hout).jump (by rwa [State.retire_codeLen _ _ _ id_writesOwn, State.beginIssue_codeLen])

theorem relTarget_beginIssue (s : State) (f : Nat) (o : FmtC) :
    relTarget ((s.beginIssue f).face f) o = BitVec.ofNat 64 (s.face f).pc + o.off.signExtend 64 := by
  rw [relTarget, State.beginIssue_pc]

theorem bge_eq (a b : Word) : (!a.slt b) = decide (b.toInt ≤ a.toInt) := by
  rw [BitVec.slt, ← decide_not, decide_eq_decide, not_lt]

theorem bgeu_eq (a b : Word) : (!a.ult b) = decide (b.toNat ≤ a.toNat) := by
  rw [BitVec.ult, ← decide_not, decide_eq_decide, not_lt]

/-- Each conditional branch branches on its condition. -/
theorem branchRows_exec (f : Fin 6) (h : Hdr) (o : FmtC) (s : State) :
    ∀ p ∈ branchRows, exec (p.1 f h o) s = branch p.2 (fun _ => true) f h o s := by
  simp only [branchRows, List.forall_mem_cons]
  refine ⟨?_, ?_, rfl, ?_, rfl, ?_, fun _ hp => absurd hp List.not_mem_nil⟩
  · exact congrArg (branch · (fun _ => true) f h o s) (funext₂ fun a b => by by_cases h : a = b <;> simp [h])
  · exact congrArg (branch · (fun _ => true) f h o s) (funext₂ fun a b => by by_cases h : a = b <;> simp [h])
  · exact congrArg (branch · (fun _ => true) f h o s) (funext₂ fun a b => bge_eq a b)
  · exact congrArg (branch · (fun _ => true) f h o s) (funext₂ fun a b => bgeu_eq a b)

theorem branch_taken {c : Word → Word → Bool} {ok : FmtC → Bool} (hi : canIssue s f h = true) (hok : ok ⟨ra, rb, 0, off⟩ = true)
    (hc : c ((s.face f).gReg ra.toNat) ((s.face f).gReg rb.toNat) = true) : branch c ok f h ⟨ra, rb, 0, off⟩ s =
      .next (jumpTo ((s.beginIssue f).retire f h id) f (BitVec.ofNat 64 (s.face f).pc + off.signExtend 64)) := by
  rw [branch, issue_pass hi (Chk.need_eq_pass.mpr (by rw [hok]; rfl))]
  dsimp only
  rw [State.beginIssue_gReg, State.beginIssue_gReg, if_pos hc, relTarget_beginIssue]

theorem branch_notTaken {c : Word → Word → Bool} {ok : FmtC → Bool} (hi : canIssue s f h = true) (hok : ok ⟨ra, rb, 0, off⟩ = true)
    (hc : c ((s.face f).gReg ra.toNat) ((s.face f).gReg rb.toNat) = false) : branch c ok f h ⟨ra, rb, 0, off⟩ s =
      .next ((s.beginIssue f).retire f h id) := by
  rw [branch, issue_pass hi (Chk.need_eq_pass.mpr (by rw [hok]; rfl))]
  dsimp only
  rw [State.beginIssue_gReg, State.beginIssue_gReg, hc, if_neg Bool.false_ne_true]

theorem exec_nop (hi : canIssue s f h = true) : exec (.nop f h ⟨0, 0, 0, 0⟩) s = .next ((s.beginIssue f).retire f h id) := by
  have hexec := issue_retire (show exec (.nop f h ⟨0, 0, 0, 0⟩) s = execNop f h _ s from rfl) hi rfl
  exact hexec

/-- JAL: the link is written, then the PC moves. -/
theorem jal_completes (hi : canIssue s f h = true)
    (htarget : (BitVec.ofNat 64 (s.face f).pc + off.signExtend 64).toNat < s.codeLen f) : completes (.jal f h ⟨ra, 0, 0, off⟩) s fun t =>
      goesOn f h ra.toNat (BitVec.ofNat 64 (s.face f).pc + off.signExtend 64).toNat s t ∧
      (t.face f).gReg ra.toNat = (if ra = 0 then 0 else BitVec.ofNat 64 ((s.face f).pc + 1)) := by
  have hexec : exec (.jal f h ⟨ra, 0, 0, off⟩) s = .next (jumpTo ((s.beginIssue f).retire f h fun x => x.setG ra.toNat
      (BitVec.ofNat 64 ((s.face f).pc + 1))) f (BitVec.ofNat 64 (s.face f).pc + off.signExtend 64)) := by
    show execJal f h _ s = _
    rw [execJal, issue_pass hi (Chk.need_eq_pass.mpr (by rfl))]
    dsimp only
    rw [relTarget_beginIssue, State.beginIssue_pc]
  obtain ⟨hval, hregs, hret, hout⟩ := retire_setG (r := ra) (v := fun _ => BitVec.ofNat 64 ((s.face f).pc + 1)) hi
  have hlen := State.retire_codeLen (s.beginIssue f) f h (g := fun x => x.setG ra.toNat (BitVec.ofNat 64 ((s.face f).pc + 1)))
    (writesRegs.own (setG_writesRegs _ _))
  have hinside := htarget
  rw [← State.beginIssue_codeLen, ← hlen] at hinside
  refine ⟨_, hexec, (goesOn_of_retired hregs hret hout).jump hinside, ?_⟩
  rw [jumpTo, if_pos hinside, State.face_setFace, if_pos rfl, ← hval]
  rfl

theorem exec_jr (hi : canIssue s f h = true) : exec (.jr f h ⟨ra, 0, 0, off⟩) s =
    .next (jumpTo ((s.beginIssue f).retire f h id) f ((s.face f).gReg ra.toNat + off.signExtend 64)) := by
  show execJr f h _ s = _
  rw [execJr, issue_pass hi (Chk.need_eq_pass.mpr (by rfl))]
  dsimp only
  rw [State.beginIssue_gReg]

end

/-- Settles O14: each instruction retires, and a jump inside the code section moves the PC after that. -/
theorem controlTransfers : Obligations.ControlTransfers := by
  intro f h ra rb off s hi rel ind at'
  refine ⟨?_, fun hin => ?_, fun p hp hc hin => ?_, fun p hp hc => ?_, fun hin => jal_completes hi hin, fun hin => ?_⟩
  · obtain ⟨hregs, hret, hout⟩ := retire_id hi
    exact ⟨_, exec_nop hi, goesOn_of_retired hregs hret hout⟩
  · exact ⟨_, (show exec (.br f h ⟨0, 0, 0, off⟩) s = execBr f h _ s from rfl).trans (branch_taken hi rfl rfl), jump_retired hi hin⟩
  · exact ⟨_, (branchRows_exec f h _ s p hp).trans (branch_taken hi rfl hc), jump_retired hi hin⟩
  · obtain ⟨hregs, hret, hout⟩ := retire_id hi
    exact ⟨_, (branchRows_exec f h _ s p hp).trans (branch_notTaken hi rfl hc), goesOn_of_retired hregs hret hout⟩
  · exact ⟨_, exec_jr hi, jump_retired hi hin⟩

end Sys2Proof.Machine

namespace Sys2Proof.Machine

/-! # An instruction that does not issue (R111, R117, R127, R128, R134 to R138) -/

section
variable {s : State} {f : Fin 6} {h : Hdr} {out : Out}
/-- What an instruction of Face `f` with header `h` does is an issue. -/
def isIssue (s : State) (f : Fin 6) (h : Hdr) (out : Out) : Prop := ∃ c a, out = issue s f h c a

theorem scalar2_isIssue (op : Word → Word → Word) (o : FmtA) : isIssue s f h (scalar2 op f h o s) := ⟨_, _, rfl⟩

theorem branch_isIssue (c : Word → Word → Bool) (ok : FmtC → Bool) (o : FmtC) : isIssue s f h (branch c ok f h o s) := ⟨_, _, rfl⟩

theorem issueTensor_isIssue (e : Entering) (chk : Chk) (reads : State → List (Nat × Nat)) (free : State → Nat) (compute : State → TOut)
    (front : State → State) : isIssue s f h (issueTensor s f h e chk reads free compute front) := ⟨_, _, rfl⟩

theorem issueVec_isIssue (ins : Instr) (o : FmtT) (chk : Chk) (val : State → Nat → FmtT → VecSrc) :
    isIssue s f h (issueVec s f h ins o chk val) := by
  unfold issueVec
  exact issueTensor_isIssue ..

theorem issueCopy_isIssue (ins : Instr) (o : FmtT) (chk : Chk) (srcs : List Nat) (isN : Bool) (extra : Nat)
    (more : List (Nat × Bool)) (compute : State → TOut) :
    isIssue s f h (issueCopy s f h ins o chk srcs isN extra more compute) := by
  unfold issueCopy
  exact issueTensor_isIssue ..

theorem moveOut_isIssue (o : FmtM) (ins : Instr) (chk : Chk) (uses : List (Nat × Bool))
    (reads : State → List (Nat × Nat)) (free : Nat) (compute : State → TOut) (remote : State → State) :
    isIssue s f h (moveOut s f h o ins chk uses reads free compute remote) := by
  unfold moveOut
  exact issueTensor_isIssue ..

theorem recIssue_isIssue (chunk : Bool) (ins : Instr) (o : FmtT) : isIssue s f h (recIssue chunk ins f h o s) := by
  unfold recIssue
  exact issueTensor_isIssue ..

theorem execConv_isIssue (o : FmtT) (hs : canIssue s f h = false) : isIssue s f h (execConv f h o s) := by
  simp only [execConv, hs, Bool.false_and, Bool.false_eq_true, if_false]
  exact issueTensor_isIssue ..

theorem execMov_isIssue (o : FmtM) : isIssue s f h (execMov f h o s) := by
  cases hget : s.descRemote f o.ds.toNat
  · simp only [execMov, hget, Bool.false_eq_true, if_false]
    exact moveOut_isIssue ..
  · simp only [execMov, hget, if_true]
    exact moveOut_isIssue ..

theorem exec_isIssue {i : Instr} (hf : instrFace i = some f) : ∃ h, (∀ w, encodeInstr i = some w → hdrOf w = h) ∧
    ∀ s, canIssue s f h = false → isIssue s f h (exec i s) := by
  cases i <;> cases hf <;> refine ⟨_, fun w hw => by cases hw; exact hdrOf_word .., fun s hs => ?_⟩ <;> delta exec <;> dsimp only
  case conv h o => exact execConv_isIssue o hs
  case mov h o => exact execMov_isIssue o
  case add | sub | and | or | xor | sll | srl | sra | mul | mulhu | min | max | slt | sltu | divu => exact scalar2_isIssue ..
  case br | beq | bne | blt | bge | bltu | bgeu => exact branch_isIssue ..
  case mm | ptb | ptl | accout | accin | accz | vew | vtr | vred | vnorm | vsmx | qnt | vrnd | trp | gath | scat | gfa | racc | sexp |
      simp | dgout | dgrd | attn | attnb | kvput | rstep | rchunk | movz =>
    simp only [execMm, execPtb, execPtl, execAccout, execAccin, execAccz, execVew, execVtr, execVred, execVnorm, execVsmx, execQnt,
      execVrnd, execTrp, execGath, execScat, execGfa, execRacc, execSexp, execSimp, execDgout, execDgrd, execAttn, execAttnb,
      execKvput, execRstep, execRchunk, execMovz, issueTensor_isIssue, issueVec_isIssue, issueCopy_isIssue, recIssue_isIssue,
      moveOut_isIssue]
  case sacq h o =>
    unfold execSacq
    exact ⟨_, _, rfl⟩
  case srel h o =>
    unfold execSrel
    exact ⟨_, _, rfl⟩
  all_goals exact ⟨_, _, rfl⟩

/-- Face `f` runs a command and may issue, its END has not issued. -/
def mayIssue (s : State) (f : Nat) : Prop := (s.face f).running = true ∧ (s.face f).ending = false ∧ (s.face f).halted = false

theorem mayIssue_bool (hm : mayIssue s f) : ((s.face f).running && !(s.face f).ending && !(s.face f).halted) = true := by
  obtain ⟨hr, he, hh⟩ := hm
  rw [hr, he, hh]
  rfl

theorem not_mayIssue_bool (hm : (s.face f).running = false ∨ (s.face f).ending = true ∨ (s.face f).halted = true) :
    ((s.face f).running && !(s.face f).ending && !(s.face f).halted) = false := by
  rcases hm with h | h | h <;> simp [h]

theorem canIssue_eq (s : State) (f : Nat) (h : Hdr) : canIssue s f h =
    ((s.face f).running && !(s.face f).ending && !(s.face f).halted && decide ((s.face f).pc < s.codeLen f) &&
      !waitOver (s.face f) h && waitsOk s f h && decide ((s.face f).window.length < 256)) := by
  unfold canIssue State.codeLen
  dsimp only
  cases s.job (s.face f).job with
  | none => simp
  | some jb => rfl

/-- What an instruction that cannot issue does (R111). -/
theorem issue_not {c : Chk} {a : State → Out} (hi : canIssue s f h = false) : issue s f h c a =
    if (s.face f).running && !(s.face f).ending && !(s.face f).halted then
      if decide (s.codeLen f ≤ (s.face f).pc) then .next (s.takeExc f ⟨0x0C, 0⟩ true (s.face f).pc)
      else if waitOver (s.face f) h then .next (s.takeExc f ⟨0x06, 0⟩ true (s.face f).pc)
      else s.noEvent
    else s.noEvent := by
  unfold issue State.codeLen
  dsimp only
  rw [hi, if_neg Bool.false_ne_true]
  cases s.job (s.face f).job with
  | none => simp
  | some jb => rfl

theorem exec_held {i : Instr} (hf : instrFace i = some f)
    (hm : (s.face f).running = false ∨ (s.face f).ending = true ∨ (s.face f).halted = true) : exec i s = .next s := by
  obtain ⟨h, -, hiss⟩ := exec_isIssue hf
  have hi : canIssue s f h = false := by
    rw [canIssue_eq, not_mayIssue_bool hm]
    rfl
  obtain ⟨c, a, hexec⟩ := hiss s hi
  rw [hexec, issue_not hi, not_mayIssue_bool hm, if_neg Bool.false_ne_true]
  rfl

theorem exec_fetchError {i : Instr} (hf : instrFace i = some f) (hm : mayIssue s f) (hpc : s.codeLen f ≤ (s.face f).pc) :
    exec i s = .next (s.takeExc f ⟨0x0C, 0⟩ true (s.face f).pc) := by
  obtain ⟨h, -, hiss⟩ := exec_isIssue hf
  have hi : canIssue s f h = false := by
    rw [canIssue_eq, decide_eq_false (Nat.not_lt.mpr hpc), Bool.and_false]
    rfl
  obtain ⟨c, a, hexec⟩ := hiss s hi
  rw [hexec, issue_not hi, mayIssue_bool hm, if_pos rfl, decide_eq_true hpc, if_pos rfl]

section
variable {i : Instr} {w : BitVec 128} (hf : instrFace i = some f) (hw : encodeInstr i = some w) (hm : mayIssue s f)
  (hpc : (s.face f).pc < s.codeLen f)
include hf hw hm hpc

theorem exec_waitRange (hover : waitOver (s.face f) (hdrOf w) = true) :
    exec i s = .next (s.takeExc f ⟨0x06, 0⟩ true (s.face f).pc) := by
  obtain ⟨h, hh, hiss⟩ := exec_isIssue hf
  rw [hh w hw] at hover
  have hi : canIssue s f h = false := by
    rw [canIssue_eq, hover, Bool.not_true, Bool.and_false]
    rfl
  obtain ⟨c, a, hexec⟩ := hiss s hi
  rw [hexec, issue_not hi, mayIssue_bool hm, if_pos rfl, decide_eq_false (Nat.not_le.mpr hpc), if_neg Bool.false_ne_true, hover,
    if_pos rfl]

theorem exec_waits (hover : waitOver (s.face f) (hdrOf w) = false) (hwait : waitsOk s f (hdrOf w) = false) : exec i s = .next s := by
  obtain ⟨h, hh, hiss⟩ := exec_isIssue hf
  rw [hh w hw] at hover hwait
  have hi : canIssue s f h = false := by
    rw [canIssue_eq, hwait, Bool.and_false]
    rfl
  obtain ⟨c, a, hexec⟩ := hiss s hi
  rw [hexec, issue_not hi, mayIssue_bool hm, if_pos rfl, decide_eq_false (Nat.not_le.mpr hpc), if_neg Bool.false_ne_true, hover,
    if_neg Bool.false_ne_true]
  rfl

end

/-! ## Exceptions at issue -/

theorem exec_illOpc (hi : canIssue s f h = true) : exec (.illOpc f h) s = .next (s.takeExc f ⟨0x01, 0⟩ true (s.face f).pc) := by
  show execIllOpc f h s = _
  rw [execIllOpc, issue_exc hi]

theorem exec_trap {off : BitVec 32} (hi : canIssue s f h = true) (hoff : off.toNat < 65536) : exec (.trap f h ⟨0, 0, 0, off⟩) s =
    .next ((s.beginIssue f).takeExc f ⟨0x0B, off.toNat⟩ true (s.face f).pc) := by
  show execTrap f h _ s = _
  rw [execTrap, issue_pass hi (Chk.need_eq_pass.mpr (by simpa using hoff)), State.beginIssue_pc]

theorem scalar_illOperand {p : (Fin 6 → Hdr → FmtA → Instr) × (Word → Word → Word)} (hp : p ∈ scalarRows) {o : FmtA}
    (hi : canIssue s f h = true) (ho : ¬ reservedA o) : exec (p.1 f h o) s = .next (s.takeExc f illOperand true (s.face f).pc) := by
  have hbad : fmtAOk o = false := Bool.eq_false_iff.mpr fun h => ho (fmtAOk_iff.mp h)
  rw [scalarRows_exec f h o s p hp, scalar2, hbad]
  exact issue_exc hi

/-- An exception taken by an instruction that has just begun to issue is taken from the state before. -/
theorem excTaken_beginIssue {e : Exc} {precise : Bool} {pc : Nat} (hs : s.sound) (hfree : s.flag (Reg.FACE_EXC f) 63 = false)
    (hcode : e.code < 256) : excTaken f e.code precise (pc % 2 ^ 32) s ((s.beginIssue f).takeExc f e precise pc) ∧
      ((s.beginIssue f).takeExc f e precise pc).rd (Reg.FACE_EXCINFO f) = BitVec.ofNat 64 e.info := by
  have hraised : (s.beginIssue f).raised = s.raised := by
    obtain ⟨_, _, _, heq⟩ := s.beginIssue_issueOnly f
    rw [heq]
  have hflag : (s.beginIssue f).flag (Reg.FACE_EXC f) 63 = false := (State.flag_congr (State.beginIssue_rd ..) 63).trans hfree
  obtain ⟨hexc, hinfo⟩ := (s.beginIssue f).takeExc_spec (e := e) (precise := precise) (pc := pc) f.isLt (hs.beginIssue.job_lt f) hflag hcode
  rw [excTaken, hraised] at hexc
  exact ⟨hexc, hinfo⟩

end

/-- Settles O9: an instruction of any opcode is an issue, and an issue that may not go on holds or faults. -/
theorem heldFetchAndReservedInstructions : Obligations.HeldFetchAndReservedInstructions := by
  refine ⟨fun i f s hf hm => exec_held hf hm, fun i f s hf hs hr he hh hpc hfree => ?_, fun f h s hs hi hfree =>
    ⟨?_, fun off hoff => ?_, fun p hp o ho => ?_⟩⟩
  · exact ⟨_, exec_fetchError hf ⟨hr, he, hh⟩ hpc, (s.takeExc_spec f.isLt (hs.job_lt f) hfree (by decide)).1⟩
  · exact ⟨_, exec_illOpc hi, (s.takeExc_spec f.isLt (hs.job_lt f) hfree (by decide)).1⟩
  · obtain ⟨hexc, hinfo⟩ := excTaken_beginIssue (f := f) (e := ⟨0x0B, off.toNat⟩) (precise := true) (pc := (s.face f).pc) hs hfree
      (show 0x0B < 256 by decide)
    refine ⟨_, exec_trap hi hoff, hexc, ?_⟩
    rw [State.fld, hinfo, BitVec.toNat_ofNat]
    show off.toNat % 2 ^ 64 / 2 ^ 0 % 2 ^ 48 = off.toNat
    omega
  · exact ⟨_, scalar_illOperand hp hi ho, (s.takeExc_spec f.isLt (hs.job_lt f) hfree (by decide)).1⟩

/-- Settles O10: the wait set of any instruction with an opcode, and WAIT. -/
theorem waitSetsHoldOrRaise : Obligations.WaitSetsHoldOrRaise := by
  intro i f w s hf hw hs hr he hh hpc fs set met
  have hm : mayIssue s f := ⟨hr, he, hh⟩
  have hlegal : (∀ e ∈ set, waitThr fs e ≤ 2 ^ 48 - 1) → waitOver fs (hdrOf w) = false := fun hthr =>
    List.any_eq_false.mpr fun e he => fun h => absurd (of_decide_eq_true h) (Nat.not_lt.mpr (hthr e he))
  have hmet : ∀ e, waitOk s f e = true ↔ met e := fun e => by simp [waitOk, met, fs]
  refine ⟨fun ⟨e, he, hthr⟩ hfree => ?_, fun hthr ⟨e, he, hnot⟩ => ?_, fun hthr hall hroom => ?_⟩
  · have hover : waitOver fs (hdrOf w) = true := List.any_eq_true.mpr ⟨e, he, decide_eq_true hthr⟩
    exact ⟨_, exec_waitRange hf hw hm hpc hover, (s.takeExc_spec f.isLt (hs.job_lt f) hfree (by decide)).1⟩
  · refine exec_waits hf hw hm hpc (hlegal hthr) (List.all_eq_false.mpr ⟨e, he, ?_⟩)
    rwa [hmet]
  · have hi : canIssue s f (hdrOf w) = true := by
      rw [canIssue_eq, mayIssue_bool hm, decide_eq_true hpc, hlegal hthr, decide_eq_true hroom,
        show waitsOk s f (hdrOf w) = true from List.all_eq_true.mpr fun e he => (hmet e).mpr (hall e he)]
      rfl
    have hexec := issue_retire (show exec (.waitEv f (hdrOf w) ⟨0, 0, 0, 0, 0, 0, 0⟩) s = execWaitEv f (hdrOf w) _ s from rfl) hi rfl
    exact ⟨_, hexec, (retire_id hi).2⟩

end Sys2Proof.Machine

namespace Sys2Proof.Machine

/-! # Semaphores (R121 to R124) -/

section
variable {s t : State} {f m : Nat}

/-! ## What refreshing the other fields of a semaphore leaves -/

theorem syncSem_ne {m m' : Nat} (h : m ≠ m') : Reg.SYNC_SEM m ≠ Reg.SYNC_SEM m' := by
  simp only [Reg.SYNC_SEM]
  omega

/-- COUNT does not change with the other fields of a semaphore register. -/
theorem State.semCount_setFld (s : State) (m m' hi lo x : Nat) (h : lo ≤ hi) (hh : hi < 64) (hlo : 15 < lo) :
    (s.setFld (Reg.SYNC_SEM m) hi lo x).semCount m' = s.semCount m' := by
  by_cases hm : m' = m
  · rw [hm, State.semCount, State.fld_setFld_disjoint _ _ _ _ _ _ _ h hh (.inl hlo), State.semCount]
  · rw [State.semCount, State.fld_setFld_ne _ _ _ _ _ _ (syncSem_ne hm), State.semCount]

theorem State.semRefresh_semCount (s : State) (m m' : Nat) : (s.semRefresh m).semCount m' = s.semCount m' := by
  unfold State.semRefresh
  dsimp only
  rw [State.semCount_setFld _ _ _ _ _ _ (by decide) (by decide) (by decide),
    State.semCount_setFld _ _ _ _ _ _ (by decide) (by decide) (by decide)]

theorem State.semRefresh_regsOnly (s : State) (m : Nat) : regsOnly s (s.semRefresh m) :=
  ((regsOnly.refl s).setFld _ _ _ _).setFld _ _ _ _

theorem State.semRefresh_rd (s : State) (m : Nat) : sameRegsBut [Reg.SYNC_SEM m] s (s.semRefresh m) :=
  ((sameRegsBut_refl _ s).setFld List.mem_cons_self _ _ _).setFld List.mem_cons_self _ _ _

theorem State.semCount_lt (s : State) (m : Nat) : s.semCount m < 65536 := by
  rw [State.semCount, State.fld]
  exact bits_lt _ 15 0

theorem State.semCount_setFld_same (s : State) (m x : Nat) : (s.setFld (Reg.SYNC_SEM m) 15 0 x).semCount m = x % 2 ^ 16 := by
  rw [State.semCount, State.fld_setFld_same _ _ _ _ _ (by decide) (by decide), Nat.sub_zero]

theorem State.setNet_semCount (s : State) (j m n m' : Nat) : (s.setNet j m n).semCount m' = s.semCount m' := rfl

theorem State.semRefresh_netOf (s : State) (m j m' : Nat) : (s.semRefresh m).netOf j m' = s.netOf j m' := by
  obtain ⟨r, h⟩ := s.semRefresh_regsOnly m
  rw [h]
  rfl

theorem State.semRefresh_semWaiters (s : State) (m m' : Nat) : (s.semRefresh m).semWaiters m' = s.semWaiters m' := by
  obtain ⟨r, h⟩ := s.semRefresh_regsOnly m
  rw [h]
  rfl

/-! ## A release, and what an acquire takes -/

theorem State.semRelease_semCount {j n : Nat} (hfit : s.semCount m + n ≤ 65535) : (s.semRelease j m n).semCount m = s.semCount m + n := by
  rw [State.semRelease, State.semRefresh_semCount, State.setNet_semCount, State.semCount_setFld_same, Nat.mod_eq_of_lt (by omega)]

theorem State.semRelease_netOf (s : State) (j m n : Nat) : (s.semRelease j m n).netOf j m = s.netOf j m - n := by
  rw [State.semRelease, State.semRefresh_netOf, State.netOf_setNet, if_pos rfl]

/-- A release changes its semaphore's register and NET. -/
theorem State.semRelease_rest (s : State) (j m n : Nat) : ∃ r w, s.semRelease j m n = { s with
    regs := r
    net := w } := by
  unfold State.semRelease
  obtain ⟨r, h⟩ := State.semRefresh_regsOnly ((s.setFld (Reg.SYNC_SEM m) 15 0 (s.semCount m + n)).setNet j m (s.netOf j m - n)) m
  rw [h]
  exact ⟨_, _, rfl⟩

theorem State.semRelease_faces (s : State) (j m n : Nat) : (s.semRelease j m n).faces = s.faces := by
  obtain ⟨_, _, h⟩ := s.semRelease_rest j m n
  rw [h]

theorem State.semRelease_routed (s : State) (j m n : Nat) : (s.semRelease j m n).routed = s.routed := by
  obtain ⟨_, _, h⟩ := s.semRelease_rest j m n
  rw [h]

theorem State.semRelease_loadByte (s : State) (j m n k : Nat) : (s.semRelease j m n).loadByte k = s.loadByte k := by
  obtain ⟨_, _, h⟩ := s.semRelease_rest j m n
  rw [h]
  rfl

theorem sameRegsBut.setNet {l : List Nat} (h : sameRegsBut l s t) (j m n : Nat) : sameRegsBut l s (t.setNet j m n) := h

theorem sameRegsBut.setWaiters {l : List Nat} (h : sameRegsBut l s t) (m : Nat) (w : List SemReq) :
    sameRegsBut l s (t.setWaiters m w) := h

theorem sameRegsBut.semRefresh {l : List Nat} (h : sameRegsBut l s t) (hm : Reg.SYNC_SEM m ∈ l) : sameRegsBut l s (t.semRefresh m) :=
  (h.setFld hm _ _ _).setFld hm _ _ _

theorem State.semRelease_rd (s : State) (j m n : Nat) : sameRegsBut [Reg.SYNC_SEM m] s (s.semRelease j m n) := by
  have hm : Reg.SYNC_SEM m ∈ [Reg.SYNC_SEM m] := List.mem_cons_self
  exact (((sameRegsBut_refl _ s).setFld hm _ _ _).setNet _ _ _).semRefresh hm

theorem State.semTake_semCount (s : State) (j m n : Nat) : (s.semTake j m n).semCount m = s.semCount m - n := by
  have := s.semCount_lt m
  rw [State.semTake, State.semRefresh_semCount, State.setNet_semCount, State.semCount_setFld_same, Nat.mod_eq_of_lt (by omega)]

theorem State.semTake_netOf (s : State) (j m n : Nat) : (s.semTake j m n).netOf j m = min 65535 (s.netOf j m + n) := by
  rw [State.semTake, State.semRefresh_netOf, State.netOf_setNet, if_pos rfl]

theorem State.semTake_semWaiters (s : State) (j m n : Nat) : (s.semTake j m n).semWaiters m = (s.semWaiters m).tail := by
  rw [State.semTake, State.semRefresh_semWaiters, State.setNet_semWaiters, State.setFld_semWaiters, State.semWaiters_setWaiters,
    if_pos rfl]

theorem State.semTake_rest (s : State) (j m n : Nat) : ∃ r w x, s.semTake j m n = { s with
    regs := r
    net := w
    waiters := x } := by
  unfold State.semTake
  obtain ⟨r, h⟩ := State.semRefresh_regsOnly (((s.setWaiters m (s.semWaiters m).tail).setFld (Reg.SYNC_SEM m) 15 0
    (s.semCount m - n)).setNet j m (min 65535 (s.netOf j m + n))) m
  rw [h]
  exact ⟨_, _, _, rfl⟩

theorem State.semTake_rd (s : State) (j m n : Nat) : sameRegsBut [Reg.SYNC_SEM m] s (s.semTake j m n) := by
  have hm : Reg.SYNC_SEM m ∈ [Reg.SYNC_SEM m] := List.mem_cons_self
  exact ((((sameRegsBut_refl _ s).setWaiters _ _).setFld hm _ _ _).setNet _ _ _).semRefresh hm

/-- The scheduler's registers are no semaphores, so accounting goes on as it did. -/
theorem acctFull_of_semOnly (hm : m < 256) (h : sameRegsBut [Reg.SYNC_SEM m] s t) : t.acctFull = s.acctFull := by
  have hne : ∀ a, 0x7F00060800 ≤ a → a ∉ [Reg.SYNC_SEM m] := fun a ha hin => by
    have := List.mem_singleton.mp hin
    simp only [Reg.SYNC_SEM] at this
    omega
  exact State.acctFull_congr (h Reg.SCHED_CTRL (hne _ (by simp only [Reg.SCHED_CTRL]; omega))) fun p _ =>
    h (Reg.SCHED_PARTA p) (hne _ (by simp only [Reg.SCHED_PARTA]; omega))

/-! ## What an exception leaves of a semaphore's count (R122, R123) -/

theorem State.dropWaiters_semCount (s : State) (f m : Nat) : (s.dropWaiters f).semCount m = s.semCount m := by
  refine State.each_rel (R := fun t u => u.semCount m = t.semCount m) (fun _ => rfl) (fun h h' => h'.trans h) _ (fun t e _ => ?_) s
  rw [State.semRefresh_semCount]
  rfl

theorem State.semCount_congr (h : t.rd (Reg.SYNC_SEM m) = s.rd (Reg.SYNC_SEM m)) : t.semCount m = s.semCount m :=
  State.fld_congr h 15 0

theorem State.cancelWindow_semCount (s : State) (f m : Nat) : (s.cancelWindow f).semCount m = s.semCount m := by
  unfold State.cancelWindow
  extract_lets s1 efl s2
  rw [State.dropWaiters_semCount]
  have hwrites : s1.regs = s.regs := by
    refine State.each_rel (R := fun t u => u.regs = t.regs) (fun _ => rfl) (fun h h' => h'.trans h) _ (fun t e _ => ?_) s
    dsimp only
    split
    · obtain ⟨_, _, h⟩ := memOnly.each (s := (t.take 1).2) (f := State.applyFx)
        (l := ((((t.landing f e).getD []).filter Fx.isWrite).flatMap (Fx.pieces e.unit.grain)).take (Config.freeCount (t.take 1).1))
        fun u x hx => u.applyFx_write (by
          obtain ⟨y, hy, hxy⟩ := List.mem_flatMap.mp (List.mem_of_mem_take hx)
          exact Fx.isWrite_of_mem_pieces (List.mem_filter.mp hy).2 hxy)
      rw [h]
      rfl
    · rfl
  exact State.semCount_congr (State.rd_congr (s := s) (t := s2.setFace f { s2.face f with window := [] }) hwrites _)

theorem State.takeExc_semCount (hf : f < 6) (hj : (s.face f).job < 16) (hfree : s.flag (Reg.FACE_EXC f) 63 = false) (e : Exc)
    (precise : Bool) (pc : Nat) : (s.takeExc f e precise pc).semCount m = s.semCount m := by
  obtain ⟨⟨r, hreg⟩, -⟩ := s.recordExc_free (e := e) (precise := precise) (hw := e.code == 0x0E) (pc := pc) hfree
  have hrec : (s.recordExc f e precise (e.code == 0x0E) pc).rd (Reg.SYNC_SEM m) = s.rd (Reg.SYNC_SEM m) := by
    rw [State.recordExc, hfree, if_neg Bool.false_ne_true, State.rd_wr, if_neg, State.rd_wr, if_neg]
    · simp only [Reg.SYNC_SEM, Reg.FACE_EXC]
      omega
    · simp only [Reg.SYNC_SEM, Reg.FACE_EXCINFO]
      omega
  have hface : (s.recordExc f e precise (e.code == 0x0E) pc).face f = s.face f := by
    rw [hreg]
    rfl
  have hc := (s.recordExc f e precise (e.code == 0x0E) pc).cancelWindow_spec f
  have hended := ((s.recordExc f e precise (e.code == 0x0E) pc).cancelWindow f).endCommand_ended hf (by rw [hc.face, hface]; exact hj)
  calc (s.takeExc f e precise pc).semCount m
      = (((s.recordExc f e precise (e.code == 0x0E) pc).cancelWindow f).endCommand f).semCount m := rfl
    _ = ((s.recordExc f e precise (e.code == 0x0E) pc).cancelWindow f).semCount m :=
        State.semCount_congr (hended.rd _ (by simp only [Reg.SYNC_SEM]; omega) (by simp only [Reg.SYNC_SEM, Reg.FACE_STATUS]; omega))
    _ = (s.recordExc f e precise (e.code == 0x0E) pc).semCount m := State.cancelWindow_semCount ..
    _ = s.semCount m := State.semCount_congr hrec

end

/-! # Completion of an entry of the window (R112, R118) -/

section
variable {s : State} {f : Nat} {e : Entry}

/-! ## Leaving the window with a signal -/

/-- `t` is `s` after entry `seq` of Face `f` has left the window and its signal `sig` is counted. -/
structure LeftWindow (f seq : Nat) (sig : Option Nat) (s t : State) : Prop where
  rest : ∃ fs r, t = { s with
    faces := fs
    routed := r }
  own : ∃ ev, t.face f = { s.face f with
    window := (s.face f).window.filter fun x => x.seq != seq
    ev := ev }
  others : ∀ g, g ≠ f → t.face g = s.face g
  evCtr : ∀ n, t.evCtr f n = if sig = some n then Ctr.add (s.evCtr f n) 1 else s.evCtr f n

theorem State.signal_rest (s : State) (f : Nat) (sig : Option Nat) : ∃ fs r, s.signal f sig = { s with
    faces := fs
    routed := r } := by
  cases sig with
  | none => exact ⟨_, _, rfl⟩
  | some n =>
    rcases s.evAdd_cases f n 1 with ⟨e, h⟩ | ⟨j, v, i, c, h⟩
    · exact ⟨_, _, h⟩
    · exact ⟨_, _, h⟩

theorem State.leaveWindow_signal (s : State) (f seq : Nat) (sig : Option Nat) :
    LeftWindow f seq sig s ((s.leaveWindow f seq).signal f sig) where
  rest := by
    obtain ⟨fs, r, h⟩ := (s.leaveWindow f seq).signal_rest f sig
    exact ⟨fs, r, h⟩
  own := by
    obtain ⟨ev, h⟩ := (s.leaveWindow f seq).signal_face f sig
    refine ⟨ev, ?_⟩
    rw [h, State.leaveWindow, State.face_setFace, if_pos rfl]
  others g hg := by rw [State.signal_face_ne _ _ hg, State.leaveWindow, State.face_setFace, if_neg hg]
  evCtr n := by
    rw [State.evCtr_signal]
    have h : (s.leaveWindow f seq).evCtr f n = s.evCtr f n := by simp [State.leaveWindow, State.evCtr]
    rw [h]

theorem LeftWindow.window {seq : Nat} {sig : Option Nat} {t : State} (h : LeftWindow f seq sig s t) :
    (t.face f).window = (s.face f).window.filter fun x => x.seq != seq := by
  obtain ⟨ev, hown⟩ := h.own
  rw [hown]

section
variable {seq : Nat} {sig : Option Nat} {t : State} (h : LeftWindow f seq sig s t)
include h

theorem LeftWindow.rd (a : Nat) : t.rd a = s.rd a := by
  obtain ⟨_, _, rfl⟩ := h.rest
  rfl

theorem LeftWindow.loadByte (k : Nat) : t.loadByte k = s.loadByte k := by
  obtain ⟨_, _, rfl⟩ := h.rest
  rfl

theorem LeftWindow.netOf (j m : Nat) : t.netOf j m = s.netOf j m := by
  obtain ⟨_, _, rfl⟩ := h.rest
  rfl

theorem LeftWindow.semWaiters (m : Nat) : t.semWaiters m = s.semWaiters m := by
  obtain ⟨_, _, rfl⟩ := h.rest
  rfl

theorem LeftWindow.semCount (m : Nat) : t.semCount m = s.semCount m := State.semCount_congr (h.rd _)

end

/-! ## The effects of an entry -/

/-- Every release among the effects fits its semaphore. -/
def releasesFit (s : State) (l : List Fx) : Prop := ∀ j m n, Fx.release j m n ∈ l → s.semCount m + n ≤ 65535

theorem State.completeEntry_eq (hfit : releasesFit s e.fx) : s.completeEntry f e =
    (((s.each e.fx fun s x => s.completeFx f e.folds x).countBytes f e).leaveWindow f e.seq).signal f e.sig := by
  have hnone : (e.fx.find? fun x => match x with
      | .release _ m n => decide (65535 < s.semCount m + n)
      | _ => false) = none := by
    refine List.find?_eq_none.mpr fun x hx => ?_
    cases x with
    | release j m n => exact fun h => absurd (of_decide_eq_true h) (Nat.not_lt.mpr (hfit j m n hx))
    | _ => exact Bool.false_ne_true
  unfold State.completeEntry
  extract_lets tooMuch
  have htoo : tooMuch = none := hnone
  rw [htoo]

/-- A release that does not fit raises SEM_RANGE, imprecise (R122). -/
theorem State.completeEntry_over {j m n : Nat} (hfx : e.fx = [.release j m n]) (hover : 65535 < s.semCount m + n) :
    s.completeEntry f e = (s.leaveWindow f e.seq).takeExc f ⟨0x08, m⟩ false e.pc := by
  unfold State.completeEntry
  extract_lets tooMuch
  have htoo : tooMuch = some (.release j m n) := by
    simp only [tooMuch, hfx, List.find?_singleton, decide_eq_true hover, if_true]
  rw [htoo]

theorem State.countBytes_off (h : s.acctFull = false) : s.countBytes f e = s := by
  rw [State.countBytes, h, if_neg Bool.false_ne_true]

theorem State.countBytes_memOnly (s : State) (f : Nat) (e : Entry) : memOnly s (s.countBytes f e) := by
  unfold State.countBytes
  split
  · refine memOnly.each fun t x _ => ?_
    split
    · exact State.account_memOnly ..
    · exact .refl t
  · exact .refl s

/-! ## INSTRUCTION_COMPLETE -/

/-- Entry `e` of Face `f` has started and waits for nothing but its completion: no semaphore, no peer, no residue check, no status
word at the gate. -/
structure Completable (s : State) (f : Nat) (e : Entry) : Prop where
  found : ((s.face f).window.find? fun x => x.seq == e.seq) = some e
  started : e.started = true
  acq : e.acq = none
  remote : e.remote = none
  macBad : e.macBad = 0
  macUsed : e.macUsed = 0
  xfer : s.xferOf f e.seq = none
  gate : ∀ a b c d g, Fx.gate a b c d g ∉ e.fx

theorem Completable.ready (h : Completable s f e) : e.ready = true := by
  have hgate : (e.fx.any fun y => match y with
      | .gate _ _ _ _ _ => true
      | _ => false) = false := by
    refine List.any_eq_false.mpr fun y hy => ?_
    cases y with
    | gate a b c d g => exact absurd hy (h.gate a b c d g)
    | _ => exact Bool.false_ne_true
  rw [Entry.ready, h.started, h.acq]
  exact congrArg not hgate

theorem Completable.notOpen (h : Completable s f e) : s.xferOpen f e.seq = false := by rw [State.xferOpen, h.xfer]

theorem Completable.exec {f : Fin 6} (h : Completable s f e) (hread : s.badRead e = none) :
    exec (.instructionComplete f e.seq) s = .next (s.completeEntry f e) := by
  have hland : s.landing f e = some e.fx := by rw [State.landing, h.remote]
  have hcheck : ∀ t : State, t.residueCheck f e = t := fun t => by
    rw [State.residueCheck, h.macBad, h.macUsed]
    rfl
  have hfin : s.finish f e = s.completeEntry f e := by rw [State.finish, h.xfer]
  show execInstructionComplete f e.seq s = _
  simp only [execInstructionComplete, h.found, h.ready, h.notOpen, hread, hland, Bool.not_true, Bool.or_self, Bool.false_eq_true,
    if_false]
  exact congrArg Host.Outcome.next ((hcheck _).trans hfin)

theorem Completable.exec_bad {f : Fin 6} (h : Completable s f e) {k : Nat} (hread : s.badRead e = some k) :
    Machine.exec (.instructionComplete f e.seq) s = .next (s.takeExc f (memExc k) false e.pc) := by
  show execInstructionComplete f e.seq s = _
  simp only [execInstructionComplete, h.found, h.ready, h.notOpen, hread, Bool.not_true, Bool.or_self, Bool.false_eq_true, if_false]

/-- An entry with one effect, which changes no Face and leaves accounting as it is: the effect is made, and the entry leaves. -/
theorem Completable.one {f : Fin 6} {x : Fx} (h : Completable s f e) (hread : s.badRead e = none) (hfx : e.fx = [x])
    (hfit : releasesFit s [x]) (hplain : ∀ g, s.completeFx g e.folds x = s.applyFx x) (hacct : (s.applyFx x).acctFull = false) :
    ∃ t, Machine.exec (.instructionComplete f e.seq) s = .next t ∧ LeftWindow f e.seq e.sig (s.applyFx x) t := by
  refine ⟨_, h.exec hread, ?_⟩
  rw [State.completeEntry_eq (by rwa [hfx]), hfx]
  show LeftWindow f e.seq e.sig _ (((s.completeFx f e.folds x).countBytes f e).leaveWindow f e.seq |>.signal f e.sig)
  rw [hplain, State.countBytes_off hacct]
  exact State.leaveWindow_signal ..

end

end Sys2Proof.Machine

namespace Sys2Proof.Machine

/-! # What completing an instruction of the Face makes visible (R112, R118, R119, R122, R433) -/

section
variable {s : State} {f : Fin 6} {e : Entry}

/-- The entry has left the window, and its signal is counted. -/
def gone (s : State) (f : Nat) (e : Entry) (t : State) : Prop :=
  (t.face f).window = (s.face f).window.filter (fun x => x.seq != e.seq) ∧
    ∀ n, t.evCtr f n = if e.sig = some n then Ctr.add (s.evCtr f n) 1 else s.evCtr f n

theorem LeftWindow.gone {u t : State} (h : LeftWindow f e.seq e.sig u t) (hfaces : u.faces = s.faces) (hrouted : u.routed = s.routed) :
    gone s f e t ∧ sameFacesBut f s t := by
  have hface : ∀ g, u.face g = s.face g := fun g => congrArg (Map.get FaceSt.idle · g) hfaces
  refine ⟨⟨by rw [h.window, hface], fun n => ?_⟩, fun g hg => (h.others g hg).trans (hface g)⟩
  have hctr : u.evCtr f n = s.evCtr f n := by
    simp only [State.evCtr, hface, State.routedCtr, hrouted]
  rw [h.evCtr n, hctr]

theorem releasesFit_of_ne {l : List Fx} (h : ∀ j m n, Fx.release j m n ∉ l) : releasesFit s l := fun j m n hin => absurd hin (h j m n)

/-- A store becomes visible, at its address and nowhere else. -/
theorem store_visible {a : Nat} {bs : List Byte} (h : Completable s f e) (hread : s.badRead e = none) (hfx : e.fx = [.store a bs])
    (hacct : s.acctFull = false) : completes (.instructionComplete f e.seq) s fun t =>
      gone s f e t ∧ t.load a bs.length = bs ∧ sameMemBut [(a, bs.length)] s t ∧ sameRegsBut [] s t ∧ sameFacesBut f s t := by
  obtain ⟨t, hexec, hleft⟩ := h.one hread hfx (releasesFit_of_ne (by simp)) (fun _ => rfl) hacct
  obtain ⟨hgone, hothers⟩ := hleft.gone (s := s) rfl rfl
  obtain ⟨fs, r, rfl⟩ := hleft.rest
  exact ⟨_, hexec, hgone, s.load_store a bs, (s.store_stored a bs).2.1, fun _ _ => rfl, hothers⟩

/-- The increment of an EVSEND sets out (R119). -/
theorem routed_setsOut {j v i n : Nat} (h : Completable s f e) (hread : s.badRead e = none) (hfx : e.fx = [.routed j v i n])
    (hacct : s.acctFull = false) : completes (.instructionComplete f e.seq) s fun t =>
      gone s f e t ∧ t.inFlight = s.inFlight ++ [⟨j, v, i, n⟩] ∧ outsideKept f s t := by
  obtain ⟨t, hexec, hleft⟩ := h.one hread hfx (releasesFit_of_ne (by simp)) (fun _ => rfl) hacct
  obtain ⟨hgone, hothers⟩ := hleft.gone (s := s) rfl rfl
  obtain ⟨fs, r, rfl⟩ := hleft.rest
  exact ⟨_, hexec, hgone, rfl, fun _ => rfl, fun _ _ => rfl, hothers⟩

/-- A RAISE raises its source. -/
theorem raise_raises {k : Nat} (h : Completable s f e) (hread : s.badRead e = none) (hfx : e.fx = [.raise k])
    (hacct : s.acctFull = false) : completes (.instructionComplete f e.seq) s fun t =>
      gone s f e t ∧ t.raised = s.raised ++ [k] ∧ outsideKept f s t := by
  obtain ⟨t, hexec, hleft⟩ := h.one hread hfx (releasesFit_of_ne (by simp)) (fun _ => rfl) hacct
  obtain ⟨hgone, hothers⟩ := hleft.gone (s := s) rfl rfl
  obtain ⟨fs, r, rfl⟩ := hleft.rest
  exact ⟨_, hexec, hgone, rfl, fun _ => rfl, fun _ _ => rfl, hothers⟩

theorem releasesFit_one {j m n : Nat} (hfit : s.semCount m + n ≤ 65535) : releasesFit s [.release j m n] := fun j' m' n' hin => by
  cases List.mem_singleton.mp hin
  exact hfit

/-- A release adds to its semaphore's COUNT and takes from the job's NET. -/
theorem release_adds {j m n : Nat} (h : Completable s f e) (hread : s.badRead e = none) (hfx : e.fx = [.release j m n]) (hm : m < 256)
    (hfit : s.semCount m + n ≤ 65535) (hacct : s.acctFull = false) : completes (.instructionComplete f e.seq) s fun t =>
      gone s f e t ∧ t.semCount m = s.semCount m + n ∧ t.netOf j m = s.netOf j m - n ∧ sameMem s t ∧ sameRegsBut [Reg.SYNC_SEM m] s t := by
  have hregs := s.semRelease_rd j m n
  obtain ⟨t, hexec, hleft⟩ := h.one hread hfx (releasesFit_one hfit) (fun _ => rfl) ((acctFull_of_semOnly hm hregs).trans hacct)
  have hleft : LeftWindow f e.seq e.sig (s.semRelease j m n) t := hleft
  exact ⟨t, hexec, (hleft.gone (s.semRelease_faces j m n) (s.semRelease_routed j m n)).1,
    (hleft.semCount m).trans (State.semRelease_semCount hfit), (hleft.netOf j m).trans (s.semRelease_netOf j m n),
    fun k => (hleft.loadByte k).trans (s.semRelease_loadByte j m n k), fun a ha => (hleft.rd a).trans (hregs a ha)⟩

end

/-- Settles O21, effect by effect. -/
theorem completionMakesEffectsVisible : Obligations.CompletionMakesEffectsVisible := by
  intro f e s hfound hstart hacq hrem hbad hused hxfer hacct
  have hc : (∀ a b c d g, Fx.gate a b c d g ∉ e.fx) → Completable s f e := fun hgate =>
    ⟨hfound, hstart, hacq, hrem, hbad, hused, hxfer, hgate⟩
  refine ⟨fun k hk hs hfree hwrite => ?_, fun hread => ⟨fun a bs hfx => ?_, fun j v i n hfx => ?_, fun j m n hfx hm hfit => ?_,
    fun k hfx => ?_⟩⟩
  · have hgate : ∀ a b c d g, Fx.gate a b c d g ∉ e.fx := fun a b c d g hin => Bool.false_ne_true (hwrite _ hin)
    exact ⟨_, (hc hgate).exec_bad hk, (s.takeExc_spec f.isLt (hs.job_lt f) hfree (show 0x0E < 256 by decide)).1⟩
  · exact store_visible (hc (by simp [hfx])) hread hfx hacct
  · exact routed_setsOut (hc (by simp [hfx])) hread hfx hacct
  · exact release_adds (hc (by simp [hfx])) hread hfx hm hfit hacct
  · exact raise_raises (hc (by simp [hfx])) hread hfx hacct

/-! # Instructions that enter the window and write nothing (R113, R119, R121, R122, R133) -/

section
variable {s : State} {f : Nat} {h : Hdr} {e : Entry}

/-- The entry `e` as it stands in the window of a Face `fs` where nothing races with it. -/
def Entry.placed (e : Entry) (fs : FaceSt) (h : Hdr) : Entry :=
  { e with seq := fs.seq, pc := fs.pc, started := unitIdle fs e.unit, sig := sigOf h, lost := [],
           redo := if unitIdle fs e.unit then none else e.redo }

/-- An entry that writes no memory and uses no working space races with nothing. -/
theorem State.enter_free (hw : e.writes = []) (hs : e.scratch = []) : s.enter f h e = s.setFace f { s.face f with
    window := (s.face f).window ++ [e.placed (s.face f) h], seq := (s.face f).seq + 1, pc := (s.face f).pc + 1 } := by
  have hraced : ((s.unordered f e).flatMap fun p => e.racedBy p.2) = [] := by
    refine List.flatMap_eq_nil_iff.mpr fun p _ => ?_
    simp [Entry.racedBy, hw, hs, anyMeet]
  have hold : ∀ t : State, t.raceOld f e = t := fun t => by
    have hmeet : ∀ l, anyMeet l [] = false := fun l => by simp [anyMeet]
    unfold State.raceOld
    rw [hw]
    simp only [hmeet, Bool.false_eq_true, if_false, List.any_nil, List.filter_false, List.isEmpty_nil, if_true]
    exact List.foldl_fixed _
  unfold State.enter
  simp only [hraced, List.foldl_nil, State.take, Nat.add_zero, hold, List.isEmpty_nil, if_true]
  rfl

/-- An instruction that issues such an entry: the entry stands at the end of the window, and everything else is kept. -/
theorem issue_enter_free (hw : e.writes = []) (hs : e.scratch = []) :
    let t := (s.beginIssue f).enter f h e
    entered f h e.unit (fun x => x.fx = e.fx ∧ x.acq = e.acq ∧ x.started = unitIdle (s.face f) e.unit) s t ∧ outsideKept f s t := by
  intro t
  have ht : t = _ := State.enter_free hw hs
  have hface : t.face f = _ := (congrArg (State.face · f) ht).trans ((State.face_setFace ..).trans (if_pos rfl))
  refine ⟨⟨?_, (s.face f).window, e.placed ((s.beginIssue f).face f) h, ?_, rfl, ?_, ?_, rfl, rfl, rfl, rfl, ?_⟩, fun k => ?_,
    fun a _ => ?_, fun g hg => ?_⟩
  · rw [hface]
    exact congrArg (· + 1) (State.beginIssue_pc ..)
  · rw [hface]
    exact congrArg (· ++ _) (State.beginIssue_window ..)
  · exact State.beginIssue_seq ..
  · exact State.beginIssue_pc ..
  · simp only [Entry.placed, unitIdle, State.beginIssue_window]
  · rw [ht, State.setFace_loadByte, State.beginIssue_loadByte]
  · rw [ht, State.setFace_rd, State.beginIssue_rd]
  · rw [ht, State.face_setFace, if_neg hg, State.beginIssue_face_ne (hg := hg)]

theorem entered.imp {u : FUnit} {P Q : Entry → Prop} {t : State} (h' : entered f h u P s t) (hPQ : ∀ x, P x → Q x) :
    entered f h u Q s t := by
  obtain ⟨hpc, w, x, hw, hmap, hseq, hxpc, hu, hsig, hP⟩ := h'
  exact ⟨hpc, w, x, hw, hmap, hseq, hxpc, hu, hsig, hPQ x hP⟩

end

/-! # The sync instructions (R116, R119 to R124, R133) -/

section
variable {s : State} {f : Fin 6} {h : Hdr}

/-! ## At issue -/

theorem exec_waitEv (hi : canIssue s f h = true) :
    exec (.waitEv f h ⟨0, 0, 0, 0, 0, 0, 0⟩) s = .next ((s.beginIssue f).retire f h id) := by
  have hexec := issue_retire (show exec (.waitEv f h ⟨0, 0, 0, 0, 0, 0, 0⟩) s = execWaitEv f h _ s from rfl) hi rfl
  exact hexec

theorem exec_fence {tm : BitVec 4} (hi : canIssue s f h = true) (hfree : ∀ e ∈ (s.face f).window, e.tiers &&& tm.toNat = 0) :
    exec (.fence f h ⟨0, 0, 0, tm, 0, 0, 0⟩) s = .next ((s.beginIssue f).retire f h id) := by
  have hany : ((s.face f).window.any fun e => (e.tiers &&& tm.toNat) != 0) = false :=
    List.any_eq_false.mpr fun e he => by simp [hfree e he]
  show execFence f h _ s = _
  rw [execFence, issue_pass hi (Chk.and_eq_pass.mpr ⟨Chk.need_eq_pass.mpr (by rfl), by rw [hany]; rfl⟩)]

/-- EVADD counts N in its counter, then its own signal. -/
theorem evadd_completes (ev : BitVec 7) (n : BitVec 16) (hi : canIssue s f h = true) :
    completes (.evadd f h ⟨ev, 0, 0, 0, 0, 0, n⟩) s fun t =>
      (∀ k, t.evCtr f k = (let c := if k = ev.toNat then Ctr.add (s.evCtr f k) n.toNat else s.evCtr f k
        if sigOf h = some k then Ctr.add c 1 else c)) ∧
      (t.face f).pc = (s.face f).pc + 1 ∧ regsKeptBut f 32 64 16 s t ∧ outsideKept f s t := by
  have hexec : exec (.evadd f h ⟨ev, 0, 0, 0, 0, 0, n⟩) s =
      .next (((s.beginIssue f).evAdd f ev.toNat n.toNat).retire f h id) := by
    show execEvadd f h _ s = _
    rw [execEvadd, issue_pass hi (Chk.need_eq_pass.mpr (by rfl))]
  obtain ⟨⟨e', hface⟩, hsig, hmem, hrd, hfaces⟩ := ((s.beginIssue f).evAdd f ev.toNat n.toNat).retire_spec f h id rfl rfl rfl
  obtain ⟨e, hown⟩ := (s.beginIssue f).evAdd_face f ev.toNat n.toNat
  rw [id, hown] at hface
  refine ⟨_, hexec, fun k => ?_, ?_, ⟨fun r _ => ?_, fun r _ => ?_, fun r _ => ?_⟩, fun k => ?_, fun a ha => ?_, fun g hg => ?_⟩
  · rw [hsig k, State.evCtr_evAdd, State.beginIssue_evCtr, State.beginIssue_evCtr]
    dsimp only
    by_cases hk : k = ev.toNat
    · rw [if_pos hk, if_pos hk, hk]
    · rw [if_neg hk, if_neg hk]
  · rw [hface]
    exact congrArg (· + 1) (State.beginIssue_pc ..)
  · rw [hface]
    exact State.beginIssue_gReg ..
  · rw [hface]
    exact State.beginIssue_dReg ..
  · rw [hface]
    exact State.beginIssue_sReg ..
  · rw [hmem k, State.evAdd_loadByte, State.beginIssue_loadByte]
  · rw [hrd a ha, State.evAdd_rd, State.beginIssue_rd]
  · rw [hfaces g hg, State.evAdd_face_ne _ _ _ hg, State.beginIssue_face_ne (hg := hg)]

theorem State.beginIssue_vfNamed (s : State) (f v : Nat) : vfNamed (s.beginIssue f) f v = vfNamed s f v := by
  rw [vfNamed, State.beginIssue_vf, State.beginIssue_nvf, vfNamed]

/-- An entry of the Sync unit with one effect. -/
theorem entered_sync {x : Fx} {t : State} (ht : t = (s.beginIssue f).enter f h { Entry.of .sync with fx := [x] }) :
    entered f h .sync (fun e => e.fx = [x] ∧ e.started = true) s t ∧ outsideKept f s t := by
  obtain ⟨hent, hout⟩ := issue_enter_free (s := s) (f := f) (h := h) (e := { Entry.of .sync with fx := [x] }) rfl rfl
  rw [ht]
  exact ⟨hent.imp fun e he => ⟨he.1, he.2.2⟩, hout⟩

theorem exec_evsend {ev : BitVec 7} {v : BitVec 3} {n : BitVec 16} {w : Nat} (hi : canIssue s f h = true) (hev : 112 ≤ ev.toNat)
    (hw : vfNamed s f v.toNat = some w) : exec (.evsend f h ⟨ev, 0, v, 0, 0, 0, n⟩) s = .next ((s.beginIssue f).enter f h
      { Entry.of .sync with fx := [.routed (s.face f).job w (ev.toNat - 112) n.toNat] }) := by
  show execEvsend f h _ s = _
  rw [execEvsend, issue_pass hi (Chk.need_eq_pass.mpr (by rw [hw, decide_eq_true hev]; rfl))]
  dsimp only
  rw [State.beginIssue_vfNamed, hw, State.beginIssue_job]
  rfl

theorem semDenied_pass {m : Nat} (hm : semAllowed s (s.face f).job m = true) : semDenied s f m = .pass := by
  rw [semDenied, if_pos hm]

theorem exec_srel {m : BitVec 8} {n : BitVec 16} (hi : canIssue s f h = true) (hm : semAllowed s (s.face f).job m.toNat = true) :
    exec (.srel f h ⟨0, m, 0, 0, 0, 0, n⟩) s = .next ((s.beginIssue f).enter f h
      { Entry.of .sync with fx := [.release (s.face f).job m.toNat n.toNat] }) := by
  show execSrel f h _ s = _
  unfold execSrel
  dsimp only
  rw [issue_pass hi (Chk.and_eq_pass.mpr ⟨Chk.need_eq_pass.mpr (by rfl), semDenied_pass hm⟩), State.beginIssue_job]

theorem exec_srel_denied {m : BitVec 8} {n : BitVec 16} (hi : canIssue s f h = true)
    (hm : semAllowed s (s.face f).job m.toNat = false) :
    exec (.srel f h ⟨0, m, 0, 0, 0, 0, n⟩) s = .next (s.takeExc f ⟨0x07, m.toNat⟩ true (s.face f).pc) := by
  have hden : semDenied s f m.toNat = .exc ⟨0x07, m.toNat⟩ := by rw [semDenied, hm, if_neg Bool.false_ne_true]
  show execSrel f h _ s = _
  unfold execSrel
  dsimp only
  rw [hden]
  exact issue_exc hi

theorem exec_raiseSrc {k : BitVec 9} (hi : canIssue s f h = true) (hk : srcGranted s (s.face f).job k.toNat = true) :
    exec (.raiseSrc f h ⟨0, 0, 0, 0, k, 0, 0⟩) s = .next ((s.beginIssue f).enter f h
      { Entry.of .sync with fx := [.raise k.toNat] }) := by
  show execRaiseSrc f h _ s = _
  rw [execRaiseSrc, issue_pass hi (Chk.and_eq_pass.mpr ⟨Chk.need_eq_pass.mpr (by rfl), if_pos hk⟩)]

/-- SACQ enters the window, and its request the semaphore's queue. -/
theorem sacq_completes {m : BitVec 8} {n : BitVec 16} (hi : canIssue s f h = true) (hm : semAllowed s (s.face f).job m.toNat = true) :
    completes (.sacq f h ⟨0, m, 0, 0, 0, 0, n⟩) s fun t =>
      entered f h .sync (fun e => e.acq = some (m.toNat, n.toNat)) s t ∧
      (t.semWaiters m.toNat).length = (s.semWaiters m.toNat).length + 1 ∧ t.semCount m.toNat = s.semCount m.toNat ∧ sameMem s t := by
  have hexec : ∃ r, exec (.sacq f h ⟨0, m, 0, 0, 0, 0, n⟩) s = .next
      ((((s.beginIssue f).enter f h { Entry.of .sync with acq := some (m.toNat, n.toNat) }).setWaiters m.toNat
        (((s.beginIssue f).enter f h { Entry.of .sync with acq := some (m.toNat, n.toNat) }).semWaiters m.toNat ++ [r])).semRefresh
          m.toNat) := by
    show ∃ r, execSacq f h _ s = _
    unfold execSacq
    dsimp only
    rw [issue_pass hi (Chk.and_eq_pass.mpr ⟨Chk.need_eq_pass.mpr (by rfl), semDenied_pass hm⟩)]
    exact ⟨_, rfl⟩
  obtain ⟨r, hexec⟩ := hexec
  obtain ⟨hent, hmem, hrd, -⟩ := issue_enter_free (s := s) (f := f) (h := h)
    (e := { Entry.of .sync with acq := some (m.toNat, n.toNat) }) rfl rfl
  have hwaiters : ((s.beginIssue f).enter f h { Entry.of .sync with acq := some (m.toNat, n.toNat) }).semWaiters m.toNat =
      s.semWaiters m.toNat := by
    rw [State.enter_free rfl rfl, State.setFace_semWaiters]
    obtain ⟨_, _, _, heq⟩ := s.beginIssue_issueOnly f
    rw [heq]
    rfl
  generalize (s.beginIssue f).enter f h { Entry.of .sync with acq := some (m.toNat, n.toNat) } = u at *
  have hface : ∀ g, ((u.setWaiters m.toNat (u.semWaiters m.toNat ++ [r])).semRefresh m.toNat).face g = u.face g := fun g => by
    obtain ⟨_, heq⟩ := State.semRefresh_regsOnly (u.setWaiters m.toNat (u.semWaiters m.toNat ++ [r])) m.toNat
    rw [heq]
    rfl
  refine ⟨_, hexec, ?_, ?_, ?_, fun k => ?_⟩
  · rw [entered, hface]
    exact hent.imp fun e he => he.2.1
  · rw [State.semRefresh_semWaiters, State.semWaiters_setWaiters, if_pos rfl, hwaiters, List.length_append]
    rfl
  · rw [State.semRefresh_semCount]
    exact State.semCount_congr (hrd _ List.not_mem_nil)
  · obtain ⟨_, heq⟩ := State.semRefresh_regsOnly (u.setWaiters m.toNat (u.semWaiters m.toNat ++ [r])) m.toNat
    rw [heq]
    exact hmem k

/-! ## An SREL completes (R122) -/

theorem memOnly.rd {t : State} (h : memOnly s t) (a : Nat) : t.rd a = s.rd a := by
  obtain ⟨_, _, rfl⟩ := h
  rfl

theorem memOnly.face {t : State} (h : memOnly s t) (g : Nat) : t.face g = s.face g := by
  obtain ⟨_, _, rfl⟩ := h
  rfl

/-- The sum fits: COUNT is raised, and the entry leaves. -/
theorem srel_adds {e : Entry} {j m n : Nat} (h : Completable s f e) (hread : s.badRead e = none) (hfx : e.fx = [.release j m n])
    (hfit : s.semCount m + n ≤ 65535) : completes (.instructionComplete f e.seq) s fun t =>
      t.semCount m = s.semCount m + n ∧ (t.face f).window = (s.face f).window.filter (fun x => x.seq != e.seq) := by
  have hentry : s.completeEntry f e = (((s.semRelease j m n).countBytes f e).leaveWindow f e.seq).signal f e.sig := by
    rw [State.completeEntry_eq (by rw [hfx]; exact releasesFit_one hfit), hfx]
    rfl
  have hleft := ((s.semRelease j m n).countBytes f e).leaveWindow_signal f e.seq e.sig
  have hcount := (s.semRelease j m n).countBytes_memOnly f e
  refine ⟨_, h.exec hread, ?_⟩
  rw [hentry]
  refine ⟨?_, ?_⟩
  · rw [hleft.semCount, State.semCount_congr (hcount.rd _), State.semRelease_semCount hfit]
  · rw [hleft.window, hcount.face, State.face, s.semRelease_faces, State.face]

/-- The sum does not fit: SEM_RANGE, and COUNT is as it was. -/
theorem srel_overflows {e : Entry} {j m n : Nat} (h : Completable s f e) (hread : s.badRead e = none)
    (hfx : e.fx = [.release j m n]) (hs : s.sound) (hover : 65535 < s.semCount m + n) (hfree : s.flag (Reg.FACE_EXC f) 63 = false) :
    completes (.instructionComplete f e.seq) s fun t =>
      t.semCount m = s.semCount m ∧ excTaken f 0x08 false (e.pc % 2 ^ 32) s t := by
  refine ⟨_, (h.exec hread).trans (congrArg _ (State.completeEntry_over hfx hover)), ?_, ?_⟩
  · exact State.takeExc_semCount (s := s.leaveWindow f e.seq) f.isLt (hs.leaveWindow.job_lt f) hfree ..
  · exact (State.takeExc_spec (s := s.leaveWindow f e.seq) f.isLt (hs.leaveWindow.job_lt f) hfree (show 0x08 < 256 by decide)).1

end

/-- Settles O16, instruction by instruction. -/
theorem syncInstructionsIssue : Obligations.SyncInstructionsIssue := by
  intro f h s hi
  refine ⟨⟨_, exec_waitEv hi, retire_id hi⟩, fun ev n => evadd_completes ev n hi, fun ev v n w hev hw => ?_, fun m n hm =>
    ⟨sacq_completes hi hm, ?_⟩, fun tm hfree => ⟨_, exec_fence hi hfree, retire_id hi⟩, fun k hk => ?_⟩
  · obtain ⟨hent, hout⟩ := entered_sync (s := s) (f := f) (h := h) rfl
    exact ⟨_, exec_evsend hi hev hw, hent.imp fun _ he => he.1, hout⟩
  · obtain ⟨hent, hout⟩ := entered_sync (s := s) (f := f) (h := h) rfl
    exact ⟨_, exec_srel hi hm, hent.imp fun _ he => he.1, hout⟩
  · obtain ⟨hent, hout⟩ := entered_sync (s := s) (f := f) (h := h) rfl
    exact ⟨_, exec_raiseSrc hi hk, hent.imp fun _ he => he.1, hout⟩

/-- Settles O18: at issue, SREL is denied or enters the window; at its completion the sum fits or does not. -/
theorem srelAddsOrRaises : Obligations.SrelAddsOrRaises := by
  intro f h m n s hs
  refine ⟨fun hi hm hfree => ?_, fun hi hm => ?_, fun e hfound hstart hacq hrem hbad hused hread hxfer hfx => ?_⟩
  · exact ⟨_, exec_srel_denied hi hm, (s.takeExc_spec f.isLt (hs.job_lt f) hfree (show 0x07 < 256 by decide)).1,
      State.takeExc_semCount f.isLt (hs.job_lt f) hfree ..⟩
  · obtain ⟨hent, hout⟩ := entered_sync (s := s) (f := f) (h := h) rfl
    exact ⟨_, exec_srel hi hm, hent, State.semCount_congr (hout.2.1 _ List.not_mem_nil)⟩
  · have hc : Completable s f e := ⟨hfound, hstart, hacq, hrem, hbad, hused, hxfer, by simp [hfx]⟩
    exact ⟨fun hfit => srel_adds hc hread hfx hfit, fun hover hfree => srel_overflows hc hread hfx hs hover hfree⟩

/-! # Semaphore grants, routed increments and the Sync unit's registers (R116, R119, R121, R123, R124) -/

section
variable {s : State} {m : BitVec 8} {r : SemReq} {rest : List SemReq}

theorem headServed_eq (hw : s.semWaiters m.toNat = r :: rest) (hen : s.flag (Reg.SYNC_SEM m.toNat) 63 = true)
    (hn : r.n ≤ s.semCount m.toNat) : s.headServed m.toNat = some r := by
  unfold State.headServed
  rw [hw]
  dsimp only
  rw [hen, decide_eq_true hn]
  rfl

/-- The acquire of a command record: its command is ready. -/
theorem grant_command (hw : s.semWaiters m.toNat = r :: rest) (hen : s.flag (Reg.SYNC_SEM m.toNat) 63 = true)
    (hn : r.n ≤ s.semCount m.toNat) (hr : r.face = none) : completes (.semAcquireGrant m) s fun t =>
      t.semCount m.toNat = s.semCount m.toNat - r.n ∧ t.netOf r.job m.toNat = min 65535 (s.netOf r.job m.toNat + r.n) ∧
      t.semWaiters m.toNat = rest ∧ (t.vf r.job r.vf).stage = 3 ∧ sameMem s t := by
  have hexec : exec (.semAcquireGrant m) s = .next ((s.semTake r.job m.toNat r.n).setVf r.job r.vf
      { (s.semTake r.job m.toNat r.n).vf r.job r.vf with stage := 3 }) := by
    show execSemAcquireGrant m s = _
    unfold execSemAcquireGrant
    simp only [headServed_eq hw hen hn, hr]
  have hcount := s.semTake_semCount r.job m.toNat r.n
  have hnet := s.semTake_netOf r.job m.toNat r.n
  have hwait := s.semTake_semWaiters r.job m.toNat r.n
  rw [hw, List.tail_cons] at hwait
  have hmem : sameMem s (s.semTake r.job m.toNat r.n) := fun k => by
    obtain ⟨_, _, _, heq⟩ := s.semTake_rest r.job m.toNat r.n
    rw [heq]
    rfl
  generalize s.semTake r.job m.toNat r.n = u at *
  refine ⟨_, hexec, ?_, ?_, ?_, ?_, fun k => ?_⟩
  · rw [State.semCount_congr (State.setVf_rd ..), hcount]
  · rw [State.setVf_netOf, hnet]
  · rw [State.setVf_semWaiters, hwait]
  · rw [State.vf_setVf, if_pos rfl]
  · rw [State.setVf_loadByte, hmem k]

/-- The acquire of an SACQ: its entry leaves the window. -/
theorem grant_sacq {f : Nat} {e : Entry} (hw : s.semWaiters m.toNat = r :: rest) (hen : s.flag (Reg.SYNC_SEM m.toNat) 63 = true)
    (hn : r.n ≤ s.semCount m.toNat) (hr : r.face = some (f, e.seq)) (hfound : ((s.face f).window.find? fun x => x.seq == e.seq) = some e)
    (hfx : e.fx = []) (hacct : s.acctFull = false) : completes (.semAcquireGrant m) s fun t =>
      t.semCount m.toNat = s.semCount m.toNat - r.n ∧ t.netOf r.job m.toNat = min 65535 (s.netOf r.job m.toNat + r.n) ∧
      t.semWaiters m.toNat = rest ∧ (t.face f).window = (s.face f).window.filter (fun x => x.seq != e.seq) ∧ sameMem s t ∧
      ∀ n, t.evCtr f n = if e.sig = some n then Ctr.add (s.evCtr f n) 1 else s.evCtr f n := by
  have hcount := s.semTake_semCount r.job m.toNat r.n
  have hnet := s.semTake_netOf r.job m.toNat r.n
  have hwait := s.semTake_semWaiters r.job m.toNat r.n
  rw [hw, List.tail_cons] at hwait
  have hoff : (s.semTake r.job m.toNat r.n).acctFull = false := (acctFull_of_semOnly m.isLt (s.semTake_rd r.job m.toNat r.n)).trans hacct
  obtain ⟨_, _, _, heq⟩ := s.semTake_rest r.job m.toNat r.n
  have hfaces : (s.semTake r.job m.toNat r.n).faces = s.faces := by rw [heq]
  have hrouted : (s.semTake r.job m.toNat r.n).routed = s.routed := by rw [heq]
  have hmem : sameMem s (s.semTake r.job m.toNat r.n) := fun k => by rw [heq]; rfl
  have hfound' : (((s.semTake r.job m.toNat r.n).face f).window.find? fun x => x.seq == e.seq) = some e := by
    rw [State.face, hfaces]
    exact hfound
  have hexec : exec (.semAcquireGrant m) s = .next ((s.semTake r.job m.toNat r.n).completeEntry f e) := by
    show execSemAcquireGrant m s = _
    unfold execSemAcquireGrant
    simp only [headServed_eq hw hen hn, hr, hfound']
  generalize s.semTake r.job m.toNat r.n = u at *
  have hentry : u.completeEntry f e = (u.leaveWindow f e.seq).signal f e.sig := by
    rw [State.completeEntry_eq (by rw [hfx]; exact releasesFit_of_ne (by simp)), hfx]
    show ((u.countBytes f e).leaveWindow f e.seq).signal f e.sig = _
    rw [State.countBytes_off hoff]
  have hleft := u.leaveWindow_signal f e.seq e.sig
  rw [hentry] at hexec
  have hface : ∀ g, u.face g = s.face g := fun g => congrArg (Map.get FaceSt.idle · g) hfaces
  refine ⟨_, hexec, (hleft.semCount _).trans hcount, (hleft.netOf ..).trans hnet, (hleft.semWaiters _).trans hwait, ?_,
    fun k => (hleft.loadByte k).trans (hmem k), fun n => ?_⟩
  · rw [hleft.window, hface]
  · have hctr : u.evCtr f n = s.evCtr f n := by simp only [State.evCtr, hface, State.routedCtr, hrouted]
    rw [hleft.evCtr n, hctr]

/-- The oldest increment reaches its counter. -/
theorem routedIncrement_completes {x : RoutedInc} {tail : List RoutedInc} {jb : JobSt} (hin : s.inFlight = x :: tail)
    (hj : s.job x.job = some jb) (hv : x.vf < jb.img.vfs.length) : completes .routedCounterIncrement s fun t =>
      t.inFlight = tail ∧ Ctr.count (t.routedCtr x.job x.vf x.idx) = min (Ctr.count (s.routedCtr x.job x.vf x.idx) + x.n) (2 ^ 48 - 1) ∧
      (∀ j v i, routedIdx j v i ≠ routedIdx x.job x.vf x.idx → t.routedCtr j v i = s.routedCtr j v i) ∧
      sameMem s t ∧ sameRegsBut [] s t ∧ t.faces = s.faces := by
  have hexec : exec .routedCounterIncrement s = .next (({ s with inFlight := tail } : State).setRouted x.job x.vf x.idx
      (Ctr.add (s.routedCtr x.job x.vf x.idx) x.n)) := by
    show execRoutedCounterIncrement s = _
    unfold execRoutedCounterIncrement
    have hj' : ({ s with inFlight := tail } : State).job x.job = some jb := hj
    simp only [hin, hj', hv, if_true]
    rfl
  refine ⟨_, hexec, rfl, ?_, fun j v i hne => ?_, fun _ => rfl, fun _ _ => rfl, rfl⟩
  · rw [State.routedCtr_setRouted, if_pos rfl, Ctr.count_add]
    rfl
  · rw [State.routedCtr_setRouted, if_neg hne]
    rfl

/-- Ulnal's write of a semaphore: EN, PART and COUNT. -/
theorem syncSemWrite_completes (m : BitVec 8) (v : Word) : completes (.syncSemWrite m v) s fun t =>
      t.fld (Reg.SYNC_SEM m.toNat) 63 63 = bits v.toNat 63 63 ∧ t.fld (Reg.SYNC_SEM m.toNat) 50 48 = bits v.toNat 50 48 ∧
      t.fld (Reg.SYNC_SEM m.toNat) 15 0 = bits v.toNat 15 0 ∧
      t.fld (Reg.SYNC_SEM m.toNat) 62 58 = s.fld (Reg.SYNC_SEM m.toNat) 62 58 ∧
      sameRegsBut [Reg.SYNC_SEM m.toNat] s t ∧ t.mem = s.mem ∧ t.faces = s.faces ∧ t.waiters = s.waiters := by
  have hm : Reg.SYNC_SEM m.toNat ∈ [Reg.SYNC_SEM m.toNat] := List.mem_cons_self
  have hregs := (((sameRegsBut_refl _ s).setFlag hm 63 (bitOf v.toNat 63)).setFld hm 50 48 (bits v.toNat 50 48)).setFld hm 15 0
    (bits v.toNat 15 0)
  have hbit : (if bitOf v.toNat 63 then 1 else 0) % 2 ^ (63 + 1 - 63) = bits v.toNat 63 63 := by
    simp only [bitOf, bits, beq_iff_eq]
    split <;> omega
  have hexec : exec (.syncSemWrite m v) s = .next (((s.setFlag (Reg.SYNC_SEM m.toNat) 63 (bitOf v.toNat 63)).setFld
      (Reg.SYNC_SEM m.toNat) 50 48 (bits v.toNat 50 48)).setFld (Reg.SYNC_SEM m.toNat) 15 0 (bits v.toNat 15 0)) := rfl
  refine ⟨_, hexec, ?_, ?_, ?_, ?_, hregs, ?_, ?_, ?_⟩
  · rw [State.fld_setFld_disjoint _ _ _ _ _ _ _ (by decide) (by decide) (by decide),
      State.fld_setFld_disjoint _ _ _ _ _ _ _ (by decide) (by decide) (by decide), State.setFlag,
      State.fld_setFld_same _ _ _ _ _ (by decide) (by decide), hbit]
  · rw [State.fld_setFld_disjoint _ _ _ _ _ _ _ (by decide) (by decide) (by decide),
      State.fld_setFld_same _ _ _ _ _ (by decide) (by decide), Nat.mod_eq_of_lt (bits_lt ..)]
  · rw [State.fld_setFld_same _ _ _ _ _ (by decide) (by decide), Nat.mod_eq_of_lt (bits_lt ..)]
  · rw [State.fld_setFld_disjoint _ _ _ _ _ _ _ (by decide) (by decide) (by decide),
      State.fld_setFld_disjoint _ _ _ _ _ _ _ (by decide) (by decide) (by decide), State.setFlag,
      State.fld_setFld_disjoint _ _ _ _ _ _ _ (by decide) (by decide) (by decide)]
  · rw [State.setFld_mem, State.setFld_mem, State.setFlag_mem]
  · rw [State.setFld_faces, State.setFld_faces, State.setFlag_faces]
  · rw [State.setFld_waiters, State.setFld_waiters, State.setFlag_waiters]

/-- Ulnal's write of the routed counter that SYNC_RSEL selects. -/
theorem syncRvalWrite_completes {v : Word} (hsel : s.fld Reg.SYNC_RSEL 6 4 < 6) : completes (.syncRvalWrite v) s fun t =>
      Ctr.count (t.routedCtr (s.fld Reg.SYNC_RSEL 10 7) (s.fld Reg.SYNC_RSEL 6 4) (s.fld Reg.SYNC_RSEL 3 0)) = bits v.toNat 47 0 ∧
      t.inFlight = s.inFlight ∧ sameRegsBut [] s t ∧ t.mem = s.mem ∧ t.faces = s.faces := by
  have hexec : exec (.syncRvalWrite v) s = .next (s.setRouted (s.fld Reg.SYNC_RSEL 10 7) (s.fld Reg.SYNC_RSEL 6 4)
      (s.fld Reg.SYNC_RSEL 3 0) (BitVec.ofNat 64 (bits v.toNat 47 0 + (if bitOf v.toNat 63 then 2 ^ 63 else 0)))) := by
    show execSyncRvalWrite v s = _
    unfold execSyncRvalWrite
    exact if_pos hsel
  refine ⟨_, hexec, ?_, rfl, fun _ _ => rfl, rfl, rfl⟩
  have hlt := bits_lt v.toNat 47 0
  rw [State.routedCtr_setRouted, if_pos rfl, Ctr.count, BitVec.toNat_ofNat]
  generalize bits v.toNat 47 0 = c at *
  simp only [bits]
  split <;> omega

end

/-- Settles O17: the two kinds of grants, the oldest increment, the two writes. -/
theorem semaphoresAndRoutedCounters : Obligations.SemaphoresAndRoutedCounters :=
  ⟨fun _ _ _ _ hw hen hn _ => ⟨grant_command hw hen hn, fun _ _ hr hfound hfx hacct => grant_sacq hw hen hn hr hfound hfx hacct⟩,
    fun _ _ _ _ hin hj hv => routedIncrement_completes hin hj hv,
    fun v _ => ⟨fun m => syncSemWrite_completes m v, syncRvalWrite_completes⟩⟩

end Sys2Proof.Machine

namespace Sys2Proof.Machine

/-! # A command starts (R102, R253, R263) -/

/-- The queues, the routed counters and every Face are as before. -/
def queuesKept (s t : State) : Prop := t.vfs = s.vfs ∧ t.routed = s.routed

section
variable {s t u : State} {f j v : Nat}

theorem queuesKept.refl (s : State) : queuesKept s s := ⟨rfl, rfl⟩

theorem queuesKept.trans (h : queuesKept s t) (h' : queuesKept t u) : queuesKept s u := ⟨h'.1.trans h.1, h'.2.trans h.2⟩

theorem queuesKept.each {β : Type} {l : List β} {op : State → β → State} (hop : ∀ t x, queuesKept t (op t x)) :
    queuesKept s (s.each l op) := State.each_rel refl trans l (fun t x _ => hop t x) s

theorem memOnly.queuesKept (h : memOnly s t) : queuesKept s t := by
  obtain ⟨_, _, rfl⟩ := h
  exact ⟨rfl, rfl⟩

theorem State.account_queuesKept (s : State) (j off n : Nat) : queuesKept s (s.account j off n) := (s.account_memOnly j off n).queuesKept

theorem State.modJob_queuesKept (s : State) (j : Nat) (g : JobSt → JobSt) : queuesKept s (s.modJob j g) := by
  unfold State.modJob
  split <;> exact ⟨rfl, rfl⟩

theorem State.setTurn_queuesKept (s : State) (f p : Nat) (x : TurnSt) : queuesKept s (s.setTurn f p x) := ⟨rfl, rfl⟩

theorem State.wr_queuesKept (s : State) (a : Nat) (x : Word) : queuesKept s (s.wr a x) := ⟨rfl, rfl⟩

theorem State.chargeCtr_queuesKept (s : State) (j off reg : Nat) : queuesKept s (s.chargeCtr j off reg) :=
  queuesKept.trans (t := { s with sched := { s.sched with charged := Map.put 0 s.sched.charged reg (Ctr.count (s.rd reg)) } })
    ⟨rfl, rfl⟩ (State.account_queuesKept ..)

theorem State.turnSnap_queuesKept (s : State) (f j : Nat) : queuesKept s (s.turnSnap f j) := by
  unfold State.turnSnap
  dsimp only
  refine .trans (.trans (.trans (.each fun t d => (t.wr_queuesKept ..).trans (State.wr_queuesKept ..)) (.each fun t d => ?_)) (.each fun t i => t.chargeCtr_queuesKept ..))
    (.each fun t i => t.chargeCtr_queuesKept ..)
  split
  · exact .refl t
  · exact t.account_queuesKept ..

theorem State.endTurn_queuesKept (s : State) (f p : Nat) : queuesKept s (s.endTurn f p) := by
  unfold State.endTurn
  dsimp only
  split
  · exact .refl s
  · exact (s.turnSnap_queuesKept ..).trans (State.setTurn_queuesKept ..)

theorem State.takeTurn_queuesKept (s : State) (f i j v : Nat) (borrowed : Bool) : queuesKept s (s.takeTurn f i j v borrowed) := by
  unfold State.takeTurn
  extract_lets p t s'
  split
  · exact s.setTurn_queuesKept ..
  · have hcut : queuesKept s s' := by
      simp only [s']
      split
      · exact .refl s
      · split
        · exact (((s.turnSnap_queuesKept ..).trans (State.setTurn_queuesKept ..)).trans (State.account_queuesKept ..)).trans
            (State.modJob_queuesKept ..)
        · exact s.endTurn_queuesKept ..
    split
    · exact hcut
    · exact hcut.trans (State.setTurn_queuesKept ..)

theorem State.setAside_queuesKept (s : State) (f j v : Nat) : queuesKept s (s.setAside f j v) :=
  .each fun _ _ => (memOnly.copy.trans memOnly.zero).queuesKept

theorem queuesKept.vf (h : queuesKept s t) (j v : Nat) : t.vf j v = s.vf j v := by rw [State.vf, h.1, State.vf]

/-! ## What is published, and the registers at the start -/

theorem State.publish_head (s : State) (j v : Nat) : (s.publish j v).loadNat (s.vf j v).base 4 = (s.vf j v).head.toNat := by
  unfold State.publish
  dsimp only
  rw [State.storeNat, State.loadNat_store_apart _ (.inl (Nat.le_refl _)), State.loadNat_storeNat]
  exact Nat.mod_eq_of_lt (s.vf j v).head.isLt

theorem State.publish_memOnly (s : State) (j v : Nat) : memOnly s (s.publish j v) := ⟨_, _, rfl⟩

/-- The g registers at the start: g1 to g4 hold the four arguments (R102). -/
def startRegs (args : List Nat) : Map Word :=
  args.zipIdx.foldl (fun (m : Map Word) a => Map.put 0 m (a.2 + 1) (BitVec.ofNat 64 a.1)) []

theorem get_startRegs (a b c d n : Nat) (hn : n ≠ 0) : Map.get 0 (startRegs [a, b, c, d]) n =
    if 1 ≤ n ∧ n ≤ 4 then BitVec.ofNat 64 ([a, b, c, d].getD (n - 1) 0) else 0 := by
  have hcases : n = 1 ∨ n = 2 ∨ n = 3 ∨ n = 4 ∨ 4 < n := by omega
  unfold startRegs
  simp only [List.zipIdx_cons, List.zipIdx_nil, List.foldl_cons, List.foldl_nil, Map.get_put, Map.get_nil, Nat.reduceAdd]
  rcases hcases with rfl | rfl | rfl | rfl | h
  · rfl
  · rfl
  · rfl
  · rfl
  · rw [if_neg (by omega), if_neg (by omega), if_neg (by omega), if_neg (by omega), if_neg (by omega)]

theorem headRec_args (s : State) (j v : Nat) : ∃ a b c d, (s.headRec j v).args = [a, b, c, d] := ⟨_, _, _, _, rfl⟩

/-- What a command of vFace `v` of job `j`, alone on Face `f`, finds at its start: registers, counters, window and queue. -/
structure CommandStarted (f j v : Nat) (s t : State) : Prop where
  running : (t.face f).running = true
  job : (t.face f).job = j
  vf : (t.face f).vf = v
  pc : (t.face f).pc = (s.headRec j v).entry
  gregs : (t.face f).g = startRegs (s.headRec j v).args
  dregs : (t.face f).d = []
  sregs : (t.face f).s = []
  ctrs : (t.face f).ev = []
  stream : (t.face f).stream = 0
  window : (t.face f).window = []
  cmdno : (t.face f).cmdno = (s.vf j v).cmdno
  routed : t.routed = s.routed
  head : (t.vf j v).head = (s.vf j v).head + 1
  stage : (t.vf j v).stage = 0
  count : (t.vf j v).cmdno = (s.vf j v).cmdno + 1
  published : t.loadNat (s.vf j v).base 4 = ((s.vf j v).head + 1).toNat

theorem State.startCommand_started (s : State) (f i j v : Nat) : CommandStarted f j v s (s.startCommand f i j v none) := by
  unfold State.startCommand
  extract_lets r borrowed s1 q s2 s3 s4 fs g
  have h1 : queuesKept s s1 := (s.takeTurn_queuesKept ..).trans (State.setAside_queuesKept ..)
  have hq : q = s.vf j v := h1.vf j v
  have h2 : queuesKept s s2 := h1.trans (State.account_queuesKept ..)
  have h3 : memOnly (s2.setVf j v { q with
    head := q.head + 1
    stage := 0
    cmdno := q.cmdno + 1 }) s3 := State.publish_memOnly ..
  have hvf3 : s3.vf j v = { q with
      head := q.head + 1
      stage := 0
      cmdno := q.cmdno + 1 } := (h3.queuesKept.vf j v).trans ((State.vf_setVf ..).trans (if_pos rfl))
  have hhead : s3.loadNat q.base 4 = (q.head + 1).toNat := by
    have h := State.publish_head (s2.setVf j v { q with
      head := q.head + 1
      stage := 0
      cmdno := q.cmdno + 1 }) j v
    rwa [State.vf_setVf, if_pos rfl] at h
  have h4 : queuesKept s3 s4 := State.modJob_queuesKept ..
  have hmem4 : s4.mem = s3.mem := by
    simp only [s4, State.modJob]
    split <;> rfl
  have hload4 : ∀ x k, (s4.setFace f x).loadNat k 4 = s3.loadNat k 4 := fun x k => by
    simp only [State.loadNat, State.load, State.loadByte, State.setFace_mem, hmem4]
  have hvf4 := (h4.vf j v).trans hvf3
  have hface := fun x => (State.face_setFace s4 f f x).trans (if_pos rfl)
  rw [hq] at hvf4 hhead
  constructor
  case routed => rw [State.setFace_routed, h4.2, h3.queuesKept.2, State.setVf_routed, h2.2]
  case head => rw [State.setFace_vf, hvf4]
  case stage => rw [State.setFace_vf, hvf4]
  case count => rw [State.setFace_vf, hvf4]
  case published => rw [hload4, hhead]
  case cmdno => rw [hface, ← hq]
  case running | job | vf => rw [hface]
  case gregs =>
    rw [hface, startRegs]
  case pc =>
    rw [hface]
    simp only [Option.isSome_none, Bool.false_eq_true, if_false, r]
  all_goals
    rw [hface]
    rfl

/-! ## The command that the Face chooses -/

theorem choose_ready {i : Nat} (h : s.choose f = some (i, j, v)) : s.readyOn f j v = true := by
  unfold State.choose at h
  split at h
  · cases h
  · split at h
    · cases h
    · obtain ⟨w, hw, heq⟩ := Option.map_eq_some_iff.mp h
      cases heq
      exact (List.mem_filter.mp (nextAfter_mem hw)).2

theorem readyOn_bound (h : s.readyOn f j v = true) : s.boundTo j v = f := by
  simp only [State.readyOn, Bool.and_eq_true, beq_iff_eq] at h
  exact h.1.1.1.2

theorem exec_commandStart {f : Fin 6} {i : Nat} (hc : s.choose f = some (i, j, v)) (hset : s.startSet j v = ([v], none))
    (hok : s.startOk f i j v = true) : ∃ k, exec (.commandStart f) s = .next (s.startCommand f k j v none) := by
  have hb : s.boundTo j v = f := readyOn_bound (choose_ready hc)
  refine ⟨(s.face f).slot.getD i, ?_⟩
  show execCommandStart f s = _
  unfold execCommandStart
  simp only [hc, hset, List.all_cons, List.all_nil, hb, hok, beq_self_eq_true, Bool.and_self, if_true]
  rw [State.each, List.foldl_cons, List.foldl_nil, hb]

end

/-- Settles O26: the chosen command starts alone, with the registers that `startCommand` gives it. -/
theorem commandStartsAsItsRecordSays : Obligations.CommandStartsAsItsRecordSays := by
  intro f i j v s r q hc hset hok
  obtain ⟨k, hexec⟩ := exec_commandStart hc hset hok
  have hst := s.startCommand_started f k j v
  refine ⟨_, hexec, hst.running, hst.job, hst.vf, hst.pc, fun n => ?_, fun n => ?_, fun n hn => ?_, hst.stream, hst.routed, hst.window,
    hst.cmdno, hst.head, hst.count, hst.stage, hst.published⟩
  · obtain ⟨a, b, c, d, hargs⟩ := headRec_args s j v
    rw [FaceSt.gReg, hst.gregs, hargs]
    by_cases hn : n = 0
    · rw [if_pos hn, if_neg (by omega)]
    · rw [if_neg hn]
      exact get_startRegs a b c d n hn
  · rw [FaceSt.dReg, FaceSt.sReg, hst.dregs, hst.sregs]
    exact ⟨rfl, rfl⟩
  · rw [State.evCtr, hst.ctrs, if_pos hn]
    rfl

end Sys2Proof.Machine

namespace Sys2Proof.Machine

/-! # Tensor and move instructions enter the window (R113, R143, R284)

Everything between the issue of such an instruction and its place in the window, races and digests included, works on what
is in flight and on the Face's bookkeeping: `FrontKept` says what that leaves alone, entries in flight but for what `π` reads of
them. -/

/-- The place of an entry in the window: what is fixed as it enters. -/
def Entry.place (e : Entry) : Nat × Nat × FUnit × Option Nat := (e.seq, e.pc, e.unit, e.sig)

/-- Two records of a Face with the same command, g and s registers, and windows that are the same as far as `π` reads them. -/
def FaceSt.FrontSame {α : Type} (π : Entry → α) (x y : FaceSt) : Prop :=
  y.pc = x.pc ∧ y.seq = x.seq ∧ y.job = x.job ∧ y.g = x.g ∧ y.s = x.s ∧ y.window.map π = x.window.map π

/-- What the front end of Face `f` leaves as it was; a flag in bit 1 of a register, where NTAINT lies, is not cleared. -/
structure FrontKept {α : Type} (f : Nat) (π : Entry → α) (s t : State) : Prop where
  mem : t.mem = s.mem
  taint : ∀ a, s.flag a 1 = true → t.flag a 1 = true
  face : (s.face f).FrontSame π (t.face f)

section
variable {α : Type} {π : Entry → α} {s t u : State} {f : Nat}

theorem FaceSt.FrontSame.refl (x : FaceSt) : x.FrontSame π x := ⟨rfl, rfl, rfl, rfl, rfl, rfl⟩

theorem FaceSt.FrontSame.trans {x y z : FaceSt} (h : x.FrontSame π y) (h' : y.FrontSame π z) : x.FrontSame π z := by
  obtain ⟨hpc, hseq, hjob, hg, hs, hw⟩ := h
  obtain ⟨hpc', hseq', hjob', hg', hs', hw'⟩ := h'
  exact ⟨hpc'.trans hpc, hseq'.trans hseq, hjob'.trans hjob, hg'.trans hg, hs'.trans hs, hw'.trans hw⟩

/-- Entries that are replaced by others at the same places. -/
theorem FaceSt.FrontSame.mapWindow (x : FaceSt) {m : Entry → Entry} (hm : ∀ e, π (m e) = π e) :
    x.FrontSame π { x with window := x.window.map m } :=
  ⟨rfl, rfl, rfl, rfl, rfl, by
    rw [List.map_map]
    exact List.map_congr_left fun e _ => hm e⟩

theorem FrontKept.refl (f : Nat) (π : Entry → α) (s : State) : FrontKept f π s s := ⟨rfl, fun _ h => h, FaceSt.FrontSame.refl _⟩

theorem FrontKept.trans (h : FrontKept f π s t) (h' : FrontKept f π t u) : FrontKept f π s u :=
  ⟨h'.mem.trans h.mem, fun a ha => h'.taint a (h.taint a ha), h.face.trans h'.face⟩

theorem FrontKept.setFace (s : State) {g : Nat} {x : FaceSt} (hx : (s.face g).FrontSame π x) : FrontKept f π s (s.setFace g x) where
  mem := rfl
  taint _ h := h
  face := by
    rw [State.face_setFace]
    split
    · next hg => exact hg ▸ hx
    · exact FaceSt.FrontSame.refl _

theorem FrontKept.ite {c : Prop} [Decidable c] (ht : FrontKept f π s t) (hu : FrontKept f π s u) : FrontKept f π s (if c then t else u) := by
  split
  · exact ht
  · exact hu

theorem State.setAccType_frontKept (s : State) (g k : Nat) (int : Bool) : FrontKept f π s (s.setAccType g k int) :=
  FrontKept.setFace s ⟨rfl, rfl, rfl, rfl, rfl, rfl⟩

theorem State.banksDefined_frontKept (s : State) (g first n : Nat) : FrontKept f π s (s.banksDefined g first n) :=
  FrontKept.setFace s ⟨rfl, rfl, rfl, rfl, rfl, rfl⟩

theorem State.mixAccs_frontKept (s : State) (g : Nat) (o : FmtT) : FrontKept f π s (s.mixAccs g o) := by
  unfold State.mixAccs
  extract_lets fs d first nb
  split
  · exact FrontKept.refl f π s
  · exact FrontKept.setFace s ⟨rfl, rfl, rfl, rfl, rfl, rfl⟩

theorem State.openXfer_frontKept (s : State) (g dev base : Nat) (put : Bool) (pieces : List (Nat × Nat)) (dst src : Option EflRef) :
    FrontKept f π s (s.openXfer g dev base put pieces dst src) := ⟨rfl, fun _ h => h, FaceSt.FrontSame.refl _⟩

theorem State.putXfer_frontKept (s t : State) (g : Nat) (d : TRef) : FrontKept f π t (s.putXfer g d t) :=
  .ite (t.openXfer_frontKept ..) (.refl f π t)

theorem State.beginIssue_frontKept (s : State) (f : Nat) : FrontKept f π s (s.beginIssue f) := by
  rcases s.beginIssue_cases f with h | h <;> rw [h]
  · exact FrontKept.refl f π s
  · exact FrontKept.setFace s ⟨rfl, rfl, rfl, rfl, rfl, rfl⟩

theorem State.foldMask_frontKept (s : State) (g m : Nat) (elems : List (Nat × Nat)) : FrontKept f π s (s.foldMask g m elems) :=
  .ite (.refl f π s) (FrontKept.setFace s ⟨rfl, rfl, rfl, rfl, rfl, rfl⟩)

theorem State.foldOut_frontKept (s : State) (g dd : Nat) (o : TOut) (folds : List (Nat × Nat)) :
    FrontKept f π s (s.foldOut g dd o folds) :=
  State.each_rel (FrontKept.refl f π) FrontKept.trans _ (fun t _ _ => t.foldMask_frontKept ..) s

theorem State.setFlag_frontKept (s : State) (a : Nat) : FrontKept f π s (s.setFlag a 1 true) where
  mem := rfl
  taint b hb := by
    by_cases hreg : b = a
    · subst hreg
      exact s.flag_setFlag_same b 1 true (by decide)
    · exact (s.flag_setFlag_other 1 1 true hreg).trans hb
  face := FaceSt.FrontSame.refl _

theorem State.ndetMark_frontKept (s : State) (f : Nat) (isN : Bool) : FrontKept f π s (s.ndetMark f isN) := by
  unfold State.ndetMark
  split
  · refine (FrontKept.setFace s (x := { s.face f with taint := true }) ⟨rfl, rfl, rfl, rfl, rfl, rfl⟩).trans
      (State.setFlag_frontKept _ _)
  · exact FrontKept.refl f π s

theorem State.ndetMark_taints (s : State) (f : Nat) : (s.ndetMark f true).flag (Reg.DET_JCTRL (s.face f).job) 1 = true :=
  State.flag_setFlag_same _ _ _ _ (by decide)

theorem State.useDescs_frontKept (s : State) (f : Nat) (l : List (Nat × Bool)) : FrontKept f π s (s.useDescs f l) := by
  obtain ⟨d, refs, bs, h⟩ := s.useDescs_eq f l
  have hface : FrontKept f π s (s.setFace f { s.face f with
      d := d
      refs := refs }) := FrontKept.setFace s ⟨rfl, rfl, rfl, rfl, rfl, rfl⟩
  rw [h]
  exact hface.trans ⟨rfl, fun _ h => h, FaceSt.FrontSame.refl _⟩

/-- A race with a new instruction changes entries in flight where they stand (R115). -/
theorem State.raceOld_frontKept (s : State) (g : Nat) (e : Entry) : FrontKept f Entry.seq s (s.raceOld g e) := by
  refine State.each_rel (FrontKept.refl f Entry.seq) FrontKept.trans (s.unordered g e) (fun t p _ => ?_) s
  dsimp only
  generalize (if anyMeet (p.2.reads ++ p.2.scratch) e.writes then p.2.writes
    else p.2.writes.filter fun x => e.writes.any (spansMeet x)) = l
  split
  · exact FrontKept.refl f Entry.seq t
  · refine FrontKept.trans (t := (t.take (l.foldl (fun a x => a + x.2) 0)).2) ⟨rfl, fun _ h => h, FaceSt.FrontSame.refl _⟩
      (FrontKept.setFace _ (FaceSt.FrontSame.mapWindow _ fun x => ?_))
    split
    · next hx => exact (eq_of_beq hx).symm
    · rfl

/-- An instruction stands at the end of the window of Face `f`, at the place `p`; nothing else that `FrontKept` names has changed. -/
structure Placed (f : Nat) (p : Nat × Nat × FUnit × Option Nat) (s t : State) : Prop where
  mem : t.mem = s.mem
  taint : ∀ a, s.flag a 1 = true → t.flag a 1 = true
  pc : (t.face f).pc = (s.face f).pc + 1
  g : (t.face f).g = (s.face f).g
  scales : (t.face f).s = (s.face f).s
  window : ∃ w e, (t.face f).window = w ++ [e] ∧ w.map Entry.seq = (s.face f).window.map Entry.seq ∧ e.place = p

theorem State.enter_placed (s : State) (f : Nat) (h : Hdr) (e : Entry) :
    Placed f ((s.face f).seq, (s.face f).pc, e.unit, sigOf h) s (s.enter f h e) := by
  unfold State.enter
  extract_lets racing t s1 fs e1
  have htake : FrontKept f Entry.seq s t.2 := ⟨rfl, fun _ h => h, FaceSt.FrontSame.refl _⟩
  obtain ⟨hmem, htaint, hpc, hseq, -, hg, hs, hw⟩ := htake.trans (t.2.raceOld_frontKept f e)
  have hunit : e1.unit = e.unit := rfl
  refine ⟨hmem, htaint, ?_, ?_, ?_, fs.window, e1, ?_, hw, ?_⟩
  · rw [State.face_setFace, if_pos rfl, ← hpc]
  · rw [State.face_setFace, if_pos rfl, ← hg]
  · rw [State.face_setFace, if_pos rfl, ← hs]
  · rw [State.face_setFace, if_pos rfl]
  · rw [← hseq, ← hpc]
    rfl

theorem Placed.ofFront {p : Nat × Nat × FUnit × Option Nat} (h : FrontKept f Entry.seq s t) (h' : Placed f p t u) : Placed f p s u := by
  obtain ⟨hpc, -, -, hg, hs, hw⟩ := h.face
  obtain ⟨w, e, hwin, hold, hplace⟩ := h'.window
  exact ⟨h'.mem.trans h.mem, fun a ha => h'.taint a (h.taint a ha), by rw [h'.pc, hpc], h'.g.trans hg, h'.scales.trans hs,
    w, e, hwin, hold.trans hw, hplace⟩

theorem Placed.front {p : Nat × Nat × FUnit × Option Nat} (h : Placed f p s t) (h' : FrontKept f Entry.place t u) : Placed f p s u := by
  obtain ⟨hpc, -, -, hg, hs, hw⟩ := h'.face
  obtain ⟨w, e, hwin, hold, hplace⟩ := h.window
  rw [hwin, List.map_append, List.map_singleton] at hw
  obtain ⟨w', l, hwin', hw', hl⟩ := List.map_eq_append_iff.mp hw
  obtain ⟨e', rfl, he'⟩ := List.map_eq_singleton_iff.mp hl
  have hseqs : w'.map Entry.seq = w.map Entry.seq := by
    have hfst := congrArg (List.map Prod.fst) hw'
    rw [List.map_map, List.map_map] at hfst
    exact hfst
  exact ⟨h'.mem.trans h.mem, fun a ha => h'.taint a (h.taint a ha), hpc.trans h.pc, hg.trans h.g, hs.trans h.scales,
    w', e', hwin', hseqs.trans hold, he'.trans hplace⟩

/-- What the statements say of such an instruction. -/
theorem Placed.entered {h : Hdr} {n : FUnit} (hp : Placed f ((s.face f).seq, (s.face f).pc, n, sigOf h) s t) :
    entered f h n (fun _ => True) s t ∧ nothingYet f s t := by
  obtain ⟨w, e, hwin, hold, hplace⟩ := hp.window
  obtain ⟨hseq, hpc, hunit, hsig⟩ : e.seq = _ ∧ e.pc = _ ∧ e.unit = _ ∧ e.sig = _ := by
    simpa only [Entry.place, Prod.mk.injEq] using hplace
  refine ⟨⟨hp.pc, w, e, hwin, hold, hseq, hpc, hunit, hsig, trivial⟩, fun k => ?_, fun n => ?_, fun n => ?_⟩
  · rw [State.loadByte, hp.mem, State.loadByte]
  · rw [FaceSt.gReg, hp.g, FaceSt.gReg]
  · rw [FaceSt.sReg, hp.scales, FaceSt.sReg]

theorem State.enterTensor_placed (s : State) (f : Fin 6) (h : Hdr) (e : Entering) (reads : List (Nat × Nat)) (free : Nat) (o : TOut) :
    Placed f ((s.face f).seq, (s.face f).pc, e.unit, sigOf h) s (s.enterTensor f h e reads free o) ∧
      (e.isN = true → (s.enterTensor f h e reads free o).flag (Reg.DET_JCTRL (s.face f).job) 1 = true) := by
  unfold State.enterTensor
  extract_lets fs fx folds uses tiers bufs now redo s1
  have hfold : FrontKept f Entry.seq s s1 := by
    have hfree : FrontKept f Entry.seq s { s with fresh := s.fresh + free } := ⟨rfl, fun _ h => h, FaceSt.FrontSame.refl _⟩
    exact .ite (hfree.trans (State.foldOut_frontKept ..)) hfree
  have hmark := s1.ndetMark_frontKept (π := Entry.seq) f e.isN
  have huse := (s1.ndetMark f e.isN).useDescs_frontKept (π := Entry.seq) f uses
  have hbefore := (hfold.trans hmark).trans huse
  have henter := ((s1.ndetMark f e.isN).useDescs f uses).enter_placed f h { Entry.of e.unit with
    tiers := tiers, reads := reads, writes := fxSpans fx, fx := fx, folds := folds.foldl (fun m p => m ||| p.2) 0, bufs := bufs,
    order := e.order, scratch := e.scratch, redo := if now then none else some redo, macUsed := o.mac.1, macBad := o.mac.2 }
  refine ⟨?_, fun hn => henter.taint _ (huse.taint _ ?_)⟩
  · have hplaced := Placed.ofFront hbefore henter
    rwa [hbefore.face.1, hbefore.face.2.1] at hplaced
  · rw [hn, ← hfold.face.2.2.1]
    exact s1.ndetMark_taints f

/-- An instruction has issued into the window of unit `n`, and nothing it computed shows yet; where it is one of R283's, NTAINT is set. -/
def Enters (f : Fin 6) (h : Hdr) (n : FUnit) (isN : Bool) (s : State) (o : Out) : Prop :=
  ∃ t, o = .next t ∧ entered f h n (fun _ => True) s t ∧ nothingYet f s t ∧
    (isN = true → t.flag (Reg.DET_JCTRL (s.face f).job) 1 = true)

/-- A tensor or move instruction enters the window where its checks pass, its unit can accept it and NDET allows it. -/
theorem issueTensor_enters {f : Fin 6} {h : Hdr} {e : Entering} {n : FUnit} {isN : Bool} {chk : Chk} (hi : canIssue s f h = true)
    (hchk : chk = .pass) (hunit : unitFree (s.face f) n = true) (hn : isN = true → s.flag (Reg.DET_JCTRL (s.face f).job) 0 = true)
    (he : e.unit = n) (hisN : e.isN = isN)
    (reads : State → List (Nat × Nat)) (free : State → Nat) (compute : State → TOut)
    {front : State → State} (hfront : ∀ t, FrontKept f Entry.place t (front t)) :
    Enters f h n isN s (issueTensor s f h e chk reads free compute front) := by
  subst he hisN
  have hndet : ndetChk s f e.isN = .pass := by
    refine if_neg ?_
    cases hisN : e.isN with
    | false => simp
    | true => simp [hn hisN]
  have hall : chk.and ((ndetChk s f e.isN).and (if unitFree (s.face f) e.unit then .pass else .hold)) = .pass := by
    rw [Chk.and_eq_pass, Chk.and_eq_pass]
    exact ⟨hchk, hndet, if_pos hunit⟩
  refine ⟨_, by rw [issueTensor, issue_pass hi hall], ?_⟩
  have hbegin := s.beginIssue_frontKept (π := Entry.seq) f
  generalize s.beginIssue f = b at hbegin
  generalize (b.raceView f (reads b) e.order) = v
  have hb : FrontKept f Entry.seq s { b with fresh := v.fresh } := hbegin.trans ⟨rfl, fun _ h => h, FaceSt.FrontSame.refl _⟩
  obtain ⟨hplaced, hmark⟩ := State.enterTensor_placed { b with fresh := v.fresh } f h e (reads b) (free b) (compute v)
  have hfinal := (Placed.ofFront hb hplaced).front (hfront _)
  rw [hb.face.1, hb.face.2.1] at hfinal
  refine ⟨hfinal.entered.1, hfinal.entered.2, fun hisN => (hfront _).taint _ ?_⟩
  rw [← hb.face.2.2.1]
  exact hmark hisN

theorem issueVec_enters {f : Fin 6} {h : Hdr} {ins : Instr} {o : FmtT} {chk : Chk} (hi : canIssue s f h = true) (hchk : chk = .pass)
    (hunit : unitFree (s.face f) .vector = true) (hn : isSrh o = true → s.flag (Reg.DET_JCTRL (s.face f).job) 0 = true)
    (val : State → Nat → FmtT → VecSrc) : Enters f h .vector (isSrh o) s (issueVec s f h ins o chk val) := by
  unfold issueVec
  exact issueTensor_enters hi hchk hunit hn rfl rfl _ _ _ (FrontKept.refl _ _)

theorem issueCopy_enters {f : Fin 6} {h : Hdr} {ins : Instr} {o : FmtT} {chk : Chk} {isN : Bool} (hi : canIssue s f h = true)
    (hchk : chk = .pass) (hunit : unitFree (s.face f) .vector = true)
    (hn : isN = true → s.flag (Reg.DET_JCTRL (s.face f).job) 0 = true) (srcs : List Nat) (extra : Nat) (more : List (Nat × Bool))
    (compute : State → TOut) : Enters f h .vector isN s (issueCopy s f h ins o chk srcs isN extra more compute) :=
  issueTensor_enters hi hchk hunit hn rfl rfl _ _ _ (FrontKept.refl _ _)

theorem recIssue_enters {f : Fin 6} {h : Hdr} {ins : Instr} {o : FmtT} {chunk : Bool} (hi : canIssue s f h = true)
    (hchk : recChk s f o chunk = .pass) (hunit : unitFree (s.face f) .tile = true)
    (hn : isSrh o = true → s.flag (Reg.DET_JCTRL (s.face f).job) 0 = true) : Enters f h .tile (isSrh o) s (recIssue chunk ins f h o s) := by
  unfold recIssue
  exact issueTensor_enters hi hchk hunit hn rfl rfl _ _ _ fun t => t.mixAccs_frontKept f o

theorem moveOut_enters {f : Fin 6} {h : Hdr} {ins : Instr} {o : FmtM} {chk : Chk} (hi : canIssue s f h = true) (hchk : chk = .pass)
    (hunit : unitFree (s.face f) .mover = true) (uses : List (Nat × Bool)) (reads : State → List (Nat × Nat)) (free : Nat)
    (compute : State → TOut) {remote : State → State} (hremote : ∀ t, FrontKept f Entry.place t (remote t)) :
    Enters f h .mover false s (moveOut s f h o ins chk uses reads free compute remote) := by
  unfold moveOut
  refine issueTensor_enters hi hchk hunit (fun hn => absurd hn Bool.false_ne_true) rfl rfl _ _ _ fun t => ?_
  refine (FrontKept.setFace t (FaceSt.FrontSame.mapWindow _ fun e => ?_)).trans (hremote _)
  split <;> rfl

theorem execMov_enters {f : Fin 6} {h : Hdr} {o : FmtM} (hi : canIssue s f h = true) (hchk : movChk s f o = .pass)
    (hunit : unitFree (s.face f) .mover = true) : Enters f h .mover false s (execMov f h o s) := by
  unfold execMov
  extract_lets d dst src hit get chk uses
  split
  · exact moveOut_enters hi hchk hunit _ _ _ _ fun t => t.openXfer_frontKept ..
  · exact moveOut_enters hi hchk hunit _ _ _ _ fun t => s.putXfer_frontKept t f dst

theorem execMovz_enters {f : Fin 6} {h : Hdr} {o : FmtM} (hi : canIssue s f h = true) (hchk : movzChk s f o = .pass)
    (hunit : unitFree (s.face f) .mover = true) : Enters f h .mover false s (execMovz f h o s) := by
  unfold execMovz
  exact moveOut_enters hi hchk hunit _ _ _ _ fun t => s.putXfer_frontKept t f _

/-- CONV with nothing of the job in flight: the front end reads the geometry record as it stands in memory (R231). -/
theorem execConv_enters {f : Fin 6} {h : Hdr} {o : FmtT} (hi : canIssue s f h = true) (hq : quiet s f)
    (hchk : convChk s f o (s.geoAt f o.dc.toNat) = .pass) (hunit : unitFree (s.face f) .tile = true)
    (hn : isSrh o = true → s.flag (Reg.DET_JCTRL (s.face f).job) 0 = true) : Enters f h .tile (isSrh o) s (execConv f h o s) := by
  unfold execConv
  extract_lets bias y v0 words g s'
  have hv0 : v0 = s := State.raceView_quiet hq _ _
  have hs' : s' = s := by
    simp only [s', hv0]
    exact ite_self s
  have hg : convChk s f o g = .pass := by
    simp only [g, words, hv0]
    exact hchk
  rw [hs']
  exact issueTensor_enters hi hg hunit hn rfl rfl _ _ _ fun t => t.setAccType_frontKept ..

/-- Each row of the table of tensor instructions. -/
theorem tensorRows_enter {f : Fin 6} {h : Hdr} (hi : canIssue s f h = true) : ∀ p ∈ tensorRows, ∀ o : FmtT, p.2.2.1 s f o = .pass →
    unitFree (s.face f) p.2.1 = true → (p.2.2.2 o = true → s.flag (Reg.DET_JCTRL (s.face f).job) 0 = true) →
    Enters f h p.2.1 (p.2.2.2 o) s (exec (p.1 f h o) s) := by
  simp only [tensorRows, List.forall_mem_cons, List.not_mem_nil, IsEmpty.forall_iff, implies_true, and_true]
  have plain := fun t => FrontKept.refl f Entry.place t
  refine ⟨fun o hc hu hn => ?_, fun o hc hu hn => ?_, fun o hc hu hn => ?_, fun o hc hu hn => ?_, fun o hc hu hn => ?_,
    fun o hc hu hn => ?_, fun o hc hu hn => ?_, fun o hc hu hn => ?_, fun o hc hu hn => ?_, fun o hc hu hn => ?_,
    fun o hc hu hn => ?_, fun o hc hu hn => ?_, fun o hc hu hn => ?_, fun o hc hu hn => ?_, fun o hc hu hn => ?_,
    fun o hc hu hn => ?_, fun o hc hu hn => ?_, fun o hc hu hn => ?_, fun o hc hu hn => ?_, fun o hc hu hn => ?_,
    fun o hc hu hn => ?_, fun o hc hu hn => ?_, fun o hc hu hn => ?_, fun o hc hu hn => ?_, fun o hc hu hn => ?_,
    fun o hc hu hn => ?_, fun o hc hu hn => ?_⟩
  · show Enters f h _ _ s (execMm f h o s)
    unfold execMm
    exact issueTensor_enters hi hc hu hn rfl rfl _ _ _ fun t => .ite (t.setAccType_frontKept ..) (plain t)
  · show Enters f h _ _ s (execPtb f h o s)
    exact issueTensor_enters hi hc hu hn rfl rfl _ _ _ plain
  · show Enters f h _ _ s (execPtl f h o s)
    exact issueTensor_enters hi hc hu hn rfl rfl _ _ _ fun t => .ite (t.setAccType_frontKept ..) (plain t)
  · show Enters f h _ _ s (execAccout f h o s)
    unfold execAccout
    exact issueTensor_enters hi hc hu hn rfl rfl _ _ _ plain
  · show Enters f h _ _ s (execAccin f h o s)
    exact issueTensor_enters hi hc hu hn rfl rfl _ _ _ fun t => t.setAccType_frontKept ..
  · show Enters f h _ _ s (execAccz f h o s)
    exact issueTensor_enters hi hc hu hn rfl rfl _ _ _ fun t => t.setAccType_frontKept ..
  · show Enters f h _ _ s (execVew f h o s)
    exact issueVec_enters hi hc hu hn _
  · show Enters f h _ _ s (execVtr f h o s)
    exact issueVec_enters hi hc hu hn _
  · show Enters f h _ _ s (execVred f h o s)
    exact issueVec_enters hi hc hu hn _
  · show Enters f h _ _ s (execVnorm f h o s)
    exact issueVec_enters hi hc hu hn _
  · show Enters f h _ _ s (execVsmx f h o s)
    exact issueVec_enters hi hc hu hn _
  · show Enters f h _ _ s (execQnt f h o s)
    exact issueVec_enters hi hc hu hn _
  · show Enters f h _ _ s (execVrnd f h o s)
    exact issueTensor_enters hi hc hu hn rfl rfl _ _ _ plain
  · show Enters f h _ _ s (execTrp f h o s)
    exact issueCopy_enters hi hc hu hn _ _ _ _
  · show Enters f h _ _ s (execGath f h o s)
    exact issueCopy_enters hi hc hu hn _ _ _ _
  · show Enters f h _ _ s (execScat f h o s)
    exact issueCopy_enters hi hc hu hn _ _ _ _
  · show Enters f h _ _ s (execGfa f h o s)
    exact issueCopy_enters hi hc hu (fun _ => hn trivial) _ _ _ _
  · show Enters f h _ _ s (execRacc f h o s)
    exact issueTensor_enters hi hc hu (fun _ => hn trivial) rfl rfl _ _ _ plain
  · show Enters f h _ _ s (execSexp f h o s)
    exact issueTensor_enters hi hc hu hn rfl rfl _ _ _ plain
  · show Enters f h _ _ s (execSimp f h o s)
    exact issueTensor_enters hi hc hu hn rfl rfl _ _ _ fun t => t.banksDefined_frontKept ..
  · show Enters f h _ _ s (execDgout f h o s)
    unfold execDgout
    exact issueTensor_enters hi hc hu hn rfl rfl _ _ _ fun t => FrontKept.setFace t ⟨rfl, rfl, rfl, rfl, rfl, rfl⟩
  · show Enters f h _ _ s (execDgrd f h o s)
    exact issueCopy_enters hi hc hu hn _ _ _ _
  · show Enters f h _ _ s (execAttn f h o s)
    unfold execAttn
    exact issueTensor_enters hi hc hu hn rfl rfl _ _ _ fun t => (t.setAccType_frontKept ..).trans (State.setAccType_frontKept ..)
  · show Enters f h _ _ s (execAttnb f h o s)
    unfold execAttnb
    exact issueTensor_enters hi hc hu hn rfl rfl _ _ _ fun t => (t.setAccType_frontKept ..).trans (State.setAccType_frontKept ..)
  · show Enters f h _ _ s (execKvput f h o s)
    exact issueTensor_enters hi hc hu hn rfl rfl _ _ _ plain
  · show Enters f h _ _ s (execRstep f h o s)
    exact recIssue_enters hi hc hu hn
  · show Enters f h _ _ s (execRchunk f h o s)
    exact recIssue_enters hi hc hu hn

end

/-- Settles O19: what stands between issue and the window works on what is in flight and on the Face's bookkeeping, whatever the
instruction computes. -/
theorem tensorInstructionsEnterTheWindow : Obligations.TensorInstructionsEnterTheWindow := by
  intro f h s hi
  refine ⟨tensorRows_enter hi, fun o hq hc hu hn => ?_, fun o hu => ⟨fun hc => ?_, fun hc => ?_⟩⟩
  · obtain ⟨t, hexec, hent, hnot, -⟩ : Enters f h .tile (isSrh o) s (exec (.conv f h o) s) := execConv_enters hi hq hc hu hn
    exact ⟨t, hexec, hent, hnot⟩
  · obtain ⟨t, hexec, hent, hnot, -⟩ : Enters f h .mover false s (exec (.mov f h o) s) := execMov_enters hi hc hu
    exact ⟨t, hexec, hent, hnot⟩
  · obtain ⟨t, hexec, hent, hnot, -⟩ : Enters f h .mover false s (exec (.movz f h o) s) :=
      execMovz_enters hi hc hu
    exact ⟨t, hexec, hent, hnot⟩

end Sys2Proof.Machine

namespace Sys2Proof.Machine

/-! # Codes and the bytes that hold them (R36) -/

section
variable {α : Type} {fmt n : Nat}

theorem chunksOf_cons (c fuel : Nat) (a : α) (l : List α) :
    chunksOf c (fuel + 1) (a :: l) = (a :: l).take c :: chunksOf c fuel ((a :: l).drop c) := rfl

theorem chunksOf_append {c fuel : Nat} {x y : List α} (hx : x.length = c) (hc : 0 < c) :
    chunksOf c (fuel + 1) (x ++ y) = x :: chunksOf c fuel y := by
  obtain ⟨a, l, rfl⟩ := List.exists_cons_of_length_pos (hx ▸ hc)
  subst hx
  rw [List.cons_append, chunksOf_cons, ← List.cons_append, List.take_left' rfl, List.drop_left' rfl]

/-- More fuel than elements changes nothing. -/
theorem chunksOf_fuel {c : Nat} (hc : 0 < c) {fuel : Nat} (l : List α) (h : l.length ≤ fuel) : chunksOf c fuel l = chunksOf c l.length l := by
  refine List.ext_getElem? fun q => ?_
  rw [chunksOf_getElem?, chunksOf_getElem?]
  have hq : c * q < l.length → q < l.length := fun hlt => lt_of_le_of_lt (Nat.le_mul_of_pos_left q hc) hlt
  by_cases hlt : c * q < l.length
  · rw [if_pos ⟨hlt, (hq hlt).trans_le h⟩, if_pos ⟨hlt, hq hlt⟩]
  · rw [if_neg fun h => hlt h.1, if_neg fun h => hlt h.1]

theorem groupElems_pos (fmt : Nat) : 0 < groupElems fmt := by
  unfold groupElems
  split
  · decide
  · split
    · decide
    · split <;> decide

/-- The bits of a group fit its bytes; a format with one element to a group fills them. -/
theorem group_fits (fmt : Nat) : fmtBits fmt * groupElems fmt ≤ 8 * groupBytes fmt := by
  by_cases h : fmt < 18
  · revert h fmt
    decide
  · have hbits : fmtBits fmt = 8 := by
      unfold fmtBits
      split <;> omega
    have helems : groupElems fmt = 1 := by
      unfold groupElems
      simp only [beq_iff_eq, Bool.or_eq_true]
      rw [if_neg (by omega), if_neg (by omega), if_neg (by omega)]
    have hbytes : groupBytes fmt = 1 := by
      unfold groupBytes
      simp only [beq_iff_eq, Bool.or_eq_true]
      rw [if_neg (by omega), if_neg (by omega), if_pos helems, hbits]
    rw [hbits, helems, hbytes]

theorem fmtBits_pos (fmt : Nat) : 0 < fmtBits fmt := by
  unfold fmtBits
  split <;> decide

theorem groupBytes_pos (fmt : Nat) : 0 < groupBytes fmt :=
  Nat.pos_of_ne_zero fun h => by
    have hfits := group_fits fmt
    rw [h] at hfits
    exact absurd (Nat.mul_pos (fmtBits_pos fmt) (groupElems_pos fmt)) (by omega)

theorem packGroup_lt (fmt : Nat) (g : List Nat) : packGroup fmt g < 2 ^ (fmtBits fmt * g.length) := by
  induction g with
  | nil => simp [packGroup]
  | cons c g ih =>
    have hc : c % 2 ^ fmtBits fmt < 2 ^ fmtBits fmt := Nat.mod_lt _ (Nat.two_pow_pos _)
    rw [packGroup, List.length_cons, Nat.mul_succ, Nat.add_comm (fmtBits fmt * g.length), Nat.pow_add]
    calc c % 2 ^ fmtBits fmt + 2 ^ fmtBits fmt * packGroup fmt g
        < 2 ^ fmtBits fmt + 2 ^ fmtBits fmt * packGroup fmt g := by omega
      _ = 2 ^ fmtBits fmt * (packGroup fmt g + 1) := by rw [Nat.mul_succ, Nat.add_comm]
      _ ≤ 2 ^ fmtBits fmt * 2 ^ (fmtBits fmt * g.length) := Nat.mul_le_mul_left _ ih

/-- The code at place `j` of a packed group. -/
theorem packGroup_digit (fmt : Nat) (g : List Nat) (j : Nat) :
    packGroup fmt g / 2 ^ (fmtBits fmt * j) % 2 ^ fmtBits fmt = g.getD j 0 % 2 ^ fmtBits fmt := by
  induction g generalizing j with
  | nil => simp [packGroup]
  | cons c g ih =>
    have hpos : 0 < 2 ^ fmtBits fmt := Nat.two_pow_pos _
    cases j with
    | zero => simp [packGroup]
    | succ j =>
      have hc : c % 2 ^ fmtBits fmt / 2 ^ fmtBits fmt = 0 := Nat.div_eq_of_lt (Nat.mod_lt _ hpos)
      rw [packGroup, Nat.mul_succ, Nat.add_comm (fmtBits fmt * j), Nat.pow_add, ← Nat.div_div_eq_div_mul,
        Nat.add_mul_div_left _ _ hpos, hc, Nat.zero_add, ih, List.getD_cons_succ]

/-- Every code fits the format. -/
def codesFit (fmt : Nat) (cs : List Nat) : Prop := ∀ c ∈ cs, c < 2 ^ fmtBits fmt

/-- A group read back: its codes, and zeros up to a whole group. -/
theorem unpackGroup_packGroup {g : List Nat} (hg : codesFit fmt g) (hlen : g.length ≤ groupElems fmt) :
    unpackGroup fmt (packGroup fmt g) = g ++ List.replicate (groupElems fmt - g.length) 0 := by
  refine List.ext_getElem (by simp [unpackGroup]; omega) fun j h1 h2 => ?_
  simp only [unpackGroup, List.getElem_map, List.getElem_range, packGroup_digit]
  by_cases hj : j < g.length
  · rw [List.getElem_append_left hj, List.getD_eq_getElem?_getD, List.getElem?_eq_getElem hj, Option.getD_some]
    exact Nat.mod_eq_of_lt (hg _ (List.getElem_mem hj))
  · rw [List.getElem_append_right (by omega), List.getElem_replicate, List.getD_eq_getElem?_getD, List.getElem?_eq_none (by omega)]
    rfl

/-- The first group of packed codes, and the rest. -/
theorem packCodes_cons (fmt c : Nat) (cs : List Nat) : packCodes fmt (c :: cs) =
    leBytes (groupBytes fmt) (packGroup fmt ((c :: cs).take (groupElems fmt))) ++ packCodes fmt ((c :: cs).drop (groupElems fmt)) := by
  have hpos := groupElems_pos fmt
  unfold packCodes
  rw [List.length_cons, chunksOf_cons, List.flatMap_cons, chunksOf_fuel hpos]
  rw [List.length_drop, List.length_cons]
  omega

/-- The codes of a list of bytes, whole groups of them. -/
def unpackAll (fmt : Nat) (bs : List Byte) : List Nat := (chunksOf (groupBytes fmt) bs.length bs).flatMap fun g => unpackGroup fmt (leNat g)

theorem unpackCodes_eq (fmt n : Nat) (bs : List Byte) : unpackCodes fmt n bs = (unpackAll fmt bs).take n := rfl

theorem unpackAll_append {x : List Byte} (hx : x.length = groupBytes fmt) (y : List Byte) :
    unpackAll fmt (x ++ y) = unpackGroup fmt (leNat x) ++ unpackAll fmt y := by
  have hpos := groupBytes_pos fmt
  have hlen : (x ++ y).length = (x.length - 1 + y.length) + 1 := by rw [List.length_append]; omega
  rw [unpackAll, hlen, chunksOf_append hx hpos, List.flatMap_cons, chunksOf_fuel hpos _ (by omega), unpackAll]

theorem codesFit.drop {cs : List Nat} (h : codesFit fmt cs) (k : Nat) : codesFit fmt (cs.drop k) := fun c hc => h c (List.mem_of_mem_drop hc)

theorem codesFit.take {cs : List Nat} (h : codesFit fmt cs) (k : Nat) : codesFit fmt (cs.take k) := fun c hc => h c (List.mem_of_mem_take hc)

theorem leNat_packGroup {g : List Nat} (hlen : g.length ≤ groupElems fmt) :
    leNat (leBytes (groupBytes fmt) (packGroup fmt g)) = packGroup fmt g := by
  rw [leNat_leBytes]
  refine Nat.mod_eq_of_lt ((packGroup_lt fmt g).trans_le ?_)
  calc 2 ^ (fmtBits fmt * g.length)
      ≤ 2 ^ (8 * groupBytes fmt) := Nat.pow_le_pow_right (by decide) ((Nat.mul_le_mul_left _ hlen).trans (group_fits fmt))
    _ = 256 ^ groupBytes fmt := by rw [Nat.pow_mul]

/-- Packed codes are read back. -/
theorem unpackCodes_packCodes {cs : List Nat} (h : codesFit fmt cs) : unpackCodes fmt cs.length (packCodes fmt cs) = cs := by
  induction hn : cs.length using Nat.strong_induction_on generalizing cs with
  | h n ih =>
    subst hn
    have hpos := groupElems_pos fmt
    match cs with
    | [] => rfl
    | c :: cs =>
      have hle : ((c :: cs).take (groupElems fmt)).length ≤ groupElems fmt := List.length_take_le _ _
      rw [unpackCodes_eq, packCodes_cons, unpackAll_append (leBytes_length _ _), leNat_packGroup hle,
        unpackGroup_packGroup (h.take _) hle]
      by_cases hlen : (c :: cs).length ≤ groupElems fmt
      · rw [List.take_of_length_le hlen, List.append_assoc, List.take_left]
      · have htake : ((c :: cs).take (groupElems fmt)).length = groupElems fmt := List.length_take_of_le (by omega)
        have hrest := ih ((c :: cs).drop (groupElems fmt)).length (by rw [List.length_drop]; omega) (h.drop _) rfl
        rw [htake, Nat.sub_self, List.replicate_zero, List.append_nil, List.take_append, htake, ← List.length_drop, ← unpackCodes_eq,
          hrest, List.take_of_length_le (by omega), List.take_append_drop]

theorem rowBytes_mono (fmt : Nat) {m n : Nat} (h : m ≤ n) : rowBytes fmt m ≤ rowBytes fmt n :=
  Nat.mul_le_mul_right _ (Nat.div_le_div_right (by omega))

theorem rowBytes_zero (fmt : Nat) : rowBytes fmt 0 = 0 := by
  have hpos := groupElems_pos fmt
  rw [rowBytes, Nat.div_eq_of_lt (by omega), Nat.zero_mul]

/-- One group more or less. -/
theorem rowBytes_group (fmt : Nat) {n : Nat} (h : 0 < n) : rowBytes fmt n = groupBytes fmt + rowBytes fmt (n - groupElems fmt) := by
  have hpos := groupElems_pos fmt
  have hdiv : (n + groupElems fmt - 1) / groupElems fmt = (n - groupElems fmt + groupElems fmt - 1) / groupElems fmt + 1 := by
    by_cases hle : n ≤ groupElems fmt
    · rw [Nat.div_eq_of_lt_le (k := 1) (by omega) (by omega), Nat.div_eq_of_lt (by omega)]
    · rw [← Nat.add_div_right _ hpos]
      congr 1
      omega
  rw [rowBytes, rowBytes, hdiv, Nat.succ_mul, Nat.add_comm]

theorem packCodes_length (fmt : Nat) (cs : List Nat) : (packCodes fmt cs).length = rowBytes fmt cs.length := by
  induction hn : cs.length using Nat.strong_induction_on generalizing cs with
  | h n ih =>
    subst hn
    have hpos := groupElems_pos fmt
    match cs with
    | [] => exact (rowBytes_zero fmt).symm
    | c :: cs =>
      have hlt : ((c :: cs).drop (groupElems fmt)).length < (c :: cs).length := by rw [List.length_drop, List.length_cons]; omega
      rw [packCodes_cons, List.length_append, leBytes_length, ih _ hlt _ rfl, List.length_drop, ← rowBytes_group fmt (by simp)]

theorem leBytes_zero (n : Nat) : leBytes n 0 = List.replicate n 0 := by
  induction n with
  | zero => rfl
  | succ n ih =>
    rw [leBytes, Nat.zero_div, ih]
    rfl

theorem packGroup_zeros (fmt n : Nat) : packGroup fmt (List.replicate n 0) = 0 := by
  induction n with
  | zero => rfl
  | succ n ih => rw [List.replicate_succ, packGroup, ih, Nat.zero_mod, Nat.mul_zero]

/-- Zero codes are zero bytes. -/
theorem packCodes_zeros (fmt n : Nat) : ∀ b ∈ packCodes fmt (List.replicate n 0), b = 0 := by
  intro b hb
  obtain ⟨g, hg, hb⟩ := List.mem_flatMap.mp hb
  obtain ⟨q, hq⟩ := List.getElem?_of_mem hg
  rw [chunksOf_getElem?] at hq
  split at hq
  · cases hq
    rw [List.drop_replicate, List.take_replicate, packGroup_zeros, leBytes_zero] at hb
    exact List.eq_of_mem_replicate hb
  · cases hq

theorem unpackAll_fit (fmt : Nat) (bs : List Byte) : codesFit fmt (unpackAll fmt bs) := by
  intro c hc
  obtain ⟨g, -, hc⟩ := List.mem_flatMap.mp hc
  obtain ⟨j, -, rfl⟩ := List.mem_map.mp hc
  exact Nat.mod_lt _ (Nat.two_pow_pos _)

theorem unpackAll_length (fmt : Nat) {q : Nat} {bs : List Byte} (h : bs.length = q * groupBytes fmt) :
    (unpackAll fmt bs).length = q * groupElems fmt := by
  induction q generalizing bs with
  | zero =>
    rw [Nat.zero_mul] at h
    rw [List.length_eq_zero_iff.mp h, Nat.zero_mul]
    rfl
  | succ q ih =>
    rw [Nat.succ_mul] at h
    have hhead : (bs.take (groupBytes fmt)).length = groupBytes fmt := List.length_take_of_le (by omega)
    rw [← List.take_append_drop (groupBytes fmt) bs, unpackAll_append hhead, List.length_append,
      ih (by rw [List.length_drop]; omega), unpackGroup, List.length_map, List.length_range, Nat.succ_mul, Nat.add_comm]

theorem unpackCodes_length {bs : List Byte} (h : bs.length = rowBytes fmt n) : (unpackCodes fmt n bs).length = n := by
  have hpos := groupElems_pos fmt
  rw [unpackCodes_eq, List.length_take, unpackAll_length fmt h]
  have hdiv := Nat.div_add_mod (n + groupElems fmt - 1) (groupElems fmt)
  have hmod := Nat.mod_lt (n + groupElems fmt - 1) hpos
  rw [Nat.mul_comm] at hdiv
  omega

theorem State.load_length (s : State) (k n : Nat) : (s.load k n).length = n := by rw [State.load, List.length_map, List.length_range]

/-- The codes that memory holds: as many as asked for, each in its format. -/
theorem State.codesAt_length (s : State) (k fmt n : Nat) : (s.codesAt k fmt n).length = n := unpackCodes_length (s.load_length _ _)

theorem State.codesAt_fit (s : State) (k fmt n : Nat) : codesFit fmt (s.codesAt k fmt n) := (unpackAll_fit fmt _).take n

end

end Sys2Proof.Machine

namespace Sys2Proof.Machine

/-! # What the effects of a move write (R112, R131)

A move stores bytes, and counts: it adds to a counter register of its Face or marks a token of a page. What memory holds once
all its effects are made is, at every key, the last byte stored there. -/

/-- The byte that a store leaves at key `k`. -/
def Fx.byteAt (k : Nat) : Fx → Option Byte
  | .store a bs => if a ≤ k then bs[k - a]? else none
  | _ => none

/-- What key `k` holds after a list of stores, `b` before them. -/
def lastByte (k : Nat) (l : List Fx) (b : Byte) : Byte := l.foldl (fun b x => (x.byteAt k).getD b) b

/-- The effects that a move of Face `f` has. -/
def Fx.ofMove (f : Nat) : Fx → Bool
  | .store _ _ => true
  | .count r _ => r == Reg.ATTN_KVDROP f
  | .qsat g d _ => g == f && decide (d < 64)
  | .kvRow _ _ _ _ => true
  | _ => false

section
variable {s t u : State} {f k : Nat} {l m : List Fx} {b v : Byte}

theorem lastByte_append : lastByte k (l ++ m) b = lastByte k m (lastByte k l b) := List.foldl_append

theorem lastByte_none (h : ∀ x ∈ l, x.byteAt k = none) : lastByte k l b = b := by
  induction l generalizing b with
  | nil => rfl
  | cons x l ih =>
    rw [lastByte, List.foldl_cons, h x List.mem_cons_self]
    exact ih fun y hy => h y (List.mem_cons_of_mem _ hy)

/-- Where every store that reaches a key leaves the same byte, and one does, the key holds it. -/
theorem lastByte_const (h : ∀ x ∈ l, x.byteAt k = none ∨ x.byteAt k = some v) (hb : b = v ∨ ∃ x ∈ l, x.byteAt k = some v) :
    lastByte k l b = v := by
  induction l generalizing b with
  | nil => exact hb.resolve_right (by simp)
  | cons x l ih =>
    have hrest := fun y hy => h y (List.mem_cons_of_mem _ hy)
    rw [lastByte, List.foldl_cons]
    rcases h x List.mem_cons_self with hx | hx
    · rw [hx]
      refine ih hrest (hb.imp_right ?_)
      rintro ⟨y, hy, hval⟩
      rcases List.mem_cons.mp hy with rfl | hy
      · rw [hx] at hval
        cases hval
      · exact ⟨y, hy, hval⟩
    · rw [hx]
      exact ih hrest (.inl rfl)

theorem byteAt_store_iff {a : Nat} {bs : List Byte} : (Fx.store a bs).byteAt k = some v ↔ a ≤ k ∧ bs[k - a]? = some v := by
  simp [Fx.byteAt]

theorem byteAt_store_none {a : Nat} {bs : List Byte} (h : ¬ (a ≤ k ∧ k < a + bs.length)) : (Fx.store a bs).byteAt k = none := by
  show (if a ≤ k then bs[k - a]? else none) = none
  split
  · exact List.getElem?_eq_none (by omega)
  · rfl

/-- A store cut into pieces leaves the same bytes (R131). -/
theorem lastByte_pieces (x : Fx) (hx : x.ofMove f = true) : lastByte k (x.pieces 4096) b = lastByte k [x] b := by
  cases x with
  | store a bs =>
    have hmem : ∀ y, y ∈ (Fx.store a bs).pieces 4096 ↔
        ∃ q, 4096 * q < bs.length ∧ y = .store (a + 4096 * q) ((bs.drop (4096 * q)).take 4096) := fun y => by
      constructor
      · intro hy
        obtain ⟨⟨c, q⟩, hc, rfl⟩ := List.mem_map.mp hy
        have hget : (chunksOf 4096 bs.length bs)[q]? = some c := List.mem_zipIdx_iff_getElem?.mp hc
        rw [chunksOf_getElem?] at hget
        split at hget
        · next hq =>
          cases hget
          exact ⟨q, hq.1, rfl⟩
        · cases hget
      · rintro ⟨q, hq, rfl⟩
        refine List.mem_map.mpr ⟨((bs.drop (4096 * q)).take 4096, q), ?_, rfl⟩
        rw [List.mem_zipIdx_iff_getElem?, chunksOf_getElem?, if_pos ⟨hq, by omega⟩]
    have hpiece : ∀ q w, (Fx.store (a + 4096 * q) ((bs.drop (4096 * q)).take 4096)).byteAt k = some w ↔
        a + 4096 * q ≤ k ∧ k < a + 4096 * (q + 1) ∧ bs[k - a]? = some w := fun q w => by
      rw [byteAt_store_iff, List.getElem?_take, List.getElem?_drop]
      constructor
      · rintro ⟨hle, hget⟩
        split at hget
        · next hlt => exact ⟨hle, by omega, by rwa [show 4096 * q + (k - (a + 4096 * q)) = k - a by omega] at hget⟩
        · cases hget
      · rintro ⟨hle, hlt, hget⟩
        exact ⟨hle, by rwa [if_pos (by omega), show 4096 * q + (k - (a + 4096 * q)) = k - a by omega]⟩
    have hone : lastByte k [.store a bs] b = ((Fx.store a bs).byteAt k).getD b := rfl
    rw [hone]
    cases hval : (Fx.store a bs).byteAt k with
    | none =>
      refine lastByte_none fun y hy => ?_
      obtain ⟨q, -, rfl⟩ := (hmem y).mp hy
      refine Option.eq_none_iff_forall_ne_some.mpr fun w hw => ?_
      obtain ⟨hle, -, hget⟩ := (hpiece q w).mp hw
      rw [byteAt_store_iff.mpr ⟨by omega, hget⟩] at hval
      cases hval
    | some w =>
      obtain ⟨hle, hget⟩ := byteAt_store_iff.mp hval
      have hlen := (List.getElem?_eq_some_iff.mp hget).1
      rw [Option.getD_some]
      refine lastByte_const (fun y hy => ?_) (.inr ⟨_, (hmem _).mpr ⟨(k - a) / 4096, by omega, rfl⟩,
        (hpiece _ w).mpr ⟨by omega, by omega, hget⟩⟩)
      obtain ⟨q, -, rfl⟩ := (hmem y).mp hy
      refine (Option.eq_none_or_eq_some _).imp_right fun ⟨w', hw'⟩ => ?_
      rw [hw', ← hget, ((hpiece q w').mp hw').2.2]
  | zero => cases hx
  | racc => cases hx
  | _ => rfl

theorem lastByte_flatMap_pieces (h : ∀ x ∈ l, x.ofMove f = true) : lastByte k (l.flatMap (Fx.pieces 4096)) b = lastByte k l b := by
  induction l generalizing b with
  | nil => rfl
  | cons x l ih =>
    have hone : lastByte k (x :: l) b = lastByte k l (lastByte k [x] b) := rfl
    rw [List.flatMap_cons, lastByte_append, lastByte_pieces x (h x List.mem_cons_self), hone]
    exact ih fun y hy => h y (List.mem_cons_of_mem _ hy)

theorem pieces_ofMove {x y : Fx} (hx : x.ofMove f = true) (hy : y ∈ x.pieces 4096) : y.ofMove f = true := by
  cases x with
  | store a bs =>
    obtain ⟨p, -, rfl⟩ := List.mem_map.mp hy
    rfl
  | zero => cases hx
  | racc => cases hx
  | _ =>
    rw [List.mem_singleton.mp hy]
    exact hx

/-! ## Making them -/

/-- The Faces, and whether full accounting is in force, are as before. -/
def facesAndAccounting (s t : State) : Prop := t.faces = s.faces ∧ t.acctFull = s.acctFull

theorem facesAndAccounting.refl (s : State) : facesAndAccounting s s := ⟨rfl, rfl⟩

theorem facesAndAccounting.trans (h : facesAndAccounting s t) (h' : facesAndAccounting t u) : facesAndAccounting s u :=
  ⟨h'.1.trans h.1, h'.2.trans h.2⟩

theorem State.wr_acctFull (s : State) {a : Nat} (ha : a < Reg.SCHED_CTRL) (v : Word) : (s.wr a v).acctFull = s.acctFull :=
  State.acctFull_congr (by rw [State.rd_wr, if_neg (Nat.ne_of_gt ha)]) fun p _ => by
    have hp : Reg.SCHED_CTRL ≤ Reg.SCHED_PARTA p := by simp only [Reg.SCHED_CTRL, Reg.SCHED_PARTA]; omega
    rw [State.rd_wr, if_neg (Nat.ne_of_gt (ha.trans_le hp))]

theorem State.countQsat_kept (s : State) {d : Nat} (hf : f < 6) (hd : d < 64) (n : Nat) :
    (s.countQsat f d n).mem = s.mem ∧ facesAndAccounting s (s.countQsat f d n) := by
  have hcnt : Reg.QSAT_CNT f d < Reg.SCHED_CTRL := by simp only [Reg.QSAT_CNT, Reg.SCHED_CTRL]; omega
  have hstatus : Reg.QSAT_STATUS f < Reg.SCHED_CTRL := by simp only [Reg.QSAT_STATUS, Reg.SCHED_CTRL]; omega
  unfold State.countQsat
  split
  · exact ⟨rfl, .refl s⟩
  · extract_lets t
    have ht : facesAndAccounting s t := ⟨rfl, s.wr_acctFull hcnt _⟩
    have hmem : t.mem = s.mem := rfl
    clear_value t
    split
    · exact ⟨hmem, ht.trans ⟨rfl, t.wr_acctFull hstatus _⟩⟩
    · exact ⟨hmem, ht⟩

theorem State.kvMark_kept (s : State) (j buf page tok : Nat) :
    (s.kvMark j buf page tok).mem = s.mem ∧ facesAndAccounting s (s.kvMark j buf page tok) := by
  unfold State.kvMark
  split
  · exact ⟨rfl, .refl s⟩
  · refine State.each_rel (R := fun t u => u.mem = t.mem ∧ facesAndAccounting t u) (fun t => ⟨rfl, .refl t⟩)
      (fun h h' => ⟨h'.1.trans h.1, h.2.trans h'.2⟩) _ (fun t x _ => ?_) s
    exact ⟨rfl, rfl, rfl⟩

/-- One effect: the byte it stores, and nothing else in memory. -/
theorem State.completeFx_ofMove (s : State) (hf : f < 6) (folds : Nat) {x : Fx} (hx : x.ofMove f = true) :
    (∀ k, (s.completeFx f folds x).loadByte k = (x.byteAt k).getD (s.loadByte k)) ∧ facesAndAccounting s (s.completeFx f folds x) := by
  cases x with
  | store a bs =>
    refine ⟨fun k => ?_, rfl, rfl⟩
    show (s.store a bs).loadByte k = _
    rw [State.loadByte_store, byteOver, Fx.byteAt]
    by_cases hle : a ≤ k
    · by_cases hlt : k < a + bs.length
      · rw [if_pos ⟨hle, hlt⟩, if_pos hle, List.getD_eq_getElem?_getD, List.getElem?_eq_getElem (by omega)]
        rfl
      · rw [if_neg fun h => hlt h.2, if_pos hle, List.getElem?_eq_none (by omega)]
        rfl
    · rw [if_neg fun h => hle h.1, if_neg hle]
      rfl
  | count r n =>
    obtain rfl : r = Reg.ATTN_KVDROP f := eq_of_beq hx
    exact ⟨fun k => rfl, rfl, s.wr_acctFull (by simp only [Reg.ATTN_KVDROP, Reg.SCHED_CTRL]; omega) _⟩
  | qsat g d n =>
    obtain ⟨hg, hd⟩ := Bool.and_eq_true_iff.mp hx
    obtain rfl : g = f := eq_of_beq hg
    obtain ⟨hmem, hkept⟩ := s.countQsat_kept hf (of_decide_eq_true hd) n
    exact ⟨fun k => congrArg (fun m => Map.get 0 m k) hmem, hkept⟩
  | kvRow j b p t =>
    obtain ⟨hmem, hkept⟩ := s.kvMark_kept j b p t
    exact ⟨fun k => congrArg (fun m => Map.get 0 m k) hmem, hkept⟩
  | _ => cases hx

theorem State.each_completeFx_ofMove (s : State) (hf : f < 6) (folds : Nat) (h : ∀ x ∈ l, x.ofMove f = true) :
    (∀ k, (s.each l fun s x => s.completeFx f folds x).loadByte k = lastByte k l (s.loadByte k)) ∧
      facesAndAccounting s (s.each l fun s x => s.completeFx f folds x) := by
  induction l generalizing s with
  | nil => exact ⟨fun _ => rfl, .refl s⟩
  | cons x l ih =>
    obtain ⟨hbyte, hkept⟩ := s.completeFx_ofMove hf folds (h x List.mem_cons_self)
    obtain ⟨hrest, hkept'⟩ := ih (s.completeFx f folds x) fun y hy => h y (List.mem_cons_of_mem _ hy)
    refine ⟨fun k => ?_, hkept.trans hkept'⟩
    rw [lastByte, List.foldl_cons, ← hbyte]
    exact hrest k

/-- A move that completes: its stores are made, and it leaves the window (R112). -/
theorem Completable.moved {f : Fin 6} {e : Entry} (h : Completable s f e) (hread : s.badRead e = none)
    (hfx : ∀ x ∈ e.fx, x.ofMove f = true) (hacct : s.acctFull = false) : completes (.instructionComplete f e.seq) s fun t =>
      (∀ k, t.loadByte k = lastByte k e.fx (s.loadByte k)) ∧ (t.face f).window = (s.face f).window.filter fun x => x.seq != e.seq := by
  have hfit : releasesFit s e.fx := releasesFit_of_ne fun j m n hin => Bool.false_ne_true (hfx _ hin)
  obtain ⟨hbytes, hfaces, hfull⟩ := s.each_completeFx_ofMove f.isLt e.folds hfx
  refine ⟨_, h.exec hread, ?_⟩
  rw [State.completeEntry_eq hfit, State.countBytes_off (hfull.trans hacct)]
  have hleft := State.leaveWindow_signal (s.each e.fx fun s x => s.completeFx f e.folds x) f e.seq e.sig
  refine ⟨fun k => (hleft.loadByte k).trans (hbytes k), hleft.window.trans ?_⟩
  rw [State.face, hfaces, ← State.face]

end

end Sys2Proof.Machine

namespace Sys2Proof.Machine

/-! # The stores of a tensor's rows (R107, R131, R188) -/

/-- A piece of a row: its key, none on an absent page; whether it may be written; its elements. -/
abbrev Piece := Option Nat × Bool × Nat

/-- The span that writing a piece touches. -/
def Piece.span (fmt : Nat) (p : Piece) : Option (Nat × Nat) :=
  if p.2.1 then p.1.map fun k => (k, rowBytes fmt p.2.2) else none

/-- Bytes put at a key, as a store. -/
def putFx (x : Nat × List Byte) : Fx := .store x.1 x.2

/-- The span of bytes put at a key. -/
def putSpan (x : Nat × List Byte) : Nat × Nat := (x.1, x.2.length)

/-- What is put where as codes go to the pieces of a row in turn. -/
def putsOf (fmt : Nat) : List Piece → List Nat → List (Nat × List Byte)
  | [], _ => []
  | p :: ps, cs =>
    (if p.2.1 then p.1.map fun k => (k, packCodes fmt (cs.take p.2.2)) else none).toList ++ putsOf fmt ps (cs.drop p.2.2)

/-- What writing codes to row `r` puts where. -/
def TRef.puts (s : State) (t : TRef) (r : Nat) (cs : List Nat) : List (Nat × List Byte) := putsOf t.d.fmt (t.pieces s r) cs

/-- What writing every row puts where; `g r` are the codes of row `r`. -/
def TRef.allPuts (s : State) (t : TRef) (g : Nat → List Nat) : List (Nat × List Byte) :=
  (List.range t.d.rows).flatMap fun r => t.puts s r (g r)

section
variable {s u : State} {t : TRef} {fmt k f : Nat} {ps : List Piece} {cs : List Nat}

/-! ## Each row -/

/-- A fold over the pieces that stores at a writable key and otherwise only counts makes the stores of `putsOf`. -/
theorem foldl_putsOf {step : List Fx × Nat × List Nat → Piece → List Fx × Nat × List Nat}
    (hput : ∀ l n cs k m, step (l, n, cs) (some k, true, m) = (l ++ [.store k (packCodes fmt (cs.take m))], n, cs.drop m))
    (hskip : ∀ l n cs p, p.1 = none ∨ p.2.1 = false → step (l, n, cs) p = (l, n + 1, cs.drop p.2.2)) (l : List Fx) (n : Nat) :
    (ps.foldl step (l, n, cs)).1 = l ++ (putsOf fmt ps cs).map putFx := by
  induction ps generalizing l n cs with
  | nil => simp [putsOf]
  | cons p ps ih =>
    rw [List.foldl_cons]
    obtain ⟨_ | k, _ | _, m⟩ := p
    · rw [hskip _ _ _ _ (.inl rfl), ih]
      rfl
    · rw [hskip _ _ _ _ (.inl rfl), ih]
      rfl
    · rw [hskip _ _ _ _ (.inr rfl), ih]
      rfl
    · rw [hput, ih, List.append_assoc]
      rfl

theorem TRef.storeRow_fst (s : State) (t : TRef) (r : Nat) (cs : List Nat) : (t.storeRow s r cs).1 = (t.puts s r cs).map putFx := by
  refine (foldl_putsOf (fmt := t.d.fmt) (ps := t.pieces s r) (fun l n cs k m => rfl) (fun l n cs p hp => ?_) [] 0).trans
    (List.nil_append _)
  obtain ⟨_ | k, _ | _, m⟩ := p
  · rfl
  · rfl
  · rfl
  · simp at hp

theorem TRef.writeSpans_eq (s : State) (t : TRef) :
    t.writeSpans s = (List.range t.d.rows).flatMap fun r => (t.pieces s r).filterMap (Piece.span t.d.fmt) := by
  unfold TRef.writeSpans
  congr 1
  funext r
  congr 1
  funext p
  obtain ⟨_ | k, _ | _, m⟩ := p <;> rfl

/-- What is put into a piece lies in its span. -/
theorem putsOf_within {x : Nat × List Byte} (h : x ∈ putsOf fmt ps cs) :
    ∃ y ∈ ps.filterMap (Piece.span fmt), y.1 = x.1 ∧ x.2.length ≤ y.2 := by
  induction ps generalizing cs with
  | nil => cases h
  | cons p ps ih =>
    rcases List.mem_append.mp h with h | h
    · obtain ⟨_ | k, _ | _, m⟩ := p
      · cases h
      · cases h
      · cases h
      · obtain rfl := List.mem_singleton.mp h
        refine ⟨(k, rowBytes fmt m), List.mem_filterMap.mpr ⟨_, List.mem_cons_self, rfl⟩, rfl, ?_⟩
        rw [packCodes_length]
        exact rowBytes_mono fmt (List.length_take_le _ _)
    · obtain ⟨y, hy, hkey, hlen⟩ := ih h
      obtain ⟨q, hq, hspan⟩ := List.mem_filterMap.mp hy
      exact ⟨y, List.mem_filterMap.mpr ⟨q, List.mem_cons_of_mem _ hq, hspan⟩, hkey, hlen⟩

/-- With codes for every piece, what is put fills the spans. -/
theorem putsOf_spans (h : (ps.map fun p => p.2.2).sum ≤ cs.length) :
    (putsOf fmt ps cs).map putSpan = ps.filterMap (Piece.span fmt) := by
  induction ps generalizing cs with
  | nil => rfl
  | cons p ps ih =>
    rw [List.map_cons, List.sum_cons] at h
    have hrest := ih (cs := cs.drop p.2.2) (by rw [List.length_drop]; omega)
    have hlen : (cs.take p.2.2).length = p.2.2 := List.length_take_of_le (by omega)
    rw [putsOf, List.map_append, hrest, List.filterMap_cons]
    obtain ⟨_ | k, _ | _, m⟩ := p
    · rfl
    · rfl
    · rfl
    · simp only [Piece.span, putSpan, packCodes_length, hlen, if_true, Option.map_some, Option.toList_some, List.map_singleton,
        List.singleton_append]

theorem putsOf_zeros {n : Nat} {x : Nat × List Byte} (h : x ∈ putsOf fmt ps (List.replicate n 0)) : ∀ b ∈ x.2, b = 0 := by
  induction ps generalizing n with
  | nil => cases h
  | cons p ps ih =>
    rw [putsOf, List.take_replicate, List.drop_replicate] at h
    rcases List.mem_append.mp h with h | h
    · obtain ⟨_ | k, _ | _, m⟩ := p
      · cases h
      · cases h
      · cases h
      · obtain rfl := List.mem_singleton.mp h
        exact packCodes_zeros fmt _
    · exact ih h

/-- The pieces of a row of a LINEAR or BLK128 tensor whose buffer starts at `base`. -/
def plainPieces (base : Nat) (qs : List (Nat × Nat)) : List Piece := qs.map fun q => (some (base + q.1), true, q.2)

/-- Where memory holds what was put, reading the row gives the codes. -/
theorem codesAt_putsOf {base : Nat} {qs : List (Nat × Nat)} (hlen : cs.length = (qs.map Prod.snd).sum) (hfit : codesFit fmt cs)
    (hput : ∀ x ∈ putsOf fmt (plainPieces base qs) cs, u.load x.1 x.2.length = x.2) :
    (qs.flatMap fun q => u.codesAt (base + q.1) fmt q.2) = cs := by
  induction qs generalizing cs with
  | nil => exact (List.length_eq_zero_iff.mp hlen).symm
  | cons q qs ih =>
    rw [List.map_cons, List.sum_cons] at hlen
    have htake : (cs.take q.2).length = q.2 := List.length_take_of_le (by omega)
    have hhead := hput (base + q.1, packCodes fmt (cs.take q.2)) List.mem_cons_self
    have hrest := ih (cs := cs.drop q.2) (by rw [List.length_drop]; omega) (hfit.drop _) fun x hx => hput x (List.mem_cons_of_mem _ hx)
    rw [packCodes_length, htake] at hhead
    have hcodes := unpackCodes_packCodes (hfit.take q.2)
    rw [htake] at hcodes
    rw [List.flatMap_cons, hrest, State.codesAt, hhead, hcodes, List.take_append_drop]

/-! ## Rows of LINEAR and BLK128 tensors -/

theorem TRef.pieces_plain (h : t.pt = none) (s : State) (r : Nat) : t.pieces s r = plainPieces t.base (t.d.pieces r) := by
  rw [TRef.pieces, h]
  rfl

theorem TRef.row_plain (h : t.pt = none) (s : State) (r : Nat) :
    t.row s r = (t.d.pieces r).flatMap fun q => s.codesAt (t.base + q.1) t.d.fmt q.2 := by
  rw [TRef.row, TRef.pieces_plain h, plainPieces, List.flatMap_map]

/-- The blocks of a BLK128 row hold its elements. -/
theorem sum_blocks (e n : Nat) : ((List.range n).map fun b => min 128 (e - 128 * b)).sum = min (128 * n) e := by
  induction n with
  | zero => simp
  | succ n ih =>
    rw [List.range_succ, List.map_append, List.sum_append, ih, List.map_singleton, List.sum_singleton]
    omega

theorem Desc.pieces_sum (d : Desc) (r : Nat) : ((d.pieces r).map Prod.snd).sum = d.e0 := by
  unfold Desc.pieces
  split
  · rw [List.map_map]
    exact (sum_blocks d.e0 _).trans (by omega)
  · simp

theorem plainPieces_sum (base : Nat) (qs : List (Nat × Nat)) : ((plainPieces base qs).map fun p => p.2.2).sum = (qs.map Prod.snd).sum := by
  rw [plainPieces, List.map_map]
  rfl

theorem TRef.row_length (h : t.pt = none) (s : State) (r : Nat) : (t.row s r).length = t.d.e0 := by
  rw [TRef.row_plain h, List.length_flatMap, ← t.d.pieces_sum r]
  simp only [State.codesAt_length]

theorem TRef.row_fit (h : t.pt = none) (s : State) (r : Nat) : codesFit t.d.fmt (t.row s r) := by
  intro c hc
  rw [TRef.row_plain h] at hc
  obtain ⟨q, -, hc⟩ := List.mem_flatMap.mp hc
  exact s.codesAt_fit _ _ _ c hc

/-! ## All rows -/

theorem TRef.allPuts_within {g : Nat → List Nat} {x : Nat × List Byte} (h : x ∈ t.allPuts s g) :
    ∃ y ∈ t.writeSpans s, y.1 = x.1 ∧ x.2.length ≤ y.2 := by
  obtain ⟨r, hr, hx⟩ := List.mem_flatMap.mp h
  obtain ⟨y, hy, hkey, hlen⟩ := putsOf_within hx
  refine ⟨y, ?_, hkey, hlen⟩
  rw [TRef.writeSpans_eq]
  exact List.mem_flatMap.mpr ⟨r, hr, hy⟩

theorem TRef.allPuts_spans (h : t.pt = none) {g : Nat → List Nat} (hg : ∀ r < t.d.rows, (g r).length = t.d.e0) :
    (t.allPuts s g).map putSpan = t.writeSpans s := by
  rw [TRef.writeSpans_eq, TRef.allPuts, List.map_flatMap]
  refine List.flatMap_congr fun r hr => putsOf_spans ?_
  rw [TRef.pieces_plain h, plainPieces_sum, Desc.pieces_sum, hg r (List.mem_range.mp hr)]

theorem TRef.pieces_congr (h : u.mem = s.mem) (t : TRef) (r : Nat) : t.pieces u r = t.pieces s r := by
  have hentry : pageEntry u = pageEntry s := by
    funext pt i3 i1
    simp only [pageEntry, State.loadNat, State.load, State.loadByte, h]
  rw [TRef.pieces, hentry, TRef.pieces]

theorem TRef.writeSpans_congr (h : u.mem = s.mem) (t : TRef) : t.writeSpans u = t.writeSpans s := by
  simp only [TRef.writeSpans_eq, TRef.pieces_congr h]

/-! ## What memory holds once all of it is stored -/

variable {W : List (Nat × List Byte)} {b : Byte}

theorem spansMeet_eq_false {x y : Nat × Nat} : spansMeet x y = false ↔ y.1 + y.2 ≤ x.1 ∨ x.1 + x.2 ≤ y.1 := by
  rw [spansMeet, Bool.and_eq_false_iff, decide_eq_false_iff_not, decide_eq_false_iff_not, Nat.not_lt, Nat.not_lt]

theorem putFx_byteAt_none {x : Nat × List Byte} (h : ¬ ((putSpan x).1 ≤ k ∧ k < (putSpan x).1 + (putSpan x).2)) :
    (putFx x).byteAt k = none := byteAt_store_none h

theorem putFx_byteAt {x : Nat × List Byte} {i : Nat} (hi : i < x.2.length) : (putFx x).byteAt (x.1 + i) = some x.2[i] :=
  byteAt_store_iff.mpr ⟨by omega, by rw [Nat.add_sub_cancel_left, List.getElem?_eq_getElem hi]⟩

theorem lastByte_puts_outside (h : ∀ x ∈ W, ¬ (x.1 ≤ k ∧ k < x.1 + x.2.length)) : lastByte k (W.map putFx) b = b :=
  lastByte_none fun y hy => by
    obtain ⟨x, hx, rfl⟩ := List.mem_map.mp hy
    exact putFx_byteAt_none (h x hx)

theorem lastByte_puts_zero (hzero : ∀ x ∈ W, ∀ c ∈ x.2, c = 0) {y : Nat × Nat} (hy : y ∈ W.map putSpan) (hlo : y.1 ≤ k)
    (hhi : k < y.1 + y.2) : lastByte k (W.map putFx) b = 0 := by
  obtain ⟨x, hx, rfl⟩ := List.mem_map.mp hy
  have hvalue : ∀ z ∈ W, ∀ c, (putFx z).byteAt k = some c → c = 0 := fun z hz c hc =>
    hzero z hz c (List.mem_of_getElem? (byteAt_store_iff.mp hc).2)
  refine lastByte_const (v := 0) (fun z hz => ?_) (.inr ⟨putFx x, List.mem_map_of_mem hx, ?_⟩)
  · obtain ⟨w, hw, rfl⟩ := List.mem_map.mp hz
    refine (Option.eq_none_or_eq_some _).imp_right fun ⟨c, hc⟩ => ?_
    rw [hc, hvalue w hw c hc]
  · change x.1 ≤ k at hlo
    change k < x.1 + x.2.length at hhi
    have hbyte := putFx_byteAt (x := x) (i := k - x.1) (by omega)
    rw [Nat.add_sub_cancel' hlo] at hbyte
    rw [hbyte, hvalue x hx _ hbyte]

/-- Where no two of the spans meet, each holds what was put there. -/
theorem lastByte_puts_disjoint (hdis : (W.map putSpan).Pairwise fun x y => spansMeet x y = false) {x : Nat × List Byte} (hx : x ∈ W)
    {i : Nat} (hi : i < x.2.length) : lastByte (x.1 + i) (W.map putFx) b = x.2[i] := by
  have hsymm : Std.Symm fun x y : Nat × List Byte => spansMeet (putSpan x) (putSpan y) = false :=
    ⟨fun x y h => spansMeet_eq_false.mpr (spansMeet_eq_false.mp h).symm⟩
  refine lastByte_const (fun y hy => ?_) (.inr ⟨putFx x, List.mem_map_of_mem hx, putFx_byteAt hi⟩)
  obtain ⟨w, hw, rfl⟩ := List.mem_map.mp hy
  by_cases hxw : x = w
  · exact .inr (hxw ▸ putFx_byteAt hi)
  · have hapart := spansMeet_eq_false.mp ((List.pairwise_map.mp hdis).forall hx hw hxw)
    refine .inl (putFx_byteAt_none ?_)
    simp only [putSpan] at hapart ⊢
    omega

end

end Sys2Proof.Machine

namespace Sys2Proof.Machine

/-! # Moves and clears issue and complete with nothing else in flight (R112, R131, R157) -/

section
variable {s t u : State} {f : Nat}

/-! ## The effects of a move -/

/-- What a move computes: rows of codes for its destination. -/
def moveTOut (dst : TRef) (g : Nat → List Nat) (counted : Nat) : TOut :=
  ⟨some dst, (List.range dst.d.rows).map fun r => (r, g r), [], counted, [], (0, 0)⟩

theorem numbered_range (n : Nat) (g : Nat → List Nat) : numbered ((List.range n).map g) = (List.range n).map fun r => (r, g r) := by
  refine List.ext_getElem (by simp [numbered]) fun i h1 h2 => ?_
  simp [numbered]

/-- A move whose source and destination overlap writes rows of as many codes, of free value (R158). -/
theorem moveTOut_freed (dst : TRef) (g : Nat → List Nat) (n : Nat) :
    ∃ g' counted, (moveTOut dst g 0).freed n = moveTOut dst g' counted := by
  refine ⟨fun r => (g r).zipIdx.map fun p => freeCode dst.d.fmt (n + 4 * (r * dst.d.e0 + p.2)),
    Config.freeCount n % (dst.d.count + 1), ?_⟩
  simp [moveTOut, TOut.freed]

theorem TRef.pageMark_kvRow (j : Nat) (d : TRef) (r : Nat) {x : Fx} (h : x ∈ d.pageMark s j r) : ∃ b p q, x = .kvRow j b p q := by
  unfold TRef.pageMark at h
  split at h
  · cases h
  · dsimp only at h
    split at h
    · cases h
    · exact ⟨_, _, _, List.mem_singleton.mp h⟩

/-- The stores of its rows, and effects that memory does not show. -/
theorem State.fxOf_move (hst : s.statusWords (s.face f).job = []) {dd : Nat} (hdd : dd < 64) (dst : TRef) (g : Nat → List Nat)
    (counted : Nat) : ∃ l, s.fxOf f dd (moveTOut dst g counted) = (dst.allPuts s g).map putFx ++ l ∧
      ∀ x ∈ l, x.ofMove f = true ∧ ∀ k, x.byteAt k = none := by
  have hsplit : splitGate s (s.face f).job = fun x => [x] := funext (splitGate_eq hst)
  unfold State.fxOf
  extract_lets st drops all marks
  have hall : all.flatMap (splitGate s (s.face f).job) = (dst.allPuts s g).map putFx := by
    simp only [hsplit, List.flatMap_singleton', all, st, moveTOut, List.append_nil, List.flatMap_nil, List.flatMap_map, List.map_map,
      TRef.allPuts, List.map_flatMap, Function.comp_def, TRef.storeRow_fst]
  have hmarks : ∀ x ∈ marks, ∃ j b p q, x = .kvRow j b p q := fun x hx => by
    simp only [marks, moveTOut, List.flatMap_nil, List.append_nil] at hx
    obtain ⟨r, -, hx⟩ := List.mem_flatMap.mp hx
    obtain ⟨b, p, q, rfl⟩ := TRef.pageMark_kvRow _ _ _ hx
    exact ⟨_, b, p, q, rfl⟩
  rw [hall]
  clear_value marks drops
  rw [List.append_assoc, List.append_assoc]
  refine ⟨_, rfl, fun x hx => ?_⟩
  rcases List.mem_append.mp hx with hx | hx
  · obtain ⟨j, b, p, q, rfl⟩ := hmarks x hx
    exact ⟨rfl, fun _ => rfl⟩
  rcases List.mem_append.mp hx with hx | hx
  · split at hx
    · cases hx
    · obtain rfl := List.mem_singleton.mp hx
      exact ⟨beq_self_eq_true _, fun _ => rfl⟩
  · obtain ⟨p, hp, hsome⟩ := List.mem_filterMap.mp hx
    obtain rfl : p = (dd, counted) := List.mem_singleton.mp hp
    split at hsome
    · cases hsome
    · cases hsome
      exact ⟨by simp [Fx.ofMove, hdd], fun _ => rfl⟩

/-- The effects of a move, in its pieces: all that memory shows of them are the stores of the rows. -/
theorem State.moverFx (hst : s.statusWords (s.face f).job = []) {dd : Nat} (hdd : dd < 64) (dst : TRef) (g : Nat → List Nat)
    (counted : Nat) : let fx := (s.fxOf f dd (moveTOut dst g counted)).flatMap (Fx.pieces 4096)
      (∀ x ∈ fx, x.ofMove f = true) ∧ ∀ k b, lastByte k fx b = lastByte k ((dst.allPuts s g).map putFx) b := by
  intro fx
  obtain ⟨l, heq, hl⟩ := s.fxOf_move hst hdd dst g counted
  have hof : ∀ x ∈ s.fxOf f dd (moveTOut dst g counted), x.ofMove f = true := fun x hx => by
    rw [heq] at hx
    rcases List.mem_append.mp hx with hx | hx
    · obtain ⟨y, -, rfl⟩ := List.mem_map.mp hx
      rfl
    · exact (hl x hx).1
  refine ⟨fun x hx => ?_, fun k b => ?_⟩
  · obtain ⟨y, hy, hx⟩ := List.mem_flatMap.mp hx
    exact pieces_ofMove (hof y hy) hx
  · rw [lastByte_flatMap_pieces hof, heq, lastByte_append]
    exact lastByte_none fun x hx => (hl x hx).2 k

/-! ## Entering an empty window -/

/-- What folding digests and using descriptors keep: the instructions in flight, and all that `issueOnly` names. -/
structure EntryKept (f : Nat) (s t : State) : Prop where
  only : issueOnly s t
  entries : t.jobEntries f = s.jobEntries f
  window : (t.face f).window = (s.face f).window
  seq : (t.face f).seq = (s.face f).seq

theorem EntryKept.refl (f : Nat) (s : State) : EntryKept f s s := ⟨⟨_, _, _, rfl⟩, rfl, rfl, rfl⟩

theorem EntryKept.trans (h : EntryKept f s t) (h' : EntryKept f t u) : EntryKept f s u :=
  ⟨h.only.trans h'.only, h'.entries.trans h.entries, h'.window.trans h.window, h'.seq.trans h.seq⟩

theorem EntryKept.setFace (s : State) {x : FaceSt} (hrun : x.running = (s.face f).running) (hjob : x.job = (s.face f).job)
    (hwin : x.window = (s.face f).window) (hseq : x.seq = (s.face f).seq) : EntryKept f s (s.setFace f x) where
  only := ⟨_, _, _, rfl⟩
  entries := State.jobEntries_setFace hrun hjob hwin
  window := by rw [State.face_setFace, if_pos rfl, hwin]
  seq := by rw [State.face_setFace, if_pos rfl, hseq]

theorem State.foldOut_entryKept (s : State) (f dd : Nat) (o : TOut) (folds : List (Nat × Nat)) : EntryKept f s (s.foldOut f dd o folds) := by
  refine State.each_rel (EntryKept.refl f) EntryKept.trans _ (fun t w _ => ?_) s
  unfold State.foldMask
  split
  · exact EntryKept.refl f t
  · exact EntryKept.setFace t rfl rfl rfl rfl

theorem State.useDescs_entryKept (s : State) (f : Nat) (l : List (Nat × Bool)) : EntryKept f s (s.useDescs f l) := by
  obtain ⟨d, refs, bs, h⟩ := s.useDescs_eq f l
  have hface : EntryKept f s (s.setFace f { s.face f with
      d := d
      refs := refs }) := EntryKept.setFace s rfl rfl rfl rfl
  rw [h]
  exact hface.trans ⟨⟨_, _, _, rfl⟩, rfl, rfl, rfl⟩

/-- The effects an instruction enters the window with. -/
def State.enteringFx (s : State) (f : Nat) (e : Entering) (o : TOut) : List Fx :=
  if e.unit == .mover then (s.fxOf f e.dd o).flatMap (Fx.pieces 4096) else s.fxOf f e.dd o

/-- Where nothing was in flight, a deterministic instruction is then the one instruction in flight. -/
theorem State.enterTensor_only {f : Fin 6} (hq : quiet s f) (hw : (s.face f).window = []) {e : Entering} (hn : e.isN = false) (h : Hdr)
    (reads : List (Nat × Nat)) (free : Nat) (o : TOut) :
    ∃ x, Alone f (s.face f).seq (s.enteringFx f e o) x (s.enterTensor f h e reads free o) ∧
      issueOnly s (s.enterTensor f h e reads free o) ∧ x.macUsed = o.mac.1 ∧ x.macBad = o.mac.2 := by
  unfold State.enterTensor
  extract_lets fs fx folds uses tiers bufs now redo s1
  have hs1 : EntryKept f s s1 := by
    have hfree : EntryKept f s { s with fresh := s.fresh + free } := ⟨⟨_, _, _, rfl⟩, rfl, rfl, rfl⟩
    simp only [s1]
    split
    · exact hfree.trans (State.foldOut_entryKept ..)
    · exact hfree
  have hmark : s1.ndetMark f e.isN = s1 := by rw [hn]; rfl
  rw [hmark]
  have hkept := hs1.trans (s1.useDescs_entryKept f uses)
  have halone := State.enter_alone (hkept.entries.trans hq) (hkept.window.trans hw) h { Entry.of e.unit with
    tiers := tiers, reads := reads, writes := fxSpans fx, fx := fx, folds := folds.foldl (fun m p => m ||| p.2) 0, bufs := bufs,
    order := e.order, scratch := e.scratch, redo := if now then none else some redo, macUsed := o.mac.1, macBad := o.mac.2 } rfl rfl
  rw [hkept.seq] at halone
  exact ⟨_, halone, hkept.only.trans (State.enter_issueOnly (hkept.entries.trans hq) (hkept.window.trans hw) h _), rfl, rfl⟩

theorem State.beginIssue_moveRef (s : State) (f n w : Nat) : (s.beginIssue f).moveRef f n w = s.moveRef f n w := by
  simp only [State.moveRef, State.faceOf, State.fld, State.beginIssue_vfNamed, State.trefAt, State.beginIssue_desc, State.beginIssue_findBuf,
    State.beginIssue_job, State.beginIssue_vf, State.beginIssue_rd]

/-- Issue of such an instruction; it computes from the state in which it issues. -/
theorem issueTensor_only {f : Fin 6} {h : Hdr} (hi : canIssue s f h = true) (hq : quiet s f) (hw : (s.face f).window = [])
    {e : Entering} (hn : e.isN = false) {chk : Chk} (hchk : chk = .pass) (reads : State → List (Nat × Nat)) (free : State → Nat)
    (compute : State → TOut) (front : State → State) :
    ∃ x t, issueTensor s f h e chk reads free compute front = .next (front t) ∧
      Alone f (s.face f).seq ((s.beginIssue f).enteringFx f e (compute (s.beginIssue f))) x t ∧ issueOnly s t ∧
      x.macUsed = (compute (s.beginIssue f)).mac.1 ∧ x.macBad = (compute (s.beginIssue f)).mac.2 := by
  have hunit : unitFree (s.face f) e.unit = true := by simp [unitFree, hw]
  have hall : chk.and ((ndetChk s f e.isN).and (if unitFree (s.face f) e.unit then .pass else .hold)) = .pass := by
    rw [Chk.and_eq_pass, Chk.and_eq_pass, hn]
    exact ⟨hchk, rfl, if_pos hunit⟩
  have hquiet : quiet (s.beginIssue f) f := State.beginIssue_quiet hq
  obtain ⟨x, halone, honly, hmacs⟩ := State.enterTensor_only hquiet (by rw [State.beginIssue_window, hw]) hn h (reads (s.beginIssue f))
    (free (s.beginIssue f)) (compute (s.beginIssue f))
  rw [State.beginIssue_seq] at halone
  refine ⟨x, _, ?_, halone, (s.beginIssue_issueOnly f).trans honly, hmacs⟩
  rw [issueTensor, issue_pass hi hall]
  dsimp only
  rw [State.raceView_quiet hquiet]

/-- The one instruction in flight can complete where no transfer of it is open. -/
theorem Alone.completable {seq : Nat} {fx : List Fx} {x : Entry} (h : Alone f seq fx x t) (hused : x.macUsed = 0) (hbad : x.macBad = 0)
    (hxfer : t.xferOf f seq = none) (hgate : ∀ a b c d g, Fx.gate a b c d g ∉ fx) : Completable t f x where
  found := by rw [h.window, List.find?_singleton, if_pos (beq_self_eq_true _)]
  started := h.started
  acq := h.acq
  remote := h.remote
  macBad := hbad
  macUsed := hused
  xfer := h.seq ▸ hxfer
  gate := h.fx ▸ hgate

theorem State.badRead_clean (h : s.bad = []) (e : Entry) : s.badRead e = none :=
  List.findSome?_eq_none_iff.mpr fun y _ => by simp [State.firstBad, h]

theorem Alone.leaves {seq : Nat} {fx : List Fx} {x : Entry} (h : Alone f seq fx x t) :
    ((t.face f).window.filter fun y => y.seq != x.seq) = [] := by
  rw [h.window, List.filter_singleton, bne_self_eq_false]
  rfl

/-- An instruction with header `h` can issue on Face `f` with nothing in flight, no word of memory has an error, and nothing else
comes between its issue and its completion. -/
structure IssuesAlone (f : Fin 6) (h : Hdr) (s : State) : Prop where
  issues : canIssue s f h = true
  entries : quiet s f
  window : (s.face f).window = []
  accounting : s.acctFull = false
  status : s.statusWords (s.face f).job = []
  transfer : s.xferOf f (s.face f).seq = none
  clean : s.bad = []

theorem IssuesAlone.begun {f : Fin 6} {h : Hdr} (hs : IssuesAlone f h s) :
    (s.beginIssue f).statusWords ((s.beginIssue f).face f).job = [] := by
  rw [State.beginIssue_job, State.statusWords_congr (s.beginIssue_jobs f) (s.beginIssue_bufs f), hs.status]

theorem IssuesAlone.issued {f : Fin 6} {h : Hdr} (hs : IssuesAlone f h s) (ht : issueOnly s t) :
    t.bad = [] ∧ t.xferOf f (s.face f).seq = none ∧ t.acctFull = false ∧ t.mem = s.mem := by
  obtain ⟨_, _, _, rfl⟩ := ht
  exact ⟨hs.clean, hs.transfer, hs.accounting, rfl⟩

/-! ## Moves (R131) -/

/-- A move that stays within the vFace and the device issues and completes: its rows are stored. -/
theorem moveOut_moves {f : Fin 6} {h : Hdr} {o : FmtM} {ins : Instr} {chk : Chk} (hs : IssuesAlone f h s) (hchk : chk = .pass)
    (hremote : moveRemote s f o.dd.toNat o.dvf.toNat = none) {remote : State → State} (hown : ∀ t, remote t = t)
    (uses : List (Nat × Bool)) (reads : State → List (Nat × Nat)) (free : Nat) {compute : State → TOut} {dst : TRef}
    {g : Nat → List Nat} {counted : Nat} (hcomp : compute (s.beginIssue f) = moveTOut dst g counted) :
    ∃ t, moveOut s f h o ins chk uses reads free compute remote = .next t ∧ completes (.instructionComplete f (s.face f).seq) t fun u =>
      (∀ k, u.loadByte k = lastByte k ((dst.allPuts s g).map putFx) (s.loadByte k)) ∧ (u.face f).window = [] := by
  unfold moveOut
  extract_lets r
  have hr : r = none := by simp only [r, hremote, Option.map_none]
  clear_value r
  obtain ⟨x, t, hexec, halone, honly, hused, hmac⟩ := issueTensor_only hs.issues hs.entries hs.window
    (e := { ins := ins, unit := .mover, dd := o.dd.toNat, uses := uses, isN := false, order := .loose, scratch := [] }) rfl hchk reads
    (fun _ => free) compute fun t => remote (t.setFace f { t.face f with
      window := (t.face f).window.map fun e => if e.seq + 1 = (t.face f).seq then { e with remote := r } else e })
  refine ⟨_, hexec, ?_⟩
  rw [hown]
  obtain ⟨hof, hbytes⟩ := State.moverFx hs.begun o.dd.isLt dst g counted
  rw [hcomp] at halone hused hmac
  obtain ⟨hbad, hxfer, hacct, hmem⟩ := hs.issued honly
  have hwin : ((t.face f).window.map fun e => if e.seq + 1 = (t.face f).seq then { e with remote := r } else e) = (t.face f).window := by
    rw [halone.window, hr, List.map_singleton, ← halone.remote]
    exact congrArg (fun y => [y]) (ite_self x)
  have hnow := halone.setFace (y := { t.face f with
    window := (t.face f).window.map fun e => if e.seq + 1 = (t.face f).seq then { e with remote := r } else e }) hwin
  have hcan := hnow.completable hused hmac hxfer fun a b c d g hin => Bool.false_ne_true (hof _ hin)
  obtain ⟨u, hdone, hload, hgone⟩ := hcan.moved (State.badRead_clean hbad x) (by rw [hnow.fx]; exact hof) hacct
  rw [hnow.seq] at hdone
  refine ⟨u, hdone, fun k => ?_, hgone.trans hnow.leaves⟩
  have hputs : dst.allPuts (s.beginIssue f) g = dst.allPuts s g := by
    simp only [TRef.allPuts, TRef.puts, TRef.pieces_congr (s.beginIssue_mem f)]
  have hlast := hbytes k (s.loadByte k)
  rw [hputs] at hlast
  rw [hload, hnow.fx, State.setFace_loadByte, State.loadByte, hmem, ← State.loadByte]
  exact hlast

end

end Sys2Proof.Machine

namespace Sys2Proof.Machine

/-! # Results of moves and clears (R107, R131, R149, R157) -/

section
variable {s t u : State} {f : Nat}

/-! ## The tensors of a move -/

theorem State.moveRef_d (s : State) (f n w : Nat) : (s.moveRef f n w).d = s.desc f n := by
  unfold State.moveRef State.trefAt
  dsimp only
  split
  · rfl
  · split <;> rfl

theorem State.moveRef_idx (s : State) (f n w : Nat) : (s.moveRef f n w).idx = n := by
  unfold State.moveRef State.trefAt
  dsimp only
  split
  · rfl
  · split <;> rfl

theorem State.moveRef_pt {n w : Nat} (h : (s.desc f n).layout ≠ 2) : (s.moveRef f n w).pt = none := by
  unfold State.moveRef State.trefAt
  dsimp only
  split
  · rfl
  · rw [if_neg h]

theorem State.putXfer_own {n w : Nat} (h : s.descRemote f n = false) (t : State) : s.putXfer f (s.moveRef f n w) t = t := by
  rw [State.putXfer, State.moveRef_idx, h]
  rfl

/-! ## What the stores of a move leave -/

theorem State.load_of_bytes {k : Nat} {bs : List Byte} (h : ∀ i (hi : i < bs.length), s.loadByte (k + i) = bs[i]) :
    s.load k bs.length = bs :=
  List.ext_getElem (s.load_length _ _) fun i _ h2 => by
    simp only [State.load, List.getElem_map, List.getElem_range]
    exact h i h2

variable {dst : TRef} {g : Nat → List Nat}

/-- Bytes outside the destination are as before. -/
theorem moved_frame (h : ∀ k, u.loadByte k = lastByte k ((dst.allPuts s g).map putFx) (s.loadByte k)) :
    sameMemBut (dst.writeSpans s) s u := fun k hk => by
  rw [h]
  refine lastByte_puts_outside fun x hx hin => ?_
  obtain ⟨y, hy, hkey, hlen⟩ := TRef.allPuts_within hx
  exact hk y hy ⟨by omega, by omega⟩

/-- Zero codes are zeros in every byte of the destination. -/
theorem moved_zeros (h : ∀ k, u.loadByte k = lastByte k ((dst.allPuts s fun _ => List.replicate dst.d.e0 0).map putFx) (s.loadByte k))
    (hpt : dst.pt = none) {x : Nat × Nat} (hx : x ∈ dst.writeSpans s) {k : Nat} (hlo : x.1 ≤ k) (hhi : k < x.1 + x.2) :
    u.loadByte k = 0 := by
  rw [← TRef.allPuts_spans hpt (g := fun _ => List.replicate dst.d.e0 0) fun _ _ => List.length_replicate] at hx
  rw [h]
  refine lastByte_puts_zero (fun y hy => ?_) hx hlo hhi
  obtain ⟨r, -, hy⟩ := List.mem_flatMap.mp hy
  exact putsOf_zeros hy

/-- Where the destination's rows do not meet, each holds the codes that were stored in it. -/
theorem moved_rows (h : ∀ k, u.loadByte k = lastByte k ((dst.allPuts s g).map putFx) (s.loadByte k)) (hpt : dst.pt = none)
    (hlen : ∀ r < dst.d.rows, (g r).length = dst.d.e0) (hfit : ∀ r < dst.d.rows, codesFit dst.d.fmt (g r))
    (hdis : (dst.writeSpans s).Pairwise fun x y => spansMeet x y = false) {r : Nat} (hr : r < dst.d.rows) : dst.row u r = g r := by
  rw [← TRef.allPuts_spans hpt hlen] at hdis
  rw [TRef.row_plain hpt]
  refine codesAt_putsOf (by rw [Desc.pieces_sum, hlen r hr]) (hfit r hr) fun x hx => ?_
  have hmem : x ∈ dst.allPuts s g := List.mem_flatMap.mpr ⟨r, List.mem_range.mpr hr, by
    rw [TRef.puts, TRef.pieces_plain hpt]
    exact hx⟩
  refine State.load_of_bytes fun i hi => ?_
  rw [h]
  exact lastByte_puts_disjoint hdis hmem hi

end

section
variable {s : State} {f : Fin 6} {h : Hdr}

/-! ## MOVZ -/

theorem movzChk_layout {o : FmtM} (hchk : movzChk s f o = .pass) : (s.desc f o.dd.toNat).layout ≠ 2 := by
  have hdesc := Chk.all_eq_pass.mp hchk _ (List.mem_cons_of_mem _ List.mem_cons_self)
  exact bne_iff_ne.mp (checkDesc_pass hdesc).2

theorem movz_takesEffect {o : FmtM} (hs : IssuesAlone f h s)
    (hown : s.descRemote f o.dd.toNat = false) (hremote : moveRemote s f o.dd.toNat o.dvf.toNat = none) (hchk : movzChk s f o = .pass) :
    issuesAndCompletes (.movz f h o) f s fun t =>
      (∀ x ∈ (s.moveRef f o.dd.toNat o.dvf.toNat).writeSpans s, ∀ k, x.1 ≤ k → k < x.1 + x.2 → t.loadByte k = 0) ∧
      sameMemBut ((s.moveRef f o.dd.toNat o.dvf.toNat).writeSpans s) s t ∧ (t.face f).window = [] := by
  have hcomp : (⟨some ((s.beginIssue f).moveRef f o.dd.toNat o.dvf.toNat), numbered (List.replicate (s.desc f o.dd.toNat).rows
      (List.replicate (s.desc f o.dd.toNat).e0 0)), [], 0, [], (0, 0)⟩ : TOut) =
      moveTOut (s.moveRef f o.dd.toNat o.dvf.toNat) (fun _ => List.replicate (s.moveRef f o.dd.toNat o.dvf.toNat).d.e0 0) 0 := by
    rw [State.beginIssue_moveRef, moveTOut, State.moveRef_d, ← numbered_range, List.map_const', List.length_range]
  obtain ⟨t, hexec, u, hdone, hbytes, hgone⟩ := moveOut_moves (h := h) (ins := .movz f h o) hs hchk hremote
    (fun t => State.putXfer_own hown t) [(o.dd.toNat, true)] (fun _ => []) 0
    (compute := fun v => ⟨some (v.moveRef f o.dd.toNat o.dvf.toNat),
      numbered (List.replicate (s.desc f o.dd.toNat).rows (List.replicate (s.desc f o.dd.toNat).e0 0)), [], 0, [], (0, 0)⟩) hcomp
  exact ⟨t, hexec, u, hdone, fun x hx k hlo hhi => moved_zeros hbytes (State.moveRef_pt (movzChk_layout hchk)) hx hlo hhi,
    moved_frame hbytes, hgone⟩

/-! ## MOV -/

theorem movChk_pass {o : FmtM} (hchk : movChk s f o = .pass) :
    (s.desc f o.dd.toNat).fmt = (s.desc f o.ds.toNat).fmt ∧ (s.desc f o.dd.toNat).sameExt (s.desc f o.ds.toNat) = true := by
  simp only [movChk, Chk.all_eq_pass, List.forall_mem_cons, Chk.need_eq_pass, Bool.and_eq_true, beq_iff_eq] at hchk
  obtain ⟨-, -, -, hsame, -⟩ := hchk
  exact hsame

theorem Desc.sameExt_iff {a b : Desc} : a.sameExt b = true ↔ a.e0 = b.e0 ∧ a.e1 = b.e1 ∧ a.e2 = b.e2 ∧ a.e3 = b.e3 := by
  simp only [Desc.sameExt, Bool.and_eq_true, beq_iff_eq, and_assoc]

/-- What MOV computes: the rows of its source, or rows of free codes where the two overlap (R131, R158). -/
theorem mov_computes (s : State) (f : Fin 6) (o : FmtM) (hit : Bool) : ∃ g counted,
    (let rows := ((s.beginIssue f).moveRef f o.ds.toNat o.svf.toNat).rowsOf (s.beginIssue f)
     let dst := (s.beginIssue f).moveRef f o.dd.toNat o.dvf.toNat
     let t : TOut := ⟨some dst, numbered ((List.range (s.desc f o.dd.toNat).rows).map fun r => rows.getD r []), [], 0, [], (0, 0)⟩
     if hit then t.freed (s.beginIssue f).fresh else t) = moveTOut (s.moveRef f o.dd.toNat o.dvf.toNat) g counted ∧
    (hit = false → ∀ r < (s.moveRef f o.ds.toNat o.svf.toNat).d.rows, g r = (s.moveRef f o.ds.toNat o.svf.toNat).row s r) := by
  dsimp only
  rw [State.beginIssue_moveRef, State.beginIssue_moveRef, numbered_range, ← State.moveRef_d s f o.dd.toNat o.dvf.toNat]
  generalize s.moveRef f o.dd.toNat o.dvf.toNat = dst
  generalize s.moveRef f o.ds.toNat o.svf.toNat = src
  cases hit with
  | true =>
    obtain ⟨g, counted, heq⟩ := moveTOut_freed dst (fun r => (src.rowsOf (s.beginIssue f)).getD r []) (s.beginIssue f).fresh
    exact ⟨g, counted, heq, fun h => absurd h.symm Bool.false_ne_true⟩
  | false =>
    refine ⟨_, 0, rfl, fun _ r hr => ?_⟩
    rw [List.getD_eq_getElem?_getD, TRef.rowsOf, List.getElem?_map, List.getElem?_range hr, Option.map_some, Option.getD_some]
    exact TRef.row_congr (s.beginIssue_mem f) src r

theorem mov_takesEffect {o : FmtM} (hs : IssuesAlone f h s)
    (hown : s.descRemote f o.dd.toNat = false) (hremote : moveRemote s f o.dd.toNat o.dvf.toNat = none) (hchk : movChk s f o = .pass)
    (hget : s.descRemote f o.ds.toNat = false) :
    let dst := s.moveRef f o.dd.toNat o.dvf.toNat
    let src := s.moveRef f o.ds.toNat o.svf.toNat
    issuesAndCompletes (.mov f h o) f s fun t =>
      (dst.d.layout ≠ 2 → src.d.layout ≠ 2 → anyMeet (dst.spans s) (src.spans s) = false →
        (dst.writeSpans s).Pairwise (fun x y => spansMeet x y = false) → ∀ r < dst.d.rows, dst.row t r = src.row s r) ∧
      sameMemBut (dst.writeSpans s) s t ∧ (t.face f).window = [] := by
  intro dst src
  obtain ⟨g, counted, hcomp, hrows⟩ := mov_computes s f o (anyMeet (dst.spans s) (src.spans s))
  have hissue : ∃ t, execMov f h o s = .next t ∧ completes (.instructionComplete f (s.face f).seq) t fun u =>
      (∀ k, u.loadByte k = lastByte k ((dst.allPuts s g).map putFx) (s.loadByte k)) ∧ (u.face f).window = [] := by
    unfold execMov
    extract_lets d hit get chk uses
    rw [if_neg (by rw [show get = false from hget]; exact Bool.false_ne_true)]
    exact moveOut_moves hs hchk hremote (fun t => State.putXfer_own hown t) _ _ _ hcomp
  obtain ⟨t, hexec, u, hdone, hbytes, hgone⟩ := hissue
  refine ⟨t, hexec, u, hdone, fun hdl hsl hapart hdis r hr => ?_, moved_frame hbytes, hgone⟩
  obtain ⟨hfmt, hext⟩ := movChk_pass hchk
  obtain ⟨h0, h1, h2, h3⟩ := Desc.sameExt_iff.mp hext
  have hdd : dst.d = s.desc f o.dd.toNat := State.moveRef_d ..
  have hsd : src.d = s.desc f o.ds.toNat := State.moveRef_d ..
  have hcount : dst.d.rows = src.d.rows := by rw [hdd, hsd, Desc.rows, Desc.rows, h1, h2, h3]
  have hg : ∀ r < dst.d.rows, g r = src.row s r := fun r hr => hrows hapart r (hr.trans_eq hcount)
  have hsrc : src.pt = none := State.moveRef_pt (hsd ▸ hsl)
  rw [moved_rows hbytes (State.moveRef_pt (hdd ▸ hdl)) (fun r hr => ?_) (fun r hr => ?_) hdis hr, hg r hr]
  · rw [hg r hr, TRef.row_length hsrc, hsd, hdd, h0]
  · rw [hg r hr, hdd, hfmt, ← hsd]
    exact TRef.row_fit hsrc s r

/-! ## ACCZ -/

theorem State.each_accClear (s : State) (f k : Nat) :
    s.each (accClear f k) State.applyFx = (s.zero (bankKey f (4 * k)) 0x40000).zero (accFlagKey f k 0 0) 0x10000 := rfl

/-- Clearing an accumulator zeroes its keys and no other. -/
theorem State.loadByte_accClear (s : State) (f k a : Nat) : (s.each (accClear f k) State.applyFx).loadByte a =
    if ∃ x ∈ accSpans f k, x.1 ≤ a ∧ a < x.1 + x.2 then 0 else s.loadByte a := by
  rw [State.each_accClear, State.loadByte_zero, State.loadByte_zero]
  simp only [accSpans, List.mem_cons, List.not_mem_nil, or_false, exists_eq_or_imp, exists_eq_left]
  by_cases hflag : accFlagKey f k 0 0 ≤ a ∧ a < accFlagKey f k 0 0 + 0x10000
  · rw [if_pos hflag, if_pos (.inr hflag)]
  · rw [if_neg hflag]
    by_cases hbank : bankKey f (4 * k) ≤ a ∧ a < bankKey f (4 * k) + 0x40000
    · rw [if_pos hbank, if_pos (.inl hbank)]
    · rw [if_neg hbank, if_neg fun h => h.elim hbank hflag]

theorem State.loadNat_zeros {s : State} {k n : Nat} (h : ∀ i < n, s.loadByte (k + i) = 0) : s.loadNat k n = 0 := by
  have hload : s.load k n = leBytes n 0 := by
    rw [leBytes_zero]
    exact List.eq_replicate_iff.mpr ⟨s.load_length k n, fun b hb => by
      obtain ⟨i, hi, rfl⟩ := List.mem_map.mp hb
      exact h i (List.mem_range.mp hi)⟩
  rw [State.loadNat, hload, leNat_leBytes, Nat.zero_mod]

/-- An entry that stores and zeroes, and does nothing else, completes. -/
theorem Completable.written {e : Entry} (h : Completable s f e) (hread : s.badRead e = none) (hfx : ∀ x ∈ e.fx, x.plain = true)
    (hacct : s.acctFull = false) : completes (.instructionComplete f e.seq) s fun t =>
      (∀ k, t.loadByte k = (s.each e.fx State.applyFx).loadByte k) ∧ (t.face f).accInt = (s.face f).accInt := by
  have hleft := State.leaveWindow_signal (s.each e.fx State.applyFx) f e.seq e.sig
  obtain ⟨ev, hown⟩ := hleft.own
  refine ⟨_, h.exec hread, ?_⟩
  rw [State.completeEntry_plain hfx hacct]
  refine ⟨hleft.loadByte, ?_⟩
  rw [hown, memOnly.face (s.each_applyFx_memOnly hfx)]

theorem accz_takesEffect {o : FmtT} (hs : IssuesAlone f h s)
    (hchk : acczChk s f o = .pass) : issuesAndCompletes (.accz f h o) f s fun t =>
      (∀ m < 128, ∀ n < 512, t.loadNat (accKey f o.dc.toNat m n) 4 = 0) ∧ sameMemBut (accSpans f o.dc.toNat) s t ∧
      (t.face f).accIsInt o.dc.toNat = bitOf o.fn.toNat 0 := by
  have hfx : ∀ y ∈ accClear f o.dc.toNat, y.plain = true := fun y hy => by
    simp only [accClear, List.mem_cons, List.not_mem_nil, or_false] at hy
    rcases hy with rfl | rfl <;> rfl
  obtain ⟨x, t, hexec, halone, honly, hused, hmac⟩ := issueTensor_only hs.issues hs.entries hs.window
    (e := { ins := .accz f h o, unit := .tile, dd := 0, uses := [], isN := false, order := .loose, scratch := [] }) rfl hchk (fun _ => [])
    (fun _ => 0) (fun _ => acczOut f o) fun t => t.setAccType f o.dc.toNat (bitOf o.fn.toNat 0)
  have heff : (s.beginIssue f).enteringFx f
      { ins := .accz f h o, unit := .tile, dd := 0, uses := [], isN := false, order := .loose, scratch := [] } (acczOut f o) =
      accClear f o.dc.toNat := State.fxOf_ofFx hs.begun 0 (accClear f o.dc.toNat) (0, 0)
  rw [heff] at halone
  obtain ⟨hbad, hxfer, hacct, hmem⟩ := hs.issued honly
  have htype := t.setAccType_accIsInt f o.dc.toNat (bitOf o.fn.toNat 0)
  have hnow : Alone f (s.face f).seq (accClear f o.dc.toNat) x (t.setAccType f o.dc.toNat (bitOf o.fn.toNat 0)) := halone.setFace rfl
  have hcan := hnow.completable hused hmac hxfer fun a b c d g hin => Bool.false_ne_true (hfx _ hin)
  obtain ⟨u, hdone, hbytes, hacc⟩ := hcan.written (State.badRead_clean hbad x) (by rw [hnow.fx]; exact hfx) hacct
  rw [hnow.seq] at hdone
  have hread : ∀ a, u.loadByte a = if ∃ y ∈ accSpans f o.dc.toNat, y.1 ≤ a ∧ a < y.1 + y.2 then 0 else s.loadByte a := fun a => by
    rw [hbytes, hnow.fx, State.loadByte_accClear, State.setAccType, State.setFace_loadByte, State.loadByte, hmem, ← State.loadByte]
  refine ⟨_, hexec, u, hdone, fun m hm n hn => State.loadNat_zeros fun i hi => ?_, fun k hk => ?_, ?_⟩
  · refine (hread _).trans (if_pos ⟨_, List.mem_cons_self, ?_⟩)
    simp only [accKey, bankKey]
    omega
  · exact (hread k).trans (if_neg fun ⟨y, hy, hin⟩ => hk y hy hin)
  · rw [FaceSt.accIsInt, hacc, ← FaceSt.accIsInt, htype]

end

/-- Settles O59: with nothing else in flight a move's rows, and a clear's zeros, are the only bytes that change. -/
theorem movesAndClearsTakeEffect : Obligations.MovesAndClearsTakeEffect := by
  intro f h s hi hq hw hacct hst hxfer hbad
  have hs : IssuesAlone f h s := ⟨hi, hq, hw, hacct, hst, hxfer, hbad⟩
  refine ⟨fun o hown hremote => ⟨fun hchk => ?_, fun hchk hget => ?_⟩, fun o hchk => ?_⟩
  · exact movz_takesEffect hs hown hremote hchk
  · exact mov_takesEffect hs hown hremote hchk hget
  · exact accz_takesEffect hs hchk

end Sys2Proof.Machine
